-- ==== Sys2Proof/Word.lean ====
section
/-! DEFINITION. The word types of the CW-LS5216, and the sparse table in which every memory and every numbered set of
units is held. -/

namespace Sys2Proof

/-- A byte (R6: the byte at the lowest address holds bits [7:0]). -/
abbrev Byte := BitVec 8

/-- A 32-bit word: an FP32 encoding, a bell count, a half of a register. -/
abbrev W32 := BitVec 32

/-- A 64-bit word: a token payload, a bell message between devices, a host address. -/
abbrev W64 := BitVec 64

/-- A sparse table from a number to a value: a list of pairs whose numbers rise strictly and none of whose values is the
one an unlisted number reads as. Equal tables are therefore equal lists. -/
abbrev SMap (α : Type) := List (Nat × α)

end Sys2Proof
end

