-- ==== Sys2Proof/Syntax.lean ====
section
/-! DEFINITION. The commands of the module: one constructor of `Instr` for each row of spec/opcode_table.json, and the
plain data that commands carry in from outside (an image, a packet, a descriptor's payload, the outcome of a DMA read). -/

namespace Sys2Proof

/-- The three sequencers of a core (R65): F, B and U, whose pass codes are 0b00, 0b01 and 0b10 (R66). -/
inductive Stream
  | F | B | U
deriving DecidableEq, Repr

/-- A token (R72, Table 6 of chapter 3). -/
structure Tok where
  tag : W32 := 0
  draft : Bool := false
  group : Nat := 0
  gen : Nat := 0
  queue : Nat := 0
  kind : Nat := 0
  payload : W64 := 0
deriving DecidableEq, Repr

/-- What a read of host memory by the module came to (R357, R365, R370): bytes, an error status or poisoned data, or a
completion timeout. Host memory lies outside the block, so its bytes come in with the command. -/
inductive Dma
  | ok (bytes : List Byte)
  | error
  | timeout
deriving DecidableEq, Repr

/-- One commit group of a section table (R83). `clipQueue` is the queue named for the clip token (R271). -/
structure GroupCfg where
  expected : Nat := 0
  parents : List Nat := []
  clip : Bool := false
  remote : List Nat := []
  clipQueue : Option Nat := none
deriving DecidableEq, Repr

/-- One core's part of a section table: programs (R65), queue depths and reserves (R73, R211), output edges (R74), routes
(R189), tile context tables (R102), engine configuration (R116), inbound draft reservation (R79), shares of the groups
(R265), key-value route (R193), and the declared size, pin window and offset of its configuration (R209). -/
structure CoreCfg where
  progF : List (BitVec 128) := []
  progB : List (BitVec 128) := []
  progU : List (BitVec 128) := []
  depths : List Nat := []
  reserves : List Nat := []
  edges : SMap (BitVec 64) := []
  routes : SMap (BitVec 128) := []
  consumers : SMap (Nat × Nat) := []
  ctxF : SMap (BitVec 256) := []
  ctxB : SMap (BitVec 256) := []
  ctxU : SMap (BitVec 256) := []
  engine : BitVec 256 := 0
  draftReserve : Nat := 0
  shares : SMap Nat := []
  kvRoute : List (Nat × Nat) := []
  cfgSize : Nat := 0
  cfgWindow : Nat := 0
  cfgOffset : Nat := 0
deriving DecidableEq, Repr, Inhabited

/-- One router setting of one phase (R188): for each output port of the vector and of the scalar network the input port
that drives it. Ports are numbered N 0, S 1, E 2, W 3, L 4; an output not listed is driven by none. -/
structure RouterSetting where
  config : Nat := 0
  phase : Nat := 0
  core : Nat := 0
  vec : SMap Nat := []
  scal : SMap Nat := []
deriving DecidableEq, Repr

/-- An entry of a receiver's inbound map (R296). -/
structure InboundEntry where
  srcDev : Nat := 0
  pass : Nat := 0
  layer : Nat := 0
  core : Nat := 0
  queue : Nat := 0
deriving DecidableEq, Repr

/-- A port's flit schedules (R294): the link stream that owns each of the 256 entries, and the three-lane schedule when the
image supplies one (R290). Stream number 0 stands for the satchel reserve (R325); link streams are numbered from 1.
`epoch` is the layout epoch of the link table (R300). -/
structure PortSched where
  four : SMap Nat := []
  three : Option (SMap Nat) := none
  epoch : Nat := 0
deriving DecidableEq, Repr

/-- The type in which an escalated layer has stored a word (R42, R54, R140): its code, the layer and that layer's rung. -/
structure SType where
  /-- 4 bits; R27; type code. -/
  code : Nat := 0
  /-- 12 bits; R42; layer. -/
  layer : Nat := 0
  /-- 2 bits; R54; rung of the layer. -/
  rung : Nat := 0
deriving DecidableEq, Repr

/-- A ring of a collective as it passes a device (R297): the port and link stream by which data comes, those by which it goes on, the direction, and the
bytes of each chunk that the ring carries, from an offset on. -/
structure CollRing where
  inPort : Nat := 0
  inStream : Nat := 0
  outPort : Nat := 0
  outStream : Nat := 0
  descending : Bool := false
  first : Nat := 0
  bytes : Nat := 0
deriving DecidableEq, Repr

/-- A collective of a layer on the data axis as the link table gives it to a device (R269, R297): KIND 0 REDUCE_SCATTER, 1 ALL_GATHER, 2 ALL_REDUCE
(Table 7); the device's place among the participants, by rank, and their number; bytes of a chunk; where its own contributions and the result lie;
and the U tasks of the layer's last micro-batch on the device. -/
structure Collective where
  layer : Nat := 0
  kind : Nat := 2
  index : Nat := 0
  count : Nat := 1
  chunk : Nat := 0
  src : Nat := 0
  dest : Nat := 0
  tasks : Nat := 1
  rings : List CollRing := []
deriving DecidableEq, Repr

/-- The block that a link stream moves ahead of each token of a remote edge (R294, R296): from memory by the crossbar, or, where `cores` is not empty,
from a core's scratchpad to those cores' by the vector network; addresses are in bytes. -/
structure LinkBlock where
  port : Nat := 0
  stream : Nat := 0
  addr : Nat := 0
  step : Nat := 0
  bytes : Nat := 0
  dest : Nat := 0
  destStep : Nat := 0
  core : Nat := 0
  cores : List Nat := []
deriving DecidableEq, Repr

/-- Occurrences in which link data uses an interior port of an edge router (R206, R294): crossbar port 0 to 3, or 4 for the vector port; into the interior
or out of it; the configuration, and a mask of its phases. -/
structure LinkOcc where
  edge : Nat := 0
  port : Nat := 0
  inward : Bool := false
  config : Nat := 0
  phases : Nat := 0
deriving DecidableEq, Repr

/-- One section of an image: its section table, timetable, groups and lists. -/
structure Section where
  priority : Nat := 0
  loopStart : Nat := 0
  load : Nat := 512
  entries : List W32 := []
  phases : SMap Nat := []
  settings : List RouterSetting := []
  streams : SMap (BitVec 256) := []
  groups : SMap GroupCfg := []
  cloak : SMap (List W64) := []
  cores : SMap CoreCfg := []
  prefetch : List Nat := []
  needs : List Nat := []
  links : SMap PortSched := []
  inbound : List InboundEntry := []
  blocks : List LinkBlock := []
  colls : List Collective := []
  linkOcc : List LinkOcc := []
  step : Nat := 0
deriving DecidableEq, Repr

/-- A pin window of an image (R223). -/
structure PinWindow where
  slice : Nat := 0
  firstBay : Nat := 0
  bays : Nat := 1
  base : Nat := 0
deriving DecidableEq, Repr

/-- A streaming window of an image (R251), with its first VERSION (R252). -/
structure WindowCfg where
  firstPage : Nat := 0
  pages : Nat := 0
  layers : List Nat := []
  version : Nat := 0
deriving DecidableEq, Repr

/-- A Dalic image as its reader finds it. The manual gives no container format, so the structure of an image comes in with
JOB_LOAD as plain data, and the rules that the manual enforces on an image (R24) are checked on it. -/
structure Image where
  level : Nat := 1
  microBatches : Nat := 1
  layers : List Nat := []
  stepBell : Nat := 0
  devices : List Nat := []
  sections : List Section := []
  pins : List PinWindow := []
  state : List Nat := []
  demand : Nat := 0
  twins : SMap Nat := []
  windows : List WindowCfg := []
  tau : Option W32 := none
  clipLayers : List Nat := []
  sps : Nat := 1
  latencies : SMap Nat := []
  peers : List Nat := []
  ports : List Nat := []
  consumers : SMap (List Nat) := []
  replicaRanks : List Nat := []
  spanForms : Bool := false
deriving DecidableEq, Repr

/-- A line as an HBM controller or a backend stores it, with its 64 bits of metadata (R235, R236): 64 bytes of ciphertext, byte 0 the least
significant, and the fields of Table 5 of chapter 8. -/
structure HbmLine where
  data : BitVec 512 := 0
  tag : BitVec 32 := 0
  keyId : BitVec 5 := 0
  part : BitVec 3 := 0
  check : BitVec 24 := 0
deriving DecidableEq, Repr

/-- What an access to a stack meets there (R233): bytes of stored lines that have changed, by line of the access × 72 + symbol and the bits that
flipped; parity errors of its command, of which the first is retried; and reports of the on-die code. -/
structure HbmEvent where
  flips : SMap Byte := []
  parity : Nat := 0
  onDie : Nat := 0
deriving DecidableEq, Repr

/-- The key of a note (R313). SOURCE_KIND: 0 device, 1 light port, 2 HBM stack, 3 core site. -/
structure NoteKey where
  dev : Nat := 0
  kind : Nat := 0
  unit : Nat := 0
  cls : Nat := 0
  epoch : Nat := 0
deriving DecidableEq, Repr

/-- A fault report or absence note (R313, Table 3 of chapter 11). -/
structure Note where
  key : NoteKey := {}
  part : Nat := 0
  absent : Bool := false
  reporter : Nat := 0
  count : Nat := 0
  first : Nat := 0
  last : Nat := 0
deriving DecidableEq, Repr

/-- A norm record (R155, Table 9 of chapter 5). -/
structure NormRec where
  w : W32 := 0
  g : W32 := 0
  u : W32 := 0
  layer : Nat := 0
  frozen : Bool := false
  escalated : Bool := false
  provisional : Bool := false
deriving DecidableEq, Repr

/-- Where a sequencer stands, as the schedule record keeps it (R328). -/
structure SeqPos where
  core : Nat := 0
  seq : Stream := .F
  pc : Nat := 0
  loops : SMap Nat := []
  mb : Nat := 0
deriving DecidableEq, Repr

/-- A schedule record (R328, Table 5 of chapter 11): image digest, step number, layout epoch, behaviour level, data position, cursor of the
next step's first sample, round counter, the three keys, frozen map, bell counts, window versions, quotas and their use, sequencers (core,
stream, instruction index, loop counters, micro-batch register), fair tokens in input queues, allocations (base, length, policy, backend)
and the pages that the satchel holds. -/
structure SchedRec where
  digest : BitVec 512 := 0
  step : Nat := 0
  epoch : Nat := 0
  level : Nat := 0
  dataPos : Nat := 0
  cursor : Nat := 0
  round : Nat := 0
  roundKey : W64 := 0
  randomKey : W64 := 0
  intakeKey : W64 := 0
  frozen : BitVec 4096 := 0
  bells : SMap W32 := []
  versions : SMap Nat := []
  quota : List Nat := []
  use : List Nat := []
  seqs : List SeqPos := []
  toks : List (Nat × Tok) := []
  allocs : List (Nat × Nat × Nat × Nat) := []
  pages : List Nat := []
deriving DecidableEq, Repr

/-- What a source of a rank's state holds (R331): its schedule record, and its pages as lines of plaintext. -/
structure RestoreSrc where
  record : SchedRec := {}
  pages : SMap (SMap HbmLine) := []
deriving DecidableEq, Repr

/-- An overflow event record (R56, R450, Table 11 of chapter 2). -/
structure OvfRec where
  /-- 64 bits; Table 11 of chapter 2; step. -/
  step : Nat := 0
  /-- 12 bits; Table 11 of chapter 2; layer. -/
  layer : Nat := 0
  /-- 4 bits; Table 11 of chapter 2; cause. -/
  cause : Nat := 0
  /-- 4 bits; Table 11 of chapter 2; type before. -/
  fromType : Nat := 0
  /-- 4 bits; Table 11 of chapter 2; type after, 15 for none. -/
  toType : Nat := 0
  /-- 2 bits; Table 11 of chapter 2; rung after. -/
  rung : Nat := 0
  /-- 12 bits; Table 11 of chapter 2; micro-batch. -/
  mb : Nat := 0
  /-- 5 bits; Table 11 of chapter 2; core row. -/
  row : Nat := 0
  /-- 6 bits; Table 11 of chapter 2; core column. -/
  col : Nat := 0
  /-- 32 bits; Table 11 of chapter 2; beat epoch. -/
  beat : Nat := 0
deriving DecidableEq, Repr

/-- What a FORM_CONTROL packet says. The manual names these messages (R56, R291, R308, R315, R316, R331, R408, R415) and leaves
their encoding inside the packet open. -/
inductive FormCtl
  | ready
  | hold (n : Note)
  | probe
  | probeAnswer
  | position (rank : Nat) (step : Nat) (dataPos : Nat) (cursor : Nat)
  | park
  | wake
  | overflow (step : Nat) (recs : List OvfRec)
deriving DecidableEq, Repr

/-- A packet (R288, Table 4 of chapter 10). `lines` holds the page lines that FAR_DATA, FAR_WRITE and SATCHEL packets carry,
`note`, `norm`, `ctl` and `record` the contents of ABSENCE_NOTE, NORM and FORM_CONTROL packets and of a satchel's last packet. -/
structure Packet where
  cls : Nat := 0
  flits : Nat := 1
  vc : Nat := 0
  dest : Nat := 0
  src : Nat := 0
  part : Nat := 0
  tag : Nat := 0
  addr : Nat := 0
  status : Nat := 0
  arg : W64 := 0
  pseq : Nat := 0
  lines : SMap HbmLine := []
  note : Option Note := none
  norm : List NormRec := []
  ctl : Option FormCtl := none
  record : Option SchedRec := none
deriving DecidableEq, Repr

/-- A frame as it arrives with its seal (R286 to R289): its number, whether every codeword and the tag check, the packets it
carried, the link streams whose TIMED flits it carried, and the seal's ACK, BELL_ACK and CREDITS. -/
structure RxFrame where
  frame : Nat := 0
  ok : Bool := true
  packets : List Packet := []
  timed : List Nat := []
  ack : Nat := 0
  bellAck : Nat := 0
  credits : List Nat := []
deriving DecidableEq, Repr

/-- A BELL flit as it arrives (R287): its bell sequence number, the key it names, whether its check succeeds, the sending
device, and its messages of 8 bytes. -/
structure RxBell where
  seq : Nat := 0
  jobKey : Bool := false
  ok : Bool := true
  dev : Nat := 0
  part : Nat := 0
  msgs : List W64 := []
deriving DecidableEq, Repr

/-- A TIMED flit on a port (R295, R296): the link stream, the slot in which its flit time began, the slot in which it
arrives, and what it carries to the receiving edge router: data for a memory address, or for cores' scratchpads, with the stored types of its 16-byte
words; a remote token; or returned credits. `origin` is the core and sequencer of the task that sent it, which the sender alone keeps (R302). -/
structure TimedFlit where
  stream : Nat := 0
  sent : Nat := 0
  arrived : Nat := 0
  part : Nat := 0
  srcDev : Nat := 0
  addr : Nat := 0
  bytes : List Byte := []
  types : List (Option SType) := []
  cores : List Nat := []
  tok : Option Tok := none
  credits : List (Nat × Nat × Nat) := []
  origin : Option (Nat × Stream) := none
deriving DecidableEq, Repr

/-- A partial sum of a collective that a link brings an edge router (R298, R299): the receiving port, the layer, the byte of the reduced tensor at which
its words lie, and the layout epoch of the link table at the other end (R300). -/
structure ReduceFlit where
  layer : Nat := 0
  port : Nat := 0
  off : Nat := 0
  epoch : Nat := 0
  arriving : List W32 := []
deriving DecidableEq, Repr

/-- An entry of the link map given at FORM_SETUP (R382, Table 10 of chapter 13). -/
structure LinkEntry where
  peer : Nat := 0
  node : Bool := false
  valid : Bool := false
  peerPort : Nat := 0
deriving DecidableEq, Repr

/-- A bell route given at FORM_SETUP (R304, R382). -/
structure BellRoute where
  dest : Nat := 0
  port : Nat := 0
  relayPort : Nat := 0xFF
  relay : Nat := 0
deriving DecidableEq, Repr

/-- One move of a re-shard plan (R335). -/
structure ShardMove where
  src : Nat := 0
  dst : Nat := 0
  base : Nat := 0
  len : Nat := 0
deriving DecidableEq, Repr

/-- A firmware bank as its manifest shows it (R396, Table 6 of chapter 14), with the outcome of the checks that rest on
signature and digest algorithms named by other standards: `magic`, `keysMatch`, `sigs`, `body`. -/
structure FwImage where
  magic : Bool := true
  keySet : Nat := 0
  keysMatch : Bool := true
  sigs : Bool := true
  svn : Nat := 0
  body : Bool := true
  version : Nat := 0
  revoke : Nat := 0
  digest : BitVec 512 := 0
  present : Bool := true
deriving DecidableEq, Repr

/-- The blocks that sleep (R413, Table 2 of chapter 15). -/
inductive Block
  | clockTree (p : Nat)
  | slice (s : Nat)
  | stack (h : Nat)
  | port (l : Nat)
  | pcie
deriving DecidableEq, Repr

/-- The SRAM arrays that scrub reads (R423): an array of a core site, or a line of a slice. -/
inductive Sram
  | site (s : Nat) (addr : Nat)
  | sliceLine (s : Nat) (line : Nat) (sub : Nat)
  | pinLine (s : Nat) (byte : Nat)
deriving DecidableEq, Repr

/-- Why a core site is fenced (R317). -/
inductive FenceCause
  | uncorrectable | rollCall | selfTest | retest | corrected | command | cacheStage
deriving DecidableEq, Repr

/-- The named hardware registers that host software reads or writes (every register table of the manual). An intake register's or
a partition doorbell's number is that of the partition window of PF0 that holds it; through a VF the window is its own, whatever the number. -/
inductive Reg
  | aonTickLo | aonTickHi | aonSide
  | mbxStatus | mbxHeartbeat | mbxRingSelect | mbxSqBaseLo | mbxSqBaseHi | mbxCqBaseLo | mbxCqBaseHi
  | mbxRingConfig | mbxRingStatus | mbxRingInflight | mbxDoorbell | mbxPartDoorbell (k : Nat)
  | mbxApertureBaseLo | mbxApertureBaseHi | mbxAperturePart
  | mbxIntakeStatus (k : Nat) | mbxIntakeCursorLo (k : Nat) | mbxIntakeCursorHi (k : Nat) | mbxIntakeAppendLo (k : Nat)
  | mbxIntakeAppendHi (k : Nat) | mbxIntakeSamples (k : Nat) | mbxIntakeRange (k : Nat) | mbxIntakeWaitHost (k : Nat)
  | mbxIntakeWaitRing (k : Nat) | mbxIntakeIgnored (k : Nat)
  | intCause | intMask | intHoldoff | intApertureErrLo | intApertureErrHi | intApertureErrStatus
  | coreSelect | coreState | coreDraftLines | coreStall (n : Nat) | coreDropGen | coreDropDraft | coreDropGroup
  | coreAttn | coreAttnFused | coreRouter | corePeriod | coreRound | coreWallDrops
  | slcSelect | slcConfig | slcHits | slcFills | slcWritebacks | slcBankCap | slcOwnerDrops | slcSramCe | slcSramRefill
  | slcCloakSelect | slcCloakSpilled | slcCloakReinjected | slcCloakDiscarded | slcCloakOverflow | slcCloakLate
  | hbmSelect | hbmStatus | hbmCe | hbmUe | hbmTagFail | hbmRowsRepaired | hbmScrub
  | telEdgeSelect | telEdgeVecIn | telEdgeVecOut | telEdgeXbarIn | telEdgeXbarOut | telEdgeXbarHbm | telEdgeSlots
  | telWindowLo | telWindowHi | telSensorSelect | telSensor | telPowerSelect | telPower | telThrottle | telDuty
  | lnkPortSelect | lnkPortStatus | lnkLatency | lnkFecCorrected | lnkFrameFail | lnkBellResent | lnkBellHeld | lnkLate
  | lnkUnused | lnkInboundDrops | lnkBeatStatus | lnkBeatEpochLo | lnkBeatEpochHi | lnkBeatErrors
  | secState | secSvnMin | secBoots | secPartSelect | secPartKeys | secAuditSeqLo | secAuditSeqHi
deriving DecidableEq, Repr

/-- The commands: one constructor for each row of spec/opcode_table.json, in the table's order; each comment gives the row's
mnemonic and rule. -/
inductive Instr
  /-- TASK_OPEN (R68). -/
  | taskOpen (c : Nat) (q : Stream)
  /-- TASK_CLOSE (R81). -/
  | taskClose (c : Nat) (q : Stream)
  /-- LOOP (R67). -/
  | loop (c : Nat) (q : Stream) (body : Bool)
  /-- SET_MB (R67). -/
  | setMb (c : Nat) (q : Stream)
  /-- BELL_RING (R452). -/
  | bellRing (c : Nat) (q : Stream) (body : Bool)
  /-- BELL_ARM (R67). -/
  | bellArm (c : Nat) (q : Stream) (body : Bool)
  /-- BELL_WAIT (R67). -/
  | bellWait (c : Nat) (q : Stream) (body : Bool)
  /-- SECTION_END (R91). -/
  | sectionEnd (c : Nat) (q : Stream)
  /-- TASK_FIRE (R69). -/
  | taskFire (c : Nat) (q : Stream)
  /-- MMA (R101). -/
  | mma (c : Nat) (q : Stream)
  /-- MMA_ACC (R101). -/
  | mmaAcc (c : Nat) (q : Stream)
  /-- MMA_WG (R125). -/
  | mmaWg (c : Nat) (q : Stream)
  /-- MMA_ACC_WG (R125). -/
  | mmaAccWg (c : Nat) (q : Stream)
  /-- ACC_LOAD (R101). -/
  | accLoad (c : Nat) (q : Stream)
  /-- DRAIN (R37). -/
  | drain (c : Nat) (q : Stream)
  /-- DRAIN_ADD (R119). -/
  | drainAdd (c : Nat) (q : Stream)
  /-- ENGINE_OPERATION_DONE (R109). -/
  | engineOperationDone (c : Nat) (e : Nat) (port : Bool)
  /-- ROW_SUM (R132). -/
  | rowSum (c : Nat) (q : Stream)
  /-- ROW_MAX (R132). -/
  | rowMax (c : Nat) (q : Stream)
  /-- ROW_SUMSQ (R132). -/
  | rowSumsq (c : Nat) (q : Stream)
  /-- ROW_FN (R131). -/
  | rowFn (c : Nat) (q : Stream)
  /-- SOFTMAX (R134). -/
  | softmax (c : Nat) (q : Stream)
  /-- SOFTMAX_BWD (R135). -/
  | softmaxBwd (c : Nat) (q : Stream)
  /-- NORM (R136). -/
  | norm (c : Nat) (q : Stream)
  /-- NORM_BWD (R137). -/
  | normBwd (c : Nat) (q : Stream)
  /-- VADD (R138). -/
  | vadd (c : Nat) (q : Stream)
  /-- VSUB (R138). -/
  | vsub (c : Nat) (q : Stream)
  /-- VMUL (R138). -/
  | vmul (c : Nat) (q : Stream)
  /-- VMAD (R138). -/
  | vmad (c : Nat) (q : Stream)
  /-- VMAX (R138). -/
  | vmax (c : Nat) (q : Stream)
  /-- VMIN (R138). -/
  | vmin (c : Nat) (q : Stream)
  /-- VCVT (R138). -/
  | vcvt (c : Nat) (q : Stream)
  /-- VAFFINE (R138). -/
  | vaffine (c : Nat) (q : Stream)
  /-- VADD_LS (R139). -/
  | vaddLs (c : Nat) (q : Stream)
  /-- VRAND (R145). -/
  | vrand (c : Nat) (q : Stream)
  /-- VDROP (R145). -/
  | vdrop (c : Nat) (q : Stream)
  /-- VPUT (R453). -/
  | vput (c : Nat) (q : Stream)
  /-- OPT_ADAMW (R147). -/
  | optAdamw (c : Nat) (q : Stream)
  /-- OPT_SGDM (R148). -/
  | optSgdm (c : Nat) (q : Stream)
  /-- OPT_STEP (R149). -/
  | optStep (c : Nat) (q : Stream)
  /-- ATTN_FWD (R163). -/
  | attnFwd (c : Nat) (q : Stream)
  /-- ATTN_RECOMP (R166). -/
  | attnRecomp (c : Nat) (q : Stream)
  /-- ATTN_DS (R167). -/
  | attnDs (c : Nat) (q : Stream)
  /-- ROPE (R161). -/
  | rope (c : Nat) (q : Stream)
  /-- ATTN_FWD_FUSED (R169). -/
  | attnFwdFused (c : Nat) (q : Stream)
  /-- ATTN_RECOMP_FUSED (R169). -/
  | attnRecompFused (c : Nat) (q : Stream)
  /-- ATTN_DS_FUSED (R169). -/
  | attnDsFused (c : Nat) (q : Stream)
  /-- ROPE_FUSED (R169). -/
  | ropeFused (c : Nat) (q : Stream)
  /-- KV_APPEND (R178). -/
  | kvAppend (c : Nat) (q : Stream)
  /-- KV_APPEND_ADMIT (R178). -/
  | kvAppendAdmit (p : Nat) (n : Nat)
  /-- KV_LOAD (R180). -/
  | kvLoad (c : Nat) (q : Stream)
  /-- KV_ALLOCATOR_TIMEOUT (R182). -/
  | kvAllocatorTimeout (p : Nat) (n : Nat)
  /-- TOKEN_ARRIVE (R73). -/
  | tokenArrive (p : Nat) (n : Nat)
  /-- TOKEN_OCCURRENCE (R77). -/
  | tokenOccurrence (c : Nat) (e : Nat)
  /-- CREDIT_OCCURRENCE (R76). -/
  | creditOccurrence (c : Nat) (e : Nat)
  /-- CREDIT_ARRIVE (R76). -/
  | creditArrive (p : Nat) (n : Nat)
  /-- CLOSURE_MESSAGE (R84). -/
  | closureMessage (p : Nat)
  /-- COMMIT_VERDICT (R85). -/
  | commitVerdict (c : Nat) (g : Nat)
  /-- DISCARD_VERDICT (R86). -/
  | discardVerdict (c : Nat) (g : Nat)
  /-- SLICE_VERDICT (R230). -/
  | sliceVerdict (sl : Nat) (g : Nat)
  /-- RING_MESSAGE (R202). -/
  | ringMessage (p : Nat)
  /-- ARM_MESSAGE (R203). -/
  | armMessage (p : Nat)
  /-- COUNT_MESSAGE (R204). -/
  | countMessage (c : Nat)
  /-- END_MESSAGE (R208). -/
  | endMessage (p : Nat)
  /-- CLOSE_MESSAGE (R208). -/
  | closeMessage (c : Nat)
  /-- GEN_MESSAGE (R96). -/
  | genMessage (p : Nat) (c : Nat)
  /-- SWITCH_SLOT (R208). -/
  | switchSlot (p : Nat)
  /-- WINDOW_B_START (R209). -/
  | windowBStart (p : Nat)
  /-- WINDOW_C_START (R211). -/
  | windowCStart (p : Nat)
  /-- SECTION_START (R209). -/
  | sectionStart (p : Nat)
  /-- SECTION_STUCK (R92). -/
  | sectionStuck (p : Nat)
  /-- PERIOD_BOUNDARY (R185). -/
  | periodBoundary (p : Nat)
  /-- STREAM_OCCURRENCE (R191). -/
  | streamOccurrence (p : Nat) (st : Nat) (err : Nat)
  /-- BLOCK_DELIVERED (R192). -/
  | blockDelivered (p : Nat) (st : Nat)
  /-- CLOCK_STOP (R93). -/
  | clockStop (c : Nat)
  /-- CORE_WAKE (R94). -/
  | coreWake (c : Nat)
  /-- CORE_GATE (R95). -/
  | coreGate (c : Nat)
  /-- CORE_POWER_UP (R95). -/
  | corePowerUp (c : Nat)
  /-- ROLL_CALL (R96). -/
  | rollCall (c : Nat)
  /-- ROLL_CALL_TIMEOUT (R317). -/
  | rollCallTimeout (c : Nat)
  /-- CACHE_SLOT_OCCURRENCE (R229). -/
  | cacheSlotOccurrence (sl : Nat)
  /-- FILL_READY (R239). -/
  | fillReady (sl : Nat) (a : Nat) (ev : HbmEvent)
  /-- FILL_INSTALL (R225). -/
  | fillInstall (sl : Nat)
  /-- WRITE_BACK (R321). -/
  | writeBack (sl : Nat)
  /-- LINE_COPY_DONE (R321). -/
  | lineCopyDone (p : Nat) (pg : Nat)
  /-- MIGRATION_IN_DONE (R247). -/
  | migrationInDone (p : Nat) (pg : Nat) (lines : Option (SMap HbmLine))
  /-- MIGRATION_OUT_DONE (R247). -/
  | migrationOutDone (p : Nat) (pg : Nat) (ok : Bool)
  /-- FAR_TRANSFER_TIMEOUT (R246). -/
  | farTransferTimeout (p : Nat) (pg : Nat)
  /-- PREFETCH (R251). -/
  | prefetch (p : Nat)
  /-- STEP_BOUNDARY (R22). -/
  | stepBoundary (p : Nat)
  /-- SAMPLE_WRITE (R355). -/
  | sampleWrite (p : Nat) (rec : List Byte)
  /-- INTAKE_DMA_FAILURE (R357). -/
  | intakeDmaFailure (p : Nat) (timeout : Bool)
  /-- FLIT_TIME (R285). -/
  | flitTime (l : Nat)
  /-- FRAME_SEAL (R289). -/
  | frameSeal (l : Nat) (fr : RxFrame)
  /-- TIMED_FLIT_HAND_ON (R295). -/
  | timedFlitHandOn (l : Nat) (fl : TimedFlit)
  /-- EDGE_ROUTER_ADDITION (R299). -/
  | edgeRouterAddition (g : Nat) (fl : ReduceFlit)
  /-- BELL_FLIT (R287). -/
  | bellFlit (l : Nat) (fl : RxBell)
  /-- BELL_RESEND (R289). -/
  | bellResend (l : Nat)
  /-- PACKET_RESEND (R288). -/
  | packetResend (l : Nat)
  /-- LANE_FAILURE (R290). -/
  | laneFailure (l : Nat) (lane : Nat)
  /-- RING (R302). -/
  | ring
  /-- COUNT (R302). -/
  | count
  /-- FLAG (R53). -/
  | flag
  /-- RUNG (R267). -/
  | rung
  /-- RUNG_ACK (R267). -/
  | rungAck
  /-- CLIP (R307). -/
  | clip
  /-- HEARTBEAT (R308). -/
  | heartbeat
  /-- MISSING (R308). -/
  | missing
  /-- TAKEOVER (R308). -/
  | takeover
  /-- HEARTBEAT_LOST (R308). -/
  | heartbeatLost
  /-- BEAT_BOUNDARY (R293). -/
  | beatBoundary
  /-- LOCK_PORT_DOWN (R291). -/
  | lockPortDown
  /-- HOLDOVER_EXPIRY (R291). -/
  | holdoverExpiry
  /-- FAR_READ (R288). -/
  | farRead
  /-- FAR_DATA (R288). -/
  | farData
  /-- FAR_WRITE (R288). -/
  | farWrite
  /-- FAR_ACK (R288). -/
  | farAck
  /-- SATCHEL (R325). -/
  | satchel
  /-- SATCHEL_ACK (R327). -/
  | satchelAck
  /-- SATCHEL_COMMIT (R327). -/
  | satchelCommit (p : Nat)
  /-- SATCHEL_COPY_FAILURE (R329). -/
  | satchelCopyFailure (p : Nat)
  /-- FAR_SATCHEL_COMMIT (R330). -/
  | farSatchelCommit (p : Nat)
  /-- ABSENCE_NOTE (R314). -/
  | absenceNote
  /-- NOTE_WINDOW_BOUNDARY (R314). -/
  | noteWindowBoundary
  /-- MEMBER_ABSENT (R315). -/
  | memberAbsent (dev : Nat)
  /-- HOLD (R316). -/
  | hold
  /-- READY (R408). -/
  | ready (l : Nat)
  /-- SPARE_FILL_SOURCE_FAILURE (R334). -/
  | spareFillSourceFailure (p : Nat)
  /-- CORE_SITE_FENCE (R317). -/
  | coreSiteFence (x : Nat) (cause : FenceCause)
  /-- ROUTER_PROBE (R317). -/
  | routerProbe (x : Nat) (answered : Bool)
  /-- ROUTER_PARITY_FAILURE (R317). -/
  | routerParityFailure (x : Nat)
  /-- ROW_REPAIR (R241). -/
  | rowRepair (h : Nat) (pc : Nat) (bank : Nat) (row : Nat)
  /-- PSEUDO_CHANNEL_SPARING (R242). -/
  | pseudoChannelSparing (h : Nat) (pc : Nat)
  /-- SPARE_COPY_COMPLETE (R242). -/
  | spareCopyComplete (h : Nat)
  /-- HBM_SCRUB (R240). -/
  | hbmScrub (h : Nat) (line : Nat) (ev : HbmEvent)
  /-- SRAM_SCRUB (R425). -/
  | sramScrub (target : Sram) (err : Nat)
  /-- SCRUB_WINDOW_END (R424). -/
  | scrubWindowEnd (hbm : Bool)
  /-- ATTENTION_PIPE_CHECK (R171). -/
  | attentionPipeCheck (x : Nat) (same : Bool) (cache : Bool)
  /-- SITE_RETEST (R317). -/
  | siteRetest (x : Nat) (pass : Bool)
  /-- HBM_INTERFACE_RETRAINING (R426). -/
  | hbmInterfaceRetraining (h : Nat) (pc : Nat) (ok : Bool)
  /-- OPTICAL_RECALIBRATION (R427). -/
  | opticalRecalibration (l : Nat) (lane : Nat) (converged : Bool)
  /-- LASER_AGEING (R427). -/
  | laserAgeing (cart : Nat) (bias : Nat)
  /-- THERMAL_SENSOR_CALIBRATION (R428). -/
  | thermalSensorCalibration (sensor : Nat) (offset : Int)
  /-- FLASH_WEAR_LEVELLING (R423). -/
  | flashWearLevelling
  /-- TELEMETRY_WINDOW_END (R430). -/
  | telemetryWindowEnd (temps : List Int) (powers : List Nat)
  /-- ENGINE_CURRENT_LIMIT (R417). -/
  | engineCurrentLimit (grp : Nat) (hot : Bool)
  /-- PHASE_SHED (R418). -/
  | phaseShed (rail : Nat)
  /-- BLOCK_WAKE (R413). -/
  | blockWake (b : Block)
  /-- PORT_PARK (R415). -/
  | portPark (l : Nat)
  /-- RE_KEY_RETRY (R404). -/
  | reKeyRetry (p : Nat) (ok : List Nat)
  /-- FW_WATCHDOG_RESTART (R376). -/
  | fwWatchdogRestart
  /-- FW_RESTART (R376). -/
  | fwRestart
  /-- SQ_TAIL_DOORBELL (R365). -/
  | sqTailDoorbell (f : Nat) (r : Nat) (idx : Nat) (descs : List ((Option (BitVec 512)) × Dma))
  /-- CQ_HEAD_DOORBELL (R366). -/
  | cqHeadDoorbell (f : Nat) (r : Nat) (idx : Nat)
  /-- EVENT_HEAD_DOORBELL (R378). -/
  | eventHeadDoorbell (f : Nat) (r : Nat) (idx : Nat)
  /-- RING_ENABLE (R363). -/
  | ringEnable (f : Nat) (v : W32)
  /-- RING_DISABLE (R363). -/
  | ringDisable (f : Nat) (v : W32)
  /-- PENDING_TIMEOUT (R370). -/
  | pendingTimeout (r : Nat) (t : Nat)
  /-- COMPLETION_POST (R366). -/
  | completionPost (r : Nat) (resultFails : Bool)
  /-- HOLDOFF_EXPIRY (R349). -/
  | holdoffExpiry (f : Nat) (v : Nat)
  /-- INT_CAUSE_CLEAR (R13). -/
  | intCauseClear (f : Nat) (w : W32) (same : BitVec 16)
  /-- INT_MASK_WRITE (R349). -/
  | intMaskWrite (f : Nat) (w : W32)
  /-- INTAKE_APPEND (R358). -/
  | intakeAppend (f : Nat) (k : Nat) (w : W32)
  /-- COUNTER_READ_CLEAR (R13). -/
  | counterReadClear (f : Nat) (reg : Reg) (same : Nat) (whole : Bool)
  /-- LOW_HALF_READ (R15). -/
  | lowHalfRead (f : Nat) (reg : Reg) (whole : Bool)
  /-- REGISTER_WRITE (R12). -/
  | registerWrite (f : Nat) (reg : Reg) (w : W32) (whole : Bool) (descs : List ((Option (BitVec 512)) × Dma))
  /-- APERTURE_READ (R346). -/
  | apertureRead (f : Nat) (off : Nat) (len : Nat)
  /-- APERTURE_WRITE (R346). -/
  | apertureWrite (f : Nat) (off : Nat) (bytes : List Byte)
  /-- FUNCTION_LEVEL_RESET (R344). -/
  | functionLevelReset (f : Nat)
  /-- HOT_RESET (R344). -/
  | hotReset
  /-- DL_DOWN (R344). -/
  | dlDown
  /-- NUMVFS_CLEAR (R344). -/
  | numvfsClear
  /-- IDE_FAILURE (R409). -/
  | ideFailure (f : Nat)
  /-- GET_VERSION (R402). -/
  | getVersion (f : Nat)
  /-- GET_CAPABILITIES (R402). -/
  | getCapabilities (f : Nat)
  /-- NEGOTIATE_ALGORITHMS (R402). -/
  | negotiateAlgorithms (f : Nat)
  /-- GET_DIGESTS (R402). -/
  | getDigests (f : Nat)
  /-- GET_CERTIFICATE (R402). -/
  | getCertificate (f : Nat)
  /-- CHALLENGE (R402). -/
  | challenge (f : Nat) (nonce : List Byte)
  /-- GET_MEASUREMENTS (R402). -/
  | getMeasurements (f : Nat) (nonce : List Byte)
  /-- KEY_EXCHANGE (R402). -/
  | keyExchange (f : Nat)
  /-- FINISH (R402). -/
  | finish (f : Nat)
  /-- SPDM_HEARTBEAT (R402). -/
  | spdmHeartbeat (f : Nat)
  /-- KEY_UPDATE (R402). -/
  | keyUpdate (f : Nat)
  /-- END_SESSION (R402). -/
  | endSession (f : Nat)
  /-- DEVICE_INFO (R383). -/
  | deviceInfo (r : Nat) (t : Nat)
  /-- BEHAVIOUR_PIN (R338). -/
  | behaviourPin (r : Nat) (t : Nat)
  /-- PARTITION_SET (R387). -/
  | partitionSet (r : Nat) (t : Nat)
  /-- PARTITION_QUERY (R382). -/
  | partitionQuery (r : Nat) (t : Nat)
  /-- JOB_LOAD (R24). -/
  | jobLoad (r : Nat) (t : Nat) (data : Dma) (im : Option Image)
  /-- JOB_UNLOAD (R380). -/
  | jobUnload (r : Nat) (t : Nat)
  /-- JOB_INFO (R382). -/
  | jobInfo (r : Nat) (t : Nat)
  /-- JOB_RANKS (R297). -/
  | jobRanks (r : Nat) (t : Nat)
  /-- JOB_RUN (R379). -/
  | jobRun (r : Nat) (t : Nat) (refill : SMap (SMap HbmLine))
  /-- JOB_STOP (R379). -/
  | jobStop (r : Nat) (t : Nat)
  /-- JOB_QUERY (R382). -/
  | jobQuery (r : Nat) (t : Nat)
  /-- FROZEN_SET (R124). -/
  | frozenSet (r : Nat) (t : Nat)
  /-- INTAKE_CONFIG (R353). -/
  | intakeConfig (r : Nat) (t : Nat)
  /-- INTAKE_SHARDS (R358). -/
  | intakeShards (r : Nat) (t : Nat)
  /-- INTAKE_START (R359). -/
  | intakeStart (r : Nat) (t : Nat)
  /-- INTAKE_STOP (R357). -/
  | intakeStop (r : Nat) (t : Nat)
  /-- INTAKE_QUERY (R359). -/
  | intakeQuery (r : Nat) (t : Nat)
  /-- MEM_QUOTA_SET (R249). -/
  | memQuotaSet (r : Nat) (t : Nat)
  /-- MEM_QUOTA_QUERY (R250). -/
  | memQuotaQuery (r : Nat) (t : Nat)
  /-- MEM_ALLOC (R248). -/
  | memAlloc (r : Nat) (t : Nat)
  /-- MEM_FREE (R250). -/
  | memFree (r : Nat) (t : Nat)
  /-- MEM_FLUSH (R250). -/
  | memFlush (r : Nat) (t : Nat)
  /-- FAR_ATTACH (R246). -/
  | farAttach (r : Nat) (t : Nat)
  /-- FAR_DETACH (R250). -/
  | farDetach (r : Nat) (t : Nat)
  /-- WINDOW_SET_VERSION (R252). -/
  | windowSetVersion (r : Nat) (t : Nat)
  /-- MEM_PAGE_QUERY (R250). -/
  | memPageQuery (r : Nat) (t : Nat)
  /-- KV_POOL_CREATE (R173). -/
  | kvPoolCreate (r : Nat) (t : Nat)
  /-- KV_SEQ_OPEN (R183). -/
  | kvSeqOpen (r : Nat) (t : Nat)
  /-- KV_SEQ_PARK (R183). -/
  | kvSeqPark (r : Nat) (t : Nat)
  /-- KV_SEQ_RESUME (R183). -/
  | kvSeqResume (r : Nat) (t : Nat)
  /-- KV_SEQ_CLOSE (R183). -/
  | kvSeqClose (r : Nat) (t : Nat)
  /-- KV_POOL_QUERY (R183). -/
  | kvPoolQuery (r : Nat) (t : Nat)
  /-- KV_POOL_DESTROY (R183). -/
  | kvPoolDestroy (r : Nat) (t : Nat)
  /-- SATCHEL_CONFIG (R323). -/
  | satchelConfig (r : Nat) (t : Nat)
  /-- SATCHEL_QUERY (R341). -/
  | satchelQuery (r : Nat) (t : Nat)
  /-- SATCHEL_TAKE (R341). -/
  | satchelTake (r : Nat) (t : Nat)
  /-- SATCHEL_RESTORE (R332). -/
  | satchelRestore (r : Nat) (t : Nat) (sources : List (Option RestoreSrc))
  /-- SPARE_FILL (R333). -/
  | spareFill (r : Nat) (t : Nat) (fits : Bool) (rec : Option SchedRec) (arrived : SMap (SMap HbmLine))
  /-- RESHARD_RUN (R335). -/
  | reshardRun (r : Nat) (t : Nat) (ok : Bool) (data : SMap (SMap HbmLine))
  /-- FORM_SETUP (R280). -/
  | formSetup (r : Nat) (t : Nat) (links : SMap Nat) (hops : Bool)
  /-- FORM_QUERY (R309). -/
  | formQuery (r : Nat) (t : Nat)
  /-- LINK_MEASURE (R295). -/
  | linkMeasure (r : Nat) (t : Nat) (links : List (Nat × Nat × Nat))
  /-- LINK_STATUS (R309). -/
  | linkStatus (r : Nat) (t : Nat)
  /-- ROLE_SET (R309). -/
  | roleSet (r : Nat) (t : Nat)
  /-- FORM_LEAVE (R315). -/
  | formLeave (r : Nat) (t : Nat)
  /-- NORM_READ (R306). -/
  | normRead (r : Nat) (t : Nat)
  /-- TEL_READ (R431). -/
  | telRead (r : Nat) (t : Nat)
  /-- TEL_STREAM (R431). -/
  | telStream (r : Nat) (t : Nat)
  /-- OVERFLOW_READ (R430). -/
  | overflowRead (r : Nat) (t : Nat)
  /-- ROLE_AUTH_CHALLENGE (R391). -/
  | roleAuthChallenge (r : Nat) (t : Nat)
  /-- ROLE_AUTH_RESPONSE (R391). -/
  | roleAuthResponse (r : Nat) (t : Nat)
  /-- ROLE_AUTH_ENROL (R391). -/
  | roleAuthEnrol (r : Nat) (t : Nat)
  /-- ROLE_AUTH_REVOKE (R391). -/
  | roleAuthRevoke (r : Nat) (t : Nat)
  /-- CHALLENGE_EXPIRY (R391). -/
  | challengeExpiry (r : Nat)
  /-- JOB_KEYS (R406). -/
  | jobKeys (r : Nat) (t : Nat)
  /-- JOB_KEYS_TIMEOUT (R408). -/
  | jobKeysTimeout (p : Nat)
  /-- MEM_KEY_ROTATE (R404). -/
  | memKeyRotate (r : Nat) (t : Nat)
  /-- CONSENT_ISSUE (R392). -/
  | consentIssue (r : Nat) (t : Nat)
  /-- AUDIT_READ (R395). -/
  | auditRead (r : Nat) (t : Nat)
  /-- ATTEST (R401). -/
  | attest (r : Nat) (t : Nat)
  /-- FW_STAGE (R399). -/
  | fwStage (r : Nat) (t : Nat)
  /-- FW_ACTIVATE (R399). -/
  | fwActivate (r : Nat) (t : Nat)
  /-- FW_QUERY (R382). -/
  | fwQuery (r : Nat) (t : Nat)
  /-- DIAG_OPEN (R393). -/
  | diagOpen (r : Nat) (t : Nat)
  /-- DIAG_CLOSE (R393). -/
  | diagClose (r : Nat) (t : Nat)
  /-- DIAG_EXPIRY (R393). -/
  | diagExpiry
  /-- SELFTEST_RUN (R382). -/
  | selftestRun (r : Nat) (t : Nat)
  /-- HBM_SPARE (R242). -/
  | hbmSpare (r : Nat) (t : Nat)
  /-- SITE_FENCE (R317). -/
  | siteFence (r : Nat) (t : Nat)
  /-- REPAIR_QUERY (R341). -/
  | repairQuery (r : Nat) (t : Nat)
  /-- NOTE_QUERY (R341). -/
  | noteQuery (r : Nat) (t : Nat)
  /-- CARETAKER_QUERY (R429). -/
  | caretakerQuery (r : Nat) (t : Nat)
  /-- CARETAKER_SET (R429). -/
  | caretakerSet (r : Nat) (t : Nat)
  /-- I3C_PRIVATE_WRITE (R385). -/
  | i3cPrivateWrite (bytes : List Byte)
  /-- I3C_PRIVATE_READ (R385). -/
  | i3cPrivateRead
  /-- ENTDAA (R384). -/
  | entdaa (addr : Nat)
  /-- SETDASA (R384). -/
  | setdasa (addr : Nat)
  /-- RSTDAA (R384). -/
  | rstdaa
  /-- GETPID (R384). -/
  | getpid
  /-- GETBCR (R384). -/
  | getbcr
  /-- GETDCR (R384). -/
  | getdcr
  /-- GETSTATUS (R384). -/
  | getstatus
  /-- ENEC (R384). -/
  | enec
  /-- DISEC (R384). -/
  | disec
  /-- INPUT_GOOD (R433). -/
  | inputGood (second : Bool)
  /-- INPUT_LOSS (R434). -/
  | inputLoss
  /-- OVER_VOLTAGE (R433). -/
  | overVoltage
  /-- STRAP_PHASE_END (R438). -/
  | strapPhaseEnd (mv : List Nat)
  /-- BOOT_ROM_CHECK (R397). -/
  | bootRomCheck (seedOk : Bool)
  /-- REPAIR_RECORD_CHECK (R447). -/
  | repairRecordCheck (ok : Bool)
  /-- PWR_EN_RISE (R442). -/
  | pwrEnRise
  /-- PWR_EN_FALL (R442). -/
  | pwrEnFall
  /-- MAIN_REGULATORS_UP (R447). -/
  | mainRegulatorsUp (ok : Bool)
  /-- HBM_TRAINING_DONE (R447). -/
  | hbmTrainingDone (failed : List Nat)
  /-- SELF_TEST_DONE (R447). -/
  | selfTestDone (fails : List Nat) (attn : List Nat) (cache : List Nat)
  /-- OPTICAL_CALIBRATION_DONE (R447). -/
  | opticalCalibrationDone (failed : List Nat)
  /-- EMERG_OFF (R442). -/
  | emergOff
  /-- PERST_RELEASE (R443). -/
  | perstRelease
  /-- PERST_ASSERT (R442). -/
  | perstAssert
  /-- SEAT_IN_CHANGE (R440). -/
  | seatInChange (level : Bool)
  /-- CARTRIDGE_LATCH_OPEN (R445). -/
  | cartridgeLatchOpen (cart : Nat)
  /-- CARTRIDGE_LATCH_CLOSE (R445). -/
  | cartridgeLatchClose (cart : Nat)
  /-- NORM_PACKET (R306). -/
  | normPacket
  /-- FORM_CONTROL_PROBE (R315). -/
  | formControlProbe
  /-- DATA_POSITION_REPORT (R331). -/
  | dataPositionReport
  /-- LOCK_PORT_RETURN (R291). -/
  | lockPortReturn
  /-- LANE_RETRAIN_DONE (R290). -/
  | laneRetrainDone (l : Nat) (ok : Bool)
  /-- BEAT_EDGE (R293). -/
  | beatEdge (width : Nat)
  /-- OVER_VOLTAGE_CLEAR (R433). -/
  | overVoltageClear
  /-- PSEUDO_CHANNEL_UNRESPONSIVE (R243). -/
  | pseudoChannelUnresponsive (h : Nat) (pc : Nat)
  /-- KV_ALLOCATOR_ANSWER (R182). -/
  | kvAllocatorAnswer (p : Nat) (n : Nat)
  /-- COMPUTE_UNIT_OPERATION_DONE (R129). -/
  | computeUnitOperationDone (c : Nat) (unit : Nat)
  /-- DL_UP (R344). -/
  | dlUp
  /-- VF_ENABLE (R343). -/
  | vfEnable (f : Nat)
  /-- BAR_CHANGE (R409). -/
  | barChange (f : Nat) (bar4 : Nat)
  /-- TDISP_REQUEST (R409). -/
  | tdispRequest (f : Nat) (req : Nat)
  /-- IDE_KM_REQUEST (R409). -/
  | ideKmRequest (f : Nat) (sid : Nat)
deriving DecidableEq, Repr

end Sys2Proof
end

