-- ==== Sys2Proof/Config.lean ====
section
/-! DEFINITION. What the manual leaves to an implementation or to a standard of another body: constants without a value, of
which nothing can be proved, so that a claim holds whatever they are. -/

namespace Sys2Proof

/-- A value that the manual leaves open, by the number of its draw (log entry 5). -/
opaque Config.freeValue : (w : Nat) → Nat → BitVec w

/-- A row-unit function whose enclosure has not settled the rounding within the precision that `rowFn` tries (log entry 14). -/
opaque Config.fnOpen : Nat → Nat → Nat

/-- SHA-512 of a string of bytes (R24, R394, R401). -/
opaque Config.sha512 : List Byte → BitVec 512

/-- The HKDF-SHA-512 derivations of R403, R405, R406: secret, salt, label and number, to a key. -/
opaque Config.hkdf : Nat → Nat → String → Nat → BitVec 256

/-- XTS-AES-256 of a data unit of 64 bytes (IEEE 1619; R237): the two keys and the tweak, to the permutation of the line. -/
opaque Config.xts : BitVec 256 → BitVec 256 → BitVec 128 → Equiv.Perm (BitVec 512)

/-- AES-CMAC with a key of 256 bits (NIST SP 800-38B; R238): key and message, the first byte of the code the least significant. -/
opaque Config.cmac : BitVec 256 → List Byte → BitVec 128

/-- Bits drawn from the CTR_DRBG with AES-256 of the HBM controllers (R403, R404): the number of the draw, and the contribution mixed in. -/
opaque Config.drbg : Nat → List Byte → BitVec 256

/-- What a core loads where a job has stored over its section configuration in the pin window that holds it (R209, R223), whose bytes have no layout in the
manual: the configuration of the image, and the bytes stored, by offset. -/
opaque Config.cfgOver : CoreCfg → List (Nat × Byte) → CoreCfg

/-- Packet flits of a credit class for which a port holds buffer space, granted to the peer when the link is set up (R288). -/
opaque Config.packetBuffer : Nat → Nat

/-- Random bits from the module's entropy source (R391, R402, R403), by the number of the draw. -/
opaque Config.random : Nat → BitVec 256

/-- Signatures by the module's identity keys (R392, R395, R401, R402): what is signed, to the signature's bytes. -/
opaque Config.sign : List Byte → List Byte

/-- The stepping of the part (R382). -/
opaque Config.stepping : Nat

/-- The serial number of the module (R382). -/
opaque Config.serial : BitVec 128

/-- Bytes of the device's certificate chain (R402). -/
opaque Config.certificates : List Byte

/-- The frame that a stack's allocator gives when several are free (R221): stack and the frames in use, to a number that picks
one of the free frames. -/
opaque Config.frameChoice : Nat → List Nat → Nat

/-- The page that firmware takes for a new page of a key-value pool (R173, R182): the pages in use, to a number that picks one. -/
opaque Config.poolPage : List Nat → Nat

/-- Latency in slots of a route of the fabric, where the manual gives a bound and no value (R198, R202). -/
opaque Config.latency : Nat → Nat → Nat

/-- Whether a signature verifies (RFC 8032, FIPS 204; R390 to R397): public key, message, signature. -/
opaque Config.verify : Nat → List Byte → Nat → Bool

/-- The alias public keys of the running firmware (R400), Ed25519 (0) and ML-DSA-65 (1). -/
opaque Config.aliasKey : Nat → Nat

/-- SHA-512 digests of the four maker key sets in boot ROM, and whether a set signs firmware (R396). -/
opaque Config.romKeys : Nat → BitVec 512
/-- Whether a maker key set is a firmware-signing set; the others are maker diagnostic sets (R396). -/
opaque Config.romFirmware : Nat → Bool

/-- The job secret that a JOB_KEYS message wraps; none where its tag does not check (R406). -/
opaque Config.openJobSecret : List Byte → Option (BitVec 256)

/-- Behaviour levels that firmware supports, bit n − 1 for BLn (R338, R383). BL1 is always among them (R340). -/
opaque Config.levels : BitVec 32

/-- Answers of the I3C target whose bits the manual leaves to the I3C standard (R384): GETPID, GETBCR, GETDCR, GETSTATUS. -/
opaque Config.i3cAnswer : Nat → List Byte

/-- HMAC-SHA-512 (R406): key and message. -/
opaque Config.hmac : BitVec 256 → List Byte → BitVec 512

end Sys2Proof
end

