-- ==== Sys2Proof/Machine/State.lean ====
section
/-! DEFINITION. The state of one CW-LS5216 module: every register, FIFO, buffer, counter, mode and pin that the manual
names, as plain data. Sets of like units are sparse tables (`SMap`) whose unlisted members stand at their reset value.
Each field's comment gives its width, the rule that names it and its reset value. -/

namespace Sys2Proof.Machine

open Sys2Proof

/-- A core's power state, CORE.STATE.POWER (R90, R93): running 0b00, clock stop 0b01, gated 0b10, fenced 0b11. -/
inductive CorePower
  | running | clockStop | gated | fenced
deriving DecidableEq, Repr

/-- Where a task of a tag window stands (R68, R69, R81). -/
inductive TaskSt
  | posted | running
deriving DecidableEq, Repr

/-- A task in a tag window or in its run (R66 to R69, R87). -/
structure Task where
  /-- 32 bits; R66; the tag. -/
  tag : W32 := 0
  /-- 11 bits; R67; instruction index of its TASK_OPEN. -/
  openIdx : Nat := 0
  /-- 16 bits; R67; one bit per input queue. -/
  inMask : Nat := 0
  /-- 1 bit; R78. -/
  draft : Bool := false
  /-- 8 bits; R67; commit group. -/
  group : Nat := 0
  /-- 13 bits; R67, R79. -/
  draftLines : Nat := 0
  /-- 11 bits; R67, R87. -/
  repeatIdx : Nat := 0
  /-- R69. -/
  st : TaskSt := .posted
  /-- 11 bits; R70; next instruction of its body. -/
  pc : Nat := 0
  /-- four counters; R103; pass numbers of the four loop levels. -/
  passes : SMap Nat := []
  /-- R103; the pass numbers at its posting, from which its body, and any repeat of it, starts. -/
  passes0 : SMap Nat := []
  /-- R87; payloads of the tokens taken at firing, by queue. -/
  held : SMap W64 := []
  /-- R271; the clip token's payload once taken. -/
  clip : Option W64 := none
  /-- R87; reposted: takes no token from its IN_MASK queues. -/
  reposted : Bool := false
  /-- R87; reposted after a discard for the clip scalar: fires only with a clip token. -/
  needClip : Bool := false
  /-- R52; overflow causes met in this run (Table 11 of chapter 2), each with the code plus 1 of the type that has no rung above it (R450: 0x8, 0x5,
  0x6 or, for a working weight, 0x0), or 0 where a rung lies above. -/
  flags : List (Nat × Nat) := []
  /-- R79; draft lines it reserved at firing, and lines it has mapped so far. -/
  reserved : Nat := 0
  /-- 13 bits; R79; draft lines mapped so far. -/
  mapped : Nat := 0
  /-- R452; order in which its sequencer posted it. -/
  order : Nat := 0
deriving DecidableEq, Repr

/-- A bell that a sequencer has armed (R67, R204). -/
structure Arm where
  /-- 14 bits; R202; bell number. -/
  bell : Nat := 0
  /-- 32 bits; R67; the count recorded as base. -/
  base : W32 := 0
  /-- 32 bits; R67. -/
  threshold : W32 := 0
  /-- 32 bits; R203; the count as the sequencer knows it. -/
  count : W32 := 0
  /-- R204; the root's COUNT answer to this ARM has arrived. -/
  answered : Bool := false
deriving DecidableEq, Repr

/-- A ring that a sequencer holds (R452): it leaves once every task posted before it has closed and resolved. -/
structure HeldRing where
  /-- 14 bits; R202; bell number. -/
  bell : Nat := 0
  /-- 32 bits; R202; amount rung. -/
  amount : W32 := 0
  /-- a count; R452; tasks posted before the ring. -/
  before : Nat := 0
  /-- rung within a body: R452 does not hold it, R204 does. -/
  body : Bool := false
deriving DecidableEq, Repr

/-- A sequencer (R60, R65 to R70). -/
structure Seq where
  /-- 2,048 entries of 128 bits; R60; contents none after reset (DESIGN CHOICE 0, entry 6). -/
  prog : List (BitVec 128) := []
  /-- 16 entries of 256 bits; R102. -/
  ctx : SMap (BitVec 256) := []
  /-- 11 bits; R451; next instruction to read; 0 at the start of a section. -/
  pc : Nat := 0
  /-- 12 bits; R66, R451; micro-batch register; 0. -/
  mb : Nat := 0
  /-- four counters; R67, R103; pass numbers of the loops between bodies; 0. -/
  passes : SMap Nat := []
  /-- 16 entries; R68; the tag window; empty. -/
  window : List Task := []
  /-- R69; the fired task; none. -/
  running : Option Task := none
  /-- R67; armed bells; none (R451). -/
  arms : List Arm := []
  /-- R67; the bell a BELL_WAIT between bodies holds the sequencer on; none. -/
  waiting : Option Nat := none
  /-- R67; the bell a BELL_WAIT of the running task's body holds the sequencer on; none. -/
  waitingBody : Option Nat := none
  /-- R87; discarded tasks that are posted again as soon as the window has room; none. -/
  reposts : List Task := []
  /-- R452; rings held; none. -/
  held : List HeldRing := []
  /-- R452; number of tasks posted in the section; 0. -/
  posted : Nat := 0
  /-- R91; SECTION_END has been read; false. -/
  ended : Bool := false
  /-- R106; arithmetic cycle plus 1 in which its last operation issued: one issues in a cycle; 0. -/
  issuedAt : Nat := 0
deriving DecidableEq, Repr

/-- An unfinished operation of a compute unit (R109, R129), with the scratchpad lines it reads and writes. -/
structure Unfin where
  /-- 2 bits; R65; sequencer whose task issued it. -/
  stream : Stream := .F
  /-- 32 bits; R66; tag of that task. -/
  task : W32 := 0
  /-- a count; R109; order of its issue in the core. -/
  id : Nat := 0
  /-- engine numbers; R106, R109; engines that carry it out. -/
  mask : List Nat := []
  /-- 1 bit; R109; DRAIN class rather than cube class. -/
  port : Bool := false
  /-- 14 bits; R107, R109; first accumulator word of its region. -/
  base : Nat := 0
  /-- 8 bits; R109, R113; number of 8 × 8 blocks of its region. -/
  blocks : Nat := 0
  /-- lists of (line, lines); R109, R110; scratchpad lines read. -/
  reads : List (Nat × Nat) := []
  /-- lists of (line, lines); R109, R110; scratchpad lines written. -/
  writes : List (Nat × Nat) := []
deriving DecidableEq, Repr

/-- What an engine records of an 8 × 8 block of its accumulator (R37, R113, R121, R125). -/
structure Block8 where
  /-- A and B types in the image and k of the last cube-class operation; k `none` after ACC_LOAD (R37). -/
  aType : Nat := 0
  /-- 4 bits; R37; type code of B. -/
  bType : Nat := 0
  /-- a count; R37, R52; k of the last cube-class operation. -/
  k : Option Nat := none
  /-- whether each operand was stored scaled (R37, R54). -/
  aScaled : Bool := false
  /-- 1 bit; R37, R54; B was stored scaled. -/
  bScaled : Bool := false
  /-- R125; marked skipped. -/
  skipped : Bool := false
  /-- R121; the draft group and tag that opened it. -/
  group : Option Nat := none
deriving DecidableEq, Repr

/-- A tensor engine (R97). -/
structure Engine where
  /-- 64 KiB virtual accumulator of FP32 words, by word number 0 to 16,383; R112; reset: not live, words DESIGN CHOICE 0 (entry 6). -/
  acc : SMap W32 := []
  /-- live bits and records of the 256 blocks; R113; no block live. -/
  live : SMap (Option Block8) := []
  /-- two physical slots; R114; virtual slots resident; none. -/
  resident : List Nat := []
  /-- two spill frames; R114, R115; virtual slots spilled, by frame; none. -/
  frames : SMap (Option Nat) := []
  /-- two per class; R109; unfinished operations of both classes; none. -/
  unfin : List Unfin := []
deriving DecidableEq, Repr

/-- A line of the draft map (R78): target line, group, the bytes of its draft line that have been written, and the stored
types of its 16-byte words that have been written. -/
structure DraftLine where
  /-- 15 bits; R61, R78; target line of 64 bytes of the scratchpad. -/
  line : Nat := 0
  /-- 8 bits; R78; commit group. -/
  group : Nat := 0
  /-- up to 64 bytes; R78; bytes written, by offset. -/
  bytes : SMap (Option Byte) := []
  /-- up to 4 entries; R42, R78; stored types by 16-byte word. -/
  types : SMap (Option (Option SType)) := []
deriving DecidableEq, Repr

/-- A token in an input queue, with the edge its credit returns to (R76); a re-injected token has none (R211). -/
structure QTok where
  /-- 128 bits; R72; the token. -/
  tok : Tok := {}
  /-- 11 + 4 bits; R76; producer core and edge. -/
  src : Option (Nat × Nat) := none
deriving DecidableEq, Repr

/-- A token that a task has sent and that waits in the producer for its route's slot (R77, R192). -/
structure OutTok where
  /-- 4 bits; R74; output edge. -/
  edge : Nat := 0
  /-- 128 bits; R72; the token. -/
  tok : Tok := {}
  /-- R204, R452; the sequencer and the posting order of the task that sent it. -/
  seq : Stream := .F
  /-- a count; R452; posting order of the sending task. -/
  order : Nat := 0
  /-- R192; the stream and the block number whose last unit must be delivered first. -/
  block : Option (Nat × Nat) := none
deriving DecidableEq, Repr

/-- A token on its way over the scalar network, inside a core, or from a link (R72, R196, R296). -/
structure TokFlight where
  /-- 11 bits; R72; destination core. -/
  dest : Nat := 0
  /-- 128 bits; R72; the token. -/
  tok : Tok := {}
  /-- producer core and edge; none for a token that earns no credit. -/
  src : Option (Nat × Nat) := none
  /-- 2 bits; R65; sequencer of the sending task. -/
  seq : Stream := .F
  /-- a count; R452; posting order of the sending task. -/
  order : Nat := 0
  /-- R196; slot of its delivery. -/
  due : Nat := 0
deriving DecidableEq, Repr

/-- Credits on their way back to a producer (R76, R196). -/
structure CreditFlight where
  /-- 11 bits; R76; producer core. -/
  core : Nat := 0
  /-- 4 bits; R76; its output edge. -/
  edge : Nat := 0
  /-- 8 bits; R76; credits returned. -/
  count : Nat := 0
  /-- R76; the first slot in which they may be spent. -/
  due : Nat := 0
deriving DecidableEq, Repr

/-- Data on its way from the interior to a link stream, with the token that follows it (R294, R296, R299). -/
structure LinkMove where
  /-- 6 bits; R294; sending port. -/
  port : Nat := 0
  /-- a number; R294; its link stream. -/
  stream : Nat := 0
  /-- 44 bits; R296; address of the next byte, in memory or in a core's scratchpad. -/
  addr : Nat := 0
  /-- a count; R296; bytes still to be brought. -/
  left : Nat := 0
  /-- 44 bits; R296; its address at the receiver. -/
  dest : Nat := 0
  /-- 11 bits; R206; source core of data that goes by the vector network. -/
  core : Nat := 0
  /-- cores; R206; receiving cores of such data; none for the crossbar. -/
  cores : List Nat := []
  /-- a token; R296; the token that follows the data; none. -/
  tok : Option Tok := none
  /-- R296; core and edge that produced the token. -/
  credits : List (Nat × Nat × Nat) := []
  /-- R302; core and sequencer of the task that sent it; none for a collective. -/
  origin : Option (Nat × Stream) := none
  /-- 12 bits; R269; layer of the collective it belongs to; none. -/
  coll : Option Nat := none
deriving DecidableEq, Repr

/-- A collective under way on a device (R269, R297). -/
structure CollRun where
  /-- a link-table record; R297; the collective. -/
  coll : Collective := {}
  /-- a count; R269; bytes that it has sent. -/
  sent : Nat := 0
deriving DecidableEq, Repr

/-- A draft task that has closed and awaits its group's verdict (R81, R85, R87). -/
structure OpenDraft where
  /-- 2 bits; R65; sequencer of the task. -/
  seq : Stream := .F
  /-- a task; R81; the closed draft task. -/
  task : Task := {}
  /-- 16 bits; R81, R85; COMMIT_EDGES mask. -/
  commitEdges : Nat := 0
deriving DecidableEq, Repr

/-- A layer's entry of a core's tap table (R153): an FP32 accumulator and a write-back count per tap W, G, U. -/
structure TapEntry where
  /-- 32 bits; R153; FP32 accumulator of tap W. -/
  w : W32 := 0
  /-- 32 bits; R153; FP32 accumulator of tap G. -/
  g : W32 := 0
  /-- 32 bits; R153; FP32 accumulator of tap U. -/
  u : W32 := 0
  /-- a count; R153; write-backs of tap W. -/
  nw : Nat := 0
  /-- a count; R153; write-backs of tap G. -/
  ng : Nat := 0
  /-- a count; R153; write-backs of tap U. -/
  nu : Nat := 0
deriving DecidableEq, Repr

/-- Messages that travel down the bell tree to a core (R203, Table 5 of chapter 7). -/
inductive DownMsg
  | count (bell : Nat) (n : W32) (answerTo : Option Stream)
  | verdict (group : Nat) (commit : Bool) (forClip : Bool)
  | close (epoch : Nat) (slot : Nat)
  | gen (core : Nat) (gen : Nat)
deriving DecidableEq, Repr

/-- Messages that travel up the bell tree to the control root, each from a core's router (R203, Table 5 of chapter 7). CLOSURE carries the causes
that the record of R450 needs, and how many verdicts of the group its core had received. -/
inductive UpMsg
  | ring (bell : Nat) (amount : W32) (core : Nat)
  | arm (bell : Nat) (core : Nat) (seq : Stream)
  | closure (group : Nat) (core : Nat) (layer : Nat) (mb : Nat) (causes : List (Nat × Nat)) (att : Nat)
  | fin (core : Nat)
deriving DecidableEq, Repr

/-- A core (R60), by logical position. -/
structure Core where
  /-- 2 bits; R90, R93; CORE.STATE.POWER; 0b10 gated. -/
  power : CorePower := .gated
  /-- 1 bit; R90; 0. -/
  seated : Bool := false
  /-- 1 bit; R90, R96; 0. -/
  valid : Bool := false
  /-- 8 bits; R90, R95; 0. -/
  gen : Nat := 0
  /-- R96, R317; the slot in which the roll call in progress began; none. -/
  rollCall : Option Nat := none
  /-- R94; the slot in which a wake from clock stop was asked for; none. -/
  wake : Option Nat := none
  /-- 1.5 MiB by byte address; R61, R62; contents none after reset (DESIGN CHOICE 0, entry 6). -/
  spad : SMap Byte := []
  /-- 4,096 entries; R78; draft map; empty (R95). -/
  drafts : List DraftLine := []
  /-- R42, R54, R140; 16-byte words that hold a type other than the image's; none. -/
  stored : SMap (Option SType) := []
  /-- R60, R65, R73, R74, R189; the section configuration loaded in window B or by roll call; none. -/
  cfg : CoreCfg := {}
  /-- R71; stream priority code; 0. -/
  priority : Nat := 0
  /-- 16 queues sharing 128 slots; R73; empty. -/
  queues : SMap (List QTok) := []
  /-- a sequencer; R65; sequencer F. -/
  seqF : Seq := {}
  /-- a sequencer; R65; sequencer B. -/
  seqB : Seq := {}
  /-- a sequencer; R65; sequencer U. -/
  seqU : Seq := {}
  /-- E0 to E7; R97. -/
  engines : SMap Engine := []
  /-- row unit, two unfinished operations; R129; none. -/
  rowUnit : List Unfin := []
  /-- vector unit; R129; none. -/
  vecUnit : List Unfin := []
  /-- attention pipe; R158; none. -/
  attn : List Unfin := []
  /-- one counter per output edge; R76; 0. -/
  credits : SMap Nat := []
  /-- R77; tokens waiting for their slot; none. -/
  outToks : List OutTok := []
  /-- R85; COMMIT_EDGES tokens kept for credit or launch room; none. -/
  kept : List OutTok := []
  /-- R76; credits to return, by producer core × 16 + edge; none. -/
  owed : SMap Nat := []
  /-- R189; by edge, the slot plus 1 of the last token occurrence and of the last credit occurrence that came. -/
  lastTok : SMap Nat := []
  /-- by edge, slot plus 1; R189; last credit occurrence that came. -/
  lastCredit : SMap Nat := []
  /-- R72, R96; generations of the edges' destination cores as this core knows them, by core; 0. -/
  gens : SMap Nat := []
  /-- R84, R265; verdicts of each group received in the section; 0. -/
  atts : SMap Nat := []
  /-- R78, R81; open drafts, at most 64; none. -/
  openDrafts : List OpenDraft := []
  /-- R265; draft tasks of each group fired in its present round; 0. -/
  fired : SMap Nat := []
  /-- R271; clip tokens that arrived with a discard verdict, by queue; none. -/
  clipToks : List QTok := []
  /-- 32 entries; R153; tap table by layer; empty. -/
  taps : SMap TapEntry := []
  /-- R154; draft copies of tap entries: group, layer, copy; none. -/
  tapDrafts : List (Nat × Nat × TapEntry) := []
  /-- 32-bit saturating; R88, R90; stall counters by unit × 8 + cause; 0. -/
  stalls : SMap Nat := []
  /-- 32 bits; R90, R95; CORE.DROP_GEN; 0. -/
  dropGen : Nat := 0
  /-- 32 bits; R86, R90; CORE.DROP_DRAFT; 0. -/
  dropDraft : Nat := 0
  /-- 32 bits; R82, R90; CORE.DROP_GROUP; 0. -/
  dropGroup : Nat := 0
  /-- 32 bits; R207; CORE.WALL_DROPS; 0. -/
  wallDrops : Nat := 0
  /-- bell-lane messages on their way down to this core; R203; none. -/
  inbox : List DownMsg := []
  /-- R93; idle arithmetic cycles in a row; 0. -/
  idle : Nat := 0
  /-- a count; R109; operations issued; 0. -/
  issued : Nat := 0
  /-- R63; by requester in the order of Table 2 of chapter 3 (0 router, 1 commit copy, 2 to 9 operand loaders, 10 to 17 drains, 18 attention pipe,
  19 row unit, 20 vector unit, 21 background), the scratchpad lines that one of its streams has still to access; none. -/
  bankReqs : List (Nat × List Nat) := []
  /-- R88; waits of the router in slots that are still to pass: slot and cause; none. -/
  routerWaits : List (Nat × Nat) := []
  /-- R91; END sent in this section; false. -/
  endSent : Bool := false
deriving DecidableEq, Repr

/-- A core site, by physical site row × 50 + column (R11, R213). -/
structure Site where
  /-- R317; fenced; false. -/
  fenced : Bool := false
  /-- R216, R317; router bypassed; false. -/
  bypassed : Bool := false
  /-- R317, R423; probes missed in a row; 0. -/
  missed : Nat := 0
  /-- R317; addresses with corrected errors in this hour window; none. -/
  corrected : List Nat := []
  /-- 1 bit; R171; CORE.ATTN.PIPE_OK; 0. -/
  pipeOk : Bool := false
  /-- 1 bit; R171; CORE.ATTN.FUSED; 1. -/
  fused : Bool := true
  /-- R171; the value FUSED takes at the next close-section bell; none. -/
  fusedNext : Option Bool := none
  /-- 8 bits; R171; CORE.ATTN.CHECK_GEN; 0. -/
  checkGen : Nat := 0
  /-- 1 bit; R171; CORE.ATTN.CACHE_OK; 0. -/
  cacheOk : Bool := false
  /-- 32 bits; R169; CORE.ATTN_FUSED; 0. -/
  fusedRuns : Nat := 0
  /-- R171, R320; a repair record holds FUSED; false. -/
  fusedHeld : Bool := false
  /-- a count; R171; checks of the site; 0. -/
  checks : Nat := 0
deriving DecidableEq, Repr

/-- A line of a slice's cache (R225, R230). -/
structure SliceLine where
  /-- the address of its first byte (TAG and SET, R219). -/
  addr : Nat := 0
  /-- four bits; R225. -/
  valid : List Bool := [false, false, false, false]
  /-- four bits; R225. -/
  dirty : List Bool := [false, false, false, false]
  /-- 256 bytes by offset. -/
  bytes : SMap Byte := []
  /-- R322; dirty since before the running step began. -/
  old : Bool := false
  /-- R230; the draft's commit group, for a shadow line. -/
  shadow : Option Nat := none
  /-- R54; on a shadow line, the stored types of its sixteen 16-byte words that have been written. -/
  types : SMap (Option (Option SType)) := []
  /-- R225; time of its last use. -/
  used : Nat := 0
  /-- R232, R425; sub-lines found with an uncorrectable error, whose stored bits stay as they are; none. -/
  bad : List Nat := []
  /-- 1 bit; R231, R247, R250; its dirty sub-lines go back in the slice's next occurrences; false. -/
  flush : Bool := false
  /-- R227; slot plus 1 in which a fill last installed it; 0. -/
  filled : Nat := 0
deriving DecidableEq, Repr

/-- A fill request of a slice (R227 to R229): `sent` towards the edge router, `ready` at the controller, `data` on its way
back. -/
structure Fill where
  /-- 44 bits; R219, R227; address of the line. -/
  addr : Nat := 0
  /-- 1 bit; R229; the request has gone to the edge router. -/
  sent : Bool := false
  /-- 2,048 bits; R228; the line's data once read. -/
  data : Option (SMap Byte) := none
  /-- the line in transit to the slice. -/
  arriving : Bool := false
  /-- R195, R229; the slot from which its read can be ready, or once on its way back the slot from which it is installed. -/
  due : Nat := 0
  /-- R247; parked on a page in migration. -/
  parked : Bool := false
  /-- a host aperture or command request rather than a job's (R255). -/
  host : Bool := false
deriving DecidableEq, Repr

/-- A page-table entry that a slice reads for its translation cache (R228): its read has been sent, has come, or is on its way back. -/
structure Walk where
  /-- 23 bits; R228; the page. -/
  page : Nat := 0
  /-- 1 bit; R229; the request has gone to the edge router. -/
  sent : Bool := false
  /-- 1 bit; R228; the entry has been read. -/
  read : Bool := false
  /-- R195, R229; the slot from which it can be ready, or once on its way back the slot from which it is taken in. -/
  due : Nat := 0
  /-- 1 bit; R229; the entry is in transit to the slice. -/
  arriving : Bool := false
deriving DecidableEq, Repr

/-- A shared slice (R224 to R232). -/
structure Slice where
  /-- cache lines by bay × 256 + set; R225; none valid. -/
  lines : SMap SliceLine := []
  /-- bytes of the bays that pin windows take, by slice byte; R223; 0. -/
  pin : SMap Byte := []
  /-- R232, R425; 64-byte pieces of pin windows found with an uncorrectable error, by slice byte / 64; none. -/
  pinBad : List Nat := []
  /-- R223; 64-byte pieces of pin windows written since JOB_LOAD, by slice byte / 64; none. -/
  pinWritten : List Nat := []
  /-- bays taken by pin windows; R224; none. -/
  pinBays : List Nat := []
  /-- 64 slots; R228; fill requests; none. -/
  fills : List Fill := []
  /-- R225, R229; evicted lines waiting to be written back; none. -/
  wbQueue : List SliceLine := []
  /-- R229; write-back lines on their way to the HBM controller; none. -/
  wbSent : List SliceLine := []
  /-- 3 bits; R229; credits of lines that have been written, to come back with the next unit towards the slice; 0. -/
  owed : Nat := 0
  /-- R228; page-table entries being read; none. -/
  walks : List Walk := []
  /-- R225; lines to which a write is held; none. -/
  held : List Nat := []
  /-- 512 entries; R228; translation cache, most recent first; empty. -/
  xlate : List Nat := []
  /-- order of uses for least-recent replacement; R225; 0. -/
  clock : Nat := 0
  /-- R230; verdicts received and not yet applied: group, commit; none. -/
  inbox : List (Nat × Bool) := []
  /-- R230; verdicts applied before an access and not yet told to the commit controller: group, commit; none. -/
  applied : List (Nat × Bool) := []
  /-- R229; slot plus 1 of the last cache-slot occurrence; 0. -/
  lastSlot : Nat := 0
  /-- R190, R229; cache-slot occurrences taken in that slot; 0. -/
  slotUses : Nat := 0
  /-- R413; in retention; false. -/
  asleep : Bool := false
  /-- R413; accessed in this telemetry window; false. -/
  touched : Bool := false
  /-- 32 bits each; Table 3 of chapter 8: HITS, FILLS, WRITEBACKS, BANK_CAP, OWNER_DROPS, SRAM_CE, SRAM_REFILL by 0 to 6; 0. -/
  counts : SMap Nat := []
deriving DecidableEq, Repr

/-- A row's cloakroom and its counters (R210 to R212). -/
structure Cloak where
  /-- 4,096 tokens of 16 B with the column and queue they were spilled from; R210; empty. -/
  toks : List (Nat × Nat × Tok) := []
  /-- late tokens of the preceding epoch; R212; none. -/
  late : List Tok := []
  /-- 32 bits each; Table 9 of chapter 7: SPILLED, REINJECTED, DISCARDED, OVERFLOW, LATE by 0 to 4; 0. -/
  counts : SMap Nat := []
deriving DecidableEq, Repr

/-- An edge router's occupancy counters (R206, Table 6 of chapter 7). -/
structure Edge where
  /-- 32 bits each; VEC_IN, VEC_OUT, XBAR_IN, XBAR_OUT, XBAR_HBM by 0 to 4, and by 5 the slot from which SLOTS counts; 0. -/
  counts : SMap Nat := []
deriving DecidableEq, Repr

/-- State of an HBM stack, HBM.STATUS.STACK_STATE (Table 6 of chapter 8). -/
inductive StackSt
  | normal | sparing | spare | fenced
deriving DecidableEq, Repr

/-- An HBM stack (R233 to R243). -/
structure Stack where
  /-- 2 bits; R243; normal 0b00. -/
  st : StackSt := .normal
  /-- 5 bits; R242; logical pseudo-channel moved to the spare; 0. -/
  spareFor : Nat := 0
  /-- 24 bits; R242; copy cursor in units of 256 B; 0. -/
  cursor : Nat := 0
  /-- stored lines by frame × 32,768 + line; R221, R235; DESIGN CHOICE an unlisted line reads as zeros (entry 6). -/
  lines : SMap HbmLine := []
  /-- frames in use; R221; none. -/
  used : List Nat := []
  /-- 32 bits each by pseudo-channel; R239; HBM.CE, HBM.UE, HBM.TAG_FAIL; 0. -/
  ce : SMap Nat := []
  /-- 32 bits by pseudo-channel; R239; HBM.UE; 0. -/
  ue : SMap Nat := []
  /-- 32 bits by pseudo-channel; R239; HBM.TAG_FAIL; 0. -/
  tagFail : SMap Nat := []
  /-- 16 bits by pseudo-channel; R241; HBM.ROWS_REPAIRED; 0. -/
  rowsRepaired : SMap Nat := []
  /-- R241; distinct lines with corrected errors in this scrub window, by row; none. -/
  rowErrs : SMap (List Nat) := []
  /-- R242; corrected errors in this hour window by pseudo-channel; 0. -/
  hourErrs : SMap Nat := []
  /-- a count; R233; reports of the on-die code; 0. -/
  onDie : Nat := 0
  /-- 16 bits; HBM.SCRUB.PASSES; 0. -/
  passes : Nat := 0
  /-- 16 bits; HBM.SCRUB.PROGRESS; 0. -/
  progress : Nat := 0
  /-- R413; self refresh; false. -/
  asleep : Bool := false
  /-- R413; had traffic in this telemetry window; false. -/
  touched : Bool := false
  /-- R421; refresh doubled at 85 °C; false. -/
  doubled : Bool := false
  /-- R421; accepts requests in alternate cycles at 95 °C; false. -/
  slowed : Bool := false
  /-- R426; temperature at the last training, 0.125 °C; DESIGN CHOICE 0 (entry 6). -/
  trainedAt : Int := 0
deriving DecidableEq, Repr

/-- The states of a page (R244, Table 7 of chapter 8). -/
inductive PageSt
  | unmapped | zero | hbm | far | inn | out | pin
deriving DecidableEq, Repr

/-- A page-table entry (R244, R245) with the bits that satchels and windows give it. -/
structure Page where
  /-- 3 bits; R244; STATE; UNMAPPED. -/
  st : PageSt := .unmapped
  /-- 15 bits; R221; frame in the page's stack. -/
  frame : Nat := 0
  /-- 1 bit; R244. -/
  farValid : Bool := false
  /-- 1 bit; R231. -/
  satDirty : Bool := false
  /-- 1 bit; R324; PENDING. -/
  satPending : Bool := false
  /-- 32 bits; R252; version recorded as its transfer started. -/
  version : Nat := 0
  /-- R321; frame of its boundary version; 23,808 where the page stood ZERO at the boundary. -/
  boundary : Option Nat := none
  /-- R321; lines of the new frame that have been written, and whether every other line has been copied. -/
  copied : List Nat := []
  /-- 1 bit; R321; every line not yet written has been copied from the boundary version. -/
  copyAll : Bool := false
  /-- R246, R288; pieces of 4 KiB that have come over the links. -/
  arrived : List Nat := []
  /-- R250; a transfer out that MEM_FLUSH asked for: the page stays in HBM. -/
  flushing : Bool := false
  /-- R248; telemetry window of its last touch. -/
  touched : Nat := 0
  /-- R246; place of its far page on its backend. -/
  farSlot : Nat := 0
  /-- R246; attempts of the transfer in progress that have failed. -/
  tries : Nat := 0
  /-- R246; tick at which the transfer in progress started. -/
  started : Nat := 0
deriving DecidableEq, Repr

/-- An allocation (R248): policy 0 MIGRATE, 1 HELD, 2 FAR_HOME. -/
structure Alloc where
  /-- 44 bits; R248; first address. -/
  base : Nat := 0
  /-- 44 bits; R248; length in bytes. -/
  len : Nat := 0
  /-- 2 bits; R248; POLICY. -/
  policy : Nat := 0
  /-- 2 bits; R246, R248; backend slot. -/
  backend : Nat := 0
deriving DecidableEq, Repr

/-- A far-tier backend (R246): kind 0 host memory, 1 another device's HBM, 2 memory node. -/
structure Backend where
  /-- 2 bits; R246; KIND. -/
  kind : Nat := 0
  /-- 16 bits; R246; target device or node. -/
  target : Nat := 0
  /-- 16 bits; R246; region number. -/
  region : Nat := 0
  /-- 32 bits; R246; TIMEOUT_MS, 250 where 0 was given. -/
  timeoutMs : Nat := 250
  /-- 64 bits; R246; base of the region. -/
  base : Nat := 0
  /-- 64 bits; R246; length of the region. -/
  len : Nat := 0
deriving DecidableEq, Repr

/-- A page transfer in progress (R247). -/
structure Transfer where
  /-- 23 bits; R247; the page. -/
  page : Nat := 0
  /-- 1 bit; R247; inwards. -/
  inward : Bool := true
  /-- 1 bit; R247; outwards, and its home slice still writes back its lines. -/
  drain : Bool := false
  /-- 1 bit; R251; a prefetch started it. -/
  prefetch : Bool := false
deriving DecidableEq, Repr

/-- Keys of one generation of a partition (R403): the two XTS keys and the integrity key. -/
structure MemKeys where
  /-- 256 bits; R237. -/
  dataKey : BitVec 256 := 0
  /-- 256 bits; R237. -/
  tweakKey : BitVec 256 := 0
  /-- 256 bits; R238. -/
  macKey : BitVec 256 := 0
deriving DecidableEq, Repr

/-- A block of a key-value command (R193): its units, the memory address of its frame, the scratchpad address of a load, and of a store the
units it writes, by number in the frame, each with the bytes that change; the request it belongs to, and how many positions of a
loaded frame lie below LIMIT. -/
structure KvBlock where
  /-- 1 bit; R193; a store rather than a load. -/
  store : Bool := false
  /-- a count; R193; 256-byte units of the block. -/
  units : Nat := 0
  /-- 44 bits; R193; memory address of its frame. -/
  mem : Nat := 0
  /-- 21 bits; R193; scratchpad address of a load. -/
  spad : Nat := 0
  /-- by unit, the bytes that change; R193; data of a store. -/
  data : List (Nat × SMap (Option Byte)) := []
  /-- a count; R178; number of its request. -/
  req : Nat := 0
  /-- 7 bits; R180; positions of a loaded frame below LIMIT. -/
  keep : Nat := 64
deriving DecidableEq, Repr

/-- A launched block of a stream (R191): its number, the group of a launching draft task, the launching core, sequencer
and posting order of the launching task, and, for a key-value block, what R193 gives it. -/
structure Launch where
  /-- a count; R191; block number. -/
  block : Nat := 0
  /-- 8 bits; R191; group of a launching draft task. -/
  group : Option Nat := none
  /-- 11 bits; R191; launching core. -/
  core : Nat := 0
  /-- 2 bits; R65; launching sequencer. -/
  seq : Stream := .F
  /-- a count; R452; posting order of the launching task. -/
  order : Nat := 0
  /-- a key-value block; R193. -/
  kv : Option KvBlock := none
  /-- R191; slot of the launch. -/
  at' : Nat := 0
  /-- R227; lines for which its launch asked fills. -/
  missed : List Nat := []
deriving DecidableEq, Repr

/-- A stream's blocks (R191, R192): launches pending, the block in progress, and how far it has been delivered. -/
structure StreamSt where
  /-- R191; blocks launched whose last unit has not moved, at most four. -/
  pending : List Launch := []
  /-- R191; blocks launched since the section's start. -/
  launched : Nat := 0
  /-- R191; units of the present block that have moved. -/
  unit : Nat := 0
  /-- R192; blocks whose last unit has moved and has not been delivered, with its delivery slot. -/
  moving : List (Launch × Nat) := []
  /-- R192; delivery slot of each block's last unit, by block number. -/
  due : SMap Nat := []
  /-- R190; slot plus 1 of the last occurrence that came. -/
  last : Nat := 0
deriving DecidableEq, Repr

/-- A unit of a launched block on its way to its delivery slot (R195, R196, R199): bytes read at its launch, for cores of the stream's rectangle, or for
its slice. -/
structure Flit where
  /-- 12 bits; R190; stream. -/
  stream : Nat := 0
  /-- the block. -/
  launch : Launch := {}
  /-- a count; R191; unit of the block. -/
  unit : Nat := 0
  /-- 128 or 64 bytes; R190. -/
  data : List Byte := []
  /-- R54; stored types of its 16-byte words. -/
  types : List (Option SType) := []
  /-- R190; cores that have still to take it. -/
  cores : List Nat := []
  /-- R196, R199; its delivery slot. -/
  due : Nat := 0
deriving DecidableEq, Repr

/-- A closed draft as the commit controller keeps it for a group's round (R84, R450). -/
structure Closure where
  /-- 11 bits; R84; core. -/
  core : Nat := 0
  /-- 12 bits; R84; layer of its tag. -/
  layer : Nat := 0
  /-- 12 bits; R450; micro-batch of its tag. -/
  mb : Nat := 0
  /-- list of (cause, type); R52, R450; overflow causes. -/
  causes : List (Nat × Nat) := []
deriving DecidableEq, Repr

/-- A commit group's round in the commit controller (R83, R84, R265). -/
structure Group where
  /-- R84; closures of this round. -/
  closures : List Closure := []
  /-- R265; closures of the next round, held. -/
  next : List Closure := []
  /-- R84; parents on whose rounds, still without a commit, this round depends; none. -/
  parents : List Nat := []
  /-- R53, R303; overflow flags of REMOTE peers: device, low seven bits of the round, flag. -/
  flags : List (Nat × Nat × Bool) := []
  /-- R53; this device's flag of the round has been sent to the REMOTE peers. -/
  flagSent : Bool := false
  /-- R84; verdicts formed in the section. -/
  att : Nat := 0
  /-- R84; discarded for its clip scalar in this round. -/
  clipped : Bool := false
  /-- R87; the group's rung. -/
  rung : Nat := 0
  /-- R84; the verdict formed and not yet applied everywhere: commit, for the clip scalar. -/
  verdict : Option (Bool × Bool) := none
  /-- R265; cores and slices that have still to apply the verdict. -/
  toApply : List Nat := []
  /-- 8 bits each; R230, R265; slices that have still to apply the verdict; none. -/
  slicesToApply : List Nat := []
  /-- 7 bits; R303; round number. -/
  round : Nat := 0
deriving DecidableEq, Repr

/-- A layer's entry of the norm table (R155). -/
structure NormEntry where
  /-- 32 bits; R155; weight norm square. -/
  w : Option W32 := none
  /-- 32 bits; R155; gradient norm square. -/
  g : Option W32 := none
  /-- 32 bits; R155; update norm square. -/
  u : Option W32 := none
deriving DecidableEq, Repr

/-- Job state (R379). -/
inductive JobSt
  | none | loaded | running | held
deriving DecidableEq, Repr

/-- Where the partition's section change stands (R208, R209). -/
inductive SectSt
  | idle | open | closing | closed | windowA | windowB | windowC
deriving DecidableEq, Repr

/-- A sequence descriptor (R176): state 0 FREE, 1 OPEN, 2 PARKED, 3 ENDED. -/
structure SeqDesc where
  /-- 2 bits; R176; STATE; FREE. -/
  st : Nat := 0
  /-- 8 bits; R176; END_STATUS. -/
  endStatus : Nat := 0
  /-- 1 bit; R176; EVICTED. -/
  evicted : Bool := false
  /-- 32 bits; R176; LENGTH. -/
  length : Nat := 0
  /-- 32 bits; R176; beat epoch at PARK. -/
  parkBeat : Nat := 0
  /-- 32 bits; R176; host's tag. -/
  tag : Nat := 0
deriving DecidableEq, Repr

/-- One appended position as quantised (R178): K and V elements as encodings, their block scales, and the position word. -/
structure KvRow where
  /-- HDIM encodings; R174, R178; K elements. -/
  k : List Nat := []
  /-- HDIM/32 bytes, rounded up; R174, R178; K block scales. -/
  kScale : List Nat := []
  /-- HDIM encodings; R174, R178; V elements. -/
  v : List Nat := []
  /-- HDIM/32 bytes, rounded up; R174, R178; V block scales. -/
  vScale : List Nat := []
  /-- 64 bits; R175; position word. -/
  word : W64 := 0
deriving DecidableEq, Repr

/-- An append (R178, R179, R182) or load (R180) of a slot that has not ended, or a draft append whose group awaits its verdict. -/
structure KvReq where
  /-- a count; R178; number of the request. -/
  id : Nat := 0
  /-- 11 bits; R178; issuing core. -/
  core : Nat := 0
  /-- 2 bits; R65; issuing sequencer. -/
  seq : Stream := .F
  /-- a count; R452; posting order of the issuing task. -/
  order : Nat := 0
  /-- 1 bit; R180; KV_LOAD rather than KV_APPEND. -/
  load : Bool := false
  /-- 10 bits; R176; sequence slot. -/
  slot : Nat := 0
  /-- 8 bits; R173; layer slot. -/
  layerSlot : Nat := 0
  /-- 6 bits; R173; head. -/
  head : Nat := 0
  /-- 32 bits; R178, R180; first position. -/
  start : Nat := 0
  /-- a count; R178; positions of an append. -/
  count : Nat := 0
  /-- 32 bits; R180; LIMIT of a load. -/
  limit : Nat := 0
  /-- a count; R180; first page table entry of a load. -/
  firstPage : Nat := 0
  /-- scratchpad address of the first frame image of a load. -/
  addr : Nat := 0
  /-- positions of an append, in order. -/
  rows : List KvRow := []
  /-- 8 bits; R179; commit group of a draft append. -/
  draft : Option Nat := none
  /-- R178; admitted, so that its blocks are to be launched. -/
  admitted : Bool := false
  /-- R193; blocks still to be launched, by stream, and launched blocks that have not ended. -/
  blocks : List (Nat × KvBlock) := []
  /-- a count; R193; launched blocks that have not ended. -/
  left : Nat := 0
  /-- R182; waiting for a frame, since the tick given. -/
  noFrame : Bool := false
  /-- an AON tick; R182; when the wait for a frame began. -/
  since : Nat := 0
  /-- R168, R88; cause plus 1 under which the next unit of its blocks waits; 0 where it does not. -/
  why : Nat := 0
deriving DecidableEq, Repr

/-- A key-value pool (R173 to R183). -/
structure KvPool where
  /-- 2 bits; R173, R174; TYPE. -/
  type : Nat := 1
  /-- 9 bits; R173; HDIM. -/
  hdim : Nat := 16
  /-- 9 bits; R173; LAYERS. -/
  layers : Nat := 1
  /-- 7 bits; R173; HEADS. -/
  heads : Nat := 1
  /-- 13 bits; R173; MAXP, in pages of 64 positions. -/
  maxp : Nat := 1
  /-- 11 bits; R173; SLOTS. -/
  slots : Nat := 1
  /-- 1 bit; R173, R182; GROW. -/
  grow : Bool := false
  /-- R173; layer id, K_COARSE, V_COARSE by layer slot. -/
  table : List (Nat × W32 × W32) := []
  /-- R173; pool pages, by page number. -/
  pages : List Nat := []
  /-- R178; free frames. -/
  free : List Nat := []
  /-- R176; descriptors by slot. -/
  desc : SMap SeqDesc := []
  /-- R177; page tables by (slot, index), as slot × 2^32 + index: frame number plus 1 (VALID). -/
  table2 : SMap Nat := []
  /-- R179; frames taken by draft appends: group, entry, frame. -/
  draftFrames : List (Nat × Nat × Nat) := []
  /-- R179; draft appends admitted whose group has had no verdict. -/
  draftReqs : List KvReq := []
  /-- R178; end of the positions written, by (slot × 256 + layer slot) × 64 + head; 0. -/
  written : SMap Nat := []
  /-- number of the next request; 0. -/
  nextReq : Nat := 0
  /-- R178, R180; requests that wait. -/
  reqs : List KvReq := []
  /-- R178; appends to a slot that is not OPEN. -/
  notOpen : Nat := 0
deriving DecidableEq, Repr

/-- A shard of the intake's list (R350). -/
structure Shard where
  /-- 64 bits; R350; BASE. -/
  base : Nat := 0
  /-- 32 bits; R350; STRIDE. -/
  stride : Nat := 0
  /-- 36 bits; R350; LENGTH. -/
  len : Nat := 0
  /-- 1 bit; R350; SHUFFLE. -/
  shuffle : Bool := false
deriving DecidableEq, Repr

/-- The intake unit of a partition (R350 to R359). -/
structure Intake where
  /-- R359; configured; false. -/
  configured : Bool := false
  /-- 44 bits; R353; RING_BASE; 0. -/
  ringBase : Nat := 0
  /-- 64 bits; R351, R353; shuffle KEY; 0. -/
  key : W64 := 0
  /-- 32 bits; R353; RECORD_BYTES; 0. -/
  recordBytes : Nat := 0
  /-- 27 bits; R353; SLOT_BYTES; 0. -/
  slotBytes : Nat := 0
  /-- 17 bits; R353; SLOTS; 0. -/
  slots : Nat := 0
  /-- 14 bits; R353, R355; FILL bell; 0. -/
  fill : Nat := 0
  /-- 14 bits; R353, R355; FREE bell; 0. -/
  free : Nat := 0
  /-- 12 bits; R351, R353; EPOCHS; 0. -/
  epochs : Nat := 0
  /-- up to 16 entries of 256 bits; R353; none. -/
  fields : List (BitVec 256) := []
  /-- up to 4,096; R350; empty. -/
  shards : List Shard := []
  /-- 12, 12 and 36 bits; R351; the cursor; 0. -/
  epoch : Nat := 0
  /-- 12 bits; R351; SHARD of the cursor; 0. -/
  shard : Nat := 0
  /-- 36 bits; R351; INDEX of the cursor; 0. -/
  index : Nat := 0
  /-- R355; number of the next sample; 0. -/
  k : Nat := 0
  /-- R356; cursors of first samples, by step; none. -/
  firsts : SMap Nat := []
  /-- 2 bits; Table 6 of chapter 12; 0 idle, 1 running, 2 waiting for host data, 3 stopped; 0. -/
  st : Nat := 0
  /-- 1 bit; RING_FULL; 0. -/
  ringFull : Bool := false
  /-- 8 bits; STOP_STATUS; 0. -/
  stopStatus : Nat := 0
  /-- R351; the last sample of the last epoch has been written; false. -/
  finished : Bool := false
  /-- 32 bits each; Table 6 of chapter 12: SAMPLES, RANGE, WAIT_HOST, WAIT_RING, IGNORED by 0 to 4; 0. -/
  counts : SMap Nat := []
  /-- R15; staged high half of MBX.INTAKE_APPEND; 0. -/
  appendHi : W32 := 0
  /-- R357; the read of the present sample has failed once; false. -/
  retried : Bool := false
deriving DecidableEq, Repr

/-- Satchel settings and progress of a partition (R323 to R330). -/
structure Satchel where
  /-- 1 bit; R323; SATCHEL_CONFIG has completed; false. -/
  configured : Bool := false
  /-- up to 64 allocation bases; R323; the satchel set; none. -/
  set : List Nat := []
  /-- 16 bits; R323; INTERVAL; 1. -/
  interval : Nat := 1
  /-- 16 bits; R330; FAR_EVERY; 0. -/
  farEvery : Nat := 0
  /-- 10 bits; R323; SAT_BELL; 0. -/
  satBell : Nat := 0
  /-- 1 bit; R323; BUDDY; 0. -/
  buddyEn : Bool := false
  /-- 2 bits; R330; FAR_BACKEND; 0. -/
  farBackend : Nat := 0
  /-- 5 bits; R323; SPARES; 0. -/
  spares : Nat := 0
  /-- R341; SATCHEL_TAKE makes the next boundary due. -/
  dueNext : Bool := false
  /-- R324; the next satchel is a base satchel. -/
  baseNext : Bool := true
  /-- R326; buddy device. -/
  buddy : Option Nat := none
  /-- R327; step of the satchel in progress. -/
  inProgress : Option Nat := none
  /-- R327; SAT_BELL count when the satchel in progress was taken. -/
  bellBase : W32 := 0
  /-- R325; pages still to be sent. -/
  toSend : List Nat := []
  /-- R325; next piece of 4 KiB of the page being sent, and whether the schedule record is still to be sent; 0, false. -/
  piece : Nat := 0
  /-- 1 bit; R325; the schedule record is still to be sent; false. -/
  recordLeft : Bool := false
  /-- a count; R341; pages sent of the satchel in progress; 0. -/
  sent : Nat := 0
  /-- a count; R341; pages of the satchel in progress; 0. -/
  inSet : Nat := 0
  /-- R327; last committed satchel. -/
  committed : Option Nat := none
  /-- R330; last committed far satchel, one in progress, committed satchels counted, and abandoned ones. -/
  far : Option Nat := none
  /-- 64 bits; R330; step of the far satchel in progress; none. -/
  farInProgress : Option Nat := none
  /-- a count; R330; satchels committed since SATCHEL_CONFIG; 0. -/
  taken : Nat := 0
  /-- 32 bits; R330; far satchels abandoned; 0. -/
  farAbandoned : Nat := 0
deriving DecidableEq, Repr

/-- A buddy store that the partition keeps for a source device (R326, R327): pages of the committed satchel and of the one
in progress. -/
structure BuddyStore where
  /-- 14 bits; R326; source device. -/
  src : Nat := 0
  /-- 64 bits; R327; step of the committed satchel; none. -/
  step : Option Nat := none
  /-- by page, its lines; R325; pages of the committed satchel; none. -/
  pages : SMap (SMap HbmLine) := []
  /-- a schedule record; R328; of the committed satchel; none. -/
  record : Option SchedRec := none
  /-- 64 bits; R327; step of the satchel in progress; none. -/
  newStep : Option Nat := none
  /-- by page, its lines; R325; pages of the satchel in progress; none. -/
  newPages : SMap (SMap HbmLine) := []
  /-- a schedule record; R328; of the satchel in progress; none. -/
  newRecord : Option SchedRec := none
  /-- R327; pieces of 4 KiB of the satchel in progress that have come. -/
  newPieces : Nat := 0
deriving DecidableEq, Repr

/-- Telemetry of a partition (R430): records kept by window, each by smallest partition as bytes by offset, and overflow records by step. -/
structure Tel where
  /-- step number at the start of the window in progress; 0. -/
  step : Nat := 0
  /-- by window, 128 KiB for a device by partition; R430; the last windows kept; none. -/
  windows : List (Nat × SMap (SMap Byte)) := []
  /-- by step, records of 32 B; R56, R430; overflow records; none. -/
  overflow : SMap (List OvfRec) := []
  /-- by step, a count; R430; overflow records dropped; 0. -/
  dropped : SMap Nat := []
  /-- R431; TEL_STREAM: base, entries, enabled. -/
  streamBase : Nat := 0
  /-- 32 bits; R431; ENTRIES of the sample ring; 0. -/
  streamEntries : Nat := 0
  /-- 1 bit; R431; ENABLE; 0. -/
  streaming : Bool := false
deriving DecidableEq, Repr

/-- A partition (R23, R386), by its lowest member. -/
structure Part where
  /-- R379; NONE. -/
  job : JobSt := .none
  /-- R24; the loaded image and its digest; none. -/
  image : Option Image := none
  /-- 512 bits; R24; digest of the loaded image; 0. -/
  digest : BitVec 512 := 0
  /-- 64 bits each; R142; none (DESIGN CHOICE 0, entry 6). -/
  roundKey : W64 := 0
  /-- 64 bits; R142; random key; DESIGN CHOICE 0 (entry 6). -/
  randomKey : W64 := 0
  /-- 64 bits; R256; 0. -/
  step : Nat := 0
  /-- R382; steps of the run done and still to do (0 asked: until JOB_STOP). -/
  runSteps : Nat := 0
  /-- a count; R382; steps of the run done; 0. -/
  stepsDone : Nat := 0
  /-- 16 bits; R367, R379; TAG of the running JOB_RUN; 0. -/
  runTag : Nat := 0
  /-- 6 bits; R361; its ring; 0. -/
  runRing : Nat := 0
  /-- 1 bit; R379; JOB_STOP has been taken; false. -/
  stopAsked : Bool := false
  /-- R382; status of the last end; 0. -/
  lastStatus : Nat := 0
  /-- R316; key of the note concerned; none. -/
  endNote : Option NoteKey := none
  /-- R322; the step has ended and its pages have been rolled back; false. -/
  replay : Bool := false
  /-- R20; firmware went down while the job ran, so that no next step starts; false. -/
  fwHold : Bool := false
  /-- R20; the step boundary came while firmware was down, and the sequencers hold there; false. -/
  boundHold : Bool := false
  /-- 4,096 bits; R124; frozen map of the running step, and the one set for the next; 0. -/
  frozen : BitVec 4096 := 0
  /-- 4,096 bits; R124; frozen map for the next step; 0. -/
  frozenNext : BitVec 4096 := 0
  /-- 2 bits by layer; R266; layer rung table; 0. -/
  rungs : SMap Nat := []
  /-- R54, R140; 16-byte words of memory that hold a type other than the image's, until the step ends; none. -/
  memTypes : SMap (Option SType) := []
  /-- R54, R450; widenings already recorded in the step: layer, source layer, its rung and pair types, each with its record; none. -/
  widened : List ((Nat × Nat × Nat × Nat × Nat) × OvfRec) := []
  /-- R155; layers that repeated under R54 in the step; none. -/
  escalated : List Nat := []
  /-- R267; rung acknowledgements awaited: layer, device; none. -/
  rungWait : List (Nat × Nat) := []
  /-- 60 bits; R144; data-position register; 0 (DESIGN CHOICE where not given, entry 6). -/
  dataPos : Nat := 0
  /-- 6 bits; R66, R208; section epoch; 0. -/
  epoch : Nat := 0
  /-- R91; index of the open section and of the next; 0. -/
  section_ : Nat := 0
  /-- 10 bits; R91; index of the next section; 0. -/
  nextSection : Nat := 0
  /-- a name; R208, R209; where the section change stands; idle. -/
  sect : SectSt := .idle
  /-- R22; the step to which the open section belongs, and whether the last section of the running step has closed; 0. -/
  openStep : Nat := 0
  /-- 1 bit; R22; the last section of the running step has closed; false. -/
  stepClosed : Bool := false
  /-- 60 bits; R49, R144; data position of the step of the open section; 0 (DESIGN CHOICE where not given, entry 6). -/
  openPos : Nat := 0
  /-- R208, R209; fabric time of the switch slot and of START. -/
  switchAt : Nat := 0
  /-- 64 bits; R209; fabric time of START; 0. -/
  startAt : Nat := 0
  /-- R208; seated cores whose END the root holds; none. -/
  ended : List Nat := []
  /-- 10 bits; R185; period entry in progress; 0. -/
  entry : Nat := 0
  /-- R186; fabric time at which it started, and whether a gap precedes it. -/
  entryAt : Nat := 0
  /-- 1 bit; R186; a gap precedes the entry; false. -/
  gap : Bool := false
  /-- 32 bits; R185; round counter; 0. -/
  round : Nat := 0
  /-- 20 bits; R92; section watchdog in slots; 0. -/
  watchdog : Nat := 0
  /-- 16,384 counts of 32 bits; R202, R302; bell counts (mirrors for B0 to B1023); 0 (R451: none armed). -/
  bells : SMap W32 := []
  /-- R302; the root's counts of the global bells of the job, where this device is the root; 0. -/
  rootBells : SMap W32 := []
  /-- R203; bells that some sequencer has armed; none. -/
  armed : List Nat := []
  /-- R203; messages on their way up to the control root; none. -/
  up : List UpMsg := []
  /-- 256 groups; R83; clear. -/
  groups : SMap Group := []
  /-- R84, R271; the step's clip scalar; none. -/
  clip : Option W32 := none
  /-- R289; frames on the partition's ports still to be checked hold every verdict; 0. -/
  unchecked : Nat := 0
  /-- R257; count of the step bell at the previous boundary; 0. -/
  stepBase : W32 := 0
  /-- R155; norm table by layer; empty. -/
  norms : SMap NormEntry := []
  /-- up to 4,096 streams; R190, R191; none launched. -/
  streams : SMap StreamSt := []
  /-- R196, R199; units of launched blocks on their way; none. -/
  flits : List Flit := []
  /-- R77, R196; tokens on their way; none. -/
  toks : List TokFlight := []
  /-- R76, R196; credits on their way; none. -/
  credits : List CreditFlight := []
  /-- R294, R296; data and tokens on their way to link streams; none. -/
  moves : List LinkMove := []
  /-- R296; blocks that each link stream has moved since the section's start, by 4,096 × port + stream; 0. -/
  linkBlocks : SMap Nat := []
  /-- R302; TIMED flits that tasks have sent and that have still to be handed on: core, sequencer, hand-on slot; none. -/
  timedOut : List (Nat × Stream × Nat) := []
  /-- R269; committed U tasks of the step's last micro-batch, by layer; 0. -/
  lastU : SMap Nat := []
  /-- R269; collectives of the step that have started, by layer; none. -/
  colls : SMap (Option CollRun) := []
  /-- R213; failed physical columns by row, in effect and waiting for a switch slot (R319); none. -/
  failed : SMap (List Nat) := []
  /-- by row, columns; R319; failed columns that wait for a switch slot; none. -/
  failedNext : SMap (List Nat) := []
  /-- R318; the partition has left every job; false. -/
  left : Bool := false
  /-- R249; the four quotas and their use: SCRATCH, SLICE_BAYS, HBM_FRAMES, FAR_PAGES; 0 until set (R387). -/
  quota : List Nat := [0, 0, 0, 0]
  /-- four counts; R249; use of the quotas; 0. -/
  use : List Nat := [0, 0, 0, 0]
  /-- R244; page table by page; UNMAPPED. -/
  pages : SMap Page := []
  /-- 32 entries; R245; directory: stack and frame of the page table of each 262,144 pages; none. -/
  tables : SMap (Option (Nat × Nat)) := []
  /-- up to 4,096 allocations; R248; none. -/
  allocs : List Alloc := []
  /-- four slots; R246; none attached. -/
  backends : SMap (Option Backend) := []
  /-- R246; regions exported to peers: region, base, length; none. -/
  exports : List (Nat × Nat × Nat) := []
  /-- R247; page transfers in progress, at most 16; none. -/
  transfers : List Transfer := []
  /-- frames; R275; HBM use at JOB_LOAD, from which the declared demand counts; 0. -/
  loadUse : Nat := 0
  /-- R252; VERSION by window; none. -/
  versions : SMap Nat := []
  /-- R251; pages still to be prefetched, and prefetches dropped; none. -/
  prefetch : List Nat := []
  /-- a count; R251; prefetches dropped; 0. -/
  prefetchDropped : Nat := 0
  /-- R255; failures of prefetch (0), scrub (1) and satchel (2) traffic: which, page, status; none. -/
  failLog : List (Nat × Nat × Nat) := []
  /-- a pool; R173; key-value pool; none. -/
  pool : Option KvPool := none
  /-- an intake unit; R350; not configured. -/
  intake : Intake := {}
  /-- settings; R323; not configured. -/
  satchel : Satchel := {}
  /-- buddy stores; R326; none. -/
  buddies : List BuddyStore := []
  /-- R328; schedule record of the present boundary and of the last committed satchel; none. -/
  record : Option SchedRec := none
  /-- a schedule record; R328; of the last committed satchel; none. -/
  satRecord : Option SchedRec := none
  /-- telemetry; R430; none. -/
  tel : Tel := {}
  /-- R297; rank map: device identities in rank order; empty. -/
  ranks : List Nat := []
  /-- 32 bits; R300, R335; layout epoch; DESIGN CHOICE 0 (entry 6). -/
  layoutEpoch : Nat := 0
  /-- R335, R336; moves of the plan already completed; none. -/
  movesDone : List ShardMove := []
  /-- R406, R408; job secret installed, and JOB_KEYS completed; false. -/
  jobKey : Bool := false
  /-- 256 bits; R406; the job secret; 0. -/
  jobSecret : BitVec 256 := 0
  /-- 1 bit; R408; JOB_KEYS has completed; false. -/
  jobKeysDone : Bool := false
  /-- 64 bits; R405; JOB_ID of the JOB_KEYS; 0. -/
  jobId : Nat := 0
  /-- 5 bits and flags; R404, R410; current key generation, previous held, re-key pass unfinished; 0. -/
  keyGen : Nat := 0
  /-- 1 bit; R404; the previous generation's key is held; false. -/
  prevHeld : Bool := false
  /-- 1 bit; R404; a re-key pass is unfinished; false. -/
  rekey : Bool := false
  /-- R404; pages the pass has still to bring through; none. -/
  rekeyFar : List Nat := []
  /-- R403; the partition's memory keys exist; false. -/
  memKeys : Bool := false
  /-- 3 × 256 bits; R403; keys of the current generation; DESIGN CHOICE 0 (entry 6). -/
  keys : MemKeys := {}
  /-- 3 × 256 bits; R404; keys of the generation before it; DESIGN CHOICE 0 (entry 6). -/
  prevKeys : MemKeys := {}
  /-- 2 bits; R409, R410; TDI_STATE; 0b00. -/
  tdi : Nat := 0
  /-- R333, R334; a fill in progress into this device: rank, source order, pages still to come; none. -/
  spareFill : Option (Nat × Nat × List Nat) := none
  /-- R333; destination device of the fill in progress; none. -/
  fillDev : Option Nat := none
  /-- 1 bit; R333; the fill in progress was started by the Prefect itself; false. -/
  fillAuto : Bool := false
  /-- 1 bit; R333; the schedule state of the fill in progress is in place; false. -/
  fillRec : Bool := false
  /-- by source; R330; what the far satchel in hand writes to FAR_BACKEND, encrypted under the job's satchel key: committed pages and schedule record of each
  buddy store; none. -/
  farCopy : List BuddyStore := []
  /-- R413; clock tree stopped; false. -/
  treeStopped : Bool := false
deriving DecidableEq, Repr

/-- A command in flight on a ring (R365 to R374). -/
structure Cmd where
  /-- 512 bits; R367; the descriptor. -/
  desc : BitVec 512 := 0
  /-- up to 64 KiB or a failure; R365; the payload as read. -/
  payload : Dma := .ok []
  /-- SQ index of its descriptor. -/
  idx : Nat := 0
  /-- R372; started and past the checks of its start. -/
  started : Bool := false
  /-- AON tick of its start (R408). -/
  startTick : Nat := 0
  /-- AON tick of the doorbell write that made it visible (R370). -/
  since : Nat := 0
  /-- R370; its PENDING has been posted. -/
  pendingSent : Bool := false
  /-- R372; the role its ring carried at its start. -/
  role : Nat := 0
  /-- R370; its final completion waits to be written. -/
  done : Bool := false
  /-- R374; a JOB_RUN that has entered RUNNING, or a command whose end an event completes later. -/
  running : Bool := false
deriving DecidableEq, Repr

/-- A completion (R369, Table 3 of chapter 13). -/
structure Completion where
  /-- 16 bits; R369; TAG. -/
  tag : Nat := 0
  /-- 16 bits; R369; OPCODE. -/
  opcode : Nat := 0
  /-- 8 bits; R369; STATUS. -/
  status : Nat := 0
  /-- 1 bit; R369; PHASE. -/
  phase : Bool := false
  /-- 12 bits; R369; SQ_HEAD. -/
  sqHead : Nat := 0
  /-- 32 bits; R369; RESULT_BYTES. -/
  resultBytes : Nat := 0
  /-- 64 bits; R369; DETAIL. -/
  detail : Nat := 0
  /-- 64 bits; R369; VALUE. -/
  value : Nat := 0
  /-- 1 bit; R366, R369; no interrupt is raised for it. -/
  quiet : Bool := false
  /-- bytes; R369; result written to host memory. -/
  result : List Byte := []
deriving DecidableEq, Repr

/-- A command or event ring (R360 to R366, Table 1 of chapter 13). -/
structure Ring where
  /-- 64 bits; SQ and CQ bases; 0. -/
  sqBase : W64 := 0
  /-- 64 bits; R362; CQ base; 0. -/
  cqBase : W64 := 0
  /-- R15; staged high halves; 0. -/
  sqHi : W32 := 0
  /-- 32 bits; R15; staged high half of the CQ base; 0. -/
  cqHi : W32 := 0
  /-- 4 bits; SIZE_LOG2; 0. -/
  sizeLog2 : Nat := 0
  /-- 1 bit; ENABLE; 0. -/
  enable : Bool := false
  /-- 2 bits; R364; ROLE; 0b00 (partition rings always operator). -/
  role : Nat := 0
  /-- 12 bits; SQ_HEAD; 0. -/
  sqHead : Nat := 0
  /-- 12 bits; CQ_TAIL; 0. -/
  cqTail : Nat := 0
  /-- 1 bit; PHASE; 1. -/
  phase : Bool := true
  /-- 1 bit; ERROR; 0. -/
  error : Bool := false
  /-- host's SQ tail and CQ head as last written; R363; 0. -/
  sqTail : Nat := 0
  /-- 12 bits; R363; host's CQ head as last written; 0. -/
  cqHead : Nat := 0
  /-- 13 bits as a count; RING_INFLIGHT; none. -/
  inflight : List Cmd := []
  /-- R366; completions waiting for a free CQ entry; none. -/
  waiting : List Completion := []
  /-- R378; events dropped before the next; 0. -/
  lost : Nat := 0
  /-- R391; challenge and the tick it was given at; none. -/
  challenge : Option (Nat × Nat) := none
  /-- R391; failed RESPONSEs and the minute they fell in; 0. -/
  failures : Nat := 0
  /-- a count; R391; minute in which the failures fell; 0. -/
  failMinute : Nat := 0
  /-- R391; credential bound to the ring, 0xFF for none. -/
  cred : Nat := 0xFF
deriving DecidableEq, Repr

/-- The registers that every function has its own set of (R343, R345, Table 4 of chapter 12) and its selectors. -/
structure Fn where
  /-- 16 bits; INT.CAUSE; 0. -/
  cause : BitVec 16 := 0
  /-- 16 bits; INT.MASK; 0xFFFF. -/
  mask : BitVec 16 := 0xFFFF
  /-- 16 bits; INT.HOLDOFF; 0. -/
  holdoff : Nat := 0
  /-- R349; vectors in holdoff, with the tick of their last message; none. -/
  inHoldoff : SMap (Option Nat) := []
  /-- R349; causes held until a holdoff ends; none. -/
  heldCauses : BitVec 16 := 0
  /-- R344; messages raised while the link is down; none. -/
  linkHeld : List Nat := []
  /-- 44 bits; INT.APERTURE_ERR; 0. -/
  errAddr : Nat := 0
  /-- 8 bits and flags; INT.APERTURE_ERR_STATUS; 0. -/
  errStatus : Nat := 0
  /-- 1 bit; INT.APERTURE_ERR_STATUS.WRITE; R346; 0. -/
  errWrite : Bool := false
  /-- 1 bit; INT.APERTURE_ERR_STATUS.OVERRUN; R346; 0. -/
  errOverrun : Bool := false
  /-- 44 bits; MBX.APERTURE_BASE, with the high half staged (R15); 0. -/
  apBase : Nat := 0
  /-- 32 bits; R15; staged high half of MBX.APERTURE_BASE; 0. -/
  apHi : W32 := 0
  /-- log2 of BAR4's present size; R345; 36 (64 GiB). -/
  bar4Log2 : Nat := 36
  /-- 3 bits; MBX.APERTURE_PART; 0. -/
  apPart : Nat := 0
  /-- 6 bits; MBX.RING_SELECT; 0. -/
  ringSel : Nat := 0
  /-- 16 bits; CORE.SELECT; 0. -/
  coreSel : Nat := 0
  /-- 8 bits; SLC.SELECT; 0. -/
  slcSel : Nat := 0
  /-- 5 bits; SLC.CLOAK_SELECT; 0. -/
  cloakSel : Nat := 0
  /-- 10 bits; HBM.SELECT; 0. -/
  hbmSel : Nat := 0
  /-- 5 bits; TEL.EDGE_SELECT; 0. -/
  edgeSel : Nat := 0
  /-- 9 bits; TEL.SENSOR_SELECT; 0. -/
  sensorSel : Nat := 0
  /-- 3 bits; TEL.POWER_SELECT; 0. -/
  powerSel : Nat := 0
  /-- 6 bits; LNK.PORT_SELECT; 0. -/
  portSel : Nat := 0
  /-- 3 bits; SEC.PART_SELECT; 0. -/
  secSel : Nat := 0
  /-- R15; latched high halves by register (0 TICK, 1 WINDOW, 2 BEAT_EPOCH, 3 AUDIT_SEQ, 4 and 16 + k CURSOR, 5 APERTURE_ERR, 6 APERTURE_BASE,
  7 SQ_BASE, 8 CQ_BASE); none. -/
  latch : SMap W32 := []
  /-- R343; the VF is enabled; false. -/
  enabled : Bool := false
  /-- R409; IDE streams keyed: stream number; none. -/
  ide : List Nat := []
  /-- R402; SPDM session state: 0 none, 1 version, 2 capabilities, 3 algorithms, 4 key exchange, 5 established; 0. -/
  spdm : Nat := 0
  /-- R402; key updates of the session; 0. -/
  spdmKeys : Nat := 0
deriving DecidableEq, Repr

/-- A light port (R281 to R296, Table 12 of chapter 10). -/
structure Port where
  /-- 2 bits; STATE: 0 down, 1 training, 2 up on four lanes, 3 up on three; 0. -/
  st : Nat := 0
  /-- 4 bits; LANES; 0. -/
  lanes : Nat := 0
  /-- 1 bit; JOB_KEY; 0. -/
  jobKey : Bool := false
  /-- R408; the partition whose job key is installed, and whether the peer's READY has come. -/
  keyPart : Option Nat := none
  /-- 1 bit; R408; the peer's READY has come; false. -/
  peerReady : Bool := false
  /-- 14 bits; PEER; 0. -/
  peer : Nat := 0
  /-- 6 bits; PEER_PORT; 0. -/
  peerPort : Nat := 0
  /-- 1 bit; NODE; 0. -/
  node : Bool := false
  /-- 16 bits each; LATENCY.COMPILED and MEASURED; 0. -/
  compiled : Nat := 0
  /-- 16 bits; LNK.LATENCY.MEASURED; R295; 0. -/
  measured : Nat := 0
  /-- 32 bits each; FEC_CORRECTED, FRAME_FAIL, BELL_RESENT, BELL_HELD, LATE, UNUSED, INBOUND_DROPS by 0 to 6; 0. -/
  counts : SMap Nat := []
  /-- R283; number of the next flit time; 0. -/
  flit : Nat := 0
  /-- R285; BELL flits sent in this frame; 0. -/
  bellsInFrame : Nat := 0
  /-- R294; schedule in use; none. -/
  sched : PortSched := {}
  /-- R290; the three-lane schedule is in use; false. -/
  three : Bool := false
  /-- R287; bell messages waiting to be sent, the next bell sequence number, and messages sent and not acknowledged:
  sequence number, messages, slot. -/
  bellQ : List W64 := []
  /-- 16 bits; R286; sequence number of the next BELL flit; 0. -/
  bellSeq : Nat := 0
  /-- list; R287, R289; BELL flits sent and not acknowledged; none. -/
  bellOut : List (Nat × List W64 × Nat) := []
  /-- R286; highest bell sequence number and frame received intact; 0. -/
  bellGot : Nat := 0
  /-- a count; R286; highest frame received intact; 0. -/
  frameGot : Nat := 0
  /-- R288; packets waiting, credits by class, packets sent and not acknowledged: packet, frame, slot. -/
  pktQ : List Packet := []
  /-- R288; flits of the packet under way that have gone; 0. -/
  pktPos : Nat := 0
  /-- 4 classes of 16 bits; R288; packet credits; 0. -/
  credits : SMap Nat := []
  /-- list; R288, R289; packets sent and not acknowledged; none. -/
  pktOut : List (Packet × Nat × Nat) := []
  /-- 32 bits; R288; next PSEQ; 0. -/
  pseq : Nat := 0
  /-- R288; PSEQs accepted within the 65,536 below the highest; none. -/
  accepted : List Nat := []
  /-- 32 bits; R288; highest PSEQ accepted; none. -/
  highest : Option Nat := none
  /-- R294; link streams with data ready for a flit; none. -/
  ready : List (Nat × TimedFlit) := []
  /-- R289; frames of which TIMED flits have been handed on and whose seal has not come; none. -/
  openFrames : List Nat := []
  /-- R295; late flits in this beat; 0. -/
  lateInBeat : Nat := 0
  /-- 1 bit; R295; sixteen late flits in one beat have raised the timing alarm; false. -/
  timingAlarm : Bool := false
  /-- by credit class; R286, R288; packet credits to be returned to the peer in the next seal; none. -/
  owed : SMap Nat := []
  /-- R447, R445; optically calibrated; false. -/
  cal : Bool := false
  /-- R415; parked; false. -/
  parked : Bool := false
  /-- R415; carried a PACKET flit in this telemetry window; false. -/
  touched : Bool := false
  /-- R415; carried none in the last completed window; false. -/
  idle : Bool := false
  /-- R427; calibration periods without convergence; 0. -/
  unconverged : Nat := 0
deriving DecidableEq, Repr

/-- Beat and clock state of the device (R291 to R293). -/
structure Beat where
  /-- 1 bit; LNK.BEAT_STATUS.LOCKED; R291; 0. -/
  locked : Bool := false
  /-- 1 bit; LNK.BEAT_STATUS.EPOCH_VALID; R293; 0. -/
  epochValid : Bool := false
  /-- 1 bit; LNK.BEAT_STATUS.ROOT; R291; 0. -/
  root : Bool := false
  /-- 1 bit; LNK.BEAT_STATUS.HOLDOVER; R291; 0. -/
  holdover : Bool := false
  /-- 1 bit; LNK.BEAT_STATUS.ALARM; R293; 0. -/
  alarm : Bool := false
  /-- 6 bits; R291; port whose lanes the clock is locked to; 0. -/
  lockPort : Nat := 0
  /-- 6 bits; R291; alternate lock port; 0. -/
  altPort : Nat := 0
  /-- 8 bits, two's complement; EDGE_ERROR; 0. -/
  edgeError : Int := 0
  /-- 32 bits; LNK.BEAT_ERRORS; 0. -/
  errors : Nat := 0
  /-- R293; bad beats in a row; 0. -/
  badRun : Nat := 0
  /-- R293; this beat is counted, its next edge has come early, FORM_SETUP's edge has been met, and the number plus 1 of the last beat
  begun; false, false, false, 0. -/
  bad : Bool := false
  /-- 1 bit; R293; the next edge has come early; false. -/
  early : Bool := false
  /-- 1 bit; R293; the edge of FORM_SETUP has been met; false. -/
  phaseSet : Bool := false
  /-- a count; R293; number plus 1 of the last beat begun; 0. -/
  last : Nat := 0
  /-- R292; BEAT frame being read: bits so far, least significant first; none. -/
  frame : Option (List Bool) := none
  /-- R293; a FORM_SETUP waits for its edge and frame; false. -/
  aligning : Bool := false
  /-- R293; an edge has been seen in this beat; false. -/
  edgeSeen : Bool := false
  /-- R291; tick at which holdover began; none. -/
  holdSince : Option Nat := none
  /-- R291; TIMED streams have ended; false. -/
  timedEnded : Bool := false
deriving DecidableEq, Repr

/-- The device's place in its Form and, for a Prefect or Deputy, what it keeps (R278 to R280, R302 to R308, R312 to R315). -/
structure Form where
  /-- R280; FORM_SETUP completed; false. -/
  set : Bool := false
  /-- 8 bits; R278; Form number; 0. -/
  form : Nat := 0
  /-- 6 bits; R278; position; 0. -/
  pos : Nat := 0
  /-- 2 bits; R280: 0 worker, 1 Prefect, 2 Deputy, 3 Head Prefect; the proposed role is the strapped one. -/
  role : Nat := 0
  /-- 14 bits; R279; Deputy Head; none. -/
  deputyHead : Option Nat := none
  /-- 14 bits; R280; Prefect of the Form; 0. -/
  prefect : Nat := 0
  /-- 14 bits; R280; Deputy of the Form; none. -/
  deputy : Option Nat := none
  /-- 14 bits; R280; Head Prefect; none. -/
  head : Option Nat := none
  /-- up to 64 ports; R280; link map; empty. -/
  links : SMap LinkEntry := []
  /-- bell routes; R302; none. -/
  routes : List BellRoute := []
  /-- R308; members that answered the last heartbeat, and those declared absent. -/
  members : List Nat := []
  /-- device identities; R308, R315; members declared absent; none. -/
  absent : List Nat := []
  /-- R308; beats in a row without a heartbeat, and whether one came in this beat; 0. -/
  missedBeats : Nat := 0
  /-- 1 bit; R308; a heartbeat has come in this beat; false. -/
  heard : Bool := false
  /-- 1 bit; R308; MISSING has been sent; false. -/
  missingSent : Bool := false
  /-- R308; members from which the Deputy holds MISSING; none. -/
  missing : List Nat := []
  /-- R308; on a Prefect, beats in a row without a heartbeat of the Head Prefect; 0. -/
  headMissed : Nat := 0
  /-- 1 bit; R308; the Head Prefect's heartbeat has come in this beat; false. -/
  headHeard : Bool := false
  /-- 1 bit; R308; MISSING has been sent for the Head Prefect; false. -/
  headMissingSent : Bool := false
  /-- R308; Prefects from which the Deputy Head holds MISSING; none. -/
  headMissing : List Nat := []
  /-- R309; device to which the Prefect role passes at the next step boundary; none. -/
  handover : Option Nat := none
  /-- 1,024 notes; R314: note, COUNT at its last forward, window of its last forward, windows idle; none. -/
  notes : List (Note × Nat × Option Nat × Nat) := []
  /-- R314; on a Head Prefect, the latest note of each key from each Prefect; none. -/
  headNotes : List (Nat × Note) := []
  /-- a count; R314; note window in progress; 0. -/
  noteWindow : Nat := 0
  /-- R314; keys this device has itself reported in this window, and reports held for the next. -/
  reported : List NoteKey := []
  /-- notes; R314; reports held for the next window; none. -/
  toReport : List Note := []
  /-- R315; beats of unanswered probes by member; 0. -/
  probes : SMap Nat := []
  /-- R306; norm records combined by step (last four kept), and members' records waiting: step, rank, record. -/
  norms : SMap (List NormRec) := []
  /-- list; R306; norm records waiting; none. -/
  normIn : List (Nat × NormRec) := []
  /-- list; R306, R307; provisional norm records waiting; none. -/
  provIn : List (Nat × NormRec) := []
  /-- R270, R307; the clip scalar formed for each job's step, by partition: step, scalar; none. -/
  clips : SMap (Option (Nat × W32)) := []
  /-- R331; data position and cursor of each member at its boundary: 16,384 × partition + device, step, position, cursor. -/
  positions : List (Nat × Nat × Nat × Nat) := []
  /-- R56; on a Prefect, the overflow records of each device and step as they came: 16,384 × partition + device, step, records; none. -/
  overflow : List (Nat × Nat × List OvfRec) := []
  /-- R327; the job's committed satchel. -/
  committed : Option Nat := none
  /-- R326; buddy of each device placed. -/
  placed : SMap (Option Nat) := []
deriving DecidableEq, Repr

/-- An audit entry (R394, Table 5 of chapter 14). -/
structure Audit where
  /-- 64 bits; R394; SEQ. -/
  seq : Nat := 0
  /-- 32 bits; R394; BOOTS. -/
  boots : Nat := 0
  /-- 64 bits; R394; TIME. -/
  time : Nat := 0
  /-- 16 bits; R394; OPCODE. -/
  opcode : Nat := 0
  /-- 2 bits; R394; ROLE. -/
  role : Nat := 0
  /-- 8 bits; R394; RING. -/
  ring : Nat := 0
  /-- 8 bits; R394; PARTITION. -/
  part : Nat := 0
  /-- 8 bits; R394; STATUS. -/
  status : Nat := 0
  /-- 8 bits; R394; CRED. -/
  cred : Nat := 0xFF
  /-- 256 bits; R394; DETAIL. -/
  detail : BitVec 256 := 0
  /-- 512 bits; R394; PREV. -/
  prev : BitVec 512 := 0
deriving DecidableEq, Repr

/-- A repair record (R320): kind 0 fenced site, 1 bypassed router, 2 HBM row, 3 spared pseudo-channel, 4 FUSED held (R171). -/
structure Repair where
  /-- 4 bits; R320; kind of the repair. -/
  kind : Nat := 0
  /-- 16 bits; R320; site or stack. -/
  a : Nat := 0
  /-- 16 bits; R320; pseudo-channel and bank. -/
  b : Nat := 0
  /-- 24 bits; R320; row. -/
  c : Nat := 0
deriving DecidableEq, Repr

/-- Roles, keys, firmware and audit (chapter 14). -/
structure Sec where
  /-- up to four; R390; credentials enrolled, by index: Ed25519 and ML-DSA-65 public keys; none (kept in flash). -/
  creds : SMap (Option (Nat × Nat)) := []
  /-- 4 bits; R396; revocation bitmap; kept in the replay-protected area; DESIGN CHOICE 0 at manufacture (entry 6). -/
  revoked : BitVec 4 := 0
  /-- 32 bits; R396; SVN_MIN; 0 (Table 10). -/
  svnMin : Nat := 0
  /-- 32 bits; R410; start-up count; 0. -/
  boots : Nat := 0
  /-- R397; banks 0 and 1; DESIGN CHOICE present with version 0 (entry 6). -/
  bank0 : FwImage := {}
  /-- an image header; R397; bank 1; DESIGN CHOICE present with version 0 (entry 6). -/
  bank1 : FwImage := {}
  /-- 1 bit; R362; bank in use; 0. -/
  bank : Nat := 0
  /-- R399; bytes staged and the image staged; 0. -/
  staged : List Byte := []
  /-- 32 bits; R399; TOTAL of the staged image; 0. -/
  stageTotal : Nat := 0
  /-- 1 bit; R397; RECOVERY; 0. -/
  recovery : Bool := false
  /-- R397; a bank was rejected at this start-up and the other one runs; false. -/
  fallback : Bool := false
  /-- R392, R393; highest token sequence issued and used; 0. -/
  tokenSeq : Nat := 0
  /-- 64 bits; R393; highest token sequence used; 0. -/
  tokenUsed : Nat := 0
  /-- R393; diagnostic session: scope and expiry tick; none. -/
  diag : Option (Nat × Nat) := none
  /-- R395; the log, newest first, and the base; empty. -/
  audit : List Audit := []
  /-- 512 bits; R395; hash of the newest entry dropped; 0. -/
  auditBase : BitVec 512 := 0
  /-- R395; SEQ of the next entry; 0. -/
  auditSeq : Nat := 0
  /-- R320; repair records in flash, and edits that wait for the next start-up; none. -/
  repairs : List Repair := []
  /-- R338; pinned behaviour level; 0 when none (R383). -/
  level : Nat := 0
deriving DecidableEq, Repr

/-- A Caretaker duty (R423, R429, Table 7 of chapter 15). -/
structure Duty where
  /-- 32 bits; R429; PERIOD. -/
  period : Nat := 0
  /-- 64 bits; R429; tick of the last completed pass. -/
  lastDone : Nat := 0
  /-- 16 bits; R429; PROGRESS. -/
  progress : Nat := 0
  /-- 32 bits; R429; MISSED. -/
  missed : Nat := 0
  /-- 32 bits; R429; EVENTS. -/
  events : Nat := 0
deriving DecidableEq, Repr

/-- Caretaker, sensors and power (chapter 15). -/
structure Care where
  /-- duties by code whose record differs from its default; R429. -/
  duties : SMap Duty := []
  /-- 64 bits; TEL.WINDOW; number of windows completed; 0. -/
  windows : Nat := 0
  /-- 336 sensors; R421: latest and maximum, 0.125 °C; 0. -/
  latest : SMap Int := []
  /-- 16 bits by sensor; R421; maximum, 0.125 °C; 0. -/
  maximum : SMap Int := []
  /-- R428; calibration offsets; DESIGN CHOICE 0 (entry 6). -/
  offsets : SMap Int := []
  /-- 4 bits by sensor group; R420, R421: eighths withheld from the ceiling's duty; 0. -/
  lowered : SMap Nat := []
  /-- R417; groups whose engines the current limit withholds; none. -/
  limited : List Nat := []
  /-- 32 bits by group; TEL.THROTTLE; 0. -/
  throttle : SMap Nat := []
  /-- 32 bits by block; TEL.POWER; 0. -/
  power : SMap Nat := []
  /-- R418; spare phases in use by rail, and phases shed in this window; 0. -/
  shed : SMap Nat := []
  /-- R430; FLAGS of the window in progress. -/
  flagScrub : Bool := false
  /-- 1 bit; R430; CALIB of FLAGS; false. -/
  flagCalib : Bool := false
  /-- 1 bit; R418, R430; SHED of FLAGS; false. -/
  flagShed : Bool := false
  /-- 1 bit; R420, R430; THROTTLE of FLAGS; false. -/
  flagThrottle : Bool := false
  /-- R430; beat epoch at the start of the window in progress; 0. -/
  epochAt : Nat := 0
  /-- R421; cartridges whose lasers a hot sensor has turned off; none. -/
  lasersOff : List Nat := []
  /-- R427; laser bias at first use and latest, by cartridge; none. -/
  biasFirst : SMap Nat := []
  /-- 16 bits by cartridge; R427; latest laser bias; none. -/
  bias : SMap Nat := []
  /-- R424; SRAM scrub pass done in this window, 2^-16. -/
  hourWindow : Nat := 0
  /-- a count; R424; HBM scrub pass done in this day window, 2^-16; 0. -/
  dayWindow : Nat := 0
deriving DecidableEq, Repr

/-- The phases of the MP pins (R435); `off` before the input is good. -/
inductive Phase
  | off | strap | run | fault
deriving DecidableEq, Repr

/-- Power entry, pins and start-up (chapter 16). -/
structure Power where
  /-- a name; R435; phase of the MP pins; off. -/
  phase : Phase := .off
  /-- pins: PWR_EN, PERST# released, SEAT_IN, PWR_OK, EMERG_OFF# released; levels at power-off. -/
  pwrEn : Bool := false
  /-- 1 bit; R443; PERST# released; false. -/
  perst : Bool := false
  /-- 1 bit; R439, R440; SEAT_IN; false. -/
  seatIn : Bool := false
  /-- 1 bit; R438; PWR_OK; false. -/
  pwrOk : Bool := false
  /-- R439; SEAT_OUT; 0. -/
  seatOut : Bool := false
  /-- R385; ALERT# held low; false. -/
  alert : Bool := false
  /-- R433; the input is good. -/
  input : Bool := false
  /-- R433; turned off by over-voltage. -/
  overVolt : Bool := false
  /-- 18 bits; AON.SIDE.STRAPS; 0. -/
  straps : BitVec 18 := 0
  /-- 1 bit; R438; AON.SIDE.STRAP_VALID; 0. -/
  strapValid : Bool := false
  /-- R443; EMERG_LATCHED, and the latch itself. -/
  emergLatched : Bool := false
  /-- 1 bit; R442; the EMERG_OFF# latch; false. -/
  emergOff : Bool := false
  /-- R442; lasers turned off; false. -/
  lasersOff : Bool := false
  /-- R434; SENSE_LOST. -/
  senseLost : Bool := false
  /-- 1 bit; R434; sense lost at this moment; false. -/
  senseNow : Bool := false
  /-- 4 bits; BOOT_STAGE; 0. -/
  stage : Nat := 0
  /-- main regulators on; false. -/
  mainOn : Bool := false
  /-- 1 bit; MBX.STATUS.FW_READY; R447; 0. -/
  fwReady : Bool := false
  /-- 1 bit; MBX.STATUS.COMPUTE_READY; R447; 0. -/
  computeReady : Bool := false
  /-- 8 bits; RESTARTS; 0. -/
  restarts : Nat := 0
  /-- R376; cause of the restart under way: 1 watchdog, 2 FW_ACTIVATE; 0. -/
  restartCause : Nat := 0
  /-- 32 bits; MBX.HEARTBEAT; 0. -/
  heartbeat : Nat := 0
  /-- R441; class of the fault phase; 0. -/
  faultClass : Nat := 0
  /-- R444; cartridges whose latch is open. -/
  cartsOut : List Nat := []
  /-- R344; the PCI Express data link is up; R443: the endpoint is released from PERST#. -/
  linkUp : Bool := false
  /-- R413; the link rests in L0p at x4; false. -/
  l0p : Bool := false
  /-- 1 bit; R413; link traffic in this telemetry window; false. -/
  pcieTouched : Bool := false
  /-- R343; NumVFs. -/
  numVfs : Nat := 0
deriving DecidableEq, Repr

/-- The I3C target (R384, R385). -/
structure I3c where
  /-- dynamic address; none. -/
  addr : Option Nat := none
  /-- 0 none, 1 working, 2 complete, 3 rejected; 0. -/
  st : Nat := 0
  /-- 8 bits; R385; SEQ of the frame in work; 0. -/
  seq : Nat := 0
  /-- bytes; R385; answer to be read; none. -/
  answer : List Byte := []
deriving DecidableEq, Repr

/-- What the module puts out: what host software, the tray and other devices see of a command. The list is the model's own
record of it, oldest first. -/
inductive Output
  | completion (ring : Nat) (idx : Nat) (c : Completion)
  | event (ring : Nat) (idx : Nat) (type : Nat) (part : Nat) (phase : Bool) (lost : Nat) (time : Nat) (body : List Byte)
  | msix (fn : Nat) (vec : Nat)
  | read (fn : Nat) (value : W32)
  | apRead (fn : Nat) (bytes : Option (List Byte))
  | apWrite (fn : Nat) (ok : Bool)
  | aer (fn : Nat)
  | flit (port : Nat) (kind : Nat) (stream : Option Nat)
  | timed (port : Nat) (fl : TimedFlit)
  | packet (dev : Nat) (p : Packet)
  | bell (dev : Nat) (part : Nat) (msg : W64)
  | seal (port frame ack bellAck : Nat) (credits : List Nat) (probe lanes : Nat) (key : Bool)
  | pin (name : String) (level : Bool)
  | faultFrame (bits : BitVec 16)
  | i3c (bytes : List Byte)
  | nack
  | spdm (fn : Nat) (code : Nat) (bytes : List Byte)
  | telemetry (part : Nat) (window : Nat) (slot : Nat)
  | farPage (part : Nat) (page : Nat) (addr : Nat) (lines : SMap HbmLine)
  | hostRead (addr : Nat) (len : Nat)
deriving DecidableEq, Repr

/-- The reasons for which the module stops. None of its commands has one: the manual gives every event an effect. -/
inductive Fault
  /-- Raised by no command of this model (safe: a fault is a stop where the hardware would go on). -/
  | halted
deriving DecidableEq, Repr

/-- The reasons for which a command is refused. -/
inductive Refusal
  /-- Answered by an arm of `exec` whose row has no meaning yet (safe: the model stops where the hardware goes on). -/
  | notModelled (mnemonic : String)
deriving DecidableEq, Repr

/-- The module. -/
structure State where
  /-- R184; fabric time in slots; 0. -/
  slot : Nat := 0
  /-- R412; AON.TICK; 0, with the slots since the last tick. -/
  tick : Nat := 0
  /-- 6 bits; R412; slots since the last tick, 0 to 47; 0. -/
  sub : Nat := 0
  /-- power entry; chapter 16; every field at its own reset value. -/
  power : Power := {}
  /-- R23; partition count; DESIGN CHOICE 1 at first reset (entry 6). -/
  count : Nat := 1
  /-- by lowest member. -/
  parts : SMap Part := []
  /-- 1,536 cores by logical row × 48 + column. -/
  cores : SMap Core := []
  /-- 1,600 sites by row × 50 + physical column. -/
  sites : SMap Site := []
  /-- 256 slices. -/
  slices : SMap Slice := []
  /-- 32 cloakrooms by row. -/
  cloaks : SMap Cloak := []
  /-- 32 edge routers. -/
  edges : SMap Edge := []
  /-- 32 stacks. -/
  hbm : SMap Stack := []
  /-- 64 light ports. -/
  ports : SMap Port := []
  /-- beat and clock; R291 to R293; every field at its own reset value. -/
  beat : Beat := {}
  /-- Form; R278; not set up. -/
  form : Form := {}
  /-- R287; checked bell messages not yet acted on: sending device, partition, message. -/
  bellIn : List (Nat × Nat × W64) := []
  /-- R288, R289; accepted packets not yet acted on, with their port. -/
  pktIn : List (Nat × Packet) := []
  /-- command and event rings by PF0's ring code (R361); 0x3F is the I3C channel. -/
  rings : SMap Ring := []
  /-- functions: 0 PF0, 1 to 8 VF1 to VF8. -/
  fns : SMap Fn := []
  /-- security; chapter 14; every field at its own reset value. -/
  sec : Sec := {}
  /-- Caretaker; chapter 15; every field at its own reset value. -/
  care : Care := {}
  /-- I3C target; R384; every field at its own reset value. -/
  i3c : I3c := {}
  /-- model's own: draws of free values made so far (DESIGN CHOICE 0, entry 5). -/
  fresh : Nat := 0
  /-- model's own: what the module has put out, oldest first; none. -/
  out : List Output := []
  /-- commands that wait, first in first out; empty. -/
  pending : List Instr := []
deriving DecidableEq, Repr

/-- The module before its input is good: every field at the value the manual gives after module reset, and, where it gives
none, the value the assumption log names. -/
def State.reset : State := {}

end Sys2Proof.Machine
end

