-- ==== Sys2Proof/Machine/Table.lean ====
section
/-! DEFINITION. Reading and writing the sparse tables in which State holds its numbered parts, and the accessors that give
each core, slice, partition and so on its one home. -/

namespace Sys2Proof.Machine

open Sys2Proof

/-- What number `k` of a table holds; `d` where the table does not list it. -/
def tget {α : Type} (d : α) : SMap α → Nat → α
  | [], _ => d
  | (i, v) :: m, k => if i = k then v else tget d m k

/-- An entry put before the first entry of a higher number. -/
def tins {α : Type} (k : Nat) (v : α) : SMap α → SMap α
  | [] => [(k, v)]
  | (i, w) :: m => if k < i then (k, v) :: (i, w) :: m else (i, w) :: tins k v m

/-- A table with `v` at number `k`. Writing what an unlisted number reads as removes the entry. -/
def tset {α : Type} [DecidableEq α] (d : α) (m : SMap α) (k : Nat) (v : α) : SMap α :=
  let r := m.filter fun e => e.1 != k
  if v = d then r else tins k v r

/-- The canonical form of a table: numbers rise strictly from `lo`, and no entry holds `d`. -/
def twfFrom {α : Type} [DecidableEq α] (d : α) : Nat → SMap α → Bool
  | _, [] => true
  | lo, (i, v) :: m => decide (lo ≤ i) && decide (v ≠ d) && twfFrom d (i + 1) m

/-- The canonical form of a table whose unlisted numbers read as `d`. -/
def twf {α : Type} [DecidableEq α] (d : α) (m : SMap α) : Bool := twfFrom d 0 m

/-- A table with the value at `k` changed by `f`. -/
def tmod {α : Type} [DecidableEq α] (d : α) (m : SMap α) (k : Nat) (f : α → α) : SMap α :=
  tset d m k (f (tget d m k))

/-- A table of canonical form with the given values put in one after the other. -/
def tsetAll {α : Type} [DecidableEq α] (d : α) (m : SMap α) : List (Nat × α) → SMap α
  | [] => m
  | (k, v) :: l => tsetAll d (tset d m k v) l

/-- The numbers from `a` on, `n` of them. -/
def upFrom (a : Nat) : Nat → List Nat
  | 0 => []
  | n + 1 => a :: upFrom (a + 1) n

/-- Adding one to a counter of 32 bits that stops at its greatest value (R90). -/
def satInc32 (n : Nat) : Nat := if n < 2 ^ 32 - 1 then n + 1 else n

/-- The first member of a list that passes a test, with the rest of the list in order. -/
def takeFirst {α : Type} (p : α → Bool) : List α → Option (α × List α)
  | [] => none
  | a :: l => if p a then some (a, l) else
    match takeFirst p l with
    | none => none
    | some (b, r) => some (b, a :: r)

/-- The list without its member number `n`. -/
def dropAt {α : Type} : List α → Nat → List α
  | [], _ => []
  | _ :: l, 0 => l
  | a :: l, n + 1 => a :: dropAt l n

/-- A number put into a list that holds no repeats. -/
def addOnce {α : Type} [DecidableEq α] (l : List α) (a : α) : List α := if a ∈ l then l else l ++ [a]

/-- The record of the core of logical position `k` (row × 48 + column). -/
def State.core (s : State) (k : Nat) : Core := tget {} s.cores k

/-- The state with the record of the core of logical position `k` (row × 48 + column) replaced. -/
def State.setCore (s : State) (k : Nat) (v : Core) : State := { s with cores := tset {} s.cores k v }

/-- The state with the record of the core of logical position `k` (row × 48 + column) changed by `g`. -/
def State.modCore (s : State) (k : Nat) (g : Core → Core) : State := s.setCore k (g (s.core k))

/-- The record of the partition whose lowest member is `k`. -/
def State.part (s : State) (k : Nat) : Part := tget {} s.parts k

/-- The state with the record of the partition whose lowest member is `k` replaced. -/
def State.setPart (s : State) (k : Nat) (v : Part) : State := { s with parts := tset {} s.parts k v }

/-- The state with the record of the partition whose lowest member is `k` changed by `g`. -/
def State.modPart (s : State) (k : Nat) (g : Part → Part) : State := s.setPart k (g (s.part k))

/-- The record of the core site `k` (row × 50 + physical column). -/
def State.site (s : State) (k : Nat) : Site := tget {} s.sites k

/-- The state with the record of the core site `k` (row × 50 + physical column) replaced. -/
def State.setSite (s : State) (k : Nat) (v : Site) : State := { s with sites := tset {} s.sites k v }

/-- The state with the record of the core site `k` (row × 50 + physical column) changed by `g`. -/
def State.modSite (s : State) (k : Nat) (g : Site → Site) : State := s.setSite k (g (s.site k))

/-- The record of the slice `k`. -/
def State.slice (s : State) (k : Nat) : Slice := tget {} s.slices k

/-- The state with the record of the slice `k` replaced. -/
def State.setSlice (s : State) (k : Nat) (v : Slice) : State := { s with slices := tset {} s.slices k v }

/-- The state with the record of the slice `k` changed by `g`. -/
def State.modSlice (s : State) (k : Nat) (g : Slice → Slice) : State := s.setSlice k (g (s.slice k))

/-- The record of the cloakroom of row `k`. -/
def State.cloak (s : State) (k : Nat) : Cloak := tget {} s.cloaks k

/-- The state with the record of the cloakroom of row `k` replaced. -/
def State.setCloak (s : State) (k : Nat) (v : Cloak) : State := { s with cloaks := tset {} s.cloaks k v }

/-- The state with the record of the cloakroom of row `k` changed by `g`. -/
def State.modCloak (s : State) (k : Nat) (g : Cloak → Cloak) : State := s.setCloak k (g (s.cloak k))

/-- The record of the edge router `k`. -/
def State.edge (s : State) (k : Nat) : Edge := tget {} s.edges k

/-- The state with the record of the edge router `k` replaced. -/
def State.setEdge (s : State) (k : Nat) (v : Edge) : State := { s with edges := tset {} s.edges k v }

/-- The state with the record of the edge router `k` changed by `g`. -/
def State.modEdge (s : State) (k : Nat) (g : Edge → Edge) : State := s.setEdge k (g (s.edge k))

/-- The record of the HBM stack `k`. -/
def State.stack (s : State) (k : Nat) : Stack := tget {} s.hbm k

/-- The state with the record of the HBM stack `k` replaced. -/
def State.setStack (s : State) (k : Nat) (v : Stack) : State := { s with hbm := tset {} s.hbm k v }

/-- The state with the record of the HBM stack `k` changed by `g`. -/
def State.modStack (s : State) (k : Nat) (g : Stack → Stack) : State := s.setStack k (g (s.stack k))

/-- The record of the light port `k`. -/
def State.port (s : State) (k : Nat) : Port := tget {} s.ports k

/-- The state with the record of the light port `k` replaced. -/
def State.setPort (s : State) (k : Nat) (v : Port) : State := { s with ports := tset {} s.ports k v }

/-- The state with the record of the light port `k` changed by `g`. -/
def State.modPort (s : State) (k : Nat) (g : Port → Port) : State := s.setPort k (g (s.port k))

/-- The record of the ring of code `k` (R361). -/
def State.ring (s : State) (k : Nat) : Ring := tget {} s.rings k

/-- The state with the record of the ring of code `k` (R361) replaced. -/
def State.setRing (s : State) (k : Nat) (v : Ring) : State := { s with rings := tset {} s.rings k v }

/-- The state with the record of the ring of code `k` (R361) changed by `g`. -/
def State.modRing (s : State) (k : Nat) (g : Ring → Ring) : State := s.setRing k (g (s.ring k))

/-- The record of the function `k`: 0 PF0, 1 to 8 VF1 to VF8. -/
def State.fn (s : State) (k : Nat) : Fn := tget {} s.fns k

/-- The state with the record of the function `k`: 0 PF0, 1 to 8 VF1 to VF8 replaced. -/
def State.setFn (s : State) (k : Nat) (v : Fn) : State := { s with fns := tset {} s.fns k v }

/-- The state with the record of the function `k`: 0 PF0, 1 to 8 VF1 to VF8 changed by `g`. -/
def State.modFn (s : State) (k : Nat) (g : Fn → Fn) : State := s.setFn k (g (s.fn k))

/-- The state with one more output at the end of the record of what the module has put out. -/
def State.put (s : State) (o : Output) : State := { s with out := s.out ++ [o] }

end Sys2Proof.Machine
end

