-- ==== Sys2Proof/Machine/Numeric.lean ====
section
/-! DEFINITION. Number formats and arithmetic rules (chapter 2): exact values, the decoding and encoding of every format of
Table 1, rounding to nearest even, stochastic rounding, conversions and the arithmetic of infinities, NaNs and zeros. -/

namespace Sys2Proof.Machine

open Sys2Proof

/-- A value as arithmetic sees it: a NaN, an infinity, or (−1)^neg × m × 2^e exactly; `m = 0` is a zero of that sign (R27, R28). -/
inductive Val
  | nan
  | inf (neg : Bool)
  | fin (neg : Bool) (m : Nat) (e : Int)
deriving DecidableEq, Repr

/-- The value +0. -/
def Val.zero : Val := .fin false 0 0

/-- Bits [hi:lo] of a number. -/
def bits (n lo w : Nat) : Nat := n / 2 ^ lo % 2 ^ w

/-- One bit of a number. -/
def bit (n i : Nat) : Bool := n / 2 ^ i % 2 == 1

/-- A number of `w` bits read as two's complement (R31). -/
def signedOf (w n : Nat) : Int := if n % 2 ^ w < 2 ^ (w - 1) then (n % 2 ^ w : Nat) else (n % 2 ^ w : Nat) - (2 ^ w : Nat)

/-- Two's complement of `w` bits of an integer. -/
def unsignedOf (w : Nat) (i : Int) : Nat := (i % (2 ^ w : Nat)).toNat

/-- Fraction bits of a type (Table 2, Table 4). -/
def fracBits (t : Nat) : Nat :=
  match t with
  | 0 => 7 | 1 => 3 | 2 => 2 | 3 => 1 | 6 => 39 | _ => 23

/-- Exponent bits of a type (Table 2, Table 4). -/
def expBits (t : Nat) : Nat :=
  match t with
  | 1 => 4 | 2 => 5 | 3 => 2 | _ => 8

/-- Exponent bias of a type (Table 2; for FP4-E2M1 the bias under which Table 4 is the formula of R26). -/
def bias (t : Nat) : Int :=
  match t with
  | 1 => 7 | 2 => 15 | 3 => 1 | _ => 127

/-- Width in bits of an element of a type (Table 1). -/
def typeBits (t : Nat) : Nat :=
  match t with
  | 0 => 16 | 1 => 8 | 2 => 8 | 3 => 4 | 4 => 8 | 6 => 48 | _ => 32

/-- Whether a type carries two-level scales (R33). -/
def scaledType (t : Nat) : Bool := t == 1 || t == 2 || t == 3 || t == 4

/-- The exponent of a type's smallest normal (Table 2). -/
def minExp (t : Nat) : Int := 1 - bias t

/-- A type's largest finite magnitude as m × 2^e (Table 2, Table 3). -/
def maxFinite (t : Nat) : Nat × Int :=
  match t with
  | 0 => (255, 120) | 1 => (14, 5) | 2 => (7, 13) | 3 => (3, 1) | 4 => (127, 0) | 6 => (2 ^ 40 - 1, 88) | _ => (2 ^ 24 - 1, 104)

/-- m × 2^e compared with n × 2^f: whether the first is greater. -/
def dyGt (m : Nat) (e : Int) (n : Nat) (f : Int) : Bool :=
  let g := min e f
  decide (m * 2 ^ (e - g).toNat > n * 2 ^ (f - g).toNat)

/-- Whether the magnitude m × 2^e exceeds a type's largest finite magnitude. -/
def exceeds (t : Nat) (m : Nat) (e : Int) : Bool := dyGt m e (maxFinite t).1 (maxFinite t).2

/-- The encoding of a NaN of a type (Table 3). -/
def canonNan (t : Nat) : Nat :=
  match t with
  | 0 => 0x7FC0 | 1 => 0x7F | 2 => 0x7E | 6 => 0x7FC000000000 | 3 => 0 | 4 => 0 | _ => 0x7FC00000

/-- The sign bit of a type's encoding. -/
def signBit (t : Nat) (neg : Bool) : Nat := if neg then 2 ^ (typeBits t - 1) else 0

/-- The encoding of an infinity (Table 3). FP8-E4M3 and FP4-E2M1 have none and take the largest finite value (R41). -/
def infBits (t : Nat) (neg : Bool) : Nat :=
  signBit t neg + (match t with
    | 1 => 0x7E | 3 => 7 | 2 => 0x7C | 0 => 0x7F80 | 6 => 0x7F8000000000 | _ => 0x7F800000)

/-- The value of an encoding of a floating-point type (R26, R27, R29, R30: an encoding with exponent field 0 and a
non-zero fraction reads as a zero of its sign, but for FP4-E2M1). -/
def decodeFloat (t n : Nat) : Val :=
  let fb := fracBits t
  let neg := bit n (typeBits t - 1)
  let ex := bits n fb (expBits t)
  let fr := bits n 0 fb
  if t == 3 then
    (if ex == 0 then .fin neg fr (-1) else .fin neg (2 ^ fb + fr) (ex - bias t - fb))
  else if t == 1 && ex == 15 && fr == 7 then .nan
  else if t != 1 && ex == 2 ^ expBits t - 1 then (if fr == 0 then .inf neg else .nan)
  else if ex == 0 then .fin neg 0 0
  else .fin neg (2 ^ fb + fr) (ex - bias t - fb)

/-- m × 2^e rounded to `p` significant bits with ties to even and an unbounded exponent (R30, R40). -/
def roundTo (p m : Nat) (e : Int) : Nat × Int :=
  let sh := (if m = 0 then 0 else m.log2 + 1) - p
  if sh = 0 then (m, e) else
    let q := m / 2 ^ sh
    let r := m % 2 ^ sh
    let up := decide (2 * r > 2 ^ sh) || (decide (2 * r = 2 ^ sh) && q % 2 == 1)
    ((if up then q + 1 else q), e + sh)

/-- m × 2^e rounded to a multiple of 2^g with ties to even, as that multiple. -/
def roundGrid (m : Nat) (e g : Int) : Nat :=
  if g ≤ e then m * 2 ^ (e - g).toNat else
    let sh := (g - e).toNat
    let q := m / 2 ^ sh
    let r := m % 2 ^ sh
    if decide (2 * r > 2 ^ sh) || (decide (2 * r = 2 ^ sh) && q % 2 == 1) then q + 1 else q

/-- The exponent of the leading bit of m × 2^e. -/
def leadExp (m : Nat) (e : Int) : Int := e + (m.log2 : Nat)

/-- A result of a conversion: the encoding, whether its rounded magnitude exceeded the range (R41), and whether an infinity
or a NaN was written or replaced (R41, R52). -/
structure Cvt where
  bits : Nat
  oor : Bool := false
  spec : Bool := false
deriving DecidableEq, Repr

/-- Encoding of a magnitude that has been rounded to the precision of a floating-point type: flushed below the smallest
normal (R30), an infinity or the largest finite value above the range (R41). -/
def encodeFin (t : Nat) (neg : Bool) (m : Nat) (e : Int) : Cvt :=
  let fb := fracBits t
  if m = 0 then ⟨signBit t neg, false, false⟩
  else if exceeds t m e then ⟨infBits t neg, true, (t != 1 && t != 3)⟩
  else
    let le := leadExp m e
    if le < minExp t then (if t == 3 then ⟨signBit t neg + 1, false, false⟩ else ⟨signBit t neg, false, false⟩)
    else
      let sig := roundGrid m e (le - fb)
      ⟨signBit t neg + (le + bias t).toNat * 2 ^ fb + (sig - 2 ^ fb), false, false⟩

/-- A finite magnitude rounded to a floating-point type with ties to even (R40), then encoded. -/
def roundFin (t : Nat) (neg : Bool) (m : Nat) (e : Int) : Cvt :=
  if t == 3 then
    let g : Int := (if m = 0 then 0 else max (leadExp m e) 0) - 1
    encodeFin t neg (roundGrid m e g) g
  else
    let r := roundTo (fracBits t + 1) m e
    encodeFin t neg r.1 r.2

/-- Conversion of a value to a floating-point type with rounding to nearest even (R40, R41). -/
def convert (t : Nat) (v : Val) : Cvt :=
  match v with
  | .nan => ⟨canonNan t, false, true⟩
  | .inf neg => ⟨infBits t neg, false, true⟩
  | .fin neg m e => roundFin t neg m e

/-- An integer clamped to INT8, and whether the clamp changed it. -/
def clampInt8 (i : Int) : Int × Bool := if i > 127 then (127, true) else if i < -128 then (-128, true) else (i, false)

/-- Conversion to INT8 with zero point `z` (R39, R41). -/
def convertInt8 (z : Int) (v : Val) : Cvt :=
  match v with
  | .nan => ⟨unsignedOf 8 z, false, true⟩
  | .inf neg => ⟨unsignedOf 8 (if neg then -128 else 127), false, true⟩
  | .fin neg m e =>
    let r : Int := (roundGrid m e 0 : Nat)
    let c := clampInt8 ((if neg then -r else r) + z)
    ⟨unsignedOf 8 c.1, c.2, false⟩

/-- The value of an element: an INT8 with zero point `z` stands for q − z (R31). -/
def decodeElem (t : Nat) (z : Int) (n : Nat) : Val :=
  if t == 4 then
    let v := signedOf 8 n - z
    .fin (decide (v < 0)) v.natAbs 0
  else decodeFloat t n

/-- A value whose exponent is raised by `k`, exactly. -/
def Val.scale (k : Int) : Val → Val
  | .fin neg m e => .fin neg m (e + k)
  | v => v

/-- The value of opposite sign. -/
def Val.neg : Val → Val
  | .nan => .nan
  | .inf n => .inf (!n)
  | .fin n m e => .fin (!n) m e

/-- Whether a value is a zero. -/
def Val.isZero : Val → Bool
  | .fin _ m _ => m == 0
  | _ => false

/-- A finite value as an integer multiple of 2^g, for g no greater than its exponent. -/
def Val.onGrid (g : Int) : Val → Int
  | .fin neg m e =>
    let v : Int := (m * 2 ^ (e - g).toNat : Nat)
    if neg then -v else v
  | _ => 0

/-- An integer multiple of 2^g as a value; zero is +0. -/
def ofGrid (i : Int) (g : Int) : Val := .fin (decide (i < 0)) i.natAbs g

/-- The exact sum (R28). -/
def Val.add (a b : Val) : Val :=
  match a, b with
  | .nan, _ => .nan
  | _, .nan => .nan
  | .inf x, .inf y => if x == y then .inf x else .nan
  | .inf x, .fin .. => .inf x
  | .fin .., .inf y => .inf y
  | .fin na ma ea, .fin nb mb eb =>
    if ma = 0 && mb = 0 then .fin (na && nb) 0 0
    else
      let g := min ea eb
      ofGrid ((Val.fin na ma ea).onGrid g + (Val.fin nb mb eb).onGrid g) g

/-- The exact difference (R28). -/
def Val.sub (a b : Val) : Val := a.add b.neg

/-- The exact product (R28). -/
def Val.mul (a b : Val) : Val :=
  match a, b with
  | .nan, _ => .nan
  | _, .nan => .nan
  | .inf x, .inf y => .inf (x != y)
  | .inf x, .fin y m _ => if m = 0 then .nan else .inf (x != y)
  | .fin x m _, .inf y => if m = 0 then .nan else .inf (x != y)
  | .fin na ma ea, .fin nb mb eb => .fin (na != nb) (ma * mb) (ea + eb)

/-- The exact fused X × Y + Z (R28). -/
def Val.fma (x y z : Val) : Val := (x.mul y).add z

/-- The FP32 encoding of a value rounded to nearest even. -/
def rne32 (v : Val) : Nat := (convert 5 v).bits

/-- The value that a value has after rounding to FP32. -/
def rnd32 (v : Val) : Val := decodeFloat 5 (rne32 v)

/-- Whether an FP32 encoding is an infinity or a NaN. -/
def special32 (n : Nat) : Bool := bits n 23 8 == 255

/-- Whether finite magnitudes compare less. -/
def Val.ltFin (a b : Val) : Bool :=
  match a, b with
  | .fin _ ma ea, .fin _ mb eb =>
    let g := min ea eb
    if ma = 0 && mb = 0 then false else decide (a.onGrid g < b.onGrid g)
  | _, _ => false

/-- Order of values; a NaN compares with none, and the zeros are equal. -/
def Val.lt (a b : Val) : Bool :=
  match a, b with
  | .nan, _ => false
  | _, .nan => false
  | .inf x, .inf y => x && !y
  | .inf x, .fin .. => x
  | .fin .., .inf y => !y
  | .fin .., .fin .. => a.ltFin b

/-- A quotient num / den × 2^e with enough bits, and a last bit that stands for all that is left over, to be rounded once. -/
def quotDy (num den : Nat) (e : Int) : Nat × Int :=
  let sh := (den.log2 + 64) - num.log2
  let n := num * 2 ^ sh
  let q := n / den
  (2 * q + (if n % den = 0 then 0 else 1), e - sh - 1)

/-- The square root of m × 2^e in the same form. -/
def sqrtDy (m : Nat) (e : Int) : Nat × Int :=
  let k : Nat := (if (e - 200) % 2 = 0 then 200 else 201)
  let n := m * 2 ^ k
  let r := n.sqrt
  (2 * r + (if r * r = n then 0 else 1), (e - k) / 2 - 1)

/-- Stochastic rounding of an exact value to a type with the draw `r` of 16 bits (R48), then flushing and out-of-range
handling. -/
def stochastic (t r : Nat) (v : Val) : Cvt :=
  match v with
  | .nan => ⟨canonNan t, false, true⟩
  | .inf neg => ⟨infBits t neg, false, true⟩
  | .fin neg m e =>
    if m = 0 then ⟨signBit t neg, false, false⟩
    else
      let big := exceeds t m e
      let le := leadExp (maxFinite t).1 (maxFinite t).2
      let g : Int := (if big then le else if t == 3 then max (leadExp m e) 0 else leadExp m e) - fracBits t
      if g ≤ e then
        let k := m * 2 ^ (e - g).toNat
        if big then
          let top := roundGrid (maxFinite t).1 (maxFinite t).2 g + 1
          encodeFin t neg (if k ≥ top then top else k) g
        else encodeFin t neg k g
      else
        let sh := (g - e).toNat
        let lo := m / 2 ^ sh
        let f := (m % 2 ^ sh) * 65536 / 2 ^ sh
        let top := roundGrid (maxFinite t).1 (maxFinite t).2 g + 1
        if m % 2 ^ sh = 0 then encodeFin t neg (if big then min lo top else lo) g
        else if big && lo ≥ top then encodeFin t neg top g
        else encodeFin t neg (if r < f then lo + 1 else lo) g

/-- The E8M0 byte's exponent (R34); `none` for the NaN scale. -/
def e8m0 (b : Nat) : Option Int := if b = 255 then none else some ((b : Int) - 127)

/-- The smallest e with a ≤ M × 2^e, from −127 to 127 (R38). -/
def blockExp (t : Nat) (m : Nat) (e : Int) : Int :=
  let M := maxFinite t
  let guess : Int := leadExp m e - leadExp M.1 M.2
  let k : Int := if dyGt m e M.1 (M.2 + guess) then guess + 1 else guess
  max (-127) (min 127 k)

/-- The block scale byte that the module computes for FP32 encodings after the coarse step (R38): NaN 255, zeros 0. -/
def blockScale (t : Nat) (vs : List Val) : Nat :=
  if vs.any (fun v => v == .nan) then 255
  else
    let big := vs.foldl (fun (a : Val) v => match v with
      | .inf _ => .inf false
      | .fin _ m e => (match a with | .fin _ n f => if dyGt m e n f then .fin false m e else a | _ => a)
      | .nan => a) Val.zero
    match big with
    | .inf _ => 254
    | .fin _ m e => if m = 0 then 0 else (blockExp t m e + 127).toNat
    | .nan => 255

/-- Whether a value is an infinity or a NaN. -/
def Val.special : Val → Bool
  | .fin .. => false
  | _ => true

/-- Quantisation of a value after the coarse step to a scaled type with block scale byte `b` (R39, R41): the element and its
flags. Under the NaN scale every element is the conversion of a NaN, and an infinity or NaN that was there is passed (R52). -/
def quantise (t : Nat) (z : Int) (b : Nat) (y : Val) : Cvt :=
  match e8m0 b with
  | none => ⟨if t == 4 then unsignedOf 8 z else canonNan t, false, y.special⟩
  | some e => if t == 4 then convertInt8 z (y.scale (-e)) else convert t (y.scale (-e))

end Sys2Proof.Machine
end

