-- ==== Sys2Proof/Machine/Layout.lean ====
section
/-! DEFINITION. The fields of the module's tables and operations, read from their words, and the assignment of the module's
resources to partitions. -/

namespace Sys2Proof.Machine

open Sys2Proof

/-! ### Operations (Table 4 of chapter 3, Table 2 of chapter 4, Table 1 of chapter 5) -/

/-- OPCODE [7:0] of any operation. -/
def opcode (n : Nat) : Nat := bits n 0 8
/-- STREAM [9:8] of any operation. -/
def opStream (n : Nat) : Nat := bits n 8 2
/-- DRAFT [51] of a tile, row, vector or attention operation. -/
def opDraft (n : Nat) : Bool := bit n 51
/-- LAYER [63:52] of a tile, row, vector or attention operation. -/
def opLayer (n : Nat) : Nat := bits n 52 12
/-- A_ADDR or X_ADDR [83:64]. -/
def opA (n : Nat) : Nat := bits n 64 20
/-- B_ADDR or Y_ADDR [103:84]. -/
def opB (n : Nat) : Nat := bits n 84 20
/-- C_ADDR or Z_ADDR [123:104]. -/
def opC (n : Nat) : Nat := bits n 104 20
/-- SCALE_PTR or CTX [127:124]. -/
def opCtx (n : Nat) : Nat := bits n 124 4
/-- ENGINE_MASK [17:10]: the engines that are set, in ascending order. -/
def opEngines (n : Nat) : List Nat := (upFrom 0 8).filter (fun e => bit n (10 + e))
/-- A_TYPE [21:18]. -/
def opAType (n : Nat) : Nat := bits n 18 4
/-- B_TYPE [25:22]. -/
def opBType (n : Nat) : Nat := bits n 22 4
/-- C_TYPE [29:26]. -/
def opCType (n : Nat) : Nat := bits n 26 4
/-- m = 8 × (M + 1), M [32:30]. -/
def opM (n : Nat) : Nat := 8 * (bits n 30 3 + 1)
/-- n = 8 × (N + 1), N [35:33]. -/
def opN (n : Nat) : Nat := 8 * (bits n 33 3 + 1)
/-- k = 8 × (K + 1), K [40:36]. -/
def opK (n : Nat) : Nat := 8 * (bits n 36 5 + 1)
/-- TRANS_A [42]. -/
def opTransA (n : Nat) : Bool := bit n 42
/-- TRANS_B [43]. -/
def opTransB (n : Nat) : Bool := bit n 43
/-- PAD_SEL [45:44]. -/
def opPad (n : Nat) : Nat := bits n 44 2
/-- ACC_BASE [50:46]. -/
def opAcc (n : Nat) : Nat := bits n 46 5
/-- X_TYPE [13:10]. -/
def opXType (n : Nat) : Nat := bits n 10 4
/-- Y_TYPE [17:14]. -/
def opYType (n : Nat) : Nat := bits n 14 4
/-- Z_TYPE [21:18]. -/
def opZType (n : Nat) : Nat := bits n 18 4
/-- Elements per row: LEN [37:22] plus 1. -/
def opLen (n : Nat) : Nat := bits n 22 16 + 1
/-- Rows: ROWS [45:38] plus 1. -/
def opRows (n : Nat) : Nat := bits n 38 8 + 1
/-- TAP [47:46]. -/
def opTap (n : Nat) : Nat := bits n 46 2
/-- DRAW [49:48]. -/
def opDraw (n : Nat) : Nat := bits n 48 2
/-- LINEAR [50]. -/
def opLinear (n : Nat) : Bool := bit n 50

/-- LAYER [23:12] of TASK_OPEN and TASK_CLOSE. -/
def ctlLayer (n : Nat) : Nat := bits n 12 12
/-- IN_MASK [39:24] of TASK_OPEN. -/
def ctlInMask (n : Nat) : Nat := bits n 24 16
/-- GROUP [47:40] of TASK_OPEN. -/
def ctlGroup (n : Nat) : Nat := bits n 40 8
/-- DRAFT_LINES [60:48] of TASK_OPEN. -/
def ctlDraftLines (n : Nat) : Nat := bits n 48 13
/-- REPEAT [74:64] of TASK_OPEN. -/
def ctlRepeat (n : Nat) : Nat := bits n 64 11
/-- BELL [23:10] of the bell operations. -/
def ctlBell (n : Nat) : Nat := bits n 10 14
/-- AMOUNT or THRESHOLD [55:24] of the bell operations. -/
def ctlAmount (n : Nat) : Nat := bits n 24 32

/-- The members of a bit mask of `w` bits, in ascending order. -/
def maskList (w mask : Nat) : List Nat := (upFrom 0 w).filter (fun i => bit mask i)

/-! ### Tags (Table 3 of chapter 3) -/

/-- A tag. -/
def mkTag (pass epoch layer mb : Nat) : W32 :=
  BitVec.ofNat 32 (pass % 4 * 2 ^ 30 + epoch % 64 * 2 ^ 24 + layer % 4096 * 2 ^ 12 + mb % 4096)

/-- PASS [31:30]. -/
def tagPass (t : W32) : Nat := bits t.toNat 30 2
/-- EPOCH [29:24]. -/
def tagEpoch (t : W32) : Nat := bits t.toNat 24 6
/-- LAYER [23:12]. -/
def tagLayer (t : W32) : Nat := bits t.toNat 12 12
/-- MICRO_BATCH [11:0]. -/
def tagMb (t : W32) : Nat := bits t.toNat 0 12

/-- The pass of a sequencer (R66). -/
def streamPass : Stream → Nat
  | .F => 0 | .B => 1 | .U => 2

/-! ### Tile context entries (Table 4 of chapter 4) -/

/-- SCALE_ADDR [19:0]. -/
def ctxScale (x : Nat) : Nat := bits x 0 20
/-- VALID_M [26:20]. -/
def ctxValidM (x : Nat) : Nat := bits x 20 7
/-- VALID_N [33:27]. -/
def ctxValidN (x : Nat) : Nat := bits x 27 7
/-- VALID_K [42:34]. -/
def ctxValidK (x : Nat) : Nat := bits x 34 9
/-- The pass number that steps addresses and element positions (STEP_LEVEL [44:43], STEP_EN [45], R103). -/
def ctxPass (x : Nat) (passes : SMap Nat) : Nat := if bit x 45 then tget 0 passes (bits x 43 2) else 0
/-- The addend index: RTILE0 [59:48] plus the pass number of RTILE_LEVEL [47:46] (R119). -/
def ctxAddend (x : Nat) (passes : SMap Nat) : Nat := bits x 48 12 + tget 0 passes (bits x 46 2)
/-- ELEM_BASE [103:64] plus the pass number times ELEM_STEP [227:188]. -/
def ctxElem (x : Nat) (passes : SMap Nat) : Nat := bits x 64 40 + ctxPass x passes * bits x 188 40
/-- PITCH [127:104]. -/
def ctxPitch (x : Nat) : Nat := bits x 104 24
/-- An address stepped by STRIDE_A [147:128], STRIDE_B [167:148] or STRIDE_C [187:168], `k` being 0, 1 or 2 (R103). -/
def ctxStep (x : Nat) (passes : SMap Nat) (k addr : Nat) : Nat :=
  (addr + ctxPass x passes * bits x (128 + 20 * k) 20) % 2 ^ 20

/-! ### Output edges (Table 7 of chapter 3) -/

/-- ROUTE [5:0]. -/
def edgeRoute (e : Nat) : Nat := bits e 0 6
/-- QUEUE [9:6]. -/
def edgeQueue (e : Nat) : Nat := bits e 6 4
/-- PASS_OUT [11:10]. -/
def edgePass (e : Nat) : Nat := bits e 10 2
/-- KEEP_LAYER [12]. -/
def edgeKeep (e : Nat) : Bool := bit e 12
/-- LAYER_OUT [24:13]. -/
def edgeLayer (e : Nat) : Nat := bits e 13 12
/-- LOCAL [25]. -/
def edgeLocal (e : Nat) : Bool := bit e 25
/-- DEPTH [31:26]. -/
def edgeDepth (e : Nat) : Nat := bits e 26 6

/-! ### Partitions (R23, R386) -/

/-- The number of smallest partitions in each partition of a configuration. -/
def State.span (s : State) : Nat := 8 / s.count

/-- The lowest member of the partition that smallest partition `k` belongs to. -/
def State.lowest (s : State) (k : Nat) : Nat := k / s.span * s.span

/-- The smallest partition of a core's row. -/
def State.partOfCore (s : State) (c : Nat) : Nat := s.lowest (c / 192)

/-- The partition of a core site (row × 50 + column). -/
def State.partOfSite (s : State) (x : Nat) : Nat := s.lowest (x / 200)

/-- The partition of a slice (Table 1 of chapter 14). -/
def State.partOfSlice (s : State) (k : Nat) : Nat := s.lowest (k / 32)

/-- The partition of an HBM stack (Table 1 of chapter 14). -/
def State.partOfStack (s : State) (h : Nat) : Nat := s.lowest (h % 16 / 2)

/-- The partition of a light port (Table 1 of chapter 14). -/
def State.partOfPort (s : State) (l : Nat) : Nat := s.lowest (l % 32 / 4)

/-- The partition of an edge router (Table 1 of chapter 14). -/
def State.partOfEdge (s : State) (g : Nat) : Nat := s.lowest (g % 16 / 2)

/-- Whether `p` names a partition: the lowest member of one of the present configuration. -/
def State.isPart (s : State) (p : Nat) : Bool := decide (p < 8) && s.lowest p == p

/-- The partitions' names, in ascending order. -/
def State.partList (s : State) : List Nat := (upFrom 0 8).filter (fun p => s.lowest p == p)

/-- The cores of a partition, in ascending logical order. -/
def State.coresOf (s : State) (p : Nat) : List Nat := upFrom (192 * p) (192 * s.span)

/-- The rows of a partition. -/
def State.rowsOf (s : State) (p : Nat) : List Nat := upFrom (4 * p) (4 * s.span)

/-- The slices of a partition. -/
def State.slicesOf (s : State) (p : Nat) : List Nat := upFrom (32 * p) (32 * s.span)

/-- The HBM stacks of a partition, in ascending order. -/
def State.stacksOf (s : State) (p : Nat) : List Nat := (upFrom 0 32).filter (fun h => s.partOfStack h == p)

/-- The light ports of a partition, in ascending order. -/
def State.portsOf (s : State) (p : Nat) : List Nat := (upFrom 0 64).filter (fun l => s.partOfPort l == p)

/-- The edge routers of a partition, in ascending order. -/
def State.edgesOf (s : State) (p : Nat) : List Nat := (upFrom 0 32).filter (fun g => s.partOfEdge g == p)

/-- The function that serves a partition: VF(k + 1) where it is enabled, else PF0 (R343). -/
def State.fnOfPart (s : State) (p : Nat) : Nat := if (s.fn (p + 1)).enabled then p + 1 else 0

/-- The section of the image that a partition has open. -/
def Part.sec (part : Part) : Section :=
  match part.image with
  | none => {}
  | some im => im.sections.getD part.section_ {}

/-- A twin layer's own layer; any other layer itself (R277). -/
def Part.twin (part : Part) (layer : Nat) : Nat :=
  match part.image with
  | none => layer
  | some im => tget layer im.twins layer

/-- The rung at which a layer's operations run (R266, R277). -/
def Part.rungOf (part : Part) (layer : Nat) : Nat := tget 0 part.rungs (part.twin layer)

/-- Whether a layer is frozen in the running step (R124). -/
def Part.frozenLayer (part : Part) (layer : Nat) : Bool := bit part.frozen.toNat layer

/-- A group's parents in a section table (R83). -/
def secParents (sec : Section) (g : Nat) : List Nat := (tget {} sec.groups g).parents

/-- The groups that lie above the groups `gs`, those included, `fuel` generations up (R78). -/
def secAbove (sec : Section) : Nat → List Nat → List Nat
  | 0, gs => gs
  | fuel + 1, gs => secAbove sec fuel ((gs.flatMap (secParents sec)).foldl addOnce gs)

/-- A group and its ancestors: those whose drafts a task of the group reads (R78). Two parents a group and 256 groups. -/
def secView (sec : Section) (g : Nat) : List Nat := secAbove sec 255 [g]

/-- A group's direct children (R84). -/
def secChildren (sec : Section) (g : Nat) : List Nat :=
  (sec.groups.filter (fun x => g ∈ x.2.parents)).map Prod.fst

/-- A group's descendants, itself excluded (R86). -/
def secBelow (sec : Section) (g : Nat) : List Nat :=
  (sec.groups.map Prod.fst).filter (fun h => h != g && decide (g ∈ secView sec h))

/-- The physical column of a logical column over a row's failed columns in ascending order (R213). -/
def physicalCol : Nat → List Nat → Nat
  | p, [] => p
  | p, f :: fs => physicalCol (if f ≤ p then p + 1 else p) fs

/-- The site that holds a logical position under the seating plan in effect (R213). -/
def State.siteOf (s : State) (c : Nat) : Nat :=
  c / 48 * 50 + physicalCol (c % 48) (tget [] (s.part (s.partOfCore c)).failed (c / 48))

end Sys2Proof.Machine
end

