-- ==== Sys2Proof/Machine/Flags.lean ====
section
/-! DEFINITION. Overflow flags (R52), the repeat ladder (R54, R140) and the overflow event records (R56, R450). -/

namespace Sys2Proof.Machine

open Sys2Proof

/-- The A or B type one rung up (Table 10); the top rung stays. -/
def raiseOne (t : Nat) : Nat :=
  match t with
  | 3 => 1 | 1 => 0 | 2 => 0 | 4 => 0 | _ => 8

/-- The A or B type after `r` rungs (R54, R266). -/
def raiseType : Nat → Nat → Nat
  | 0, t => t
  | r + 1, t => raiseType r (raiseOne t)

/-- The C type one rung up (R54): FP32 stays. -/
def raiseCOne (t : Nat) : Nat :=
  match t with
  | 3 => 1 | 1 => 0 | 2 => 0 | 4 => 0 | _ => 5

/-- The C type after `r` rungs (R54). -/
def raiseC : Nat → Nat → Nat
  | 0, t => t
  | r + 1, t => raiseC r (raiseCOne t)

/-- The Z type of a row or vector operation at rung `r` (R140). -/
def raiseZ (r t : Nat) : Nat := if r = 0 || t == 6 then t else 5

/-- Order of types from narrowest to widest (R450). -/
def typeRank (t : Nat) : Nat :=
  match t with
  | 3 => 0 | 1 => 1 | 2 => 2 | 4 => 3 | 0 => 4 | _ => 5

/-- Rank of an operand pair of Table 7: FP4, FP8 in any mixture, INT8, BF16, FP32 by split. -/
def pairRank (t : Nat) : Nat :=
  match t with
  | 3 => 0 | 1 => 1 | 2 => 1 | 4 => 2 | 0 => 3 | _ => 4

/-- The operand type of the narrowest pair of Table 7 into which a stored type widens exactly (R54). -/
def holdsType (t : Nat) : Nat := if t == 5 then 8 else t

/-- The operand pair that an operation reads: its own, or the wider pair that a stored operand asks for, both raised together
(R54). -/
def widenPair (own : Nat × Nat) (storedA storedB : Option SType) : Nat × Nat :=
  let w (p : Nat × Nat) (st : Option SType) (first : Bool) : Nat × Nat :=
    match st with
    | none => p
    | some x =>
      let h := holdsType x.code
      if pairRank h > pairRank p.1 then (h, h)
      else if pairRank h = 1 && pairRank p.1 = 1 then (if first then (h, p.2) else (p.1, h))
      else p
  w (w own storedA true) storedB false

/-- The type whose overflow has no rung above it, as the flags carry it: its code plus 1; 0 where a rung lies above. -/
def topOf (t : Nat) : Nat := if t == 8 || t == 5 || t == 6 then t + 1 else 0

/-- The data position of the step to which the open section's tasks belong (R49, R144): before the boundary of the running step they may belong to the
next one (R22). -/
def Part.position (part : Part) : Nat := if part.step < part.openStep then part.openPos else part.dataPos

/-- Flags put together without repeats. -/
def addFlags (a b : List (Nat × Nat)) : List (Nat × Nat) := b.foldl addOnce a

/-- The flag of cause `cause` when `on`. -/
def flagIf (on : Bool) (cause top : Nat) : List (Nat × Nat) := if on then [(cause, top)] else []

/-- An overflow record kept for its step: up to 256 in each of the latest 16 steps, the rest counted and dropped (R430). -/
def Part.addRecord (part : Part) (r : OvfRec) : Part :=
  let kept := tget [] part.tel.overflow part.step
  if kept.length < 256 then
    let all := tset [] part.tel.overflow part.step (kept ++ [r])
    { part with tel := { part.tel with overflow := all.drop (all.length - 16) } }
  else { part with tel := { part.tel with dropped := tmod 0 part.tel.dropped part.step (· + 1) } }

/-- The first occurrence of a record replaced by another. -/
def swapRecord (old new : OvfRec) : List OvfRec → List OvfRec
  | [] => []
  | r :: l => if r = old then new :: l else r :: swapRecord old new l

/-- The record of a consuming layer whose operand pair a stored tensor widens, once a step for each layer, source layer, its
rung and pair (R54, R450): it names the lowest micro-batch and, at that, the lowest core of the operations that read the widened pair. -/
def Part.recordWiden (part : Part) (slot layer : Nat) (src : SType) (fromT toT mb core : Nat) : Part :=
  let key := (layer, src.layer, src.rung, fromT, toT)
  let new : OvfRec := { step := part.step % 2 ^ 32, layer := layer, cause := 4, fromType := fromT, toType := toT, rung := src.rung,
                        mb := mb, row := core / 48, col := core % 48, beat := slot / 2 ^ 20 % 2 ^ 32 }
  match part.widened.find? fun w => w.1 == key with
  | none => { part with widened := part.widened ++ [(key, new)] }.addRecord new
  | some (_, old) =>
    if mb < old.mb || (mb == old.mb && decide (core < old.row * 48 + old.col)) then
      let new := { new with beat := old.beat }
      { part with
        widened := part.widened.map fun w => if w.1 == key then (key, new) else w
        tel := { part.tel with overflow := tmod [] part.tel.overflow part.step (swapRecord old new) } }
    else part

end Sys2Proof.Machine
end

