-- ==== Sys2Proof/Machine/Ops.lean ====
section
/-! DEFINITION. The named operations over a core's scratchpad, draft map, sequencers and stall counters, and the one way in
which an operation of a fired task issues and takes effect. -/

namespace Sys2Proof.Machine

open Sys2Proof

/-! ### Scratchpad and draft map (R61, R62, R78 to R80) -/

/-- The byte of scratchpad that a reader who sees the drafts of the groups `view` finds at byte address `a` (R78). -/
def Core.byteAt (core : Core) (view : List Nat) (a : Nat) : Byte :=
  match core.drafts.find? (fun d => d.line == a / 64 && decide (d.group ∈ view) && (tget none d.bytes (a % 64)).isSome) with
  | some d => (tget none d.bytes (a % 64)).getD 0
  | none => tget 0 core.spad a

/-- `k` bytes from byte address `a` on as a number, least significant byte first (R6). -/
def Core.readNat (core : Core) (view : List Nat) (a : Nat) : Nat → Nat
  | 0 => 0
  | k + 1 => (core.byteAt view a).toNat + 256 * core.readNat view (a + 1) k

/-- The type of an escalated layer that the 16-byte word `w` holds, if it holds one (R42, R54). -/
def Core.typeAt (core : Core) (view : List Nat) (w : Nat) : Option SType :=
  match core.drafts.find? (fun d => d.line == w / 4 && decide (d.group ∈ view) && (tget none d.types (w % 4)).isSome) with
  | some d => (tget none d.types (w % 4)).getD none
  | none => tget none core.stored w

/-- A write into scratchpad: bit address, width in bits (4 or whole bytes), and value. -/
abbrev Wr := Nat × Nat × Nat

/-- A byte put into a draft line of a group, the line being mapped if it is not (R78). -/
def putDraftByte (group line off : Nat) (b : Byte) : List DraftLine → List DraftLine
  | [] => [{ line := line, group := group, bytes := tset none [] off (some b) }]
  | d :: l => if d.line = line && d.group = group then { d with bytes := tset none d.bytes off (some b) } :: l
    else d :: putDraftByte group line off b l

/-- A byte written by a task: to the target line, or to the draft line of the task's group (R78, R87). -/
def Core.putByte (core : Core) (draft : Option Nat) (a : Nat) (b : Byte) : Core :=
  match draft with
  | none => { core with spad := tset 0 core.spad a b }
  | some g => { core with drafts := putDraftByte g (a / 64) (a % 64) b core.drafts }

/-- `k` bytes of a number written from byte address `a` on. -/
def Core.putNat (core : Core) (draft : Option Nat) (a v : Nat) : Nat → Core
  | 0 => core
  | k + 1 => (core.putByte draft a (BitVec.ofNat 8 v)).putNat draft (a + 1) (v / 256) k

/-- One write carried out: an element of 4 bits leaves the other half of its byte (R29). -/
def Core.putWr (core : Core) (draft : Option Nat) (view : List Nat) (w : Wr) : Core :=
  if w.2.1 = 4 then
    let old := (core.byteAt view (w.1 / 8)).toNat
    core.putByte draft (w.1 / 8)
      (BitVec.ofNat 8 (if w.1 % 8 = 0 then old / 16 * 16 + w.2.2 % 16 else w.2.2 % 16 * 16 + old % 16))
  else core.putNat draft (w.1 / 8) w.2.2 (w.2.1 / 8)

/-- The stored type of a 16-byte word set for a group's draft line (R54, R78). -/
def putDraftType (group w : Nat) (st : Option SType) : List DraftLine → List DraftLine
  | [] => []
  | d :: l => if d.line = w / 4 && d.group = group then { d with types := tset none d.types (w % 4) (some st) } :: l
    else d :: putDraftType group w st l

/-- The stored type of a 16-byte word set by a write. -/
def Core.putType (core : Core) (draft : Option Nat) (st : Option SType) (w : Nat) : Core :=
  match draft with
  | none => { core with stored := tset none core.stored w st }
  | some g => { core with drafts := putDraftType g w st core.drafts }

/-- All writes of an operation carried out, and the stored type of every word they touch set. -/
def Core.putAll (core : Core) (draft : Option Nat) (view : List Nat) (st : Option SType) (ws : List Wr) : Core :=
  let c := ws.foldl (fun c w => c.putWr draft view w) core
  (ws.map (fun w => w.1 / 128)).dedup.foldl (fun c w => c.putType draft st w) c

/-- The 64-byte lines that a list of writes touches. -/
def writeLines (ws : List Wr) : List Nat := (ws.flatMap (fun w => [w.1 / 512, (w.1 + w.2.1 - 1) / 512])).dedup

/-- Draft lines reserved in a core: by its edges, its open drafts and its running draft tasks (R79, CORE.DRAFT_LINES). -/
def Core.reservedLines (core : Core) : Nat :=
  let run (q : Seq) : Nat := match q.running with
    | some t => if t.draft then t.reserved else 0
    | none => 0
  core.cfg.draftReserve + (core.openDrafts.map (fun d => d.task.reserved)).sum + run core.seqF + run core.seqB + run core.seqU

/-- Open drafts of a core (R79, CORE.STATE): its draft tasks from their firing on, running or closed, until their group resolves. -/
def Core.openCount (core : Core) : Nat :=
  let run (q : Seq) : Nat := match q.running with
    | some t => t.draft.toNat
    | none => 0
  core.openDrafts.length + run core.seqF + run core.seqB + run core.seqU

/-- Whether a task may write the lines now (R79, R80), and the task with the lines counted: a line mapped by an open draft of
another group holds the write, a mapped line holds a fair write, and a draft that outgrows its reservation needs free lines. -/
def Core.admitLines (core : Core) (task : Task) (lines : List Nat) : Option Task :=
  if task.draft then
    if core.drafts.any (fun d => decide (d.line ∈ lines) && d.group != task.group) then none
    else
      let fresh := (lines.filter (fun l => !core.drafts.any (fun d => d.line == l && d.group == task.group))).length
      let extra := task.mapped + fresh - task.reserved
      if extra = 0 then some { task with mapped := task.mapped + fresh }
      else if core.reservedLines + extra ≤ 4096 then
        some { task with mapped := task.mapped + fresh, reserved := task.reserved + extra }
      else none
  else if core.drafts.any (fun d => decide (d.line ∈ lines)) then none
  else some task

/-! ### Sequencers -/

/-- A core's sequencer of a stream. -/
def Core.seq (core : Core) : Stream → Seq
  | .F => core.seqF | .B => core.seqB | .U => core.seqU

/-- A core with one sequencer replaced. -/
def Core.setSeq (core : Core) (q : Stream) (sq : Seq) : Core :=
  match q with
  | .F => { core with seqF := sq }
  | .B => { core with seqB := sq }
  | .U => { core with seqU := sq }

/-- The instruction of a sequencer's program at an index, as a number; 0 past its end, which is no defined opcode. -/
def Seq.instr (sq : Seq) (i : Nat) : Nat := (sq.prog.getD i 0).toNat

/-- A context entry of a sequencer, as a number (R102). -/
def Seq.ctxAt (sq : Seq) (i : Nat) : Nat := (tget 0 sq.ctx i).toNat

/-- The unit number of a sequencer in CORE.SELECT.UNIT (R90). -/
def seqUnit : Stream → Nat
  | .F => 0 | .B => 1 | .U => 2

/-! ### Stall counters (R88, R89) -/

/-- One cycle counted under a cause for a unit of a core. -/
def Core.stall (core : Core) (unit cause : Nat) : Core :=
  { core with stalls := tmod 0 core.stalls (unit * 8 + cause) satInc32 }

/-- A number of cycles counted under a cause for a unit of a core. -/
def Core.stallFor (core : Core) (unit cause n : Nat) : Core :=
  { core with stalls := tmod 0 core.stalls (unit * 8 + cause) fun x => min (x + n) (2 ^ 32 - 1) }

/-- The cycles that units wait counted, each unit under the first cause in the order of Table 9 of chapter 3 that applies (R88). -/
def Core.countWaits (core : Core) (ws : List (Nat × Nat)) : Core :=
  ((ws.map Prod.fst).dedup).foldl (fun k u => k.stall u (((ws.filter fun w => w.1 == u).map Prod.snd).foldl min 7)) core

/-- A wait of core `c`'s router in slot `t` under a cause, counted when the slot passes (R88: one cause a slot). -/
def State.routerWait (s : State) (c t cause : Nat) : State := s.modCore c fun k => { k with routerWaits := k.routerWaits ++ [(t, cause)] }

/-! ### Issue of an operation -/

/-- Whether a core runs: its clocks run and its roll call is complete (R93, R96). -/
def Core.runs (core : Core) : Bool := core.power == .running && core.valid

/-- What an operation that issues finds: its core and task, its partition, and its word. -/
structure Issue where
  c : Nat
  q : Stream
  core : Core
  task : Task
  p : Nat
  part : Part
  slot : Nat
  n : Nat

/-- The next operation of the task that a sequencer runs, when its opcode is `op` (R70); none once the section no longer runs. -/
def issueOf (s : State) (c : Nat) (q : Stream) (op : Nat) : Option Issue :=
  let core := s.core c
  let sq := core.seq q
  match sq.running with
  | none => none
  | some task =>
    let p := s.partOfCore c
    if core.runs && (s.part p).sect == .open && opcode (sq.instr task.pc) == op then
      some { c := c, q := q, core := core, task := task, p := p, part := s.part p, slot := s.slot, n := sq.instr task.pc }
    else none

/-- The groups whose drafts the task sees (R78): its own group and its ancestors; none for a fair task. -/
def Issue.view (i : Issue) : List Nat := if i.task.draft then secView i.part.sec i.task.group else []

/-- The group that the task's writes belong to, when it is a draft. -/
def Issue.draft (i : Issue) : Option Nat := if i.task.draft then some i.task.group else none

/-- The context entry that the operation names (R102, R128). -/
def Issue.ctx (i : Issue) : Nat := (i.core.seq i.q).ctxAt (opCtx i.n)

/-- The rung at which the operation runs (R266). -/
def Issue.rung (i : Issue) : Nat := i.part.rungOf (opLayer i.n)

/-- The type in which the array at word address `w` is stored, of type `t` in the image (R42, R54). -/
def Issue.typeAt (i : Issue) (w t : Nat) : Nat :=
  match i.core.typeAt i.view w with
  | some st => st.code
  | none => t

/-- What the operation's writes store, where its type is not the image's (R54). -/
def Issue.stype (i : Issue) (image actual : Nat) : Option SType :=
  if image = actual then none else some { code := actual, layer := i.part.twin (opLayer i.n), rung := i.rung }

/-- The effect of an operation on its core: the core with its units changed, writes, the type they store, flags, widenings to
record, the read and write lines as ranges, and the compute units that now hold it. -/
structure Eff where
  core : Core
  writes : List Wr := []
  stype : Option SType := none
  flags : List (Nat × Nat) := []
  widen : List (SType × Nat × Nat) := []
  reads : List (Nat × Nat) := []
  /-- units that hold the operation until its end: engine numbers, 8 row unit, 9 vector unit, 10 attention pipe; whether it is
  of the port class; its first block and its number of blocks in each engine. -/
  units : List (Nat × Nat) := []
  port : Bool := false
  base : Nat := 0
  /-- lines that a key-value command writes after its issue (R180). -/
  later : List (Nat × Nat) := []
  /-- the unit of CORE.SELECT.UNIT that waits when its writes are held. -/
  stallUnit : Nat := 0
  /-- scratchpad byte address of a work area whose contents the operation leaves open, with its size in bytes (R170). -/
  work : Option (Nat × Nat) := none

/-- What an operation tries: an effect, or waiting under a cause of Table 9 of chapter 3 for a unit. -/
inductive Try
  | eff (e : Eff)
  | wait (unit cause : Nat)

/-- Two ranges of lines that share a line. -/
def overlaps (a b : Nat × Nat) : Bool := decide (a.1 ≤ b.2) && decide (b.1 ≤ a.2)

/-- Whether any range of one list shares a line with any of another. -/
def anyOverlap (a b : List (Nat × Nat)) : Bool := a.any (fun x => b.any (overlaps x))

/-- All unfinished operations of a core's row unit, vector unit and attention pipe. -/
def Core.unfinRows (core : Core) : List Unfin := core.rowUnit ++ core.vecUnit ++ core.attn

/-- All unfinished operations of a core's engines. -/
def Core.unfinEngines (core : Core) : List Unfin := (upFrom 0 8).flatMap (fun e => (tget {} core.engines e).unfin)

/-- Whether an operation of sequencer `q` waits for an earlier unfinished one of the same sequencer (R129): engine operations
wait only for row, vector and attention operations. -/
def Core.hazard (core : Core) (q : Stream) (engine : Bool) (reads writes : List (Nat × Nat)) : Bool :=
  let l := if engine then core.unfinRows else core.unfinRows ++ core.unfinEngines
  (l.filter (fun u => u.stream == q)).any (fun u => anyOverlap reads u.writes || anyOverlap writes u.reads || anyOverlap writes u.writes)

/-! ### Scratchpad banks (R62, R63) -/

/-- The bank of a line (R62). -/
def bankOf (line : Nat) : Nat := line % 32

/-- A requester's accesses to lines wait for their banks. -/
def Core.request (core : Core) (order : Nat) (lines : List Nat) : Core :=
  if lines = [] then core else { core with bankReqs := core.bankReqs ++ [(order, lines)] }

/-- The requester, in the order of Table 2 of chapter 3, as which a compute unit (0 to 7 engines, 8 row unit, 9 vector unit, 10 attention pipe)
accesses the scratchpad. -/
def bankOrder (port : Bool) (unit : Nat) : Nat :=
  if unit < 8 then (if port then 10 else 2) + unit else if unit = 8 then 19 else if unit = 9 then 20 else 18

/-- The unit of CORE.SELECT.UNIT that counts a refusal of a requester (R63, R88, R90); a commit copy and background work belong to no unit
that counts. -/
def orderUnit (order : Nat) : Option Nat :=
  if order = 0 then some 14 else if order = 1 then none else if order < 10 then some (order + 1) else if order < 18 then some (order - 7)
  else if order = 18 then some 13 else if order = 19 then some 11 else if order = 20 then some 12 else none

/-- The lines of a range. -/
def rangeLines (r : Nat × Nat) : List Nat := upFrom r.1 (r.2 + 1 - r.1)

/-- The lines of an operand dealt in turn to the units that carry the operation out: each is one stream of accesses of its unit. -/
def Core.requestRange (core : Core) (orders : List Nat) (r : Nat × Nat) : Core :=
  let ls := rangeLines r
  (orders.zip (upFrom 0 orders.length)).foldl (fun c o =>
    c.request o.1 (((ls.zip (upFrom 0 ls.length)).filter fun x => x.2 % orders.length == o.2).map Prod.fst)) core

/-- The lines that an issued operation reads and writes asked of the banks (R63). -/
def Core.requestAll (core : Core) (port : Bool) (units : List Nat) (ranges : List (Nat × Nat)) : Core :=
  ranges.foldl (fun c r => c.requestRange (units.map (bankOrder port)) r) core

/-- The lines that one arithmetic cycle of banks serves: in order of requesters, one line a bank (R63); the rest, with whether another
requester holds its bank. -/
def serveBanks : List (Nat × Nat) → List (Nat × List Nat) → List (Nat × List Nat) × List Nat
  | _, [] => ([], [])
  | taken, (o, ls) :: l =>
    match ls with
    | [] => serveBanks taken l
    | x :: more =>
      match taken.find? fun t => t.1 == bankOf x with
      | none =>
        let r := serveBanks ((bankOf x, o) :: taken) l
        (if more = [] then r.1 else (o, more) :: r.1, r.2)
      | some t =>
        let r := serveBanks taken l
        ((o, ls) :: r.1, if t.2 = o then r.2 else addOnce r.2 o)

/-- One arithmetic cycle of a core's banks: the requester of highest order is served at each, and every other one is refused and tries again
in the next cycle. The requesters refused are answered beside the core (R63). -/
def Core.bankCycle (core : Core) : Core × List Nat :=
  if core.bankReqs = [] then (core, [])
  else
    let r := serveBanks [] (core.bankReqs.mergeSort fun a b => decide (a.1 ≤ b.1))
    ({ core with bankReqs := r.1 }, r.2)

/-- The unit put to work on an unfinished operation. -/
def Core.addUnfin (core : Core) (u : Unfin) (unit : Nat × Nat) : Core :=
  if unit.1 < 8 then
    { core with engines := tmod {} core.engines unit.1 (fun e => { e with unfin := e.unfin ++ [{ u with blocks := unit.2 }] }) }
  else if unit.1 = 8 then { core with rowUnit := core.rowUnit ++ [u] }
  else if unit.1 = 9 then { core with vecUnit := core.vecUnit ++ [u] }
  else { core with attn := core.attn ++ [u] }

/-- The ranges of lines of a list of writes, one for each run of writes that touch. -/
def writeRanges (ws : List Wr) : List (Nat × Nat) := (writeLines ws).map (fun l => (l, l))

/-- The ranges of lines that an effect writes. -/
def Eff.written (e : Eff) : List (Nat × Nat) := writeRanges e.writes ++ e.later

/-- Whether an earlier unfinished operation of its sequencer holds the operation (R129). -/
def Issue.held (i : Issue) (e : Eff) : Bool := i.core.hazard i.q (e.units.all fun u => decide (u.1 < 8)) e.reads e.written

/-- The arithmetic cycle of a slot, plus 1. -/
def cycleOf (slot : Nat) : Nat := slot / 2 + 1

/-- Why an operation cannot issue now: the unit that waits and the cause (R88); none where it issues. A sequencer issues one operation in an
arithmetic cycle, and its next one comes without a wait (R106). -/
def Issue.blocked (i : Issue) (t : Try) : Option (Nat × Nat) :=
  match t with
  | .wait unit cause => some (unit, cause)
  | .eff e =>
    if i.held e then some (seqUnit i.q, 1)
    else if (e.core.admitLines i.task (writeLines e.writes)).isNone then some (e.stallUnit, 5)
    else none

/-- The core after an operation of the task that lands: its writes are there, its units hold it, the banks are asked for its lines, and the task,
with its draft lines counted, goes on to its next operation with the operation's flags. -/
def Issue.landedCore (i : Issue) (e : Eff) (task : Task) : Core :=
  let task := { task with pc := i.task.pc + 1, flags := addFlags i.task.flags e.flags }
  let core := e.core.putAll i.draft i.view e.stype e.writes
  let u : Unfin := { stream := i.q, task := i.task.tag, id := i.core.issued, mask := (e.units.map Prod.fst).filter fun x => decide (x < 8),
                     port := e.port, base := e.base, reads := e.reads, writes := e.written }
  let core := e.units.foldl (fun c x => c.addUnfin u x) core
  let core := core.setSeq i.q { core.seq i.q with running := some task, issuedAt := cycleOf i.slot }
  { core.requestAll e.port (e.units.map Prod.fst) (e.reads ++ e.written) with idle := 0, issued := i.core.issued + 1 }

/-- The partition after an operation that lands: its widenings are recorded (R450), and the section watchdog starts again at a tile operation, one
that engines carry out (R92). -/
def Issue.landedPart (i : Issue) (e : Eff) : Part :=
  e.widen.foldl (fun (pt : Part) w => pt.recordWiden i.slot (i.part.twin (opLayer i.n)) w.1 w.2.1 w.2.2 (tagMb i.task.tag) i.c)
    (if e.units.any (fun x => decide (x.1 < 8)) then { i.part with watchdog := 0 } else i.part)

/-- The bytes of a work area after an operation has used it: the manual does not say what it leaves there, so they are a free value (R170; entry 5). -/
def State.scribble (s : State) (c : Nat) (w : Option (Nat × Nat)) : State :=
  match w with
  | none => s
  | some (a, n) => { s.modCore c (fun core => core.putNat none a (Config.freeValue (8 * n) s.fresh).toNat n) with fresh := s.fresh + 1 }

/-- The state after an operation of the task that issues takes effect. Where R79, R80 or R129 holds it, nothing changes: the cycles of waiting
are counted as they pass (R88). -/
def State.complete (s : State) (i : Issue) (t : Try) : State :=
  match t with
  | .wait _ _ => s
  | .eff e =>
    if i.held e then s
    else
      match e.core.admitLines i.task (writeLines e.writes) with
      | none => s
      | some task => ((s.setCore i.c (i.landedCore e task)).setPart i.p (i.landedPart e)).scribble i.c e.work

end Sys2Proof.Machine
end

