-- ==== Sys2Proof/Machine/Philox.lean ====
section
/-! DEFINITION. Philox-4x32-10 and the counters of the module's random draws (R49, R141 to R145). -/

namespace Sys2Proof.Machine

open Sys2Proof

/-- One round of Philox over counter words (c0, c1, c2, c3) with key words (k0, k1) (R141). -/
def philoxRound (c : Nat × Nat × Nat × Nat) (k : Nat × Nat) : Nat × Nat × Nat × Nat :=
  let p0 := 0xD2511F53 * c.1
  let p1 := 0xCD9E8D57 * c.2.2.1
  (Nat.xor (Nat.xor (p1 / 2 ^ 32) c.2.1) k.1, p1 % 2 ^ 32, Nat.xor (Nat.xor (p0 / 2 ^ 32) c.2.2.2) k.2, p0 % 2 ^ 32)

/-- `n` rounds, the key words stepped after each (R141). -/
def philoxRounds : Nat → Nat × Nat × Nat × Nat → Nat × Nat → Nat × Nat × Nat × Nat
  | 0, c, _ => c
  | n + 1, c, k => philoxRounds n (philoxRound c k) ((k.1 + 0x9E3779B9) % 2 ^ 32, (k.2 + 0xBB67AE85) % 2 ^ 32)

/-- The 128-bit output of Philox-4x32-10 for a 128-bit counter and a 64-bit key (R141). -/
def philox (counter key : Nat) : Nat :=
  let o := philoxRounds 10 (bits counter 0 32, bits counter 32 32, bits counter 64 32, bits counter 96 32)
    (bits key 0 32, bits key 32 32)
  o.1 + o.2.1 * 2 ^ 32 + o.2.2.1 * 2 ^ 64 + o.2.2.2 * 2 ^ 96

/-- The Philox counter of Table 7 of chapter 5. `dataPos` is the data-position register: EPOCH [59:48], SHARD [47:36],
INDEX [35:0], which are the counter's bits [123:64]. An element index too long for GROUP is taken modulo 2³⁷ (DESIGN CHOICE, entry 77). -/
def philoxCounter (group addend layer kind stage dataPos purpose : Nat) : Nat :=
  group % 2 ^ 37 + addend % 2 ^ 12 * 2 ^ 37 + layer % 2 ^ 12 * 2 ^ 49 + kind % 4 * 2 ^ 61 + stage % 2 * 2 ^ 63 +
    dataPos % 2 ^ 60 * 2 ^ 64 + purpose % 16 * 2 ^ 124

/-- The 16-bit draw of stochastic rounding for an element (R49). -/
def roundDraw (key dataPos layer kind stage addend elem : Nat) : Nat :=
  bits (philox (philoxCounter (elem / 8) addend layer kind stage dataPos 1) key) (16 * (elem % 8)) 16

/-- The 32-bit draw of VRAND and VDROP for an element (R143, R145). -/
def vectorDraw (key dataPos layer draw mb elem : Nat) : Nat :=
  bits (philox (philoxCounter (elem / 4) mb layer draw 0 dataPos 2) key) (32 * (elem % 4)) 32

end Sys2Proof.Machine
end

