-- ==== Sys2Proof/Machine/RowFns.lean ====
section
/-! DEFINITION. The functions of the row unit (R131, Table 2 of chapter 5), correctly rounded. RCP, RSQRT and SQRT are exact
integer arithmetic. The others are enclosed between two rationals on a fine grid; where both ends round to one FP32 value,
that value is the result, and otherwise a finer grid is tried. -/

namespace Sys2Proof.Machine

open Sys2Proof

/-- An enclosure on the grid of 2^−P: lower and upper end. -/
abbrev Encl := Int × Int

/-- Division of an integer by 2^P, downwards. -/
def shrFloor (P : Nat) (i : Int) : Int := i / (2 ^ P : Nat)

/-- Division of an integer by 2^P, upwards. -/
def shrCeil (P : Nat) (i : Int) : Int := -((-i) / (2 ^ P : Nat))

/-- Product of enclosures. -/
def Encl.mul (P : Nat) (a b : Encl) : Encl :=
  let w := a.1 * b.1
  let x := a.1 * b.2
  let y := a.2 * b.1
  let z := a.2 * b.2
  (shrFloor P (min (min w x) (min y z)), shrCeil P (max (max w x) (max y z)))

/-- An enclosure divided by a positive number. -/
def Encl.divNat (a : Encl) (n : Nat) : Encl := (a.1 / (n : Int), -((-a.2) / (n : Int)))

/-- Quotient of an enclosure by one whose ends are positive. -/
def Encl.div (P : Nat) (a b : Encl) : Encl :=
  let s : Int := (2 ^ P : Nat)
  let lo (x : Int) : Int := if x ≥ 0 then x * s / b.2 else x * s / b.1
  let hi (x : Int) : Int := if x ≥ 0 then -((-(x * s)) / b.1) else -((-(x * s)) / b.2)
  (lo a.1, hi a.2)

/-- Sum of enclosures. -/
def Encl.add (a b : Encl) : Encl := (a.1 + b.1, a.2 + b.2)

/-- Difference of enclosures. -/
def Encl.sub (a b : Encl) : Encl := (a.1 - b.2, a.2 - b.1)

/-- Square root of an enclosure whose ends are not negative. -/
def Encl.sqrt (P : Nat) (a : Encl) : Encl :=
  (((a.1.toNat * 2 ^ P).sqrt : Nat), ((a.2.toNat * 2 ^ P).sqrt + 1 : Nat))

/-- The number 1. -/
def Encl.one (P : Nat) : Encl := ((2 ^ P : Nat), (2 ^ P : Nat))

/-- (−1)^neg × m × 2^e enclosed. -/
def Encl.ofDy (P : Nat) (neg : Bool) (m : Nat) (e : Int) : Encl :=
  let g := e + P
  let lo : Nat := if g ≥ 0 then m * 2 ^ g.toNat else m / 2 ^ (-g).toNat
  let hi : Nat := if g ≥ 0 then lo else (m + 2 ^ (-g).toNat - 1) / 2 ^ (-g).toNat
  if neg then (-(hi : Int), -(lo : Int)) else (lo, hi)

/-- Σ y^n / n! from n = `n` on, `t` being the term before, for 0 ≤ y ≤ 1/2; the tail is at most twice the last term. -/
def expSeries (P : Nat) (y : Encl) : Nat → Nat → Encl → Encl → Encl
  | 0, _, t, acc => (acc.1, acc.2 + 2 * t.2 + 1)
  | k + 1, n, t, acc =>
    let t' := (Encl.mul P t y).divNat n
    expSeries P y k (n + 1) t' (acc.add t')

/-- Squaring `k` times. -/
def Encl.squares (P : Nat) : Nat → Encl → Encl
  | 0, a => a
  | k + 1, a => Encl.squares P k (Encl.mul P a a)

/-- e^x for an enclosure of x with ends from 0 to 512: x is halved 18 times, so that the series is short. -/
def enclExpPos (P : Nat) (x : Encl) : Encl :=
  let y := x.divNat (2 ^ 18)
  Encl.squares P 18 (expSeries P y (P / 8) 1 (Encl.one P) (Encl.one P))

/-- e^x for an enclosure of x whose ends are of one sign and below 512 in magnitude. -/
def enclExp (P : Nat) (x : Encl) : Encl :=
  if x.2 ≤ 0 then Encl.div P (Encl.one P) (enclExpPos P (-x.2, -x.1)) else enclExpPos P x

/-- Σ z^(2k+1) / (2k+1) for 0 ≤ z ≤ 1/3: `zz` is z², `t` the power reached, `n` its exponent. -/
def atanhSeries (P : Nat) (zz : Encl) : Nat → Nat → Encl → Encl → Encl
  | 0, _, t, acc => (acc.1, acc.2 + 2 * t.2 + 1)
  | k + 1, n, t, acc => atanhSeries P zz k (n + 2) (Encl.mul P t zz) (acc.add (t.divNat n))

/-- ln x for x from 1 to 2 as 2 × atanh((x − 1) / (x + 1)). -/
def enclLn1 (P : Nat) (x : Encl) : Encl :=
  let z := Encl.div P (x.sub (Encl.one P)) (x.add (Encl.one P))
  let s := atanhSeries P (Encl.mul P z z) (P / 3 + 8) 1 z (0, 0)
  (2 * s.1, 2 * s.2)

/-- ln 2. -/
def enclLn2 (P : Nat) : Encl := enclLn1 P ((2 ^ (P + 1) : Nat), (2 ^ (P + 1) : Nat))

/-- Σ (−1)^k z^(2k+1) / (2k+1) for z = 1/q: `t` the power reached, `n` its exponent. -/
def atanSeries (P q : Nat) : Nat → Nat → Bool → Encl → Encl → Encl
  | 0, _, _, t, acc => (acc.1 - t.2 - 1, acc.2 + t.2 + 1)
  | k + 1, n, neg, t, acc =>
    let term := t.divNat n
    atanSeries P q k (n + 2) (!neg) (t.divNat (q * q)) (if neg then acc.sub term else acc.add term)

/-- π by Machin's formula 16 arctan(1/5) − 4 arctan(1/239). -/
def enclPi (P : Nat) : Encl :=
  let a := atanSeries P 5 (P / 4) 1 false ((Encl.one P).divNat 5) (0, 0)
  let b := atanSeries P 239 (P / 12 + 4) 1 false ((Encl.one P).divNat 239) (0, 0)
  Encl.sub (16 * a.1, 16 * a.2) (4 * b.1, 4 * b.2)

/-- Σ (−1)^k t_k / (2k+1), where t_0 = x and t_(k+1) = t_k × w / (k+1): the series of the error function with w = x², and of
the normal distribution with w = x²/2. The terms fall from k = w on, so that the tail is at most the last term. -/
def erfSeries (P : Nat) (w : Encl) : Nat → Nat → Bool → Encl → Encl → Encl
  | 0, _, _, t, acc => (acc.1 - t.2.natAbs - t.1.natAbs - 1, acc.2 + t.2.natAbs + t.1.natAbs + 1)
  | n + 1, k, neg, t, acc =>
    let term := t.divNat (2 * k + 1)
    erfSeries P w n (k + 1) (!neg) ((Encl.mul P t w).divNat (k + 1)) (if neg then acc.sub term else acc.add term)

/-- erf x for |x| < 8. -/
def enclErf (P : Nat) (x : Encl) : Encl :=
  let s := erfSeries P (Encl.mul P x x) (P + 100) 0 false x (0, 0)
  Encl.div P (2 * s.1, 2 * s.2) (Encl.sqrt P (enclPi P))

/-- Φ(x) for |x| < 14. -/
def enclPhi (P : Nat) (x : Encl) : Encl :=
  let s := erfSeries P ((Encl.mul P x x).divNat 2) (P + 100) 0 false x (0, 0)
  let pi := enclPi P
  let half : Encl := ((2 ^ (P - 1) : Nat), (2 ^ (P - 1) : Nat))
  half.add (Encl.div P s (Encl.sqrt P (2 * pi.1, 2 * pi.2)))

/-- Where both ends of an enclosure round to one FP32 magnitude of one sign: that value before flushing. -/
def Encl.settle (P : Nat) (a : Encl) : Option Val :=
  let lo := roundTo 24 a.1.natAbs (-(P : Int))
  let hi := roundTo 24 a.2.natAbs (-(P : Int))
  if decide (a.1 > 0) && !dyGt hi.1 hi.2 lo.1 lo.2 then some (.fin false lo.1 lo.2)
  else if decide (a.2 < 0) && !dyGt lo.1 lo.2 hi.1 hi.2 then some (.fin true lo.1 lo.2)
  else none

/-- The enclosure of a function of Table 2 at (−1)^neg × m × 2^e, m ≠ 0, of a magnitude for which `rowFnFin` calls it. -/
def enclFn (P code : Nat) (neg : Bool) (m : Nat) (e : Int) : Encl :=
  let x := Encl.ofDy P neg m e
  let one := Encl.one P
  match code with
  | 0 => enclExp P x
  | 1 => enclExp P (Encl.mul P x (enclLn2 P))
  | 2 =>
    let le := leadExp m e
    let l2 := enclLn2 P
    let k : Encl := if le ≥ 0 then (le * l2.1, le * l2.2) else (le * l2.2, le * l2.1)
    (enclLn1 P (Encl.ofDy P false m (e - le))).add k
  | 6 =>
    let y := enclExp P (2 * x.1, 2 * x.2)
    Encl.div P (y.sub one) (y.add one)
  | 7 => Encl.div P one (one.add (enclExp P (-x.2, -x.1)))
  | 8 => enclErf P x
  | 9 => Encl.mul P x (enclPhi P x)
  | _ => Encl.div P x (one.add (enclExp P (-x.2, -x.1)))

/-- A function at a finite argument that is not zero: the enclosure at 512 and then at 1,280 bits. -/
def enclTry (code : Nat) (neg : Bool) (m : Nat) (e : Int) : Val :=
  match (enclFn 512 code neg m e).settle 512 with
  | some v => v
  | none =>
    match (enclFn 1280 code neg m e).settle 1280 with
    | some v => v
    | none => decodeFloat 5 (Config.fnOpen code (rne32 (.fin neg m e)) % 2 ^ 32)

/-- Just below one: what a function that approaches one has at a large argument, before rounding. -/
def justBelowOne (neg : Bool) : Val := .fin neg (2 ^ 100 - 1) (-100)

/-- The real value of a function of Table 2, or what rounds as it does, at a finite argument that is not zero. -/
def rowFnFin (code : Nat) (neg : Bool) (m : Nat) (e : Int) : Val :=
  let big (k : Nat) : Bool := !dyGt k 0 m e
  match code with
  | 0 => if big 128 then (if neg then .fin false 1 (-200) else .fin false 1 200) else enclTry 0 neg m e
  | 1 => if big 256 then (if neg then .fin false 1 (-200) else .fin false 1 200) else enclTry 1 neg m e
  | 2 => if neg then .nan else if !dyGt m e 1 0 && !dyGt 1 0 m e then .zero else enclTry 2 neg m e
  | 3 => let q := quotDy 1 m (-e); .fin neg q.1 q.2
  | 4 => if neg then .nan else
    -- 1 / √(m × 2^e) = √(2^(2k) / m) × 2^(−(e/2) − k), with e made even
    let m' := if e % 2 = 0 then m else 2 * m
    let e' := if e % 2 = 0 then e else e - 1
    let n := 2 ^ 400 / m'
    let r := n.sqrt
    .fin false (2 * r + (if r * r * m' = 2 ^ 400 then 0 else 1)) (-(e' / 2) - 201)
  | 5 => if neg then .nan else let q := sqrtDy m e; .fin false q.1 q.2
  | 6 => if big 64 then justBelowOne neg else enclTry 6 neg m e
  | 7 => if big 128 then (if neg then .fin false 1 (-200) else justBelowOne false) else enclTry 7 neg m e
  | 8 => if big 8 then justBelowOne neg else enclTry 8 neg m e
  | 9 => if big 14 then (if neg then .fin true 1 (-200) else .fin false m e) else enclTry 9 neg m e
  | _ => if big 128 then (if neg then .fin true 1 (-200) else .fin false m e) else enclTry 10 neg m e

/-- A function of Table 2 at a value, before its rounding to FP32: the special cases of the table, and `rowFnFin`. A reserved
code gives a NaN (R131). -/
def rowFnVal (code : Nat) (x : Val) : Val :=
  if code > 10 then .nan else
  match x with
  | .nan => .nan
  | .inf neg =>
    match code with
    | 0 => if neg then .zero else .inf false
    | 1 => if neg then .zero else .inf false
    | 2 => if neg then .nan else .inf false
    | 3 => .fin neg 0 0
    | 4 => if neg then .nan else .zero
    | 5 => if neg then .nan else .inf false
    | 6 => .fin neg 1 0
    | 7 => if neg then .zero else .fin false 1 0
    | 8 => .fin neg 1 0
    | _ => if neg then .fin true 0 0 else .inf false
  | .fin neg m e =>
    if m = 0 then
      match code with
      | 0 => .fin false 1 0
      | 1 => .fin false 1 0
      | 2 => .inf true
      | 3 => .inf neg
      | 4 => .inf neg
      | 7 => .fin false 1 (-1)
      | _ => .fin neg 0 0
    else rowFnFin code neg m e

/-! ### Rotary functions (R161) -/

/-- Σ (−1)^k r^(2k+j) / (2k+j)!: `t` the term reached, `n` the exponent of the next one; the tail is at most the last term. -/
def trigSeries (P : Nat) (rr : Encl) : Nat → Nat → Bool → Encl → Encl → Encl
  | 0, _, _, t, acc => (acc.1 - t.1.natAbs - t.2.natAbs - 1, acc.2 + t.1.natAbs + t.2.natAbs + 1)
  | k + 1, n, neg, t, acc =>
    trigSeries P rr k (n + 2) (!neg) ((Encl.mul P t rr).divNat ((n + 1) * (n + 2))) (if neg then acc.sub t else acc.add t)

/-- An enclosure reduced by a whole number of turns, into about [0, 2π]. -/
def reduceTurn (P : Nat) (x : Encl) : Encl :=
  let pi := enclPi P
  let turn : Encl := (2 * pi.1, 2 * pi.2)
  let k := x.1 / turn.2
  if k ≥ 0 then x.sub (k * turn.1, k * turn.2) else x.sub (k * turn.2, k * turn.1)

/-- sin (`cosine` false) or cos of an enclosure. -/
def enclTrig (P : Nat) (cosine : Bool) (x : Encl) : Encl :=
  let r := reduceTurn P x
  let rr := Encl.mul P r r
  if cosine then trigSeries P rr (P / 3) 0 false (Encl.one P) (0, 0)
  else trigSeries P rr (P / 3) 1 false r (0, 0)

/-- COS or SIN of a value, before its rounding to FP32 (R161). The open code of `Config.fnOpen` is 16 or 17. -/
def trigVal (cosine : Bool) (x : Val) : Val :=
  match x with
  | .fin neg m e =>
    if m = 0 then (if cosine then .fin false 1 0 else .fin neg 0 0)
    else
      match (enclTrig 512 cosine (Encl.ofDy 512 neg m e)).settle 512 with
      | some v => v
      | none =>
        match (enclTrig 1280 cosine (Encl.ofDy 1280 neg m e)).settle 1280 with
        | some v => v
        | none => decodeFloat 5 (Config.fnOpen (if cosine then 16 else 17) (rne32 x) % 2 ^ 32)
  | _ => .nan

end Sys2Proof.Machine
end

