-- ==== Sys2Proof/Machine/Operands.lean ====
section
/-! DEFINITION. Operand forms: block and linear layout (R104, R127), transposes (R105), pads (R117), two-level scales and their
records (R33 to R39), and the FP32 arithmetic of the row and vector units with its flags. -/

namespace Sys2Proof.Machine

open Sys2Proof

/-- Division rounded up. -/
def ceilDiv (a b : Nat) : Nat := (a + b - 1) / b

/-! ### Element places -/

/-- Bit address of element (r, c) of a tensor of `cols` columns in block layout at word address `base` (R104). -/
def blockBit (base t cols r c : Nat) : Nat :=
  base * 128 + ((r / 8 * ceilDiv cols 8 + c / 8) * 64 + r % 8 * 8 + c % 8) * typeBits t

/-- Bit address of element `i` of a linear array at word address `base` (R127, R29, R32). -/
def linearBit (base t i : Nat) : Nat := base * 128 + i * typeBits t

/-- Bit address of element (r, c) of an operand in either layout. -/
def elemBit (linear : Bool) (base t cols r c : Nat) : Nat :=
  if linear then linearBit base t (r * cols + c) else blockBit base t cols r c

/-- The encoding that a task reads at a bit address for type `t`. -/
def Issue.rawAt (i : Issue) (t bitAddr : Nat) : Nat :=
  if typeBits t = 4 then bits (i.core.byteAt i.view (bitAddr / 8)).toNat (bitAddr % 8) 4
  else i.core.readNat i.view (bitAddr / 8) (typeBits t / 8)

/-- An FP32 word at a byte address, as a value. -/
def Issue.fp32At (i : Issue) (byteAddr : Nat) : Val := decodeFloat 5 (i.core.readNat i.view byteAddr 4)

/-- The range of lines of an operand of `rows` × `cols` elements. -/
def tileRange (linear : Bool) (base t rows cols : Nat) : Nat × Nat :=
  let nbits := if linear then rows * cols * typeBits t else ceilDiv rows 8 * ceilDiv cols 8 * 64 * typeBits t
  (base / 4, (base * 128 + nbits - 1) / 512)

/-! ### Scale records (R36, Table 5 of chapter 2) -/

/-- The header of the scale record at word address `sa`, as a number. -/
def Issue.scaleHead (i : Issue) (sa : Nat) : Nat := i.core.readNat i.view (sa * 16) 16

/-- Byte addresses of the A, B and C arrays of a scale record at `sa` whose A and B arrays have the given sizes, 0 where
absent (R36). -/
def scaleArrays (sa aBytes bBytes : Nat) : Nat × Nat × Nat :=
  let a := (sa + 1) * 16
  let b := a + ceilDiv aBytes 16 * 16
  (a, b, b + ceilDiv bBytes 16 * 16)

/-- A byte of a scale array. -/
def Issue.scaleByte (i : Issue) (byteAddr : Nat) : Nat := (i.core.byteAt i.view byteAddr).toNat

/-- A_ZERO, B_ZERO and C_ZERO of a header (R31). -/
def headZero (h k : Nat) : Int := signedOf 8 (bits h (96 + 8 * k) 8)

/-! ### FP32 arithmetic with its flags -/

/-- A value with what its computation met: a rounding out of range (R41), and a function whose result is not finite (R131). -/
structure FV where
  v : Val
  out : Bool := false
  spec : Bool := false

/-- An operand read from storage. -/
def FV.of (v : Val) : FV := { v := v }

/-- An exact result rounded once to FP32, with the flags of its operands `a` and `b` (R138). A rounding out of range within an operation counts as the
operation's own (R52; DESIGN CHOICE, entry 76: the manual speaks of results). -/
def FV.rnd (v : Val) (a b : FV) : FV :=
  let c := convert 5 v
  { v := decodeFloat 5 c.bits, out := c.oor || a.out || b.out, spec := a.spec || b.spec }

/-- RNE(a + b). -/
def FV.add (a b : FV) : FV := FV.rnd (a.v.add b.v) a b
/-- RNE(a − b). -/
def FV.sub (a b : FV) : FV := FV.rnd (a.v.sub b.v) a b
/-- RNE(a × b). -/
def FV.mul (a b : FV) : FV := FV.rnd (a.v.mul b.v) a b
/-- RNE(a × b + c), one rounding. -/
def FV.fma (a b c : FV) : FV :=
  let r := FV.rnd ((a.v.mul b.v).add c.v) a b
  { r with out := r.out || c.out, spec := r.spec || c.spec }
/-- −a, exactly. -/
def FV.neg (a : FV) : FV := { a with v := a.v.neg }
/-- A row-unit function, rounded to FP32; it raises the flag when its result is infinite or a NaN, as out of range where the rounding
overflows (R41, R131). -/
def FV.fn (code : Nat) (a : FV) : FV :=
  let c := convert 5 (rowFnVal code a.v)
  { v := decodeFloat 5 c.bits, out := a.out || c.oor, spec := a.spec || special32 c.bits }

/-- The greater of two values: a NaN operand gives NaN, and +0 ranks above −0 (R132). -/
def Val.max2 (a b : Val) : Val :=
  match a, b with
  | .nan, _ => .nan
  | _, .nan => .nan
  | .fin na 0 ea, .fin nb 0 _ => .fin (na && nb) 0 ea
  | a, b => if a.lt b then b else a

/-- The lesser of two values, in the same order. -/
def Val.min2 (a b : Val) : Val :=
  match a, b with
  | .nan, _ => .nan
  | _, .nan => .nan
  | .fin na 0 ea, .fin nb 0 _ => .fin (na || nb) 0 ea
  | a, b => if b.lt a then b else a

/-- Adding the elements of one lane, from −0, in ascending order (R132). -/
def laneSum (l : List FV) : FV := l.foldl FV.add (FV.of (.fin true 0 0))

/-- The elements whose position is `k` modulo 8. -/
def everyEighth {α : Type} (k : Nat) (l : List α) : List α :=
  ((l.zip (upFrom 0 l.length)).filter (fun x => x.2 % 8 == k)).map Prod.fst

/-- The row sum order: eight lanes by position, then the combination of R132. -/
def rowSum (l : List FV) : FV :=
  let p (k : Nat) : FV := laneSum (everyEighth k l)
  let t0 := (p 0).add (p 4)
  let t1 := (p 1).add (p 5)
  let t2 := (p 2).add (p 6)
  let t3 := (p 3).add (p 7)
  (t0.add t2).add (t1.add t3)

/-- The row maximum (R132). -/
def rowMax (l : List FV) : FV :=
  match l with
  | [] => FV.of .zero
  | a :: r => r.foldl (fun x y => { v := x.v.max2 y.v, out := x.out || y.out, spec := x.spec || y.spec }) a

/-- The encoding that a result is written as, with its flags: out of range, and an infinity or a NaN written (R52). -/
def FV.store (t : Nat) (a : FV) : Nat × Bool × Bool :=
  let c := convert t a.v
  (c.bits, a.out || c.oor, a.spec || c.spec)

/-- The flags of a list of written results of a unit whose out-of-range cause is `cause` (Table 11). -/
def resultFlags (cause top : Nat) (l : List (Nat × Bool × Bool)) : List (Nat × Nat) :=
  flagIf (l.any (fun x => x.2.1)) cause top ++ flagIf (l.any (fun x => x.2.2)) 3 top

/-! ### Row and vector operands -/

/-- X_ADDR, Y_ADDR or Z_ADDR stepped (R103, R128). -/
def Issue.addrX (i : Issue) : Nat := ctxStep i.ctx i.task.passes 0 (opA i.n)
/-- Y_ADDR stepped. -/
def Issue.addrY (i : Issue) : Nat := ctxStep i.ctx i.task.passes 1 (opB i.n)
/-- Z_ADDR stepped. -/
def Issue.addrZ (i : Issue) : Nat := ctxStep i.ctx i.task.passes 2 (opC i.n)

/-- A row-unit or vector-unit operand as rows of values, read in the type in which it is stored (R127, R140). -/
def Issue.rows (i : Issue) (base t : Nat) : List (List FV) :=
  let st := i.typeAt base t
  (upFrom 0 (opRows i.n)).map fun r => (upFrom 0 (opLen i.n)).map fun c =>
    FV.of (decodeFloat st (i.rawAt st (elemBit (opLinear i.n) base st (opLen i.n) r c)))

/-- `n` FP32 values from a word address on, linear. -/
def Issue.vec32 (i : Issue) (base n : Nat) : List FV := (upFrom 0 n).map fun k => FV.of (i.fp32At (base * 16 + 4 * k))

/-- The logical index of element (r, c) of a row or vector operation (R127). -/
def Issue.elemIndex (i : Issue) (r c : Nat) : Nat :=
  ctxElem i.ctx i.task.passes + (if opLinear i.n then r * opLen i.n + c else r * ctxPitch i.ctx + c)

/-- The type in which a row or vector result is written (R140). -/
def Issue.zType (i : Issue) : Nat := raiseZ i.rung (opZType i.n)

/-- The writes of a matrix of encodings to Z. -/
def Issue.zWrites (i : Issue) (vals : List (List Nat)) : List Wr :=
  (vals.zip (upFrom 0 vals.length)).flatMap fun row => (row.1.zip (upFrom 0 row.1.length)).map fun x =>
    (elemBit (opLinear i.n) i.addrZ i.zType (opLen i.n) row.2 x.2, typeBits i.zType, x.1)

/-- The writes of a list of FP32 encodings from a word address on. -/
def writes32 (base : Nat) (vals : List Nat) : List Wr :=
  (vals.zip (upFrom 0 vals.length)).map fun x => (base * 128 + 32 * x.2, 32, x.1)

/-- The parameter record's first `k` bytes as a number (R128). -/
def Issue.record (i : Issue) (k : Nat) : Nat := i.core.readNat i.view (ctxScale i.ctx * 16) k

/-- The FP32 field at bit `lo` of a record. -/
def recFp (rec lo : Nat) : FV := FV.of (decodeFloat 5 (bits rec lo 32))

end Sys2Proof.Machine
end

