-- ==== Sys2Proof/Machine/Tensor.lean ====
section
/-! DEFINITION. The tensor engine (chapter 4): products and their sums (R43 to R46), the virtual accumulator with its live bits
and spill mode (R112 to R115), drains (R36 to R41, R117), long sums (R119) and frozen layers (R125). -/

namespace Sys2Proof.Machine

open Sys2Proof

/-! ### Products and sums -/

/-- Product fraction bits of a pair; `none` for INT8, whose sum is exact (Table 7 of chapter 2). -/
def pairFrac (a b : Nat) : Option Nat :=
  if a == 4 then none
  else if a == 1 && b == 1 then some 6
  else if a == 2 && b == 2 then some 4
  else if a == 3 then some 2
  else if a == 1 || a == 2 then some 5
  else some 14

/-- The sum S of a cycle's products, each with its product exponent: truncated on the grid and summed exactly (R45, R46). -/
def gridSum (fb : Option Nat) (ps : List (Val × Int)) : Val :=
  let nz := ps.filter fun p => !p.1.isZero
  let finite := nz.all fun p => match p.1 with
    | .fin .. => true
    | _ => false
  match fb, finite, nz with
  | some f, true, p :: rest =>
    let g := rest.foldl (fun m x => max m x.2) p.2 - f - 3
    let cut (v : Val) : Int := match v with
      | .fin neg m e =>
        let k : Nat := if g ≤ e then m * 2 ^ (e - g).toNat else m / 2 ^ (g - e).toNat
        if neg then -(k : Int) else k
      | _ => 0
    ofGrid ((nz.map fun x => cut x.1).sum) g
  | _, _, l => l.foldl (fun a x => a.add x.1) .zero

/-- The leading exponent of a finite value; any number for the rest, which takes no part in the grid. -/
def Val.lead : Val → Int
  | .fin _ m e => leadExp m e
  | _ => 0

/-- The high and the low part of an FP32 operand (R46). -/
def splitParts (v : Val) : Val × Val :=
  match v with
  | .fin .. =>
    let enc := rne32 v
    let hi := decodeFloat 5 (enc / 2 ^ 16 * 2 ^ 16)
    (hi, decodeFloat 0 (convert 0 (v.sub hi)).bits)
  | _ => (v, .zero)

/-- One operand element as an engine takes it: its value, or its two parts under type 0x8, with the block exponent applied. -/
structure Elem where
  hi : Val
  lo : Val := .zero
  nanScale : Bool := false

/-- The terms of one product position in the order in which the engine forms them: one for most types, three for type 0x8
(R46). Each term is a product with its exponent. -/
def productTerms (split : Bool) (a b : Elem) : List (Val × Int) :=
  let t (x y : Val) : Val × Int := (x.mul y, x.lead + y.lead)
  if split then [t a.lo b.hi, t a.hi b.lo, t a.hi b.hi] else [t a.hi b.hi]

/-- An accumulator word after one sum is added (R45 step 4), with its flags. -/
def accAdd (a : Nat × Bool × Bool) (s : Val) : Nat × Bool × Bool :=
  let c := convert 5 ((decodeFloat 5 a.1).add s)
  (c.bits, a.2.1 || c.oor, a.2.2 || c.spec)

/-- One output's accumulator over its 8-deep steps in ascending order (R44 to R46, R107): `terms` of each step, each being the
terms of its eight positions. -/
def accSteps (fb : Option Nat) (steps : List (List (List (Val × Int)))) (acc : Nat) : Nat × Bool × Bool :=
  steps.foldl (fun a step =>
    (upFrom 0 ((step.headD []).length)).foldl (fun a k => accAdd a (gridSum fb (step.filterMap fun p => p[k]?))) a)
    (acc, false, false)

/-! ### Operands of a tile operation -/

/-- The pad value of the operation for an operand stored in type `st` with zero point `z` (R117, R118). -/
def Issue.padElem (i : Issue) (split : Bool) (st : Nat) (z : Int) : Elem :=
  let v := decodeFloat 5 (bits i.core.cfg.engine.toNat (32 * opPad i.n) 32)
  let v := if st == 4 then v.sub (ofGrid z 0) else v
  if split then { hi := (splitParts v).1, lo := (splitParts v).2 } else { hi := v }

/-- An element of A or B: `bitAddr` its place, `st` the type in which it is stored, `scale` the byte address of its block scale
where it is scaled. -/
def Issue.tileElem (i : Issue) (split : Bool) (st : Nat) (z : Int) (bitAddr scale : Nat) : Elem :=
  let v := decodeElem st z (i.rawAt st bitAddr)
  let p := if split then splitParts v else (v, .zero)
  if scaledType st then
    match e8m0 (i.scaleByte scale) with
    | none => { hi := .nan, nanScale := true }
    | some e => { hi := p.1.scale e, lo := p.2.scale e }
  else { hi := p.1, lo := p.2 }

/-- The stepped A, B and C addresses (R103). -/
def Issue.tileA (i : Issue) : Nat := ctxStep i.ctx i.task.passes 0 (opA i.n)
/-- B_ADDR stepped. -/
def Issue.tileB (i : Issue) : Nat := ctxStep i.ctx i.task.passes 1 (opB i.n)
/-- C_ADDR stepped. -/
def Issue.tileC (i : Issue) : Nat := ctxStep i.ctx i.task.passes 2 (opC i.n)

/-- The operand pair of an MMA at its layer's rung (R54, R266). -/
def Issue.ownPair (i : Issue) : Nat × Nat := (raiseType i.rung (opAType i.n), raiseType i.rung (opBType i.n))

/-- The wider type of a pair (R450). -/
def widerOf (p : Nat × Nat) : Nat := if typeRank p.1 ≥ typeRank p.2 then p.1 else p.2

/-- The widenings of an MMA's pair by stored operands, for the records of R450. -/
def Issue.widenings (i : Issue) : List (SType × Nat × Nat) :=
  let sa := i.core.typeAt i.view i.tileA
  let sb := i.core.typeAt i.view i.tileB
  let p0 := i.ownPair
  let p1 := widenPair p0 sa none
  let p2 := widenPair p0 sa sb
  (match sa with
    | some st => if p1 = p0 then [] else [(st, widerOf p0, widerOf p1)]
    | none => []) ++
  (match sb with
    | some st => if p2 = p1 then [] else [(st, widerOf p1, widerOf p2)]
    | none => [])

/-- Bytes of the A and B arrays of a scale record for an m × k by k × n operation with the image's types (R36). -/
def abBytes (a b m n k : Nat) : Nat × Nat :=
  (if scaledType a then m * ceilDiv k 32 else 0, if scaledType b then n * ceilDiv k 32 else 0)

/-- All elements of A, row by row (m × k), with pads and scales applied. -/
def Issue.matA (i : Issue) (split : Bool) : List (List Elem) :=
  let m := opM i.n
  let k := opK i.n
  let st := i.typeAt i.tileA (opAType i.n)
  let z := headZero (i.scaleHead (ctxScale i.ctx)) 0
  let by' := abBytes (opAType i.n) (opBType i.n) m (opN i.n) k
  let arr := scaleArrays (ctxScale i.ctx) by'.1 by'.2
  (upFrom 0 m).map fun r => (upFrom 0 k).map fun kk =>
    if r ≥ ctxValidM i.ctx || kk ≥ ctxValidK i.ctx then i.padElem split st z
    else i.tileElem split st z
      (if opTransA i.n then blockBit i.tileA st m kk r else blockBit i.tileA st k r kk) (arr.1 + r * ceilDiv k 32 + kk / 32)

/-- All elements of B, column by column (n × k), with pads and scales applied. -/
def Issue.matB (i : Issue) (split : Bool) : List (List Elem) :=
  let n := opN i.n
  let k := opK i.n
  let st := i.typeAt i.tileB (opBType i.n)
  let z := headZero (i.scaleHead (ctxScale i.ctx)) 1
  let by' := abBytes (opAType i.n) (opBType i.n) (opM i.n) n k
  let arr := scaleArrays (ctxScale i.ctx) by'.1 by'.2
  (upFrom 0 n).map fun c => (upFrom 0 k).map fun kk =>
    if c ≥ ctxValidN i.ctx || kk ≥ ctxValidK i.ctx then i.padElem split st z
    else i.tileElem split st z
      (if opTransB i.n then blockBit i.tileB st k c kk else blockBit i.tileB st n kk c) (arr.2.1 + c * ceilDiv k 32 + kk / 32)

/-- A list cut into pieces of 8, `fuel` at most. -/
def chunks8 {α : Type} : Nat → List α → List (List α)
  | 0, _ => []
  | fuel + 1, l => if l.isEmpty then [] else l.take 8 :: chunks8 fuel (l.drop 8)

/-! ### The virtual accumulator -/

/-- The engine of a core. -/
def Core.engine (core : Core) (e : Nat) : Engine := tget {} core.engines e

/-- A core with one engine replaced. -/
def Core.setEngine (core : Core) (e : Nat) (x : Engine) : Core := { core with engines := tset {} core.engines e x }

/-- Whether any block of a virtual slot is live (R113). -/
def Engine.slotLive (x : Engine) (slot : Nat) : Bool := x.live.any fun b => b.1 / 64 == slot && b.2.isSome

/-- The word of a spill frame of engine `e`: byte address of word `w` of frame `f` (R115). -/
def spillByte (core : Core) (e f w : Nat) : Nat := (bits core.cfg.engine.toNat 128 20 + (2 * e + f) * 0x400) * 16 + 4 * w

/-- A virtual slot written to spill frame `f` of engine `e` (R114, R115). -/
def Core.spill (core : Core) (e slot f : Nat) : Core :=
  let x := core.engine e
  let core := (upFrom 0 4096).foldl (fun c w => c.putNat none (spillByte core e f w) (tget 0 x.acc (slot * 4096 + w)).toNat 4) core
  core.setEngine e { x with acc := x.acc.filter (fun p => p.1 / 4096 != slot), resident := x.resident.filter (· != slot),
                            frames := tset none x.frames f (some slot) }

/-- A spilled slot brought back from frame `f` (R114, R46). -/
def Core.reload (core : Core) (e slot f : Nat) : Core :=
  let x := core.engine e
  let acc := (upFrom 0 4096).foldl (fun m w =>
    tset 0 m (slot * 4096 + w) (BitVec.ofNat 32 (core.readNat [] (spillByte core e f w) 4))) x.acc
  core.setEngine e { x with acc := acc, frames := tset none x.frames f none }

/-- The frame that holds a spilled slot. -/
def Engine.frameOf (x : Engine) (slot : Nat) : Option Nat := [0, 1].find? fun f => tget none x.frames f == some slot

/-- The cycles of a spill or of a reload: 256 lines at one line a cycle (R114). -/
def spillCycles : Nat := 256

/-- The needed slot taken into a free physical slot, from its frame when it was spilled. -/
def Core.takeSlot (core : Core) (e slot : Nat) : Core :=
  let x := core.engine e
  let core := match x.frameOf slot with
    | some f => (core.reload e slot f).stallFor (3 + e) 2 spillCycles
    | none => core
  let x := core.engine e
  core.setEngine e { x with resident := slot :: x.resident }

/-- Spill mode (R114): the victim goes to the first free frame and the needed slot is taken. Where both frames are full the needed slot stands in
one of them: it is read out, and the victim takes its frame (DEDUCED, entry 73). -/
def Core.swapSlots (core : Core) (e victim slot : Nat) : Core :=
  let x := core.engine e
  match [0, 1].find? fun f => tget none x.frames f == none with
  | some f => ((core.spill e victim f).stallFor (3 + e) 2 spillCycles).takeSlot e slot
  | none =>
    let f := (x.frameOf slot).getD 0
    (((core.takeSlot e slot).spill e victim f).stallFor (3 + e) 2 spillCycles)

/-- The virtual slot made resident in engine `e`, the most recently referenced first (R114): `none` when no resident slot can be
chosen as a victim. -/
def Core.needSlot (core : Core) (e slot : Nat) : Option Core :=
  let x := core.engine e
  if slot ∈ x.resident then some (core.setEngine e { x with resident := slot :: x.resident.filter (· != slot) })
  else
    let live := x.resident.filter x.slotLive
    if live.length < 2 then some ((core.setEngine e { x with resident := live }).takeSlot e slot)
    else
      match (live.reverse).find? (fun v => !x.unfin.any fun u => u.base / 8 == v) with
      | none => none
      | some v => some (core.swapSlots e v slot)

/-- The slot made resident in every engine of a list. -/
def Core.needSlots (core : Core) (slot : Nat) : List Nat → Option Core
  | [] => some core
  | e :: es =>
    match core.needSlot e slot with
    | none => none
    | some c => c.needSlots slot es

/-- Whether every engine of a mask holds fewer than two unfinished operations of a class (R109). -/
def Core.enginesAccept (core : Core) (es : List Nat) (port : Bool) : Bool :=
  es.all fun e => decide (((core.engine e).unfin.filter fun u => u.port == port).length < 2)

/-- The blocks of an operation's region: engine, block number in its virtual accumulator, block row and block column (R106,
R112). -/
def Issue.region (i : Issue) : List (Nat × Nat × Nat × Nat) :=
  let es := opEngines i.n
  let p := es.length
  let nb := opN i.n / 8
  (upFrom 0 (opM i.n / 8)).flatMap fun br => (upFrom 0 nb).map fun bc =>
    (es.getD (br % p) 0, opAcc i.n * 8 + br / p * nb + bc, br, bc)

/-- Row blocks dealt to each engine times column blocks: what each engine's part of the region holds. -/
def Issue.engineUnits (i : Issue) : List (Nat × Nat) :=
  let es := opEngines i.n
  es.map fun e => (e, (i.region.filter fun b => b.1 == e).length)

/-- The word of a block for its element (r, c). -/
def blockWord (block r c : Nat) : Nat := block * 64 + r % 8 * 8 + c % 8

/-- The record of a block of engine `e`. -/
def Core.block (core : Core) (e b : Nat) : Option Block8 := tget none (core.engine e).live b

/-- A core with a block's record set. -/
def Core.setBlock (core : Core) (e b : Nat) (r : Option Block8) : Core :=
  let x := core.engine e
  core.setEngine e { x with live := tset none x.live b r }

/-- A core with an accumulator word set. -/
def Core.setAcc (core : Core) (e w v : Nat) : Core :=
  let x := core.engine e
  core.setEngine e { x with acc := tset 0 x.acc w (BitVec.ofNat 32 v) }

/-- An accumulator word. -/
def Core.accAt (core : Core) (e w : Nat) : Nat := (tget 0 (core.engine e).acc w).toNat

/-- An operation of a class on the engines of its mask: it waits until each of them accepts it (R109) and has its virtual slot resident (R114). -/
def Issue.onEngines (i : Issue) (port : Bool) (f : Core → Eff) : Try :=
  let es := opEngines i.n
  if !i.core.enginesAccept es port then .wait (seqUnit i.q) 1
  else
    match i.core.needSlots (opAcc i.n / 8) es with
    | none => .wait (3 + es.headD 0) 2
    | some core => .eff (f core)

/-- The lines of the scale record that a tile operation on scaled or INT8 operands reads: header, A array and B array (R31, R36). -/
def Issue.scaleReads (i : Issue) : List (Nat × Nat) :=
  let a := opAType i.n
  let b := opBType i.n
  if scaledType a || scaledType b || a == 4 || b == 4 then
    let by' := abBytes a b (opM i.n) (opN i.n) (opK i.n)
    let arr := scaleArrays (ctxScale i.ctx) by'.1 by'.2
    [(ctxScale i.ctx / 4, (arr.2.2 - 1) / 64)]
  else []

/-! ### Cube-class operations -/

/-- The record that a cube-class operation leaves with a block (R37, R113, R121). -/
def Issue.cubeRecord (i : Issue) (skipped : Bool) (old : Option Block8) : Block8 :=
  { aType := opAType i.n, bType := opBType i.n, k := some (opK i.n), skipped := skipped
    aScaled := scaledType (i.typeAt i.tileA (opAType i.n)), bScaled := scaledType (i.typeAt i.tileB (opBType i.n))
    group := match old with
      | some b => b.group
      | none => i.draft }

/-- The words and flags of one block of the region after the operation (R44 to R46, R117). -/
def Issue.cubeBlock (i : Issue) (core : Core) (accumulate : Bool) (fb : Option Nat) (split : Bool) (a b : List (List Elem))
    (blk : Nat × Nat × Nat × Nat) : List (Nat × Nat × Bool × Bool) :=
  let live := (core.block blk.1 blk.2.1).isSome
  (upFrom 0 8).flatMap fun r => (upFrom 0 8).map fun c =>
    let ra := a.getD (8 * blk.2.2.1 + r) []
    let cb := b.getD (8 * blk.2.2.2 + c) []
    let steps := chunks8 (opK i.n) ((ra.zip cb).map fun p => productTerms split p.1 p.2)
    let w := blockWord blk.2.1 r c
    (w, accSteps fb steps (if accumulate && live then core.accAt blk.1 w else 0))

/-- The effect of a cube-class operation (R101): `accumulate` for the `_ACC` forms, `wg` for weight gradients. Of a frozen layer it reads no operand and
marks its blocks skipped (R125): they are live, with the words that stand in them (DESIGN CHOICE, entry 74). -/
def cubeEff (accumulate wg : Bool) (i : Issue) (core : Core) : Eff :=
  let region := i.region
  if wg && i.part.frozenLayer (opLayer i.n) then
    { core := region.foldl (fun c b => c.setBlock b.1 b.2.1 (some (i.cubeRecord true (c.block b.1 b.2.1)))) core, stallUnit := 3 + (opEngines i.n).headD 0 }
  else
    let pair := widenPair i.ownPair (core.typeAt i.view i.tileA) (core.typeAt i.view i.tileB)
    let split := pair.1 == 8
    let fb := pairFrac pair.1 pair.2
    let a := i.matA split
    let b := i.matB split
    let out := region.map fun blk => (blk, i.cubeBlock core accumulate fb split a b blk)
    let core := out.foldl (fun c o =>
      let c := o.2.foldl (fun c w => c.setAcc o.1.1 w.1 w.2.1) c
      let old := if accumulate then c.block o.1.1 o.1.2.1 else none
      c.setBlock o.1.1 o.1.2.1 (some (i.cubeRecord false old))) core
    let words := out.flatMap fun o => o.2.map fun w => (w.2.1, w.2.2.1, w.2.2.2)
    let nan := a.any (fun r => r.any Elem.nanScale) || b.any (fun r => r.any Elem.nanScale)
    { core := core
      flags := addFlags (resultFlags 1 (if split then 9 else 0) words) (flagIf nan 5 (if split then 9 else 0))
      widen := i.widenings
      reads := [tileRange false i.tileA (i.typeAt i.tileA (opAType i.n)) (opM i.n) (opK i.n),
                tileRange false i.tileB (i.typeAt i.tileB (opBType i.n)) (opK i.n) (opN i.n)] ++ i.scaleReads
      units := i.engineUnits, base := opAcc i.n, stallUnit := 3 + (opEngines i.n).headD 0 }

/-- A cube-class operation (R101). -/
def cubeTry (accumulate wg : Bool) (i : Issue) : Try := i.onEngines false (cubeEff accumulate wg i)

/-! ### Port-class operations -/

/-- ACC_LOAD: the region takes the FP32 tile at C_ADDR, exactly. -/
def accLoadEff (i : Issue) (core : Core) : Eff :=
  let words := i.region.flatMap fun blk => (upFrom 0 8).flatMap fun r => (upFrom 0 8).map fun c =>
    (blk.1, blockWord blk.2.1 r c,
      i.core.readNat i.view (blockBit i.tileC 5 (opN i.n) (8 * blk.2.2.1 + r) (8 * blk.2.2.2 + c) / 8) 4)
  let core := words.foldl (fun c w => c.setAcc w.1 w.2.1 w.2.2) core
  { core := i.region.foldl (fun c b => c.setBlock b.1 b.2.1 (some { group := i.draft })) core
    flags := flagIf (words.any fun w => special32 w.2.2) 3 0
    reads := [tileRange false i.tileC 5 (opM i.n) (opN i.n)], units := i.engineUnits, port := true
    base := opAcc i.n, stallUnit := 3 + (opEngines i.n).headD 0 }

/-- ACC_LOAD as it issues. -/
def accLoadTry (i : Issue) : Try := i.onEngines true (accLoadEff i)

/-- The coarse factor of a block (R37); `none` where neither operand was scaled. -/
def coarseOf (h : Nat) (b : Option Block8) : Option FV :=
  match b with
  | none => none
  | some r =>
    if r.aScaled && r.bScaled then some ((recFp h 0).mul (recFp h 32))
    else if r.aScaled then some (recFp h 0)
    else if r.bScaled then some (recFp h 32)
    else none

/-- The drained value of an element before its conversion: RNE(acc × c), or acc (R37). A block that is not live is drained as the word that stands in the
accumulator, unscaled (DESIGN CHOICE, entry 75: the manual gives +0 to MMA_ACC alone, R113). -/
def drainValue (core : Core) (h : Nat) (blk : Nat × Nat × Nat × Nat) (r c : Nat) : FV :=
  let a := FV.of (decodeFloat 5 (core.accAt blk.1 (blockWord blk.2.1 r c)))
  match coarseOf h (core.block blk.1 blk.2.1) with
  | none => a
  | some k => a.mul k

/-- The block of the region that holds element (r, c). -/
def Issue.blockAt (i : Issue) (r c : Nat) : Nat × Nat × Nat × Nat :=
  let es := opEngines i.n
  let p := es.length
  (es.getD (r / 8 % p) 0, opAcc i.n * 8 + r / 8 / p * (opN i.n / 8) + c / 8, r / 8, c / 8)

/-- Whether a block was skipped for a frozen layer (R125). -/
def Core.skippedBlock (core : Core) (blk : Nat × Nat × Nat × Nat) : Bool :=
  match core.block blk.1 blk.2.1 with
  | some b => b.skipped
  | none => false

/-- The region freed: every block not live (R113). -/
def Issue.freeRegion (i : Issue) (core : Core) : Core := i.region.foldl (fun c b => c.setBlock b.1 b.2.1 none) core

/-- Byte address of the C array of a drain's scale record (R36): the A and B types and k are the region's (R37). -/
def Issue.drainArray (i : Issue) (core : Core) : Nat :=
  let blk := i.blockAt 0 0
  match core.block blk.1 blk.2.1 with
  | some { aType := a, bType := b, k := some k, .. } =>
    let by' := abBytes a b (opM i.n) (opN i.n) k
    (scaleArrays (ctxScale i.ctx) by'.1 by'.2).2.2
  | _ => (scaleArrays (ctxScale i.ctx) 0 0).2.2

/-- One row of a drain to a scaled type: encodings with flags, block scale bytes where the engine computes them, and whether a
NaN scale governed a block (R38, R39). -/
def Issue.drainScaledRow (i : Issue) (core : Core) (h t cArr r : Nat) : List (Nat × Nat × Bool × Bool) × List Wr × Bool :=
  let auto := bit h 120
  let z := headZero h 2
  let n' := min (ctxValidN i.ctx) (opN i.n)
  let y := (upFrom 0 n').map fun c => (drainValue core h (i.blockAt r c) r c).mul (recFp h 64)
  let nb := ceilDiv n' 32
  let row := cArr + r * ceilDiv (opN i.n) 32
  let scales := (upFrom 0 nb).map fun b =>
    if auto then blockScale t (((y.drop (32 * b)).take 32).map FV.v) else i.scaleByte (row + b)
  ((y.zip (upFrom 0 n')).map fun e =>
      let c := quantise t z (scales.getD (e.2 / 32) 0) e.1.v
      (e.2, c.bits, (c.oor && !auto) || e.1.out, c.spec || e.1.spec),
    if auto then (scales.zip (upFrom 0 nb)).map fun p => (8 * (row + p.2), 8, p.1) else [],
    scales.any (· == 255))

/-- Whether every block of the region was skipped, so that a drain has nothing to write (R125). -/
def Issue.allSkipped (i : Issue) (core : Core) : Bool := i.region.all core.skippedBlock

/-- The effect of a drain over a skipped region: nothing is written and the region is freed (R125). -/
def Issue.skipEff (i : Issue) (core : Core) : Eff := { core := i.freeRegion core, stallUnit := 3 + (opEngines i.n).headD 0 }

/-- The effect of DRAIN: scale, convert to C_TYPE, write and free the region (R36 to R41, R117, R125). Of a region with some skipped blocks, the others are
written and all are freed (DESIGN CHOICE, entry 74). -/
def drainEff (i : Issue) (core : Core) : Eff :=
  if i.allSkipped core then i.skipEff core
  else
    let t := raiseC i.rung (opCType i.n)
    let h := i.scaleHead (ctxScale i.ctx)
    let m' := min (ctxValidM i.ctx) (opM i.n)
    let n' := min (ctxValidN i.ctx) (opN i.n)
    let cArr := i.drainArray core
    let place (r c e : Nat) : Wr := (blockBit i.tileC t (opN i.n) r c, typeBits t, e)
    let keep (r c : Nat) : Bool := !core.skippedBlock (i.blockAt r c)
    let rowsOut := (upFrom 0 m').map fun r =>
      if scaledType t then i.drainScaledRow core h t cArr r
      else ((upFrom 0 n').map fun c => (c, FV.store t (drainValue core h (i.blockAt r c) r c)), [], false)
    let num := rowsOut.zip (upFrom 0 m')
    let elems := num.flatMap fun p => (p.1.1.filter fun e => keep p.2 e.1).map fun e => (p.2, e)
    { core := i.freeRegion core
      writes := (elems.map fun e => place e.1 e.2.1 e.2.2.1) ++ rowsOut.flatMap fun r => r.2.1
      stype := i.stype (opCType i.n) t
      flags := addFlags (resultFlags 1 0 (elems.map fun e => e.2.2)) (flagIf (rowsOut.any fun r => r.2.2) 5 0)
      reads := (ctxScale i.ctx / 4, ctxScale i.ctx / 4) ::
        (if scaledType t && !bit h 120 && decide (0 < m') then [(cArr / 64, (cArr + m' * ceilDiv (opN i.n) 32 - 1) / 64)] else [])
      units := i.engineUnits, port := true, base := opAcc i.n, stallUnit := 3 + (opEngines i.n).headD 0 }

/-- DRAIN as it issues. -/
def drainTry (i : Issue) : Try := i.onEngines true (drainEff i)

/-- The effect of DRAIN_ADD: C := SR(C + the scaled region) in FP32, and the region freed (R119, R37, R48, R49). -/
def drainAddEff (i : Issue) (core : Core) : Eff :=
  if i.allSkipped core then i.skipEff core
  else
    let h := i.scaleHead (ctxScale i.ctx)
    let m' := min (ctxValidM i.ctx) (opM i.n)
    let n' := min (ctxValidN i.ctx) (opN i.n)
    let addend := ctxAddend i.ctx i.task.passes
    let elems := (upFrom 0 m').flatMap fun r =>
      ((upFrom 0 n').filter fun c => !core.skippedBlock (i.blockAt r c)).map fun c =>
        let at' := blockBit i.tileC 5 (opN i.n) r c
        let v := drainValue core h (i.blockAt r c) r c
        let elem := ctxElem i.ctx i.task.passes + r * ctxPitch i.ctx + c
        let d := roundDraw i.part.roundKey.toNat i.part.position (opLayer i.n) 0 0 addend elem
        let o := stochastic 5 d ((i.fp32At (at' / 8)).add v.v)
        (at', o.bits, o.oor || v.out, o.spec)
    { core := i.freeRegion core
      writes := elems.map fun e => (e.1, 32, e.2.1)
      flags := resultFlags 1 0 (elems.map fun e => e.2)
      reads := [(ctxScale i.ctx / 4, ctxScale i.ctx / 4), tileRange false i.tileC 5 (opM i.n) (opN i.n)]
      units := i.engineUnits, port := true, base := opAcc i.n, stallUnit := 3 + (opEngines i.n).headD 0 }

/-- DRAIN_ADD as it issues. -/
def drainAddTry (i : Issue) : Try := i.onEngines true (drainAddEff i)

/-! ### The end of an operation -/

/-- Whether two operations of an engine share accumulator words (R109). -/
def sameRegion (a b : Unfin) : Bool := decide (a.base * 8 < b.base * 8 + b.blocks) && decide (b.base * 8 < a.base * 8 + a.blocks)

/-- Whether an unfinished operation of engine `e` waits: an earlier one of the engine's other class is still writing or draining its region (R109), or, for
a cube-class one, an engine of its mask still carries out an earlier one (R106). -/
def Core.opWaits (core : Core) (e : Nat) (x : Unfin) : Bool :=
  ((core.engine e).unfin.any fun u => decide (u.id < x.id) && u.port != x.port && sameRegion u x) ||
  (!x.port && x.mask.any fun d => (core.engine d).unfin.any fun u => decide (u.id < x.id) && !u.port)

/-- The oldest unfinished operation of a class of an engine. -/
def Core.oldest (core : Core) (e : Nat) (port : Bool) : Option Unfin := (core.engine e).unfin.find? fun u => u.port == port

/-- Whether an engine counts a cycle of waiting for an operand: an operation that it could start waits for its region or for partners (R106, R109). -/
def Core.engineWaits (core : Core) (e : Nat) : Bool :=
  [false, true].any fun port =>
    match core.oldest e port with
    | some x => core.opWaits e x
    | none => false

/-- The first unfinished operation of a class removed. -/
def dropClass (port : Bool) (l : List Unfin) : List Unfin :=
  match takeFirst (fun u : Unfin => u.port == port) l with
  | none => l
  | some (_, r) => r

/-- Accesses of a requester that carries out nothing any more are gone. -/
def Core.dropRequests (core : Core) (order : Nat) (idle : Bool) : Core :=
  if idle then { core with bankReqs := core.bankReqs.filter fun r => r.1 != order } else core

/-- The oldest unfinished operation of a class of an engine ends, unless it still waits (R106, R109). -/
def Core.endOperation (core : Core) (e : Nat) (port : Bool) : Core :=
  match core.oldest e port with
  | none => core
  | some x =>
    if core.opWaits e x then core
    else
      let core := { core with engines := tmod {} core.engines e fun x => { x with unfin := dropClass port x.unfin } }
      core.dropRequests (bankOrder port e) (core.oldest e port).isNone

end Sys2Proof.Machine
end

