-- ==== Sys2Proof/Machine/RowUnit.lean ====
section
/-! DEFINITION. The row unit (R126 to R137): reductions along rows, functions, softmax and normalisation. -/

namespace Sys2Proof.Machine

open Sys2Proof

/-- A row-unit operation: it waits where the unit holds two unfinished operations (R129). -/
def Issue.onRow (i : Issue) (e : Eff) : Try := if i.core.rowUnit.length ≥ 2 then .wait (seqUnit i.q) 1 else .eff e

/-- A row-unit operation that writes the matrix `z` of results to Z (R140), and `side` elsewhere with results of its own. -/
def rowTry (i : Issue) (z : List (List FV)) (sideWrites : List Wr) (side : List (Nat × Bool × Bool)) (reads : List (Nat × Nat)) : Try :=
  let enc := z.map (fun row => row.map (FV.store i.zType))
  i.onRow { core := i.core
            writes := i.zWrites (enc.map (fun row => row.map Prod.fst)) ++ sideWrites
            stype := i.stype (opZType i.n) i.zType
            flags := addFlags (resultFlags 2 (topOf i.zType) enc.flatten) (resultFlags 2 6 side)
            reads := reads, units := [(8, 0)], stallUnit := 11 }

/-- The range of lines of X. -/
def Issue.rangeX (i : Issue) : Nat × Nat := tileRange (opLinear i.n) i.addrX (i.typeAt i.addrX (opXType i.n)) (opRows i.n) (opLen i.n)

/-- The range of lines of Y. -/
def Issue.rangeY (i : Issue) : Nat × Nat := tileRange (opLinear i.n) i.addrY (i.typeAt i.addrY (opYType i.n)) (opRows i.n) (opLen i.n)

/-- The range of lines of `k` bytes of the parameter record. -/
def Issue.rangeRec (i : Issue) (k : Nat) : Nat × Nat := (ctxScale i.ctx / 4, (ctxScale i.ctx * 16 + k - 1) / 64)

/-- A reduction: one value a row, consecutive at Z in Z_TYPE (Table 3 of chapter 5). -/
def rowReduce (i : Issue) (f : List FV → FV) : Try :=
  let enc := ((i.rows i.addrX (opXType i.n)).map f).map (FV.store i.zType)
  i.onRow { core := i.core
            writes := (enc.zip (upFrom 0 enc.length)).map fun x => (linearBit i.addrZ i.zType x.2, typeBits i.zType, x.1.1)
            stype := i.stype (opZType i.n) i.zType
            flags := resultFlags 2 (topOf i.zType) enc
            reads := [i.rangeX], units := [(8, 0)], stallUnit := 11 }

/-- ROW_FN: the record's function code at each element (R131). -/
def rowFn (i : Issue) : Try :=
  let code := bits (i.record 1) 0 4
  rowTry i ((i.rows i.addrX (opXType i.n)).map (fun r => r.map (FV.fn code))) [] [] [i.rangeX, i.rangeRec 1]

/-- One row of SOFTMAX (R134). A row that contains +∞ or NaN is one whose scaled values z do, and a z less the maximum that leaves FP32 raises nothing
(DESIGN CHOICE, entry 76). -/
def softmaxRow (s : FV) (x : List FV) : List FV :=
  let z := x.map (fun a => a.mul s)
  let m := rowMax z
  match m.v with
  | .nan => z.map (fun a => { a with v := .nan })
  | .inf false => z.map (fun a => { a with v := .nan })
  | .inf true => z.map (fun _ => FV.of .zero)
  | .fin .. =>
    let e := z.map (fun a => ({ v := rnd32 (rowFnVal 0 (rnd32 (a.v.sub m.v))), out := a.out } : FV))
    let r := rnd32 (rowFnVal 3 (rowSum e).v)
    e.map (fun a => { a with v := rnd32 (a.v.mul r) })

/-- SOFTMAX (R134). -/
def softmax (i : Issue) : Try :=
  rowTry i ((i.rows i.addrX (opXType i.n)).map (softmaxRow (recFp (i.record 4) 0))) [] [] [i.rangeX, i.rangeRec 4]

/-- One row of SOFTMAX_BWD: d*y* and *y* (R135). -/
def softmaxBwdRow (s : FV) (dy y : List FV) : List FV :=
  let d := rowSum ((y.zip dy).map fun p => p.1.mul p.2)
  (y.zip dy).map fun p => (p.1.mul (p.2.sub d)).mul s

/-- SOFTMAX_BWD (R135). -/
def softmaxBwd (i : Issue) : Try :=
  rowTry i (((i.rows i.addrX (opXType i.n)).zip (i.rows i.addrY (opYType i.n))).map
    (fun p => softmaxBwdRow (recFp (i.record 4) 0) p.1 p.2)) [] [] [i.rangeX, i.rangeY, i.rangeRec 4]

/-- The correctly rounded reciprocal of a count (R136). -/
def rcpNat (k : Nat) : FV := FV.fn 3 (FV.of (.fin false k 0))

/-- One row of NORM: the results, μ and r (R136). -/
def normRow (rms : Bool) (eps : FV) (gamma beta x : List FV) : List FV × FV × FV :=
  let rho := rcpNat x.length
  let mu := if rms then FV.of .zero else (rowSum x).mul rho
  let d := x.map (fun a => a.sub mu)
  let v := rowSum (d.map fun a => a.mul a)
  let r := FV.fn 4 ((v.mul rho).add eps)
  let xh := d.map (fun a => a.mul r)
  let y := if rms then (xh.zip gamma).map (fun p => p.1.mul p.2)
    else ((xh.zip gamma).zip beta).map (fun p => FV.fma p.1.1 p.1.2 p.2)
  (y, mu, r)

/-- NORM (R136, Table 5 of chapter 5). -/
def norm (i : Issue) : Try :=
  let rec32 := i.record 32
  let rms := bit rec32 112
  let len := opLen i.n
  let gamma := i.vec32 (bits rec32 32 20) len
  let beta := i.vec32 (bits rec32 52 20) len
  let stats := bits rec32 72 20
  let res := (i.rows i.addrX (opXType i.n)).map (normRow rms (recFp rec32 0) gamma beta)
  let side := res.flatMap fun x => [FV.store 5 x.2.1, FV.store 5 x.2.2]
  rowTry i (res.map Prod.fst) (writes32 stats (side.map Prod.fst)) side
    ([i.rangeX, i.rangeRec 32, tileRange true (bits rec32 32 20) 5 1 len] ++
      if rms then [] else [tileRange true (bits rec32 52 20) 5 1 len])

/-- One row of NORM_BWD: g and x̂, and the results (R137). -/
def normBwdRow (rms : Bool) (mu r : FV) (gamma dy x : List FV) : List FV × List FV :=
  let rho := rcpNat x.length
  let g := (dy.zip gamma).map fun p => p.1.mul p.2
  let xh := x.map fun a => (a.sub mu).mul r
  let sa := rowSum g
  let sc := rowSum ((g.zip xh).map fun p => p.1.mul p.2)
  let a := if rms then FV.of .zero else sa.mul rho
  let c := sc.mul rho
  ((g.zip xh).map fun p => ((p.1.sub a).sub (p.2.mul c)).mul r, xh)

/-- Sums by column over rows in ascending order, from −0 (R137). -/
def columnSums (len : Nat) (rows : List (List FV)) : List FV :=
  rows.foldl (fun acc row => (acc.zip row).map fun p => p.1.add p.2) ((upFrom 0 len).map fun _ => FV.of (.fin true 0 0))

/-- NORM_BWD (R137). -/
def normBwd (i : Issue) : Try :=
  let rec32 := i.record 32
  let rms := bit rec32 112
  let len := opLen i.n
  let gamma := i.vec32 (bits rec32 32 20) len
  let stats := i.vec32 (bits rec32 72 20) (2 * opRows i.n)
  let dgb := bits rec32 92 20
  let x := (i.rows i.addrX (opXType i.n)).zip (i.rows i.addrY (opYType i.n))
  let res := (x.zip (upFrom 0 x.length)).map fun p =>
    normBwdRow rms (stats.getD (2 * p.2) (FV.of .zero)) (stats.getD (2 * p.2 + 1) (FV.of .zero)) gamma p.1.1 p.1.2
  let dg := columnSums len ((x.zip res).map fun p => (p.1.1.zip p.2.2).map fun y => y.1.mul y.2)
  let db := columnSums len (x.map Prod.fst)
  let side := (dg ++ db).map (FV.store 5)
  rowTry i (res.map Prod.fst) (writes32 dgb (side.map Prod.fst)) side
    [i.rangeX, i.rangeY, i.rangeRec 32, tileRange true (bits rec32 32 20) 5 1 len,
     tileRange true (bits rec32 72 20) 5 1 (2 * opRows i.n)]

end Sys2Proof.Machine
end

