-- ==== Sys2Proof/Machine/VectorUnit.lean ====
section
/-! DEFINITION. The vector unit (R138 to R145, R453) with its norm taps (R152 to R154) and the optimiser kernels (R146 to R151). -/

namespace Sys2Proof.Machine

open Sys2Proof

/-! ### Norm taps -/

/-- What one write-back shows a tap: the tap (0 W, 1 G, 2 U), the logical index of its first value, and its values (R153). -/
abbrev TapFeed := Nat × Nat × List Val

/-- The partial of a write-back: the row sum of the rounded squares (R153). -/
def tapPartial (vals : List Val) : FV := rowSum (vals.map fun v => (FV.of v).mul (FV.of v))

/-- An FP32 accumulator with an addend rounded stochastically in (R48, R49). -/
def srAdd (acc : W32) (addend : Val) (draw : Nat) : W32 :=
  BitVec.ofNat 32 (stochastic 5 draw ((decodeFloat 5 acc.toNat).add addend)).bits

/-- A tap entry with one write-back added under site kind 3 (R153). -/
def TapEntry.feed (key dataPos layer : Nat) (x : TapEntry) (f : TapFeed) : TapEntry :=
  let p := (tapPartial f.2.2).v
  match f.1 with
  | 0 => { x with w := srAdd x.w p (roundDraw key dataPos layer 3 0 x.nw f.2.1), nw := x.nw + 1 }
  | 1 => { x with g := srAdd x.g p (roundDraw key dataPos layer 3 0 x.ng f.2.1), ng := x.ng + 1 }
  | _ => { x with u := srAdd x.u p (roundDraw key dataPos layer 3 0 x.nu f.2.1), nu := x.nu + 1 }

/-- The accumulator of an entry's tap. -/
def TapEntry.sum (x : TapEntry) (tap : Nat) : W32 := match tap with | 0 => x.w | 1 => x.g | _ => x.u

/-- The flags that one write-back raises at its tap: a sum that leaves FP32, and an infinity or a NaN in the accumulator (R52). An FP32 sum has no
wider rung (Table 10 of chapter 2). -/
def TapEntry.feedFlags (key dataPos layer : Nat) (x : TapEntry) (f : TapFeed) : List (Nat × Nat) :=
  let p := tapPartial f.2.2
  let a := decodeFloat 5 (x.sum f.1).toNat
  let y := (x.feed key dataPos layer f).sum f.1
  let out := p.out || (match a, p.v with
    | .fin .., .fin .. => special32 y.toNat
    | _, _ => false)
  addFlags (flagIf out 2 6) (flagIf (special32 y.toNat) 3 6)

/-- An entry with several write-backs added in order, and the flags they raise. -/
def TapEntry.feedAll (key dataPos layer : Nat) (x : TapEntry) (fs : List TapFeed) : TapEntry × List (Nat × Nat) :=
  fs.foldl (fun acc f => (acc.1.feed key dataPos layer f, addFlags acc.2 (acc.1.feedFlags key dataPos layer f))) (x, [])

/-- Layers that a core's tap table holds an entry of, draft copies included. -/
def Core.tapLayers (core : Core) : List Nat := ((core.taps.map Prod.fst) ++ core.tapDrafts.map fun d => d.2.1).dedup

/-- Whether the taps see the operation: a twin feeds no tap (R277), and a layer for which the table of 32 entries has no room is not tapped
(R153; DESIGN CHOICE, entry 78). -/
def Issue.tapSees (i : Issue) (core : Core) : Bool :=
  i.part.twin (opLayer i.n) == opLayer i.n && (decide (opLayer i.n ∈ core.tapLayers) || decide (core.tapLayers.length < 32))

/-- The core with write-backs fed to the taps of the operation's layer (R152 to R154), and the flags they raise: a fair task's to the entry, a draft's
to its group's copy; `none` while another group holds a copy of the entry. -/
def Issue.feedTaps (i : Issue) (core : Core) (fs : List TapFeed) : Option (Core × List (Nat × Nat)) :=
  if fs.isEmpty || !i.tapSees core then some (core, []) else
    let layer := opLayer i.n
    let add (x : TapEntry) : TapEntry × List (Nat × Nat) := x.feedAll i.part.roundKey.toNat i.part.position layer fs
    match core.tapDrafts.find? (fun d => d.2.1 == layer) with
    | some d =>
      if i.draft = some d.1 then
        some ({ core with tapDrafts := core.tapDrafts.map fun y => if y.2.1 = layer then (y.1, y.2.1, (add y.2.2).1) else y }, (add d.2.2).2)
      else none
    | none =>
      let x := add (tget {} core.taps layer)
      match i.draft with
      | some g => some ({ core with tapDrafts := core.tapDrafts ++ [(g, layer, x.1)] }, x.2)
      | none => some ({ core with taps := tset {} core.taps layer x.1 }, x.2)

/-- A list cut into pieces of 64, `fuel` at most. -/
def chunks64 {α : Type} : Nat → List α → List (List α)
  | 0, _ => []
  | fuel + 1, l => if l.isEmpty then [] else l.take 64 :: chunks64 fuel (l.drop 64)

/-- The write-backs of an operation to one tap (log entry 15): runs of 64 values in linear layout, 8 × 8 blocks in block
layout. `vals` are its values row by row. -/
def Issue.tapFeeds (i : Issue) (tap : Nat) (vals : List (List Val)) : List TapFeed :=
  if opLinear i.n then
    let flat := vals.flatten
    let pieces := chunks64 flat.length flat
    (pieces.zip (upFrom 0 pieces.length)).map fun p => (tap, i.elemIndex 0 0 + 64 * p.2, p.1)
  else
    (upFrom 0 (ceilDiv (opRows i.n) 8)).flatMap fun br => (upFrom 0 (ceilDiv (opLen i.n) 8)).map fun bc =>
      (tap, i.elemIndex (8 * br) (8 * bc), ((vals.drop (8 * br)).take 8).flatMap fun row => (row.drop (8 * bc)).take 8)

/-! ### Element-wise operations -/

/-- Whether the operation belongs to a U task of a layer frozen in the running step (R261). -/
def Issue.frozenU (i : Issue) : Bool := i.q == .U && i.part.frozenLayer (opLayer i.n)

/-- A vector-unit operation: it waits where the unit holds two unfinished operations (R129), or another group holds a copy of the tap entry that it
feeds (R154). -/
def Issue.onVector (i : Issue) (feeds : List TapFeed) (f : Core → Eff) : Try :=
  if i.core.vecUnit.length ≥ 2 then .wait (seqUnit i.q) 1
  else
    match i.feedTaps i.core feeds with
    | none => .wait 12 5
    | some x => .eff { f x.1 with flags := addFlags (f x.1).flags x.2 }

/-- A vector-unit operation that writes the encodings `enc` to Z and feeds its tap: the tap of a VCVT to a scaled type sees the elements as encoded,
without their scales (DESIGN CHOICE, entry 79). -/
def vecTry (i : Issue) (enc : List (List (Nat × Bool × Bool))) (more : List Wr) (flags : List (Nat × Nat)) (reads : List (Nat × Nat)) : Try :=
  let vals := enc.map (fun row => row.map fun x => decodeFloat i.zType x.1)
  i.onVector (if opTap i.n = 0 then [] else i.tapFeeds (opTap i.n - 1) vals) fun core =>
    { core := core
      writes := i.zWrites (enc.map (fun row => row.map Prod.fst)) ++ more
      stype := i.stype (opZType i.n) i.zType
      flags := addFlags (resultFlags 2 (topOf i.zType) enc.flatten) flags
      reads := reads, units := [(9, 0)], stallUnit := 12 }

/-- The encoding of an exact result (R138): rounded once to FP32, or to W48 where Z is W48; then to BF16 where Z is BF16. -/
def vecStore (t : Nat) (v : Val) : Nat × Bool × Bool :=
  if t == 0 then
    let c := convert 5 v
    let b := convert 0 (decodeFloat 5 c.bits)
    (b.bits, c.oor || b.oor, b.spec)
  else
    let c := convert t v
    (c.bits, c.oor, c.spec)

/-- Two matrices combined element by element. -/
def zipRows (f : Val → Val → Val) (x y : List (List FV)) : List (List Val) :=
  (x.zip y).map fun p => (p.1.zip p.2).map fun e => f e.1.v e.2.v

/-- An element-wise operation over X and Y. -/
def vecBinary (i : Issue) (f : Val → Val → Val) : Try :=
  vecTry i ((zipRows f (i.rows i.addrX (opXType i.n)) (i.rows i.addrY (opYType i.n))).map fun r => r.map (vecStore i.zType))
    [] [] [i.rangeX, i.rangeY]

/-- VMAD: X × Y + old Z, one rounding. -/
def vecMad (i : Issue) : Try :=
  let prod := zipRows Val.mul (i.rows i.addrX (opXType i.n)) (i.rows i.addrY (opYType i.n))
  let z := i.rows i.addrZ (opZType i.n)
  vecTry i ((prod.zip z).map fun r => (r.1.zip r.2).map fun e => vecStore i.zType (e.1.add e.2.v)) [] []
    [i.rangeX, i.rangeY, tileRange (opLinear i.n) i.addrZ (opZType i.n) (opRows i.n) (opLen i.n)]

/-- VAFFINE: X × α + β, one rounding. -/
def vecAffine (i : Issue) : Try :=
  let r := i.record 8
  let al := decodeFloat 5 (bits r 0 32)
  let be := decodeFloat 5 (bits r 32 32)
  vecTry i ((i.rows i.addrX (opXType i.n)).map fun row => row.map fun x => vecStore i.zType (x.v.fma al be)) [] []
    [i.rangeX, i.rangeRec 8]

/-- Every element of Z as one encoding. -/
def Issue.fill (i : Issue) (e : Nat) : List (List (Nat × Bool × Bool)) :=
  (upFrom 0 (opRows i.n)).map fun _ => (upFrom 0 (opLen i.n)).map fun _ => (e, false, false)

/-- The operation with its tap field cleared, for one that feeds no tap (R261). -/
def Issue.noTap (i : Issue) : Issue := { i with n := i.n - bits i.n 46 2 * 2 ^ 46 }

/-- Byte offset within a scale array of the byte for element (r, c), blocks along the row or along the column (R36). -/
def scaleIndex (along : Bool) (rows cols r c : Nat) : Nat :=
  if along then c * ceilDiv rows 32 + r / 32 else r * ceilDiv cols 32 + c / 32

/-- The number of bytes of a scale array. -/
def scaleSize (along : Bool) (rows cols : Nat) : Nat :=
  if along then cols * ceilDiv rows 32 else rows * ceilDiv cols 32

/-- VCVT's input elements: exact values with block and coarse scales applied (R33, R138), and whether a NaN-scaled block was read
(R34). -/
def cvtInput (i : Issue) (h aBase : Nat) : List (List (Val × Bool)) :=
  let st := i.typeAt i.addrX (opXType i.n)
  let rows := opRows i.n
  let cols := opLen i.n
  (upFrom 0 rows).map fun r => (upFrom 0 cols).map fun c =>
    let raw := i.rawAt st (elemBit (opLinear i.n) i.addrX st cols r c)
    if scaledType st then
      match e8m0 (i.scaleByte (aBase + scaleIndex (bit h 122) rows cols r c)) with
      | none => (.nan, true)
      | some e => (((decodeElem st (headZero h 0) raw).scale e).mul (decodeFloat 5 (bits h 0 32)), false)
    else (decodeFloat st raw, false)

/-- VCVT's result encodings, where Z is not scaled (R138). -/
def cvtPlain (i : Issue) (x : List (List (Val × Bool))) : List (List (Nat × Bool × Bool)) := x.map fun row => row.map fun e => vecStore i.zType e.1

/-- VCVT's result where Z is scaled (R38, R39): encodings and flags, and the writes of the block scales it computes. -/
def cvtScaled (i : Issue) (h cBase : Nat) (x : List (List (Val × Bool))) : List (List (Nat × Bool × Bool)) × List Wr × Bool :=
  let t := i.zType
  let rows := opRows i.n
  let cols := opLen i.n
  let along := bit h 121
  let auto := bit h 120
  let z := headZero h 2
  let y : List (List FV) := x.map fun row => row.map fun e => ((FV.of e.1).add (FV.of (.fin true 0 0))).mul (recFp h 64)
  let blockOf (b : Nat) : List Val :=
    y.zip (upFrom 0 rows) |>.flatMap fun p => (p.1.zip (upFrom 0 cols)).filterMap fun e =>
      if scaleIndex along rows cols p.2 e.2 = b then some e.1.v else none
  let nb := scaleSize along rows cols
  let scales := (upFrom 0 nb).map fun b => if auto then blockScale t (blockOf b) else i.scaleByte (cBase + b)
  let enc := (y.zip (upFrom 0 rows)).map fun p => (p.1.zip (upFrom 0 cols)).map fun e =>
    let c := quantise t z (scales.getD (scaleIndex along rows cols p.2 e.2) 0) e.1.v
    (c.bits, (c.oor && !auto) || e.1.out, c.spec)
  (enc, if auto then (scales.zip (upFrom 0 nb)).map fun p => (8 * (cBase + p.2), 8, p.1) else [], scales.any (· == 255))

/-- The lines of its scale record that VCVT reads (R129, R36): the header where X or Z is scaled, the A array where X is, and the C array where Z is
and the unit does not compute it. -/
def Issue.cvtReads (i : Issue) (h : Nat) (arr : Nat × Nat × Nat) : List (Nat × Nat) :=
  let sx := scaledType (i.typeAt i.addrX (opXType i.n))
  let sz := scaledType i.zType
  (if sx || sz then [(ctxScale i.ctx / 4, ctxScale i.ctx / 4)] else []) ++
  (if sx then [(arr.1 / 64, (arr.1 + scaleSize (bit h 122) (opRows i.n) (opLen i.n) - 1) / 64)] else []) ++
  (if sz && !bit h 120 then [(arr.2.2 / 64, (arr.2.2 + scaleSize (bit h 121) (opRows i.n) (opLen i.n) - 1) / 64)] else [])

/-- VCVT (R138, R36 to R42, R261). -/
def vecCvt (i : Issue) : Try :=
  let h := i.scaleHead (ctxScale i.ctx)
  let rows := opRows i.n
  let cols := opLen i.n
  let t := i.zType
  if i.frozenU then
    vecTry i.noTap (i.fill (if t == 4 then unsignedOf 8 (headZero h 2) else 0)) [] [] []
  else
    let aBytes := if scaledType (opXType i.n) then scaleSize (bit h 122) rows cols else 0
    let arr := scaleArrays (ctxScale i.ctx) aBytes 0
    let x := cvtInput i h arr.1
    let nanIn := flagIf (x.any fun r => r.any fun e => e.2) 5 (topOf t)
    let sc := i.cvtReads h arr
    let reads := i.rangeX :: sc
    if scaledType t then
      let o := cvtScaled i h arr.2.2 x
      vecTry i o.1 o.2.1 (addFlags nanIn (flagIf o.2.2 5 0)) reads
    else vecTry i (cvtPlain i x) [] nanIn reads

/-- VADD_LS: the vector unit's long sum (R139, R48, R49, R261). -/
def vecAddLs (i : Issue) : Try :=
  if i.frozenU then vecTry i.noTap (i.fill 0) [] [] []
  else
    let kind := bits (i.record 1) 0 1
    let addend := ctxAddend i.ctx i.task.passes
    let x := i.rows i.addrX (opXType i.n)
    let z := i.rows i.addrZ 5
    let enc := ((x.zip z).zip (upFrom 0 x.length)).map fun r => ((r.1.1.zip r.1.2).zip (upFrom 0 r.1.1.length)).map fun e =>
      let d := roundDraw i.part.roundKey.toNat i.part.position (opLayer i.n) kind 0 addend (i.elemIndex r.2 e.2)
      let c := stochastic 5 d (e.1.2.v.add e.1.1.v)
      (c.bits, c.oor, c.spec)
    vecTry i enc [] [] [i.rangeX, i.rangeRec 1, tileRange (opLinear i.n) i.addrZ 5 (opRows i.n) (opLen i.n)]

/-- The draw of an element under purpose 0x2 (R143). -/
def Issue.draw (i : Issue) (r c : Nat) : Nat :=
  vectorDraw i.part.randomKey.toNat i.part.position (opLayer i.n) (opDraw i.n) (tagMb i.task.tag) (i.elemIndex r c)

/-- VRAND (R145). -/
def vecRand (i : Issue) : Try :=
  vecTry i ((upFrom 0 (opRows i.n)).map fun r => (upFrom 0 (opLen i.n)).map fun c =>
    vecStore i.zType (.fin false (i.draw r c / 256) (-24))) [] [] []

/-- The zero that VDROP writes for an element (R145). -/
def dropZero (v : Val) : Val :=
  match v with
  | .nan => .zero
  | .inf n => .fin n 0 0
  | .fin n _ _ => .fin n 0 0

/-- VDROP (R145). -/
def vecDrop (i : Issue) : Try :=
  let h := i.record 8
  let x := i.rows i.addrX (opXType i.n)
  vecTry i ((x.zip (upFrom 0 x.length)).map fun p => (p.1.zip (upFrom 0 p.1.length)).map fun e =>
    vecStore i.zType (if i.draw p.2 e.2 ≥ bits h 0 32 then e.1.v.mul (decodeFloat 5 (bits h 32 32)) else dropZero e.1.v))
    [] [] [i.rangeX, i.rangeRec 8]

/-- The payload that a task holds from a queue: the clip token's where the queue is its group's clip queue (R453, R271). -/
def Issue.payload (i : Issue) (queue : Nat) : Option W64 :=
  if i.task.draft && (tget {} i.part.sec.groups i.task.group).clipQueue == some queue then i.task.clip
  else if bit i.task.inMask queue then some (tget 0 i.task.held queue) else none

/-- VPUT (R453). -/
def vecPut (i : Issue) : Try :=
  let k := opLen i.n
  let w := match i.payload (opB i.n % 16) with
    | none => []
    | some p => [(i.addrZ * 128 + 8 * (opA i.n % 16), 8 * k, p.toNat % 2 ^ (8 * k))]
  i.onVector [] fun core => { core := core, writes := w, reads := [(i.addrZ / 4, i.addrZ / 4)], units := [(9, 0)], stallUnit := 12 }

/-! ### Optimiser kernels -/

/-- What an optimiser kernel writes for one element: moments, master in W48, working weight in BF16, and what its taps see. -/
structure OptOut where
  m : FV
  v : FV
  w : Cvt
  h : Cvt
  g : Val
  delta : FV
  w32 : Val

/-- Steps 7 to 11 of R147 for a master `w` and an update direction `u`. -/
def optApply (rec : Nat) (w g : Val) (m v u : FV) : OptOut :=
  let w32 := FV.of (rnd32 w)
  let q := FV.fma (recFp rec 192) w32 u
  let delta := (recFp rec 0).neg.mul q
  let w' := convert 6 (w.add delta.v)
  let wv := decodeFloat 6 w'.bits
  { m := m, v := v, w := { w' with oor := w'.oor || delta.out, spec := w'.spec || delta.spec }, h := convert 0 wv, g := g,
    delta := delta, w32 := rnd32 wv }

/-- OPT_ADAMW at one element (R147). -/
def adamElem (rec : Nat) (g m v w : Val) : OptOut :=
  let gh := (FV.of g).mul (recFp rec 224)
  let m' := FV.fma (recFp rec 32) (FV.of m) ((recFp rec 96).mul gh)
  let v' := FV.fma (recFp rec 64) (FV.of v) ((recFp rec 128).mul (gh.mul gh))
  let sg := FV.fn 5 (v'.mul (recFp rec 288))
  let n := sg.add (recFp rec 160)
  let u := (m'.mul (recFp rec 256)).mul (FV.fn 3 n)
  optApply rec w g m' v' u

/-- OPT_SGDM at one element (R148). -/
def sgdmElem (rec : Nat) (g m w : Val) : OptOut :=
  let gh := (FV.of g).mul (recFp rec 224)
  let m' := FV.fma (recFp rec 32) (FV.of m) gh
  optApply rec w g m' (FV.of .zero) m'

/-- The encodings and flags of an FV written as FP32. -/
def FV.enc32 (a : FV) : Nat × Bool × Bool := FV.store 5 a

/-- The results of an optimiser kernel, element by element (R147, R148). -/
def optOuts (i : Issue) (adam : Bool) : List OptOut :=
  let rec64 := i.record 64
  let st := i.typeAt i.addrX (opXType i.n)
  (upFrom 0 (opRows i.n * opLen i.n)).map fun k =>
    let g := decodeFloat st (i.rawAt st (linearBit i.addrX st k))
    let at' := if adam then k / 64 * 128 + k % 64 else k
    let m := i.fp32At (i.addrY * 16 + 4 * at')
    let w := decodeFloat 6 (i.rawAt 6 (linearBit i.addrZ 6 k))
    if adam then adamElem rec64 g m (i.fp32At (i.addrY * 16 + 4 * (at' + 64))) w else sgdmElem rec64 g m w

/-- What an optimiser kernel writes for its results: moments, masters and working weights (R146). -/
def optWrites (i : Issue) (adam : Bool) (outs : List OptOut) : List Wr :=
  let w16 := bits (i.record 64) 384 20
  (outs.zip (upFrom 0 outs.length)).flatMap fun o =>
    let at' := if adam then o.2 / 64 * 128 + o.2 % 64 else o.2
    [(i.addrY * 128 + 32 * at', 32, o.1.m.enc32.1)] ++
    (if adam then [(i.addrY * 128 + 32 * (at' + 64), 32, o.1.v.enc32.1)] else []) ++
    [(linearBit i.addrZ 6 o.2, 48, o.1.w.bits), (linearBit w16 0 o.2, 16, o.1.h.bits)]

/-- The flags of an optimiser kernel's results, none of which has a wider rung (R140). -/
def optFlags (outs : List OptOut) : List (Nat × Nat) :=
  addFlags (addFlags (resultFlags 2 6 (outs.flatMap fun o => [o.m.enc32, o.v.enc32]))
    (resultFlags 2 7 (outs.map fun o => (o.w.bits, o.w.oor, o.w.spec)))) (resultFlags 2 1 (outs.map fun o => (o.h.bits, o.h.oor, false)))

/-- What an optimiser kernel shows the taps with TAP_EN (R152). -/
def optFeeds (i : Issue) (outs : List OptOut) : List TapFeed :=
  if bit (i.record 64) 404 then
    i.tapFeeds 0 [outs.map fun o => o.w32] ++ i.tapFeeds 1 [outs.map fun o => o.g] ++ i.tapFeeds 2 [outs.map fun o => o.delta.v]
  else []

/-- An optimiser kernel over ROWS × LEN elements in linear layout (R146 to R150). -/
def optTry (i : Issue) (adam : Bool) : Try :=
  if i.part.frozenLayer (opLayer i.n) then i.onVector [] fun core => { core := core, stallUnit := 12 }
  else
    let outs := optOuts i adam
    let cnt := opRows i.n * opLen i.n
    let st := i.typeAt i.addrX (opXType i.n)
    i.onVector (optFeeds i outs) fun core =>
      { core := core, writes := optWrites i adam outs, flags := optFlags outs, units := [(9, 0)], stallUnit := 12
        reads := [tileRange true i.addrX st 1 cnt, tileRange true i.addrY 5 1 (if adam then 2 * cnt else cnt),
                  tileRange true i.addrZ 6 1 cnt, i.rangeRec 64] }

/-- The record's constants that OPT_STEP writes, in the order of their addresses: C1, C2, P1, P2 (R149). -/
def stepConstants (r : Nat) : List (Nat × Bool × Bool) :=
  let one := FV.of (.fin false 1 0)
  let p1 := (recFp r 320).mul (recFp r 32)
  let p2 := (recFp r 352).mul (recFp r 64)
  [(FV.fn 3 (one.sub p1)).enc32, (FV.fn 3 (one.sub p2)).enc32, p1.enc32, p2.enc32]

/-- OPT_STEP (R149): the record's P1, P2, C1 and C2 advanced; a tap sees them as one write-back (R152, R153). -/
def optStep (i : Issue) : Try :=
  let enc := stepConstants (i.record 64)
  i.onVector (if opTap i.n = 0 then [] else [(opTap i.n - 1, i.elemIndex 0 0, enc.map fun e => decodeFloat 5 e.1)]) fun core =>
    { core := core, writes := (enc.zip (upFrom 0 4)).map fun e => (ctxScale i.ctx * 128 + 256 + 32 * e.2, 32, e.1.1)
      flags := resultFlags 2 6 enc, reads := [i.rangeRec 64], units := [(9, 0)], stallUnit := 12 }

/-- Whether the operation at the head of a core's attention pipe is a key-value command whose request has not ended (R178, R180); the
operation's `base` is then the number of its request. -/
def State.kvWaits (s : State) (c : Nat) : Bool :=
  match (s.core c).attn, (s.part (s.partOfCore c)).pool with
  | u :: _, some k => u.port && k.reqs.any fun r => r.id == u.base
  | _, _ => false

end Sys2Proof.Machine
end

