-- ==== Sys2Proof/Machine/Attention.lean ====
section
/-! DEFINITION. The attention pipe and its fused forms (R156 to R172): positions and masks, rotation, the forward sweep, and the
regeneration of probabilities and of dS for the backward pass. -/

namespace Sys2Proof.Machine

open Sys2Proof

/-! ### Command and record fields (Tables 2 and 4 of chapter 6) -/

/-- KV_TYPE [13:10]. -/
def atKv (n : Nat) : Nat := bits n 10 4
/-- O_TYPE [17:14]. -/
def atO (n : Nat) : Nat := bits n 14 4
/-- Query rows: QROWS [24:18] plus 1. -/
def atRows (n : Nat) : Nat := bits n 18 7 + 1
/-- Head dimension d: 16 × (HDIM [28:25] + 1). -/
def atDim (n : Nat) : Nat := 16 * (bits n 25 4 + 1)
/-- Key blocks: NBLK [36:29] plus 1. -/
def atBlocks (n : Nat) : Nat := bits n 29 8 + 1
/-- FIRST [37]. -/
def atFirst (n : Nat) : Bool := bit n 37
/-- LAST [38]. -/
def atLast (n : Nat) : Bool := bit n 38
/-- CAUSAL [39]. -/
def atCausal (n : Nat) : Bool := bit n 39
/-- WINDOW_EN [40]. -/
def atWindowEn (n : Nat) : Bool := bit n 40
/-- SEG_EN [41]. -/
def atSegEn (n : Nat) : Bool := bit n 41
/-- ROPE_Q [42]. -/
def atRopeQ (n : Nat) : Bool := bit n 42
/-- ROPE_K [43]. -/
def atRopeK (n : Nat) : Bool := bit n 43

/-- ORD [23:0] of a position word (Table 5 of chapter 6). -/
def posOrd (w : Nat) : Nat := bits w 0 24
/-- POS [47:24]. -/
def posPos (w : Nat) : Nat := bits w 24 24
/-- SEG [63:48]. -/
def posSeg (w : Nat) : Nat := bits w 48 16

/-- Whether a key is masked for a query row (R159, R160). -/
def maskedKey (n window : Nat) (qw kw : Nat) : Bool :=
  posSeg qw == 0xFFFF || posSeg kw == 0xFFFF ||
  (atSegEn n && posSeg kw != posSeg qw) ||
  (atCausal n && decide (posOrd kw > posOrd qw)) ||
  (atWindowEn n && (if atCausal n then decide (posOrd qw ≥ posOrd kw + window)
    else decide (posOrd qw ≥ posOrd kw + window) || decide (posOrd kw ≥ posOrd qw + window)))

/-! ### Rotation (R161) -/

/-- Whether a value is infinite or a NaN. -/
def Val.isSpecial : Val → Bool
  | .fin .. => false
  | _ => true

/-- The pair (x, y) rotated by the angle POS × F; `inv` turns it back. An infinite or NaN input gives NaN. -/
def rotatePair (pos : Nat) (f : FV) (inv : Bool) (x y : FV) : FV × FV :=
  if x.v.isSpecial || y.v.isSpecial then
    let n : FV := { v := .nan, out := x.out || y.out, spec := true }
    (n, n)
  else
  let a := (FV.of (.fin false pos 0)).mul f
  let c : FV := { v := rnd32 (trigVal true a.v), out := a.out, spec := a.spec || (trigVal true a.v == .nan) }
  let s0 : FV := { v := rnd32 (trigVal false a.v), out := a.out, spec := a.spec }
  let s := if inv then s0.neg else s0
  let sum (u v : Val) : FV := FV.rnd (u.add v) { v := u, out := x.out || c.out, spec := x.spec || c.spec } y
  (sum (x.v.mul c.v) (y.v.mul s.v).neg, sum (x.v.mul s.v) (y.v.mul c.v))

/-- A row of d values rotated (R161): pairs (2j, 2j + 1), or (j, j + d/2) with ROPE_SPLIT. -/
def rotateRow (splitPairs inv : Bool) (freq : List FV) (pos : Nat) (row : List FV) : List FV :=
  let d := row.length
  let at' (k : Nat) : FV := row.getD k (FV.of .zero)
  (upFrom 0 d).map fun k =>
    let j := if splitPairs then k % (d / 2) else k / 2
    let first := if splitPairs then decide (k < d / 2) else k % 2 == 0
    let p := if splitPairs then (at' j, at' (j + d / 2)) else (at' (2 * j), at' (2 * j + 1))
    let r := rotatePair pos (freq.getD j (FV.of .zero)) inv p.1 p.2
    if first then r.1 else r.2

/-! ### Operands -/

/-- A value as it enters a product: BF16, or FP32 under a repeat (R162, R172). -/
def enterProduct (rep : Bool) (x : FV) : FV :=
  let c := convert (if rep then 5 else 0) x.v
  { v := decodeFloat (if rep then 5 else 0) c.bits, out := x.out || c.oor, spec := x.spec }

/-- A value as the product arrays take it. -/
def toElem (rep : Bool) (x : FV) : Elem :=
  if rep then { hi := (splitParts x.v).1, lo := (splitParts x.v).2 } else { hi := x.v }

/-- An exact sum of products over 8-deep steps from a starting accumulator (R163). -/
def dotProduct (rep : Bool) (a b : List FV) (acc : FV) : FV :=
  let o := accSteps (some 14) (chunks8 a.length ((a.zip b).map fun p => productTerms rep (toElem rep p.1) (toElem rep p.2))) (rne32 acc.v)
  { v := decodeFloat 5 o.1, out := acc.out || o.2.1 || a.any FV.out || b.any FV.out,
    spec := acc.spec || o.2.2 || a.any FV.spec || b.any FV.spec }

/-- The attention record of the command (Table 4 of chapter 6), as a number. -/
def Issue.attnRec (i : Issue) : Nat := i.record 64

/-- A stepped address of the command: 0 ADDR0, 1 ADDR1, 2 ADDR2 (R103). -/
def Issue.atAddr (i : Issue) (k : Nat) : Nat :=
  ctxStep i.ctx i.task.passes k (if k = 0 then opA i.n else if k = 1 then opB i.n else opC i.n)

/-- `rows` × `cols` values in block layout at a word address, read as stored. -/
def Issue.matBlock (i : Issue) (base t rows cols : Nat) : List (List FV) :=
  let st := i.typeAt base t
  (upFrom 0 rows).map fun r => (upFrom 0 cols).map fun c => FV.of (decodeFloat st (i.rawAt st (blockBit base st cols r c)))

/-- `k` position words from a word address on. -/
def Issue.posWords (i : Issue) (base k : Nat) : List Nat := (upFrom 0 k).map fun r => i.core.readNat i.view (base * 16 + 8 * r) 8

/-- The rotary frequencies (ROPE_ADDR). -/
def Issue.freqs (i : Issue) : List FV := i.vec32 (bits i.attnRec 216 20) (atDim i.n / 2)

/-- Rows rotated by their position words. -/
def Issue.rotate (i : Issue) (inv : Bool) (pos : List Nat) (rows : List (List FV)) : List (List FV) :=
  (rows.zip pos).map fun p => rotateRow (bit i.attnRec 236) inv i.freqs (posPos p.2) p.1

/-- The bytes of K or of V of a frame image: 64 × d elements of the cache type (Table 9 of chapter 6). -/
def frameBytes (t d : Nat) : Nat := 64 * d * typeBits t / 8

/-- The block scale bytes of a frame image's K (`which` 0) or V (1), position by position (Table 9 of chapter 6). -/
def Issue.frameScales (i : Issue) (base which : Nat) : List (List Nat) :=
  let d := atDim i.n
  let kb := ceilDiv d 32
  (upFrom 0 64).map fun r => (upFrom 0 kb).map fun b => i.scaleByte (base + 2 * frameBytes (atKv i.n) d + 512 + which * 64 * kb + r * kb + b)

/-- The elements of a frame image's K (`which` 0) or V (1) with their block exponents, entering products (R162, R174): `base` is
the image's byte address. -/
def Issue.frameMat (i : Issue) (rep : Bool) (base which : Nat) : List (List FV) :=
  let t := atKv i.n
  let d := atDim i.n
  let e := frameBytes t d
  ((i.frameScales base which).zip (upFrom 0 64)).map fun s => (upFrom 0 d).map fun c =>
    let raw := i.rawAt t ((base + which * e) * 8 + blockBit 0 t d s.2 c)
    match e8m0 (s.1.getD (c / 32) 0) with
    | none => { v := .nan, spec := true }
    | some x => enterProduct rep (FV.of ((decodeElem t 0 raw).scale x))

/-- Whether the layer runs at a raised rung, so that its attention commands repeat at type 0x8 (R172). -/
def Issue.repeats (i : Issue) : Bool := decide (i.rung ≠ 0)

/-- The words at which the command's key blocks, or its value blocks, begin. -/
def Issue.blockAddrs (i : Issue) (k : Nat) : List Nat := (upFrom 0 (atBlocks i.n)).map fun j => i.atAddr k + j * bits i.attnRec 196 20

/-- Stored types wider than BF16 among the arrays at some words (R42, R54). -/
def Issue.wideAt (i : Issue) (ws : List Nat) : List SType := (ws.filterMap fun w => i.core.typeAt i.view w).filter fun st => st.code == 5

/-- The wide stored operands of the score products: queries and, where they are no cache frames, keys. -/
def Issue.wideScores (i : Issue) : List SType := i.wideAt (i.atAddr 0 :: if scaledType (atKv i.n) then [] else i.blockAddrs 1)

/-- The wide stored values. -/
def Issue.wideValues (i : Issue) : List SType := if scaledType (atKv i.n) then [] else i.wideAt (i.blockAddrs 2)

/-- Whether the score products take type 0x8 (R54, R172): the layer repeats, or an operand is stored in FP32. -/
def Issue.splitScores (i : Issue) : Bool := i.repeats || !i.wideScores.isEmpty

/-- Whether the value products take type 0x8 (R54, R172). -/
def Issue.splitValues (i : Issue) : Bool := i.repeats || !i.wideValues.isEmpty

/-- A key block: keys, values and position words (R157, R162). -/
def Issue.keyBlock (i : Issue) (values : Bool) (j : Nat) : List (List FV) × List (List FV) × List Nat :=
  let rec64 := i.attnRec
  let stride := bits rec64 196 20
  let d := atDim i.n
  if scaledType (atKv i.n) then
    let base := (i.atAddr 1 + j * stride) * 16
    (i.frameMat i.splitScores base 0, if values then i.frameMat i.splitValues base 1 else [],
      (upFrom 0 64).map fun r => i.core.readNat i.view (base + 2 * frameBytes (atKv i.n) d + 8 * r) 8)
  else
    let pos := i.posWords (bits rec64 176 20 + 32 * j) 64
    let k := i.matBlock (i.atAddr 1 + j * stride) 0 64 d
    let k := if atRopeK i.n then i.rotate (bit rec64 237) pos k else k
    (k.map fun r => r.map (enterProduct i.splitScores),
      if values then (i.matBlock (i.atAddr 2 + j * stride) 0 64 d).map fun r => r.map (enterProduct i.splitValues) else [], pos)

/-- The query rows entering products (R157, R161), and their position words. -/
def Issue.queries (i : Issue) : List (List FV) × List Nat :=
  let pos := i.posWords (bits i.attnRec 156 20) (atRows i.n)
  let q := i.matBlock (i.atAddr 0) 0 (atRows i.n) (atDim i.n)
  let q := if atRopeQ i.n then i.rotate (bit i.attnRec 237) pos q else q
  (q.map fun r => r.map (enterProduct i.splitScores), pos)

/-- σ: the score scale with the coarse scale of cache K folded in (R162). -/
def Issue.sigma (i : Issue) : FV :=
  if scaledType (atKv i.n) then (recFp i.attnRec 0).mul (recFp i.attnRec 32) else recFp i.attnRec 0

/-- ν: the coarse scale of cache V, or 1.0 (R162). -/
def Issue.nu (i : Issue) : FV := if scaledType (atKv i.n) then recFp i.attnRec 64 else FV.of (.fin false 1 0)

/-- The scores of one query row over a key block (step 2.1 of R163); a masked one is −∞ and raises nothing. -/
def Issue.scores (i : Issue) (q : List FV) (qw : Nat) (keys : List (List FV)) (pos : List Nat) : List FV :=
  (keys.zip pos).map fun k =>
    if maskedKey i.n (bits i.attnRec 238 24) qw k.2 then FV.of (.inf true)
    else (dotProduct i.splitScores q k.1 (FV.of .zero)).mul i.sigma

/-! ### The forward sweep (R163, R164) -/

/-- The running state of one query row. -/
structure RowState where
  m : FV
  l : FV
  o : List FV

/-- One key block applied to a row's running state (step 2 of R163): `rep` keeps p in FP32 (R172), `split` is the type of the value products. -/
def sweepBlock (rep split : Bool) (s : List FV) (v : List (List FV)) (x : RowState) : RowState :=
  let mn : FV := { (rowMax (x.m :: s)) with out := x.m.out || s.any FV.out, spec := x.m.spec || s.any FV.spec }
  let empty := mn.v == .inf true
  let one := FV.of (.fin false 1 0)
  let al := if empty then one else FV.fn 0 (FV.rnd (x.m.v.sub mn.v) x.m mn)
  let p := s.map fun a => if empty then FV.of .zero else FV.fn 0 (FV.rnd (a.v.sub mn.v) a mn)
  let pt := p.map (enterProduct rep)
  let l := (x.l.mul al).add (rowSum pt)
  let o := (x.o.zip (upFrom 0 x.o.length)).map fun c =>
    dotProduct split pt (v.map fun row => row.getD c.2 (FV.of .zero)) (c.1.mul al)
  { m := mn, l := l, o := o }

/-- The state a row starts from: empty with FIRST, otherwise as STATE_ADDR holds it (step 1 of R163). -/
def Issue.startRow (i : Issue) (r : Nat) : RowState :=
  let d := atDim i.n
  let base := bits i.attnRec 136 20
  let after := base * 16 + ceilDiv (atRows i.n) 8 * (d / 8) * 256
  if atFirst i.n then { m := FV.of (.inf true), l := FV.of .zero, o := (upFrom 0 d).map fun _ => FV.of .zero }
  else { m := FV.of (i.fp32At (after + 4 * r)), l := FV.of (i.fp32At (after + 4 * atRows i.n + 4 * r)),
         o := (upFrom 0 d).map fun c => FV.of (i.fp32At (blockBit base 5 d r c / 8)) }

/-- The results of the sweep: one state a row. -/
def Issue.sweep (i : Issue) (rep : Bool) : List RowState :=
  let q := i.queries
  let start := (upFrom 0 (atRows i.n)).map i.startRow
  (upFrom 0 (atBlocks i.n)).foldl (fun st j =>
    let b := i.keyBlock true j
    (st.zip (q.1.zip q.2)).map fun x => sweepBlock rep i.splitValues (i.scores x.2.1 x.2.2 b.1 b.2.2) b.2.1 x.1) start

/-- A row's written values: encodings with flags. −∞ of a masked row raises no flag (R159, R160, R164). -/
def quietInf (x : Nat × Bool × Bool) : Nat × Bool × Bool := if x.1 == 0xFF800000 then (x.1, false, false) else x

/-- The writes of ATTN_FWD with their flags (steps 3 of R163, R164). -/
def Issue.fwdWrites (i : Issue) (rep : Bool) : List (Wr × Bool × Bool) :=
  let rows := (i.sweep rep).zip (upFrom 0 (atRows i.n))
  let d := atDim i.n
  let rec64 := i.attnRec
  let ot := if rep then 5 else atO i.n
  if atLast i.n then
    let pos := i.posWords (bits rec64 156 20) (atRows i.n)
    rows.flatMap fun x =>
      let masked := x.1.l.v.isZero || posSeg (pos.getD x.2 0) == 0xFFFF
      let f := (FV.fn 3 x.1.l).mul i.nu
      let outs := (x.1.o.zip (upFrom 0 d)).map fun c =>
        let e := if masked then (0, false, false) else FV.store ot (c.1.mul f)
        ((blockBit (bits rec64 96 20) ot d x.2 c.2, typeBits ot, e.1), e.2.1, e.2.2)
      let l := if masked then (0xFF800000, false, false) else FV.store 5 (x.1.m.add (FV.fn 2 x.1.l))
      outs ++ [((bits rec64 116 20 * 128 + 32 * x.2, 32, l.1), l.2.1, l.2.2)]
  else
    let base := bits rec64 136 20
    let after := base * 128 + ceilDiv (atRows i.n) 8 * (d / 8) * 2048
    rows.flatMap fun x =>
      ((x.1.o.zip (upFrom 0 d)).map fun c =>
        let e := FV.store 5 c.1
        ((blockBit base 5 d x.2 c.2, 32, e.1), e.2.1, e.2.2)) ++
      [(let e := quietInf (FV.store 5 x.1.m); ((after + 32 * x.2, 32, e.1), e.2.1, e.2.2)),
       (let e := FV.store 5 x.1.l; ((after + 32 * atRows i.n + 32 * x.2, 32, e.1), e.2.1, e.2.2))]

/-- The writes of ATTN_RECOMP (R166); under a repeat it writes FP32, at twice the spacing (R172, log entry 16). -/
def Issue.recompWrites (i : Issue) (rep : Bool) : List (Wr × Bool × Bool) :=
  let q := i.queries
  let rec64 := i.attnRec
  let t := if rep then 5 else 0
  let space := atRows i.n * (if rep then 16 else 8)
  (upFrom 0 (atBlocks i.n)).flatMap fun j =>
    let b := i.keyBlock false j
    ((q.1.zip q.2).zip (upFrom 0 (atRows i.n))).flatMap fun x =>
      let lse := FV.of (i.fp32At (bits rec64 116 20 * 16 + 4 * x.2))
      let s := i.scores x.1.1 x.1.2 b.1 b.2.2
      (s.zip (upFrom 0 64)).map fun k =>
        let e := if lse.v == .inf true || k.1.v == .inf true && !k.1.out then (0, false, false)
          else FV.store t (FV.fn 0 (k.1.sub lse))
        ((blockBit (bits rec64 96 20 + j * space) t 64 x.2 k.2, typeBits t, e.1), e.2.1, e.2.2)

/-- The writes of ATTN_DS (R167). -/
def Issue.dsWrites (i : Issue) : List (Wr × Bool × Bool) :=
  let rec64 := i.attnRec
  let rows := atRows i.n
  let dvec := i.vec32 (i.atAddr 2) rows
  (upFrom 0 (atBlocks i.n)).flatMap fun j =>
    let pt := i.typeAt (i.atAddr 1) 0
    let dp := i.matBlock (i.atAddr 0 + j * rows * 16) 5 rows 64
    let p := i.matBlock (i.atAddr 1 + j * rows * (if pt == 5 then 16 else 8)) pt rows 64
    (((dp.zip p).zip dvec).zip (upFrom 0 rows)).flatMap fun x =>
      ((x.1.1.1.zip x.1.1.2).zip (upFrom 0 64)).map fun e =>
        let o := FV.store 0 ((e.1.2.mul (e.1.1.sub x.1.2)).mul (recFp rec64 0))
        ((blockBit (bits rec64 96 20 + j * rows * 8) 0 64 x.2 e.2, 16, o.1), o.2.1, o.2.2)

/-- The writes of ROPE (R161); under a repeat it writes FP32 (R172). -/
def Issue.ropeWrites (i : Issue) (rep : Bool) : List (Wr × Bool × Bool) :=
  let rows := atRows i.n
  let d := atDim i.n
  let ot := if rep then 5 else atO i.n
  let pos := i.posWords (bits i.attnRec 156 20) rows
  let x := i.rotate (bit i.attnRec 237) pos (i.matBlock (i.atAddr 0) (atKv i.n) rows d)
  (x.zip (upFrom 0 rows)).flatMap fun r => (r.1.zip (upFrom 0 d)).map fun c =>
    let e := FV.store ot c.1
    ((blockBit (i.atAddr 2) ot d r.2 c.2, typeBits ot, e.1), e.2.1, e.2.2)

/-! ### Issue -/

/-- Spill frames of engine `e` that hold nothing. -/
def Core.freeFrame (core : Core) (e : Nat) : Option Nat := [0, 1].find? fun f => tget none (core.engine e).frames f == none

/-- A physical slot of engine `e` for virtual slot 3 (R114, R170): free, or taken from the least recently referenced other slot that no unfinished
operation names; `none` where none can be had. -/
def Core.roomFor3 (core : Core) (e : Nat) : Option Core :=
  let x := core.engine e
  let live := (x.resident.filter (· != 3)).filter x.slotLive
  if live.length < 2 then some (core.setEngine e { x with resident := live })
  else
    match live.reverse.find? (fun v => !x.unfin.any fun u => u.base / 8 == v), core.freeFrame e with
    | some v, some f => some ((core.spill e v f).stallFor (3 + e) 2 spillCycles)
    | _, _ => none

/-- Engine `e` lends its virtual slot 3 to a fused form (R170): where the slot is live and resident, it is spilled before and reloaded after; its words
come back as they were. `none` where no frame or no physical slot is free (R114; entry 73). -/
def Core.lendSlot3 (core : Core) (e : Nat) : Option Core :=
  let x := core.engine e
  if 3 ∈ x.resident && x.slotLive 3 then
    match core.freeFrame e with
    | none => none
    | some f =>
      match ((core.spill e 3 f).stallFor (3 + e) 2 spillCycles).roomFor3 e with
      | none => none
      | some core => some (core.takeSlot e 3)
  else core.roomFor3 e

/-- Every engine of a list lends its virtual slot 3. -/
def Core.lendSlots (core : Core) : List Nat → Option Core
  | [] => some core
  | e :: es =>
    match core.lendSlot3 e with
    | none => none
    | some c => c.lendSlots es

/-- The work area of the fused forms of ATTN_FWD and ATTN_RECOMP: 48 KiB at WORK_ADDR (R170). -/
def Issue.workArea (i : Issue) : Nat × Nat := (bits i.attnRec 262 20 * 16, 49152)

/-- An attention command's effect but for the units that carry it out. -/
structure AttnEff where
  /-- writes with their flags. -/
  writes : List (Wr × Bool × Bool)
  /-- flags that operands raise by themselves. -/
  flags : List (Nat × Nat) := []
  /-- widenings to record (R54, R450). -/
  widen : List (SType × Nat × Nat) := []
  reads : List (Nat × Nat)
  /-- the type of the result in the image and the one written. -/
  imageType : Nat
  actualType : Nat
  /-- whether the fused form uses the work area. -/
  work : Bool := false

/-- An attention command in its pipe or its fused form (R158, R169, R170, R172). -/
def attnTry (fused : Bool) (a : AttnEff) (i : Issue) : Try :=
  let top := if i.repeats then 9 else 0
  let flags := addFlags a.flags (addFlags (flagIf (a.writes.any fun x => x.2.1) 1 top) (flagIf (a.writes.any fun x => x.2.2) 3 top))
  let e : Eff := { core := i.core, writes := a.writes.map Prod.fst, stype := i.stype a.imageType a.actualType, flags := flags, widen := a.widen
                   reads := a.reads, stallUnit := 13 }
  if fused then
    if !(i.core.enginesAccept (upFrom 0 8) false && decide (i.core.rowUnit.length < 2)) then .wait (seqUnit i.q) 1
    else
      match i.core.lendSlots (upFrom 0 8) with
      | none => .wait 3 2
      | some core =>
        let w := i.workArea
        let lines := if a.work then [(w.1 / 64, (w.1 + w.2 - 1) / 64)] else []
        .eff { e with core := core, units := (upFrom 0 9).map fun e => (e, 64), base := 24, later := lines, work := if a.work then some w else none }
  else if i.core.attn.length ≥ 2 then .wait (seqUnit i.q) 1
  else .eff { e with units := [(10, 0)] }

/-- The lines of `k` bytes from word address `w` on. -/
def byteRange (w k : Nat) : Nat × Nat := (w / 4, (w * 16 + k - 1) / 64)

/-- The lines of key blocks or value blocks from an address field on (R157). -/
def Issue.blockRanges (i : Issue) (k : Nat) : List (Nat × Nat) :=
  let d := atDim i.n
  let frame := 2 * frameBytes (atKv i.n) d + 512 + 128 * ceilDiv d 32
  (i.blockAddrs k).map fun a => if scaledType (atKv i.n) then byteRange a frame else tileRange false a (i.typeAt a 0) 64 d

/-- The lines of the rotary frequencies, where the command rotates. -/
def Issue.freqRange (i : Issue) (rotates : Bool) : List (Nat × Nat) := if rotates then [byteRange (bits i.attnRec 216 20) (2 * atDim i.n)] else []

/-- The lines that the scores read (R158): queries, keys, their position words, the frequencies and the record. -/
def Issue.scoreReads (i : Issue) : List (Nat × Nat) :=
  let rec64 := i.attnRec
  [tileRange false (i.atAddr 0) (i.typeAt (i.atAddr 0) 0) (atRows i.n) (atDim i.n), byteRange (bits rec64 156 20) (8 * atRows i.n), i.rangeRec 64]
    ++ i.blockRanges 1
    ++ (if scaledType (atKv i.n) then [] else [byteRange (bits rec64 176 20) (512 * atBlocks i.n)])
    ++ i.freqRange (atRopeQ i.n || atRopeK i.n)

/-- The lines of the running state (R163). -/
def Issue.stateRange (i : Issue) : Nat × Nat :=
  byteRange (bits i.attnRec 136 20) (ceilDiv (atRows i.n) 8 * (atDim i.n / 8) * 256 + 8 * atRows i.n)

/-- The flags that cache frames raise as they are read, whether or not their keys are masked (R52, R162): a widened value out of range, and a block of
the NaN scale. -/
def Issue.frameFlags (i : Issue) (values : Bool) : List (Nat × Nat) :=
  if scaledType (atKv i.n) then
    let top := if i.repeats then 9 else 0
    let parts := (i.blockAddrs 1).flatMap fun a => (a * 16, 0) :: if values then [(a * 16, 1)] else []
    let out := parts.any fun x => (i.frameMat (if x.2 = 0 then i.splitScores else i.splitValues) x.1 x.2).any fun r => r.any FV.out
    let nan := parts.any fun x => (i.frameScales x.1 x.2).any fun r => r.any (· == 255)
    addFlags (flagIf out 1 top) (flagIf nan 5 top)
  else []

/-- The widenings of an attention command by stored operands: its products run at BF16 but for its own rung (R172, R450). -/
def Issue.attnWidenings (i : Issue) (l : List SType) : List (SType × Nat × Nat) := if i.repeats then [] else (l.map fun st => (st, 0, 8)).take 1

/-- Whether the command runs in its fused form (R169): named so, redirected by its site, a repeat (R172), or with products of type 0x8 for a stored
operand, which the pipe does not form (R54, R162; DEDUCED, entry 80). -/
def useFused (s : State) (named : Bool) (i : Issue) : Bool :=
  named || (s.site (s.siteOf i.c)).fused || i.repeats ||
    (decide (opcode i.n % 8 ≤ 1) && (i.splitScores || (opcode i.n % 8 == 0 && i.splitValues)))

/-- ATTN_FWD in either form (R163, R164). -/
def attnFwd (i : Issue) (fused : Bool) : Try :=
  let rep := i.repeats
  attnTry fused
    { writes := i.fwdWrites rep, flags := i.frameFlags true
      widen := i.attnWidenings i.wideScores ++ (if i.wideScores.isEmpty then i.attnWidenings i.wideValues else [])
      reads := i.scoreReads ++ (if scaledType (atKv i.n) then [] else i.blockRanges 2) ++ (if atFirst i.n then [] else [i.stateRange])
      imageType := if atLast i.n then atO i.n else 5, actualType := if rep || !atLast i.n then 5 else atO i.n, work := true } i

/-- ATTN_RECOMP in either form (R166). -/
def attnRecomp (i : Issue) (fused : Bool) : Try :=
  let rep := i.repeats
  attnTry fused
    { writes := i.recompWrites rep, flags := i.frameFlags false, widen := i.attnWidenings i.wideScores
      reads := i.scoreReads ++ [byteRange (bits i.attnRec 116 20) (4 * atRows i.n)]
      imageType := 0, actualType := if rep then 5 else 0, work := true } i

/-- ATTN_DS in either form (R167). -/
def attnDs (i : Issue) (fused : Bool) : Try :=
  let pt := i.typeAt (i.atAddr 1) 0
  attnTry fused
    { writes := i.dsWrites
      reads := [tileRange false (i.atAddr 0) 5 (ceilDiv (atRows i.n) 8 * 8 * atBlocks i.n) 64,
                tileRange false (i.atAddr 1) pt (ceilDiv (atRows i.n) 8 * 8 * atBlocks i.n) 64,
                tileRange true (i.atAddr 2) 5 1 (atRows i.n), i.rangeRec 64]
      imageType := 0, actualType := 0 } i

/-- ROPE in either form (R161). -/
def rope (i : Issue) (fused : Bool) : Try :=
  let rep := i.repeats
  attnTry fused
    { writes := i.ropeWrites rep
      reads := [tileRange false (i.atAddr 0) (i.typeAt (i.atAddr 0) (atKv i.n)) (atRows i.n) (atDim i.n),
                byteRange (bits i.attnRec 156 20) (8 * atRows i.n), i.rangeRec 64] ++ i.freqRange true
      imageType := atO i.n, actualType := if rep then 5 else atO i.n } i

end Sys2Proof.Machine
end

