-- ==== Sys2Proof/Machine/KvPool.lean ====
section
/-! DEFINITION. The key-value pool (R173 to R183): frames and their places, page tables, truncation, and what a group's verdict does
(R179). -/

namespace Sys2Proof.Machine

open Sys2Proof

/-! ### Frames (R174) -/

/-- E: the bytes of K, or of V, in a frame. -/
def KvPool.half (k : KvPool) : Nat := 64 * k.hdim * typeBits k.type / 8

/-- Blocks of 32 elements in a position's row, the last one ragged (R175). -/
def KvPool.rowBlocks (k : KvPool) : Nat := (k.hdim + 31) / 32

/-- The frame size: the parts of Table 9, rounded up to a multiple of 1 KiB. -/
def KvPool.frameSize (k : KvPool) : Nat := (2 * k.half + 512 + 128 * k.rowBlocks + 1023) / 1024 * 1024

/-- Frames that fit in a pool page; no frame crosses one (R173). -/
def KvPool.perPage (k : KvPool) : Nat := 2 ^ 21 / k.frameSize

/-- The memory address of a frame. -/
def KvPool.frameAddr (k : KvPool) (f : Nat) : Nat := k.pages.getD (f / k.perPage) 0 * 2 ^ 21 + f % k.perPage * k.frameSize

/-- The place of position `r`, element `c` of K (`which` 0) or V (1) in a frame, as a byte offset (Table 9, R104). -/
def KvPool.elemByte (k : KvPool) (which r c : Nat) : Nat :=
  which * k.half + ((r / 8 * (k.hdim / 8) + c / 8) * 64 + r % 8 * 8 + c % 8) * typeBits k.type / 8

/-- The place of a position word in a frame. -/
def KvPool.wordByte (k : KvPool) (r : Nat) : Nat := 2 * k.half + 8 * r

/-- The place of a block scale of K or V in a frame. -/
def KvPool.scaleAt (k : KvPool) (which r b : Nat) : Nat :=
  2 * k.half + 512 + which * 64 * k.rowBlocks + r * k.rowBlocks + b

/-! ### Page tables (R177) -/

/-- The key of a page-table entry: slot, and the index of layer slot, head and page. -/
def KvPool.entry (k : KvPool) (slot l h g : Nat) : Nat := slot * 2 ^ 32 + (l * k.heads + h) * k.maxp + g

/-- The page of an entry. -/
def KvPool.entryPage (k : KvPool) (e : Nat) : Nat := e % 2 ^ 32 % k.maxp

/-- The frame of an entry, for a reader who sees the drafts of `view`: a draft append's (R179), or the table's. -/
def KvPool.frameOf (k : KvPool) (view : List Nat) (e : Nat) : Option Nat :=
  match k.draftFrames.find? fun x => decide (x.1 ∈ view) && x.2.1 == e with
  | some x => some x.2.2
  | none => match tget 0 k.table2 e with
    | 0 => none
    | f + 1 => some f

/-- Frames that a slot holds. -/
def KvPool.framesOf (k : KvPool) (slot : Nat) : List Nat :=
  (k.table2.filter fun e => e.1 / 2 ^ 32 == slot).map fun e => e.2 - 1

/-- A slot's descriptor. -/
def KvPool.slot (k : KvPool) (n : Nat) : SeqDesc := tget {} k.desc n

/-- A slot's descriptor changed. -/
def KvPool.modSlot (k : KvPool) (n : Nat) (f : SeqDesc → SeqDesc) : KvPool := { k with desc := tmod {} k.desc n f }

/-- The key under which the end of the positions written of a slot, layer slot and head is kept. -/
def writtenKey (slot l h : Nat) : Nat := (slot * 256 + l) * 64 + h

/-- Every layer slot and head of a pool. -/
def KvPool.allHeads (k : KvPool) : List (Nat × Nat) :=
  (upFrom 0 k.layers).flatMap fun l => (upFrom 0 k.heads).map fun h => (l, h)

/-- The end of a slot's positions that every layer and head has written. -/
def KvPool.commonEnd (k : KvPool) (slot : Nat) : Nat :=
  match k.allHeads.map fun x => tget 0 k.written (writtenKey slot x.1 x.2) with
  | [] => 0
  | a :: l => l.foldl min a

/-- LENGTH raised once every layer and head of the positions is written (step 5 of R178). -/
def KvPool.raiseLength (k : KvPool) (slot : Nat) : KvPool :=
  k.modSlot slot fun d => { d with length := max d.length (k.commonEnd slot) }

/-- A sequence truncated to `start` (step 2 of R178): frames of pages that lie wholly at or beyond it are freed. -/
def KvPool.truncate (k : KvPool) (slot start : Nat) : KvPool :=
  let gone (e : Nat × Nat) : Bool := e.1 / 2 ^ 32 == slot && decide (start ≤ k.entryPage e.1 * 64)
  { k with
    free := k.free ++ (k.table2.filter gone).map fun e => e.2 - 1
    table2 := k.table2.filter fun e => !gone e
    written := k.allHeads.foldl (fun m x => tmod 0 m (writtenKey slot x.1 x.2) fun n => min n start) k.written
    desc := tmod {} k.desc slot fun d => { d with length := min d.length start } }

/-- All frames of a slot given back, and nothing of it written. -/
def KvPool.freeSlot (k : KvPool) (slot : Nat) : KvPool := k.truncate slot 0

/-- All frames of a parked slot reclaimed (step 2 of R182): the slot becomes ENDED with EVICTED set, and its LENGTH stays. -/
def KvPool.evict (k : KvPool) (slot : Nat) : KvPool :=
  let d := k.slot slot
  (k.freeSlot slot).modSlot slot fun x => { x with st := 3, evicted := true, length := d.length }

/-- The end of the positions of one layer slot and head raised. -/
def KvPool.wrote (k : KvPool) (r : KvReq) : KvPool :=
  ({ k with written := tmod 0 k.written (writtenKey r.slot r.layerSlot r.head) fun n => max n (r.start + r.count) } : KvPool).raiseLength r.slot

/-- The pages that an append's positions lie in. -/
def KvReq.pages (r : KvReq) : List Nat := upFrom (r.start / 64) ((r.start + r.count - 1) / 64 + 1 - r.start / 64)

/-- A draft append committed (R178, R179): its slot is truncated where it starts below LENGTH, and its positions are written. Beside the pool, the
entries that the group's appends have taken frames for and that no later one has truncated. -/
def KvPool.commitReq (x : KvPool × List Nat) (r : KvReq) : KvPool × List Nat :=
  let k := x.1
  if (k.slot r.slot).st != 1 then x
  else
    let cut := decide (r.start < (k.slot r.slot).length)
    let kept := if cut then x.2.filter fun e => !(e / 2 ^ 32 == r.slot && decide (r.start ≤ k.entryPage e * 64)) else x.2
    ((if cut then k.truncate r.slot r.start else k).wrote r, kept ++ r.pages.map fun g => k.entry r.slot r.layerSlot r.head g)

/-- What a verdict of a group does to its draft appends (R179): on a commit the truncations and the lengths take effect in the order of the
appends, and the frames of the pages that stand go into the table; on a discard the frames go back to the free list. -/
def KvPool.verdict (k : KvPool) (g : Nat) (commit : Bool) : KvPool :=
  let mine := k.draftReqs.filter fun r => r.draft == some g
  let frames := k.draftFrames.filter fun x => x.1 == g
  let rest : KvPool := { k with
    draftReqs := k.draftReqs.filter fun r => r.draft != some g
    draftFrames := k.draftFrames.filter fun x => x.1 != g
    reqs := k.reqs.filter fun r => r.draft != some g }
  if commit then
    let r := (mine.mergeSort fun a b => decide (a.id ≤ b.id)).foldl KvPool.commitReq (rest, [])
    frames.foldl (fun (k : KvPool) x =>
      if decide (x.2.1 ∈ r.2) && tget 0 k.table2 x.2.1 == 0 then { k with table2 := tset 0 k.table2 x.2.1 (x.2.2 + 1) }
      else { k with free := k.free ++ [x.2.2] }) r.1
  else { rest with free := rest.free ++ frames.map fun x => x.2.2 }

end Sys2Proof.Machine
end

