-- ==== Sys2Proof/Machine/Post.lean ====
section
/-! DEFINITION. What the module writes to its hosts: interrupts (R348, R349), completions (R366 to R370) and events (R378). -/

namespace Sys2Proof.Machine

open Sys2Proof

/-! ### Bytes -/

/-- A number as `k` bytes, least significant first (R6). -/
def leBytes : Nat → Nat → List Byte
  | 0, _ => []
  | k + 1, v => BitVec.ofNat 8 v :: leBytes k (v / 256)

/-- Bytes as a number, least significant first (R6). -/
def leNat : List Byte → Nat
  | [] => 0
  | b :: l => b.toNat + 256 * leNat l

/-- Bytes of a list of (size, value) fields, each starting at the next multiple of its size (R368), from offset `at'` on. -/
def packFrom : Nat → List (Nat × Nat) → List Byte
  | _, [] => []
  | at', (k, v) :: l =>
    let pad := (k - at' % k) % k
    List.replicate pad 0 ++ leBytes k v ++ packFrom (at' + pad + k) l

/-- Bytes of a list of fields (R368). -/
def packList (l : List (Nat × Nat)) : List Byte := packFrom 0 l

/-- Offsets at which the fields of the given sizes start (R368). -/
def offsetsFrom : Nat → List Nat → List Nat
  | _, [] => []
  | at', k :: l => let o := at' + (k - at' % k) % k; o :: offsetsFrom (o + k) l

/-- Fields of the given sizes read from bytes (R368). -/
def readList (b : List Byte) (sizes : List Nat) : List Nat :=
  ((offsetsFrom 0 sizes).zip sizes).map fun x => leNat ((b.drop x.1).take x.2)

/-- Bytes padded with zeros, or cut, to `n`. -/
def padTo (n : Nat) (b : List Byte) : List Byte := (b ++ List.replicate (n - b.length) 0).take n

/-! ### Interrupts (R348, R349) -/

/-- Ticks of the always-on clock in a function's holdoff: microseconds at 25 MHz (R412). -/
def Fn.holdTicks (fn : Fn) : Nat := fn.holdoff * 25

/-- Whether a vector is still within its holdoff at tick `t`. -/
def Fn.held (fn : Fn) (t v : Nat) : Bool :=
  match tget none fn.inHoldoff v with
  | none => false
  | some t0 => decide (t < t0 + fn.holdTicks)

/-- One message of a vector: sent when the link is up, held as pending when it is down (R344), and its holdoff begun. -/
def State.message (s : State) (f v : Nat) : State :=
  let fn := s.fn f
  let fn := if fn.holdTicks = 0 then fn else { fn with inHoldoff := tset none fn.inHoldoff v (some s.tick) }
  if s.power.linkUp then (s.setFn f fn).put (.msix f v)
  else s.setFn f { fn with linkHeld := addOnce fn.linkHeld v }

/-- A message that a set cause asks for: held while the vector is in its holdoff (R349). -/
def State.notify (s : State) (f v : Nat) : State :=
  if (s.fn f).held s.tick v then s.modFn f fun fn => { fn with heldCauses := fn.heldCauses ||| BitVec.ofNat 16 (2 ^ v) }
  else s.message f v

/-- An event that sets a vector's cause bit: a change from 0 to 1 of an unmasked bit asks for a message (R349). -/
def State.raise (s : State) (f v : Nat) : State :=
  let fn := s.fn f
  if fn.cause.getLsbD v then s
  else
    let s := s.setFn f { fn with cause := fn.cause ||| BitVec.ofNat 16 (2 ^ v) }
    if fn.mask.getLsbD v then s else s.notify f v

/-! ### Rings (R361) -/

/-- Codes of the event rings, and of the ring that the I3C channel is (R361, R385). -/
def mgmtEvents : Nat := 40
/-- Ring code of the I3C channel in this model. -/
def i3cRing : Nat := 0x3F

/-- The partition whose command ring a code names; none for a management ring. -/
def ringPart (r : Nat) : Option Nat := if 8 ≤ r && r < 40 then some ((r - 8) / 4) else none

/-- The function that serves a ring, and the vector of its cause (R343, R348, R366). -/
def State.ringVector (s : State) (r : Nat) : Nat × Nat :=
  if r < 8 then (0, r)
  else if r < 40 then (s.fnOfPart ((r - 8) / 4), r % 4)
  else if r = 40 then (0, 8)
  else let f := s.fnOfPart (r - 41); (f, if f = 0 then 8 else 4)

/-- Number of entries of a ring. -/
def Ring.size (g : Ring) : Nat := 2 ^ g.sizeLog2

/-- Whether a CQ or event entry is free; one entry stays unused, so that full and empty differ (PRESUMED, entry 16). -/
def Ring.free (g : Ring) : Bool := (g.cqTail + 1) % g.size != g.cqHead

/-- The tail moved past the entry just written, with PHASE inverted at the wrap (R366). -/
def Ring.advance (g : Ring) : Ring :=
  if g.cqTail + 1 < g.size then { g with cqTail := g.cqTail + 1 } else { g with cqTail := 0, phase := !g.phase }

/-- An event put on an event ring, or counted as lost when the ring is full (R378). -/
def State.event (s : State) (r type part : Nat) (body : List Byte) : State :=
  let g := s.ring r
  if !g.enable then s
  else if !g.free then s.setRing r { g with lost := satInc32 g.lost }
  else
    let s := (s.setRing r { g.advance with lost := 0 }).put (.event r g.cqTail type part g.phase g.lost s.tick (padTo 48 body))
    let v := s.ringVector r
    s.raise v.1 v.2

/-- An event of a partition. -/
def State.partEvent (s : State) (p type : Nat) (body : List Byte) : State := s.event (41 + p) type p body

/-! ### Completions -/

/-- What a command answers. -/
structure Answer where
  status : Nat := 0
  detail : Nat := 0
  value : Nat := 0
  result : List Byte := []

/-- Descriptor field of a command, low bit and width. -/
def Cmd.f (c : Cmd) (lo w : Nat) : Nat := bits c.desc.toNat lo w

/-- TAG of a command. -/
def Cmd.tag (c : Cmd) : Nat := c.f 32 16
/-- OPCODE of a command. -/
def Cmd.opcode (c : Cmd) : Nat := c.f 0 16
/-- PARTITION of a command. -/
def Cmd.partition (c : Cmd) : Nat := c.f 48 3

/-- The command of tag `t` of a ring that has not had its final completion queued. -/
def Ring.find (g : Ring) (t : Nat) : Option Cmd := g.inflight.find? fun c => c.tag == t && !c.done

/-- A completion queued on a ring, to be written when a CQ entry is free (R366). -/
def State.queueCompletion (s : State) (r : Nat) (c : Cmd) (a : Answer) : State :=
  s.modRing r fun g => { g with waiting := g.waiting ++
    [{ tag := c.tag, opcode := c.opcode, status := a.status, resultBytes := a.result.length, detail := a.detail % 2 ^ 32,
       value := a.value, quiet := bit c.desc.toNat 17, result := a.result }] }

/-- The final completion of a ring's command of tag `t` (R370). Nothing comes of it when a restart has abandoned it (R376). -/
def State.finish (s : State) (r t : Nat) (a : Answer) : State :=
  match (s.ring r).find t with
  | none => s
  | some c =>
    (s.queueCompletion r c a).modRing r fun g =>
      { g with inflight := g.inflight.map fun x => if x.tag == t && !x.done then { x with done := true } else x }

/-- The final completion with a status alone. -/
def State.finishStatus (s : State) (r t status : Nat) : State := s.finish r t { status := status }

/-! ### Statuses (Table 4 of chapter 13) -/

def stOK : Nat := 0x00
def stPending : Nat := 0x01
def stBadOpcode : Nat := 0x10
def stBadArg : Nat := 0x11
def stNotPermitted : Nat := 0x12
def stWrongState : Nat := 0x13
def stBusy : Nat := 0x14
def stNoMemory : Nat := 0x20
def stNoPage : Nat := 0x21
def stFarTier : Nat := 0x22
def stDataError : Nat := 0x23
def stSignature : Nat := 0x30
def stRollback : Nat := 0x31
def stIntegrity : Nat := 0x32
def stLinkDown : Nat := 0x40
def stFormMismatch : Nat := 0x41
def stLayoutStale : Nat := 0x42
def stSectionStuck : Nat := 0x50
def stExhausted : Nat := 0x52
def stHwFault : Nat := 0x60
def stFenced : Nat := 0x61
def stTimeout : Nat := 0x70

end Sys2Proof.Machine
end

