-- ==== Sys2Proof/Machine/Links.lean ====
section
/-! DEFINITION. Sending packets (R288) and bell messages (R303) to other devices, and fault reports and absence notes (R312 to
R314). -/

namespace Sys2Proof.Machine

open Sys2Proof

/-! ### Devices -/

/-- This device's identity (R278). -/
def State.self (s : State) : Nat := s.form.form * 64 + s.form.pos

/-- The device that a holder of a role answers to as its Prefect: the present Prefect of the Form. -/
def State.isPrefect (s : State) : Bool := s.form.set && s.form.prefect == s.self

/-- Whether this device is its Form's Deputy. -/
def State.isDeputy (s : State) : Bool := s.form.set && s.form.deputy == some s.self

/-- Whether this device is the Head Prefect (R279): of a single-Form system the Prefect takes its duties. -/
def State.isHead (s : State) : Bool :=
  match s.form.head with
  | some h => s.form.set && h == s.self
  | none => s.isPrefect

/-- Whether a port is up on four or three lanes (Table 12 of chapter 10). -/
def Port.up (l : Port) : Bool := decide (2 ≤ l.st)

/-- The lowest port of the link map that is up and leads to a device. -/
def State.portTo (s : State) (dev : Nat) : Option Nat :=
  (s.form.links.find? fun e => e.2.valid && !e.2.node && e.2.peer == dev && (s.port e.1).up).map Prod.fst

/-- Every port of the link map that leads to a device and is up. -/
def State.portsTo (s : State) (dev : Nat) : List Nat :=
  (s.form.links.filter fun e => e.2.valid && !e.2.node && e.2.peer == dev && (s.port e.1).up).map Prod.fst

/-- The lowest port of the link map that is up and leads to a memory node. -/
def State.portToNode (s : State) (node : Nat) : Option Nat :=
  (s.form.links.find? fun e => e.2.valid && e.2.node && e.2.peer == node && (s.port e.1).up).map Prod.fst

/-- A packet put on a port's queue, with the port's next PSEQ (R288). -/
def State.queuePacket (s : State) (l : Nat) (p : Packet) : State :=
  s.modPort l fun x => { x with pktQ := x.pktQ ++ [{ p with src := s.self, pseq := x.pseq }], pseq := (x.pseq + 1) % 2 ^ 32 }

/-- A packet for a device: taken in at once when the device is this one, queued on a link to it otherwise. Where no link to it is
up, nothing leaves (entry 17). -/
def State.sendPacket (s : State) (dev : Nat) (p : Packet) : State :=
  let p := { p with dest := dev }
  if dev = s.self then { s with pktIn := s.pktIn ++ [(64, { p with src := dev })] }
  else
    match s.portTo dev with
    | none => s
    | some l => s.queuePacket l p

/-- A packet passed on as it came, its source unchanged (R306). -/
def State.passPacket (s : State) (dev : Nat) (p : Packet) : State :=
  match s.portTo dev with
  | none => s
  | some l => s.modPort l fun x => { x with pktQ := x.pktQ ++ [{ p with dest := dev, pseq := x.pseq }], pseq := (x.pseq + 1) % 2 ^ 32 }

/-- A packet passed on to each of a list of devices, this one left out. -/
def State.passPackets (s : State) (devs : List Nat) (p : Packet) : State := (devs.filter (· != s.self)).foldl (fun s d => s.passPacket d p) s

/-- A packet sent to each of a list of devices. -/
def State.sendPackets (s : State) (devs : List Nat) (p : Packet) : State := devs.foldl (fun s d => s.sendPacket d p) s

/-- A bell message for a device, over the bell route named for it at FORM_SETUP, or over a link to it (R304). -/
def State.sendBell (s : State) (dev part : Nat) (msg : W64) : State :=
  if dev = s.self then { s with bellIn := s.bellIn ++ [(dev, part, msg)] }
  else
    let l := match s.form.routes.find? fun r => r.dest == dev with
      | some r => some r.port
      | none => s.portTo dev
    match l with
    | none => s
    | some l => s.modPort l fun x => { x with bellQ := x.bellQ ++ [msg] }

/-- A bell message sent to each of a list of devices. -/
def State.sendBells (s : State) (devs : List Nat) (part : Nat) (msg : W64) : State :=
  devs.foldl (fun s d => s.sendBell d part msg) s

/-- The Prefect and the Deputy that this device sends records, rings and faults to (R279, R302, R306, R312). -/
def State.superiors (s : State) : List Nat :=
  if s.form.set then s.form.prefect :: (s.form.deputy.toList.filter (· != s.form.prefect)) else []

/-- The key of a device's part in a job, whose partition holds the job on this device too. -/
def jobDev (p dev : Nat) : Nat := p * 2 ^ 14 + dev % 2 ^ 14

/-- A device's overflow records of a step kept by its Prefect (R56): they take the place of an earlier run's. -/
def State.keepOverflow (s : State) (p dev step : Nat) (recs : List OvfRec) : State :=
  let k := jobDev p dev
  { s with form := { s.form with overflow := (s.form.overflow.filter fun x => !(x.1 == k && x.2.1 == step)) ++ [(k, step, recs)] } }

/-- The overflow records of the running step sent to the Form's Prefect (R56), once the step has ended (DESIGN CHOICE, entry 70). -/
def State.sendOverflow (s : State) (p : Nat) : State :=
  let part := s.part p
  let recs := tget [] part.tel.overflow part.step
  if !s.form.set || recs = [] then s
  else if s.isPrefect then s.keepOverflow p s.self part.step recs
  else s.sendPacket s.form.prefect { cls := 0x20, part := p, ctl := some (.overflow part.step recs) }

/-! ### Bell messages between devices (Table 9 of chapter 10) -/

/-- RING: BELL [25:16], AMOUNT [63:32]. -/
def msgRing (b : Nat) (amount : W32) : W64 := BitVec.ofNat 64 (0x01 + b % 1024 * 2 ^ 16 + amount.toNat * 2 ^ 32)
/-- COUNT: BELL [25:16], COUNT [63:32]. -/
def msgCount (b : Nat) (n : W32) : W64 := BitVec.ofNat 64 (0x02 + b % 1024 * 2 ^ 16 + n.toNat * 2 ^ 32)
/-- FLAG: GROUP [23:16], OVERFLOW [24], ROUND [31:25], STEP [63:32]. -/
def msgFlag (g : Nat) (flag : Bool) (round step : Nat) : W64 :=
  BitVec.ofNat 64 (0x03 + g % 256 * 2 ^ 16 + flag.toNat * 2 ^ 24 + round % 128 * 2 ^ 25 + step % 2 ^ 32 * 2 ^ 32)
/-- RUNG: LAYER [27:16], RUNG [29:28], STEP [63:32]. -/
def msgRung (layer rung step : Nat) : W64 :=
  BitVec.ofNat 64 (0x04 + layer % 4096 * 2 ^ 16 + rung % 4 * 2 ^ 28 + step % 2 ^ 32 * 2 ^ 32)
/-- RUNG_ACK: as RUNG. -/
def msgRungAck (layer rung step : Nat) : W64 :=
  BitVec.ofNat 64 (0x05 + layer % 4096 * 2 ^ 16 + rung % 4 * 2 ^ 28 + step % 2 ^ 32 * 2 ^ 32)
/-- CLIP: STEP [31:16], clip scalar [63:32]. -/
def msgClip (step : Nat) (c : W32) : W64 := BitVec.ofNat 64 (0x06 + step % 2 ^ 16 * 2 ^ 16 + c.toNat * 2 ^ 32)
/-- HEARTBEAT: beat epoch [63:16]. -/
def msgHeartbeat (epoch : Nat) : W64 := BitVec.ofNat 64 (0x07 + epoch % 2 ^ 48 * 2 ^ 16)
/-- MISSING: device identity [29:16]. -/
def msgMissing (dev : Nat) : W64 := BitVec.ofNat 64 (0x08 + dev % 2 ^ 14 * 2 ^ 16)
/-- TAKEOVER: device identity [29:16]. -/
def msgTakeover (dev : Nat) : W64 := BitVec.ofNat 64 (0x09 + dev % 2 ^ 14 * 2 ^ 16)

/-! ### Fault reports and absence notes -/

/-- The 32 bytes of a note (Table 3 of chapter 11). -/
def noteBytes (n : Note) : List Byte :=
  leBytes 32 (n.key.dev % 2 ^ 14 + n.key.kind % 4 * 2 ^ 14 + n.key.unit % 2 ^ 16 * 2 ^ 16 + n.key.cls % 256 * 2 ^ 32
    + n.part % 8 * 2 ^ 40 + n.absent.toNat * 2 ^ 43 + n.reporter % 2 ^ 14 * 2 ^ 44 + n.key.epoch % 2 ^ 32 * 2 ^ 64
    + n.count % 2 ^ 32 * 2 ^ 96 + n.first % 2 ^ 64 * 2 ^ 128 + n.last % 2 ^ 64 * 2 ^ 192)

/-- An addition of counts that stops at the greatest 32-bit value. -/
def satAdd32 (a b : Nat) : Nat := min (a + b) (2 ^ 32 - 1)

/-- A note that another report of its key joins (R314). -/
def joinNote (n r : Note) : Note :=
  { n with count := satAdd32 n.count r.count, first := min n.first r.first, last := max n.last r.last,
           absent := n.absent || r.absent }

/-- The note window of a slot: 100 ms of fabric time (R314). -/
def noteWindowOf (slot : Nat) : Nat := slot / 120000000

/-- A note forwarded: to the Head Prefect, where this device is a Prefect under one, and to this host's management event ring
(R314, Table 6 of chapter 13). -/
def State.forwardNote (s : State) (n : Note) : State :=
  let s := match s.form.head with
    | some h => if s.isPrefect && h != s.self then s.sendPacket h { cls := 0x21, note := some n } else s
    | none => s
  if s.isPrefect then s.event mgmtEvents 0x0003 0 (noteBytes n) else s

/-- The entry of a note table joined by a report: note, COUNT at its last forward, window of that forward, windows idle. -/
def joinNotes (r : Note) : List (Note × Nat × Option Nat × Nat) → List (Note × Nat × Option Nat × Nat)
  | [] => []
  | (n, c, w, i) :: l => if n.key = r.key then (joinNote n r, c, w, 0) :: l else (n, c, w, i) :: joinNotes r l

/-- A report taken into the note table of a Prefect or Deputy (R314): it joins the note of its key, or opens one, which is
forwarded at once; where the table is full and no note is free, it adds to the note of class 0xFF. -/
def State.noteIn (s : State) (r : Note) : State :=
  let w := noteWindowOf s.slot
  let notes := s.form.notes
  if notes.any (fun e => e.1.key == r.key) then { s with form := { s.form with notes := joinNotes r notes } }
  else
    let kept := if notes.length < 1024 then some notes
      else (takeFirst (fun (e : Note × Nat × Option Nat × Nat) => e.2.2.1.isSome && decide (11 ≤ e.2.2.2)) notes).map Prod.snd
    match kept with
    | some l =>
      let s := { s with form := { s.form with notes := l ++ [(r, r.count, some w, 0)] } }
      s.forwardNote r
    | none =>
      let full : Note := { r with key := { dev := s.self, kind := 0, unit := 0, cls := 0xFF, epoch := 0 }, part := 0, reporter := s.self }
      if notes.any (fun e => e.1.key == full.key) then { s with form := { s.form with notes := joinNotes full notes } }
      else
        let s := { s with form := { s.form with notes := notes.dropLast ++ [(full, full.count, some w, 0)] } }
        s.forwardNote full

/-- A report sent to the Prefect and the Deputy (R312); a device that is one of them takes it into its own table. -/
def State.sendReport (s : State) (n : Note) : State :=
  let s := if s.isPrefect || s.isDeputy then s.noteIn n else s
  s.sendPackets (s.superiors.filter (· != s.self)) { cls := 0x21, note := some n }

/-- A failure detected on this device (R312 to R314): at most one report of a key leaves in a note window, and later detections
wait for the next. Classes 0x61, 0x22 and 0x60 set PF0's device-fault cause (Table 3 of chapter 12). -/
def State.report (s : State) (kind unit cls p : Nat) : State :=
  let part := s.part p
  let key : NoteKey := { dev := s.self, kind := kind, unit := unit, cls := cls, epoch := if part.job = .none then 0 else part.layoutEpoch }
  let n : Note := { key := key, part := p, reporter := s.self, count := 1, first := s.slot, last := s.slot }
  let s := if cls = 0x61 || cls = 0x22 || cls = 0x60 then s.raise 0 9 else s
  if key ∈ s.form.reported then
    let held := if s.form.toReport.any (fun m => m.key == key) then
        s.form.toReport.map fun m => if m.key == key then joinNote m n else m
      else s.form.toReport ++ [n]
    { s with form := { s.form with toReport := held } }
  else
    let s := { s with form := { s.form with reported := s.form.reported ++ [key] } }
    s.sendReport n

/-- The unit number of a core site in a note (Table 3 of chapter 11): row × 64 + physical column. -/
def siteUnit (x : Nat) : Nat := x / 50 * 64 + x % 50

end Sys2Proof.Machine
end

