-- ==== Sys2Proof/Machine/Hbm.lean ====
section
/-! DEFINITION. HBM: placement (R221), the symbol code (R236), the checks of a line (R239), writing lines, and the frames of a
stack (R221, R245). -/

namespace Sys2Proof.Machine

open Sys2Proof

/-! ### Placement (R220, R221) -/

/-- The stack of a page of a partition (R220). -/
def State.stackOfPage (s : State) (p pg : Nat) : Nat :=
  let l := s.stacksOf p
  l.getD (pg % l.length) 0

/-- The home slice of a page of a partition (R220). -/
def State.homeOfPage (s : State) (p pg : Nat) : Nat :=
  let l := s.slicesOf p
  l.getD (pg % l.length) 0

/-- Logical pseudo-channel, bank, column group and row of unit `u` of frame `f` (R221). -/
def hbmPlace (f u : Nat) : Nat × Nat × Nat × Nat :=
  let n := f * 8192 + u
  let w := n / 31
  (n % 31, w % 64, w / 64 % 4, w / 256)

/-- The physical pseudo-channel that holds a unit of a logical one (R234, R242): the spare, physical 31, once sparing has moved
it, and while the copy runs for units below the cursor. Number 31 is the spare itself. -/
def Stack.physical (st : Stack) (pc w : Nat) : Nat :=
  if pc = 31 || st.spareFor = pc && (st.st == .spare || (st.st == .sparing && decide (w < st.cursor))) then 31 else pc

/-- Frames of a stack (R234). -/
def framesPerStack : Nat := 23808

/-- Lines of a stack, its spare included (R240). -/
def stackLines : Nat := 805306368

/-- Where scrub finds a line: logical pseudo-channel, bank, column group and row of its unit, and the unit within the pseudo-channel. The lines from
frame 23,808 on are the spare's, which is given the number 31 (R221, R234, R240; which lines are the spare's is a DESIGN CHOICE, entry 61). -/
def scrubPlace (line : Nat) : (Nat × Nat × Nat × Nat) × Nat :=
  let u := line / 4
  if line / 32768 < framesPerStack then (hbmPlace (line / 32768) (line % 32768 / 4), u / 31)
  else
    let w := u % (framesPerStack * 8192)
    ((31, w % 64, w / 64 % 4, w / 256), w)

/-! ### The symbol code (R236) -/

/-- Doubling in GF(2⁸) with x⁸ + x⁴ + x³ + x² + 1. -/
def gfDouble (a : Byte) : Byte := (a <<< 1) ^^^ (if a.msb then 0x1D else 0)

/-- Multiplication by αⁿ, α being x. -/
def gfShift : Nat → Byte → Byte
  | 0, a => a
  | n + 1, a => gfDouble (gfShift n a)

/-- The codeword of a line as one number, symbol 0 least significant: ciphertext, TAG, metadata bits [39:32] and CHECK. -/
def codeword (l : HbmLine) : Nat :=
  l.data.toNat + l.tag.toNat * 2 ^ 512 + (l.keyId.toNat + l.part.toNat * 32) * 2 ^ 544 + l.check.toNat * 2 ^ 552

/-- The line of a codeword. -/
def ofCodeword (n : Nat) : HbmLine :=
  { data := BitVec.ofNat 512 n, tag := BitVec.ofNat 32 (n / 2 ^ 512), keyId := BitVec.ofNat 5 (n / 2 ^ 544)
    part := BitVec.ofNat 3 (n / 2 ^ 549), check := BitVec.ofNat 24 (n / 2 ^ 552) }

/-- The first `n` symbols of a codeword. -/
def symbolsOf (w n : Nat) : List Byte := (upFrom 0 n).map fun i => BitVec.ofNat 8 (w / 256 ^ i)

/-- The 72 symbols of a line. -/
def codeSymbols (l : HbmLine) : List Byte := symbolsOf (codeword l) 72

/-- A line with bits of one symbol changed. -/
def flipSymbol (l : HbmLine) (i : Nat) (e : Byte) : HbmLine := ofCodeword (codeword l ^^^ (e.toNat * 256 ^ i))

/-- The three check symbols of the 69 symbols before them: the remainder of the word by (x + α⁰)(x + α¹)(x + α²), the symbol sent first of the highest
degree (DESIGN CHOICE, entry 9: the manual does not say which symbol is of which degree). -/
def checkSymbols (l : List Byte) : Byte × Byte × Byte :=
  l.foldl (fun (r : Byte × Byte × Byte) m =>
    let f := m ^^^ r.1
    let f2 := gfDouble f
    let f4 := gfDouble f2
    let f8 := gfDouble f4
    (r.2.1 ^^^ f ^^^ f2 ^^^ f4, r.2.2 ^^^ f2 ^^^ f4 ^^^ f8, f8)) (0, 0, 0)

/-- A line with the CHECK of its other symbols. -/
def encoded (l : HbmLine) : HbmLine :=
  let r := checkSymbols (symbolsOf (codeword l) 69)
  { l with check := BitVec.ofNat 24 (r.1.toNat + r.2.1.toNat * 256 + r.2.2.toNat * 65536) }

/-- The value of a word at the root αʲ. -/
def syndrome (l : List Byte) (j : Nat) : Byte := l.foldl (fun acc m => gfShift j acc ^^^ m) 0

/-- What the decoder makes of a line: nothing seen, one symbol corrected, or a detected uncorrectable error. -/
inductive Decoded
  | clean
  | corrected (l : HbmLine)
  | bad
deriving DecidableEq, Repr

/-- The decoder (R236): corrects any one symbol in error and detects any two. -/
def decodeLine (l : HbmLine) : Decoded :=
  let s0 := syndrome (codeSymbols l) 0
  let s1 := syndrome (codeSymbols l) 1
  let s2 := syndrome (codeSymbols l) 2
  if s0 == 0 && s1 == 0 && s2 == 0 then .clean
  else
    match (upFrom 0 72).find? fun i => s0 != 0 && gfShift (71 - i) s0 == s1 && gfShift (2 * (71 - i)) s0 == s2 with
    | some i => .corrected (flipSymbol l i s0)
    | none => .bad

/-! ### Encryption and the integrity tag (R237, R238) -/

/-- The tweak of a line: address bits [43:6], and PART above them (R237). -/
def tweakOf (p addr : Nat) : BitVec 128 := BitVec.ofNat 128 (addr / 64 % 2 ^ 38 + p % 8 * 2 ^ 38)

/-- Metadata bits [39:32] of a line (Table 5 of chapter 8). -/
def metaByte (l : HbmLine) : Byte := BitVec.ofNat 8 (l.keyId.toNat + l.part.toNat * 32)

/-- The tag of a line for a reader or writer (R238): over the ciphertext, the tweak and the metadata byte. -/
def tagFor (l : HbmLine) (k : MemKeys) (p addr : Nat) : BitVec 32 :=
  (Config.cmac k.macKey (leBytes 64 l.data.toNat ++ leBytes 16 (tweakOf p addr).toNat ++ [metaByte l])).truncate 32

/-- 64 bytes as one number, byte 0 least significant. -/
def packLine (m : SMap Byte) : BitVec 512 := BitVec.ofNat 512 (m.foldl (fun n e => n + e.2.toNat * 256 ^ e.1) 0)

/-- The 64 bytes of a number. -/
def unpackLine (v : BitVec 512) : SMap Byte := tsetAll 0 [] ((upFrom 0 64).map fun i => (i, BitVec.ofNat 8 (v.toNat / 256 ^ i)))

/-- The keys that a controller holds for a KEY_ID, where it holds any: of the current generation, or of the one before it while it is kept
(R404). -/
def Part.keysOf (part : Part) (id : Nat) : Option MemKeys :=
  if !part.memKeys then none
  else if id = part.keyGen % 32 then some part.keys
  else if part.prevHeld && (id + 1) % 32 == part.keyGen % 32 then some part.prevKeys
  else none

/-- A line of plaintext as partition `p` stores it at an address, under its current key generation (R235 to R238). -/
def Part.sealLine (part : Part) (p addr : Nat) (plain : BitVec 512) : HbmLine :=
  let l : HbmLine := { data := Config.xts part.keys.dataKey part.keys.tweakKey (tweakOf p addr) plain
                       keyId := BitVec.ofNat 5 part.keyGen, part := BitVec.ofNat 3 p }
  encoded { l with tag := tagFor l part.keys p addr }

/-- Fresh keys drawn for a partition's current generation, with a contribution mixed in (R403, R404). -/
def State.drawKeys (s : State) (p : Nat) (mix : List Byte) : State :=
  { s with fresh := s.fresh + 3 }.modPart p fun part => { part with keys :=
    { dataKey := Config.drbg s.fresh mix, tweakKey := Config.drbg (s.fresh + 1) mix, macKey := Config.drbg (s.fresh + 2) mix } }

/-! ### Lines -/

/-- The outcome of reading a line: its bytes, or the status with which the request ends (R239, R254). -/
inductive HbmRead
  | ok (bytes : SMap Byte)
  | fail (status : Nat)
deriving DecidableEq, Repr

/-- The key and tag checks of a decoded line, and its plaintext (R238, R239); a line of zeros throughout is one of a zeroed frame, which reads as
zeros (R245; DESIGN CHOICE, entry 6). -/
def Part.openLine (part : Part) (p addr : Nat) (l : HbmLine) : HbmRead :=
  if l == {} then .ok []
  else
    match part.keysOf l.keyId.toNat with
    | none => .fail stIntegrity
    | some k =>
      if l.tag != tagFor l k p addr then .fail stIntegrity
      else .ok (unpackLine ((Config.xts k.dataKey k.tweakKey (tweakOf p addr)).symm l.data))

/-- Whether a line fails the tag check, as against the key check (R239). -/
def Part.tagFails (part : Part) (p addr : Nat) (l : HbmLine) : Bool :=
  (part.keysOf l.keyId.toNat).isSome && (match part.openLine p addr l with | .fail _ => true | .ok _ => false)

/-- The line at a place of a stack; an unlisted one holds zeros, as a zeroed frame does (R245). -/
def Stack.line (st : Stack) (f i : Nat) : HbmLine := tget {} st.lines (f * 32768 + i)

/-- A counter of 32 bits of a table raised by one. -/
def bump (m : SMap Nat) (k : Nat) : SMap Nat := tmod 0 m k satInc32

/-- The key of a row in the table of rows with corrected errors: pseudo-channel, bank and row. -/
def rowKey (pc bank row : Nat) : Nat := (pc * 64 + bank) * 24576 + row

/-- A corrected error of a line counted and the line written again as corrected (R239, R241, R242). -/
def Stack.correct (st : Stack) (line : Nat) (l : HbmLine) : Stack :=
  let x := scrubPlace line
  { st with
    lines := tset {} st.lines line l
    ce := bump st.ce (st.physical x.1.1 x.2)
    rowErrs := tmod [] st.rowErrs (rowKey x.1.1 x.1.2.1 x.1.2.2.2) fun l => addOnce l line
    hourErrs := tmod 0 st.hourErrs x.1.1 (· + 1) }

/-- What a read makes of a line as its code word decodes: an uncorrectable error fails it, a corrected line is stored again, and the line is then opened,
a failure of its tag counted (R236 to R239). -/
def Stack.readAs (st : Stack) (part : Part) (p addr line : Nat) (l : HbmLine) (d : Decoded) : Stack × HbmRead :=
  let x := scrubPlace line
  let phys := st.physical x.1.1 x.2
  let check (st : Stack) (l : HbmLine) : Stack × HbmRead :=
    (if part.tagFails p addr l then { st with tagFail := bump st.tagFail phys } else st, part.openLine p addr l)
  match d with
  | .bad => ({ st with ue := bump st.ue phys }, .fail stDataError)
  | .clean => check st l
  | .corrected l' => check (st.correct line l') l'

/-- A line of a stack read and checked, in the order of R239, for the partition and address to which it belongs: the decoder, the key, the tag. A
corrected line is written again; a failed one stays as stored. -/
def Stack.read (st : Stack) (part : Part) (p addr line : Nat) : Stack × HbmRead :=
  let l : HbmLine := tget {} st.lines line
  { st with touched := true, asleep := false }.readAs part p addr line l (decodeLine l)

/-- What an access meets at a stack (R233): changed symbols of the `n` lines from a line on, and reports of the on-die code. -/
def Stack.meet (st : Stack) (line n : Nat) (ev : HbmEvent) : Stack :=
  { st with
    lines := (ev.flips.filter fun e => decide (e.1 / 72 < n)).foldl (fun m e => tmod ({} : HbmLine) m (line + e.1 / 72) fun l => flipSymbol l (e.1 % 72) e.2) st.lines
    onDie := st.onDie + ev.onDie }

/-- The lines of an access that has met a second parity error of its command count as uncorrectable (R233). -/
def Stack.parityFails (st : Stack) (line n : Nat) : Stack :=
  (upFrom line n).foldl (fun st k =>
    let x := scrubPlace k
    { st with ue := bump st.ue (st.physical x.1.1 x.2) }) st

/-- A line of HBM read and checked for a request (R239, R243). -/
def State.readLine (s : State) (p h f i addr : Nat) : State × HbmRead :=
  if (s.stack h).st == .fenced then (s, .fail stHwFault)
  else
    let r := (s.stack h).read (s.part p) p addr (f * 32768 + i)
    (s.setStack h r.1, r.2)

/-- A line of plaintext written to HBM under the partition's current key generation (R237, R404). -/
def State.writeLine (s : State) (p h f i addr : Nat) (bytes : SMap Byte) : State :=
  s.modStack h fun st =>
    { st with touched := true, lines := tset {} st.lines (f * 32768 + i) ((s.part p).sealLine p addr (packLine bytes)) }

/-! ### Frames (R221, R245) -/

/-- The lowest number from `a` on that is not in a list, `fuel` numbers looked at. -/
def lowestFree (used : List Nat) : Nat → Nat → Nat
  | 0, a => a
  | fuel + 1, a => if a ∈ used then lowestFree used fuel (a + 1) else a

/-- The frame that a stack's allocator gives: any free one (R221; the choice is open, so it is a constant without a value). -/
def Stack.pickFrame (h : Nat) (st : Stack) : Option Nat :=
  let f := Config.frameChoice h st.used % framesPerStack
  let f := if f ∈ st.used then lowestFree st.used st.used.length 0 else f
  if f < framesPerStack && !(decide (f ∈ st.used)) then some f else none

/-- The lines of a frame removed from a table of lines. -/
def clearFrame (f : Nat) (m : SMap HbmLine) : SMap HbmLine := m.filter fun e => e.1 / 32768 != f

/-- The lines of a frame, by line number within it. -/
def frameLines (f : Nat) (m : SMap HbmLine) : SMap HbmLine :=
  (m.filter fun e => e.1 / 32768 == f).map fun e => (e.1 % 32768, e.2)

/-- A frame taken from a stack, zeroed (R245). -/
def State.takeFrame (s : State) (h f : Nat) : State :=
  s.modStack h fun st => { st with used := addOnce st.used f, lines := clearFrame f st.lines }

/-- A frame given back. -/
def State.freeFrame (s : State) (h f : Nat) : State :=
  s.modStack h fun st => { st with used := st.used.filter (· != f), lines := clearFrame f st.lines }

/-- Lines put into a frame as they stand, ciphertext and metadata unchanged (R237, R247). -/
def State.putLines (s : State) (h f : Nat) (ls : SMap HbmLine) : State :=
  s.modStack h fun st => { st with lines := ls.foldl (fun m e => tset {} m (f * 32768 + e.1) e.2) st.lines }

end Sys2Proof.Machine
end

