-- ==== Sys2Proof/Machine/Pages.lean ====
section
/-! DEFINITION. The page table (R244, R245), quotas and victims (R248, R249), migration (R246, R247), streaming windows (R252),
write-back under the step keep (R321) and its rollback (R322). -/

namespace Sys2Proof.Machine

open Sys2Proof

/-- Bytes of a page. -/
def pageBytes : Nat := 2 ^ 21
/-- Pages of a partition's range (R219). -/
def rangePages : Nat := 8388608
/-- The boundary version of a page that stood ZERO at the boundary. -/
def zeroBoundary : Nat := 23808

/-! ### Allocations and pages -/

/-- Whether an allocation holds a page. -/
def Alloc.has (a : Alloc) (pg : Nat) : Bool := decide (a.base / pageBytes ≤ pg) && decide (pg < (a.base + a.len) / pageBytes)

/-- The allocation that holds a page. -/
def Part.allocOf (part : Part) (pg : Nat) : Option Alloc := part.allocs.find? fun a => a.has pg

/-- A page's entry: an allocated page that has none stands ZERO (R248). -/
def Part.page (part : Part) (pg : Nat) : Page :=
  let e := tget {} part.pages pg
  if e.st == .unmapped && (part.allocOf pg).isSome then { e with st := .zero } else e

/-- A page's entry replaced. -/
def Part.setPage (part : Part) (pg : Nat) (e : Page) : Part := { part with pages := tset {} part.pages pg e }

/-- SAT_DIRTY set for a page (R231). -/
def Part.markDirty (part : Part) (pg : Nat) : Part := part.setPage pg { part.page pg with satDirty := true }

/-- A page's entry replaced. -/
def State.setPage (s : State) (p pg : Nat) (e : Page) : State := s.modPart p fun part => part.setPage pg e

/-- Whether a page's allocation is HELD (R248). -/
def Part.heldPage (part : Part) (pg : Nat) : Bool :=
  match part.allocOf pg with
  | some a => a.policy == 1
  | none => false

/-- Whether a page belongs to the key-value pool, which never migrates (R173). -/
def Part.poolPage (part : Part) (pg : Nat) : Bool :=
  match part.pool with
  | some k => decide (pg ∈ k.pages)
  | none => false

/-- Whether a page belongs to the satchel set (R323). -/
def Part.inSat (part : Part) (pg : Nat) : Bool :=
  match part.allocOf pg with
  | some a => decide (a.base ∈ part.satchel.set)
  | none => false

/-- Use of one of the four quotas: 0 scratch, 1 slice bays, 2 HBM frames, 3 far pages (R249). -/
def Part.useOf (part : Part) (i : Nat) : Nat := part.use.getD i 0
/-- One of the four quotas. -/
def Part.quotaOf (part : Part) (i : Nat) : Nat := part.quota.getD i 0
/-- A use raised. -/
def Part.charge (part : Part) (i n : Nat) : Part := { part with use := part.use.set i (part.useOf i + n) }
/-- A use lowered. -/
def Part.release (part : Part) (i n : Nat) : Part := { part with use := part.use.set i (part.useOf i - n) }

/-- The window of a page (R251), by number. -/
def Part.windowOf (part : Part) (pg : Nat) : Option Nat :=
  match part.image with
  | none => none
  | some im => im.windows.findIdx? fun w => decide (w.firstPage ≤ pg) && decide (pg < w.firstPage + w.pages)

/-- The present VERSION of a page's window; 0 outside every window. -/
def Part.versionOf (part : Part) (pg : Nat) : Nat :=
  match part.windowOf pg with
  | some w => tget 0 part.versions w
  | none => 0

/-- The backend of a page's allocation. -/
def Part.backendOf (part : Part) (pg : Nat) : Backend :=
  match part.allocOf pg with
  | some a => (tget none part.backends a.backend).getD {}
  | none => {}

/-! ### A page's lines in its home slice -/

/-- The lines of a slice that belong to a page. -/
def Slice.linesOf (sl : Slice) (pg : Nat) : SMap SliceLine := sl.lines.filter fun e => e.2.addr / pageBytes == pg

/-- Whether a line holds any dirty sub-line. -/
def SliceLine.anyDirty (l : SliceLine) : Bool := l.dirty.any id

/-- Whether any line of a page is dirty in its home slice. -/
def State.pageDirty (s : State) (p pg : Nat) : Bool :=
  let sl := s.slice (s.homeOfPage p pg)
  (sl.linesOf pg).any (fun e => e.2.anyDirty) || sl.wbQueue.any (fun l => l.addr / pageBytes == pg)
    || sl.wbSent.any (fun l => l.addr / pageBytes == pg)

/-- Whether a page has a request in flight or a shadow line (R248). -/
def State.pageBusy (s : State) (p pg : Nat) : Bool :=
  let sl := s.slice (s.homeOfPage p pg)
  sl.fills.any (fun f => f.addr / pageBytes == pg) || sl.held.any (fun a => a / pageBytes == pg)
    || (sl.linesOf pg).any (fun e => e.2.shadow.isSome)

/-- Whether a dirty sub-line of a page has an uncorrectable error in its home slice, so that it cannot be written back (R232). -/
def State.pageBad (s : State) (p pg : Nat) : Bool :=
  ((s.slice (s.homeOfPage p pg)).linesOf pg).any fun e => e.2.shadow.isNone && e.2.bad.any fun k => e.2.dirty.getD k false

/-- FAR_VALID of a page falls, since its HBM copy has changed (R244): its far page is held no longer (R249; DEDUCED, entry 85). -/
def Part.staleFar (part : Part) (pg : Nat) : Part :=
  let e := part.page pg
  if e.farValid then (part.release 3 1).setPage pg { e with farValid := false } else part

/-- The bytes of one sub-line of a slice line. -/
def subBytes (m : SMap Byte) (k : Nat) : SMap Byte :=
  (m.filter fun e => e.1 / 64 == k).map fun e => (e.1 % 64, e.2)

/-- Where a page's lines are written: its frame, with one given to a ZERO page, and, under the step keep, a new frame at the
first write-back of the step to a satchel-set page (R321). `old` tells that the line was dirty before the step began, so that it
belongs to the boundary version (R322, R57). Answers the frame, and `none` where the stack has none left. -/
def State.writeFrame (s : State) (p pg : Nat) (old : Bool) : State × Option Nat :=
  let part := s.part p
  let e := part.page pg
  let h := s.stackOfPage p pg
  match (s.stack h).pickFrame h with
  | none =>
    match e.st, old, e.boundary with
    | .hbm, true, some b => if b = zeroBoundary then (s, none) else (s, some b)
    | .hbm, _, _ => (s, some e.frame)
    | _, _, _ => (s, none)
  | some f =>
    if e.st == .hbm || e.st == .out then
      match e.boundary with
      | some b =>
        if !old then (s, some e.frame)
        else if b = zeroBoundary then
          let s := s.takeFrame h f
          (s.setPage p pg { e with boundary := some f }, some f)
        else (s, some b)
      | none =>
        if !old && part.job == .running && part.inSat pg then
          let s := s.takeFrame h f
          (s.setPage p pg { e with boundary := some e.frame, frame := f, copied := [], copyAll := false }, some f)
        else (s, some e.frame)
    else
      let s := s.takeFrame h f
      let keep := !old && part.job == .running && part.inSat pg
      let s := if part.heldPage pg then s else s.modPart p fun part => part.charge 2 1
      (s.setPage p pg { e with st := .hbm, frame := f, boundary := if keep then some zeroBoundary else none, copied := [], copyAll := false },
       some f)

/-- The dirty sub-lines of a line of a slice written to HBM (R225); FAR_VALID falls, since the HBM copy has changed. -/
def State.writeSubs (s : State) (p : Nat) (l : SliceLine) : State :=
  let pg := l.addr / pageBytes
  let h := s.stackOfPage p pg
  match s.writeFrame p pg l.old with
  | (s, none) => s
  | (s, some f) =>
    let first := l.addr % pageBytes / 64
    let subs := (upFrom 0 4).filter fun k => l.dirty.getD k false
    let s := subs.foldl (fun s k => s.writeLine p h f (first + k) (l.addr + 64 * k) (subBytes l.bytes k)) s
    let e := (s.part p).page pg
    let e := if f = e.frame then { e with copied := subs.foldl (fun c k => addOnce c (first + k)) e.copied } else e
    (s.setPage p pg { e with touched := s.care.windows }).modPart p fun part => part.staleFar pg

/-- A line of a page in HBM read (R239), from the boundary version while the new frame has not got it (R321). -/
def State.readPageLine (s : State) (p pg i : Nat) : State × HbmRead :=
  let e := (s.part p).page pg
  let h := s.stackOfPage p pg
  let addr := pg * pageBytes + i * 64
  match e.boundary with
  | some b =>
    if e.copyAll || decide (i ∈ e.copied) then s.readLine p h e.frame i addr
    else if b = zeroBoundary then (s, .ok [])
    else s.readLine p h b i addr
  | none => s.readLine p h e.frame i addr

/-- The 256 bytes of a slice line read from HBM: the first failure of its four lines ends the request. -/
def State.readSliceLine (s : State) (p addr : Nat) : State × HbmRead :=
  let pg := addr / pageBytes
  let first := addr % pageBytes / 64
  (upFrom 0 4).foldl (fun (acc : State × HbmRead) k =>
    match acc.2 with
    | .fail _ => acc
    | .ok b =>
      match acc.1.readPageLine p pg (first + k) with
      | (s, .ok c) => (s, .ok (b ++ c.map fun e => (64 * k + e.1, e.2)))
      | (s, .fail c) => (s, .fail c)) (s, .ok [])

/-- The dirty lines of a page marked to be written back in the next occurrences of its home slice (R229, R231, R247, R250). -/
def State.flushPage (s : State) (p pg : Nat) : State :=
  if s.pageDirty p pg then
    s.modSlice (s.homeOfPage p pg) fun sl => { sl with lines := sl.lines.map fun e =>
      if e.2.addr / pageBytes == pg && e.2.shadow.isNone && e.2.anyDirty then (e.1, { e.2 with flush := true }) else e }
  else s

/-- The lines of a page dropped from its home slice without a write-back (R245, R247, R252): the fair ones, and with `all` its shadow lines too. -/
def State.dropPage (s : State) (p pg : Nat) (all : Bool) : State :=
  s.modSlice (s.homeOfPage p pg) fun sl =>
    { sl with
      lines := sl.lines.filter fun e => e.2.addr / pageBytes != pg || (e.2.shadow.isSome && !all)
      wbQueue := sl.wbQueue.filter fun l => l.addr / pageBytes != pg
      wbSent := sl.wbSent.filter fun l => l.addr / pageBytes != pg }

/-! ### Migration (R247) and frames under the quota (R248) -/

/-- Whether a page of a partition is in transfer, inwards or outwards. -/
def Part.inTransfer (part : Part) (pg : Nat) (inwards : Bool) : Bool := part.transfers.any fun t => t.page == pg && t.inward == inwards

/-- A page's transfer struck from those in progress. -/
def Part.dropTransfer (part : Part) (pg : Nat) : Part := { part with transfers := part.transfers.filter fun t => t.page != pg }

/-- Requests parked on a page go on in arrival order (R247): each asks for its miss slot again, before the slice's other requests. -/
def State.unpark (s : State) (p pg : Nat) : State :=
  s.modSlice (s.homeOfPage p pg) fun sl =>
    let mine (f : Fill) : Bool := f.parked && f.addr / pageBytes == pg
    { sl with fills := ((sl.fills.filter mine).map fun f => { f with parked := false, sent := false }) ++ sl.fills.filter fun f => !mine f }

/-- Pages of the windows that the open section names as needed (R251). -/
def Part.needed (part : Part) (pg : Nat) : Bool :=
  match part.windowOf pg with
  | some w => part.sect == .open && decide (w ∈ part.sec.needs)
  | none => false

/-- Bytes that a far page takes on its backend (R246). -/
def farBytes : Nat := 2359296

/-- Whether a page has a far page on its backend (R246, R249). -/
def hasFar (e : Nat × Page) : Bool :=
  e.2.farValid || e.2.st == .far || e.2.st == .inn || e.2.st == .out

/-- The place on its backend that a page's far page would take: the lowest that is free in the region (which one is open: DESIGN CHOICE, entry 86). -/
def Part.freeFar (part : Part) (pg : Nat) : Option Nat :=
  match part.allocOf pg with
  | none => none
  | some a =>
    let used := (part.pages.filter fun e => hasFar e && (match part.allocOf e.1 with | some b => b.backend == a.backend | none => false)).map
      fun e => e.2.farSlot
    let k := lowestFree used used.length 0
    if k < (part.backendOf pg).len / farBytes then some k else none

/-- Whether a page may take a far page: within the far-tier quota (R248, R249) and within its backend's region (R246). -/
def Part.farRoom (part : Part) (pg : Nat) : Bool := decide (part.useOf 3 < part.quotaOf 3) && (part.freeFar pg).isSome

/-- The page taken out when the HBM quota is full (R248): of those that may go, the one least recently touched, then the lowest. -/
def State.victim (s : State) (p : Nat) : Option Nat :=
  let part := s.part p
  let ok (x : Nat × Page) : Bool :=
    x.2.st == .hbm && !part.heldPage x.1 && !part.poolPage x.1 && !part.needed x.1 && !s.pageBusy p x.1
      && ((x.2.farValid && !s.pageDirty p x.1) || part.farRoom x.1)
  let l := part.pages.filter ok
  let home (x : Nat × Page) : Bool := match part.allocOf x.1 with | some a => a.policy == 2 | none => false
  let l := if l.any home then l.filter home else l
  match l with
  | [] => none
  | x :: r => some (r.foldl (fun (b : Nat × Page) y => if y.2.touched < b.2.touched then y else b) x).1

/-- The packets of the transfer of a far page in a region over the links: one for each 4 KiB, at its offset in the region (R288). -/
def pagePackets (cls slot target part region : Nat) (node : Bool) (ls : SMap HbmLine) : List Packet :=
  (upFrom 0 512).map fun k =>
    { cls := cls, flits := if cls = 0x03 then 19 else 1, dest := if node then target % 2 ^ 15 + 2 ^ 15 else target, part := part,
      tag := slot % 2 ^ 16, addr := slot * pageBytes + 4096 * k,
      arg := BitVec.ofNat 64 (region % 2 ^ 16 + 4096 * 2 ^ 16), lines := (ls.filter fun e => e.1 / 64 == k) }

/-- Packets of a transfer queued towards a backend's device or node (R246). -/
def State.sendFar (s : State) (b : Backend) (ps : List Packet) : State :=
  let l := if b.kind = 2 then s.portToNode b.target else s.portTo b.target
  match l with
  | none => s
  | some l => ps.foldl (fun s k => s.queuePacket l k) s

/-- The lines of a page as they stand in HBM, boundary lines in the places not yet written (R321). -/
def State.pageLines (s : State) (p pg : Nat) : SMap HbmLine :=
  let e := (s.part p).page pg
  let st := s.stack (s.stackOfPage p pg)
  let now := frameLines e.frame st.lines
  match e.boundary with
  | some b => if e.copyAll || b = zeroBoundary then now
    else (frameLines b st.lines).foldl (fun m x => if x.1 ∈ e.copied then m else tset {} m x.1 x.2) now
  | none => now

/-- A page's lines sent to its far page (R246, R247). -/
def State.sendOut (s : State) (p pg : Nat) : State :=
  let b := (s.part p).backendOf pg
  let ls := s.pageLines p pg
  let k := ((s.part p).page pg).farSlot
  if b.kind = 0 then s.put (.farPage p pg (b.base + k * farBytes) ls)
  else s.sendFar b (pagePackets 0x03 k b.target p b.region (b.kind == 2) ls)

/-- A transfer in asked of the page's far page (R246, R247). -/
def State.askIn (s : State) (p pg : Nat) : State :=
  let b := (s.part p).backendOf pg
  let k := ((s.part p).page pg).farSlot
  if b.kind = 0 then s.put (.hostRead (b.base + k * farBytes) farBytes)
  else s.sendFar b (pagePackets 0x01 k b.target p b.region (b.kind == 2) [])

/-- A far page taken for a page that has none (R249). -/
def Part.takeFar (part : Part) (pg : Nat) : Part :=
  let k := (part.freeFar pg).getD 0
  (part.charge 3 1).setPage pg { part.page pg with farSlot := k }

/-- A page goes to its far page, and is OUT until the backend has it (R247). -/
def State.beginSend (s : State) (p pg : Nat) : State :=
  let s := s.modPart p fun part =>
    { part with transfers := (part.transfers.filter fun t => t.page != pg) ++ [{ page := pg, inward := false }] }
  (s.setPage p pg { (s.part p).page pg with st := .out, started := s.tick, tries := 0, arrived := [] }).sendOut p pg

/-- A page whose lines have all been written back leaves its home slice: with FAR_VALID its frame is freed at once, and otherwise it goes to its
backend (R247). -/
def State.drained (s : State) (p pg : Nat) : State :=
  let s := s.dropPage p pg false
  let e := (s.part p).page pg
  if e.farValid then
    let s := s.freeFrame (s.stackOfPage p pg) e.frame
    ((s.modPart p fun part => (part.dropTransfer pg).release 2 1).setPage p pg { e with st := .far, frame := 0 }).unpark p pg
  else s.beginSend p pg

/-- A page taken out (R247): OUT from now on, with its dirty lines to be written back first; unless its far copy holds its data it takes a far page
(R248, R249). -/
def State.startOut (s : State) (p pg : Nat) : State :=
  let s := if s.pageDirty p pg then s.modPart p fun part => part.staleFar pg else s
  let s := if ((s.part p).page pg).farValid then s else s.modPart p fun part => part.takeFar pg
  let s := s.flushPage p pg
  let s := s.modPart p fun part => { part with transfers := part.transfers ++ [{ page := pg, inward := false, drain := true }] }
  let s := s.setPage p pg { (s.part p).page pg with st := .out, started := s.tick, tries := 0 }
  if s.pageDirty p pg then s else s.drained p pg

/-- What a demand for a frame comes to (R248). -/
inductive FrameRes
  | got (s : State) (f : Nat)
  | wait (s : State)
  | fail (status : Nat)

/-- HBM frames that a partition's demands may bring its use to: its quota, and while a job runs no more than the job's declared demand beyond what was
charged when it was loaded (R249, R275). -/
def Part.frameLimit (part : Part) : Nat :=
  match part.image with
  | some im => if part.job == .running then min (part.quotaOf 2) (part.loadUse + im.demand) else part.quotaOf 2
  | none => part.quotaOf 2

/-- A frame for a page of a partition under its HBM quota; where the quota is full a victim goes out first, and the demand waits
until its frame is free (R248). -/
def State.needFrame (s : State) (p pg : Nat) : FrameRes :=
  let part := s.part p
  let h := s.stackOfPage p pg
  let take (s : State) : FrameRes :=
    match (s.stack h).pickFrame h with
    | none => .fail stNoMemory
    | some f =>
      let s := s.takeFrame h f
      .got (if part.heldPage pg then s else s.modPart p fun part => part.charge 2 1) f
  if part.heldPage pg || decide (part.useOf 2 < part.frameLimit) then take s
  else if part.transfers.any (fun t => !t.inward) then .wait s
  else
    match s.victim p with
    | none => .fail stNoMemory
    | some v =>
      if 16 ≤ part.transfers.length then .wait s
      else
        let s := s.startOut p v
        if ((s.part p).page v).st == .far then take s else .wait s

/-- A page brought in (R247), on demand or by a prefetch: a frame is taken, the page is IN and records its window's version (R252). -/
def State.startIn (s : State) (p pg : Nat) (prefetch : Bool) : FrameRes :=
  if 16 ≤ (s.part p).transfers.length then .wait s
  else
    match s.needFrame p pg with
    | .got s f =>
      let part := s.part p
      let s := s.setPage p pg { part.page pg with
        st := .inn, frame := f, version := part.versionOf pg, started := s.tick, tries := 0, arrived := [] }
      let s := s.modPart p fun part => { part with transfers := part.transfers ++ [{ page := pg, prefetch := prefetch }] }
      .got (s.askIn p pg) f
    | r => r

/-- What a request to a page meets (Table 7 of chapter 8). -/
inductive PageRes
  /-- the page is in HBM. -/
  | frame (s : State)
  /-- the page reads as zeros and takes a frame on its first write. -/
  | zeros (s : State)
  /-- the request waits. -/
  | wait (s : State)
  /-- the page is a hole under a pin window. -/
  | pin
  /-- the request ends with a status. -/
  | fail (status : Nat)

/-- A request to a page, for the data in it. A stale copy is dropped first (R252); a FAR page starts to come in (R247). -/
def State.touchPage (s : State) (p pg : Nat) : PageRes :=
  let part := s.part p
  let e := part.page pg
  let bring (s : State) : PageRes :=
    match s.startIn p pg false with
    | .got s _ => .wait s
    | .wait s => .wait s
    | .fail c => .fail c
  match e.st with
  | .unmapped => .fail stNoPage
  | .zero => .zeros s
  | .pin => .pin
  | .inn => .wait s
  | .out => .wait s
  | .far => bring s
  | .hbm =>
    if (part.windowOf pg).isSome && e.version != part.versionOf pg && e.farValid && !s.pageDirty p pg then
      let s := s.dropPage p pg false
      let s := s.freeFrame (s.stackOfPage p pg) e.frame
      let s := (s.modPart p fun part => part.release 2 1).setPage p pg { e with st := .far, frame := 0 }
      bring s
    else .frame (s.setPage p pg { e with touched := s.care.windows })

/-! ### The page table (R245) -/

/-- Parts of 262,144 pages of a partition's range that `n` pages from `first` on touch and that have no frame of the page table yet (R245). -/
def Part.newTables (part : Part) (first n : Nat) : List Nat :=
  (upFrom (first / 262144) (if n = 0 then 0 else (first + n - 1) / 262144 + 1 - first / 262144)).filter fun k => (tget none part.tables k).isNone

/-- Frames taken and charged for parts of the page table; none where a stack has none left. Part `k` lies on stack index `k` modulo their number
(DESIGN CHOICE, entry 88). -/
def State.takeTables (s : State) (p : Nat) : List Nat → Option State
  | [] => some s
  | k :: l =>
    let hs := s.stacksOf p
    let h := hs.getD (k % hs.length) 0
    match (s.stack h).pickFrame h with
    | none => none
    | some f => ((s.takeFrame h f).modPart p fun part => { part.charge 2 1 with tables := tset none part.tables k (some (h, f)) }).takeTables p l

/-! ### The step keep at boundaries and ends (R321, R322) -/

/-- The boundary version of a page released (R321): the lines not yet written are copied across first. -/
def State.releaseKeep (s : State) (p pg : Nat) : State :=
  let e := (s.part p).page pg
  match e.boundary with
  | none => s
  | some b =>
    let h := s.stackOfPage p pg
    let ls := s.pageLines p pg
    let s := s.putLines h e.frame ls
    let s := if b = zeroBoundary then s else s.freeFrame h b
    s.setPage p pg { e with boundary := none, copied := [], copyAll := false }

/-- The lines of a page that stay in a slice when it returns to the boundary (R322): those dirty since before the step, whose dirty sub-lines hold the
boundary's data. -/
def SliceLine.atBoundary (l : SliceLine) : Option SliceLine :=
  if l.shadow.isNone && l.old && l.anyDirty then
    some { l with valid := l.dirty, bytes := l.bytes.filter fun e => l.dirty.getD (e.1 / 64) false }
  else none

/-- Every satchel-set page returned to its boundary version (R322): lines that the step made dirty, and those that may have been filled from the newer
frame, are dropped, lines dirty since before it stay, and the newer frame is freed. -/
def State.rollbackPage (s : State) (p pg : Nat) : State :=
  let mine (l : SliceLine) : Bool := l.addr / pageBytes == pg
  let s := s.modSlice (s.homeOfPage p pg) fun sl =>
    { sl with
      lines := sl.lines.filterMap fun e => if mine e.2 then e.2.atBoundary.map fun l => (e.1, l) else some e
      wbQueue := sl.wbQueue.filter fun l => !mine l || l.old
      wbSent := sl.wbSent.filter fun l => !mine l || l.old }
  let e := (s.part p).page pg
  match e.boundary with
  | none => s
  | some b =>
    let h := s.stackOfPage p pg
    let s := s.freeFrame h e.frame
    let s := if b = zeroBoundary then
        let s := if (s.part p).heldPage pg then s else s.modPart p fun part => part.release 2 1
        s.setPage p pg { e with st := .zero, frame := 0, boundary := none, copied := [], copyAll := false }
      else s.setPage p pg { e with frame := b, boundary := none, copied := [], copyAll := false }
    s.modPart p fun part => part.staleFar pg

/-- The satchel-set pages of a partition that its table lists. -/
def Part.satPages (part : Part) : List Nat := (part.pages.map Prod.fst).filter part.inSat

/-- R322 for a partition. -/
def State.rollback (s : State) (p : Nat) : State := ((s.part p).satPages).foldl (fun s pg => s.rollbackPage p pg) s

/-- Whether the lines of every boundary version of a partition have been copied where they are still needed (R321). -/
def Part.linesCopied (part : Part) : Bool :=
  part.pages.all fun e => match e.2.boundary with | some b => b == zeroBoundary || e.2.copyAll | none => true

end Sys2Proof.Machine
end

