-- ==== Sys2Proof/Machine/Slices.lean ====
section
/-! DEFINITION. The shared slices: bays and ways (R224, R225), reads and writes of units (R225, R227), shadow lines (R230) and pin
windows (R223). -/

namespace Sys2Proof.Machine

open Sys2Proof

/-! ### Bays (R224) -/

/-- The lowest-numbered slice of the partition that owns slice `k`. -/
def State.firstSlice (s : State) (k : Nat) : Nat := 32 * s.partOfSlice k

/-- Whether a bay of a slice is reserved: for a cloakroom or for the norm table. -/
def State.reservedBay (s : State) (k b : Nat) : Bool := b == 47 && (k % 8 == 7 || k == s.firstSlice k)

/-- The cache bays of a slice, in ascending order. -/
def State.cacheBays (s : State) (k : Nat) : List Nat :=
  (upFrom 0 48).filter fun b => !s.reservedBay k b && !(decide (b ∈ (s.slice k).pinBays))

/-- The set of an address (Table 1 of chapter 8). -/
def setOf (a : Nat) : Nat := a / 256 % 256
/-- The address of the line that holds an address. -/
def lineOf (a : Nat) : Nat := a / 256 * 256

/-- Shadow lines that a slice holds. -/
def Slice.shadows (sl : Slice) : Nat := (sl.lines.filter fun e => e.2.shadow.isSome).length

/-- Write-back credits that a slice still holds of the eight its edge router grants (R229). -/
def Slice.credits (sl : Slice) : Nat := 8 - (sl.wbQueue.length + sl.wbSent.length + sl.owed)

/-- The fair line of an address, with its place (bay × 256 + set). -/
def Slice.fair (sl : Slice) (a : Nat) : Option (Nat × SliceLine) := sl.lines.find? fun e => e.2.addr == lineOf a && e.2.shadow.isNone

/-- The shadow line of an address and a group. -/
def Slice.shadowOf (sl : Slice) (a g : Nat) : Option (Nat × SliceLine) :=
  sl.lines.find? fun e => e.2.addr == lineOf a && e.2.shadow == some g

/-- A line put at a place. -/
def Slice.put (sl : Slice) (k : Nat) (l : SliceLine) : Slice := { sl with lines := tset {} sl.lines k { l with used := sl.clock }, clock := sl.clock + 1 }

/-- Whether a dirty sub-line of a line has an uncorrectable error, so that the line cannot be written back (R232). -/
def SliceLine.dirtyBad (l : SliceLine) : Bool := l.bad.any fun k => l.dirty.getD k false

/-- Whether a line may give up its way (R225): it has no fill in flight, neither it nor its address holds a shadow, and no write to it is held. -/
def Slice.mayGo (sl : Slice) (l : SliceLine) : Bool :=
  l.shadow.isNone && !sl.fills.any (fun f => f.addr == l.addr) && !sl.lines.any (fun e => e.2.addr == l.addr && e.2.shadow.isSome)
    && !decide (l.addr ∈ sl.held)

/-- What asking for a way comes to: a place, with the victim on its way out, no way, no write-back credit for the victim, or an uncorrectable
error in it (R227, R232). -/
inductive WayRes
  | got (place : Nat) (sl : Slice)
  | noWay
  | noCredit
  | bad

/-- A way of a set for a new line (R225): a free one, or the least recently used that may go, the lower bay on a tie; a dirty
victim needs a write-back credit and joins the write-back queue. An access of the host waits for no credit (R229; entry 87). -/
def Slice.takeWay (sl : Slice) (bays : List Nat) (set : Nat) (host : Bool) : WayRes :=
  match bays.find? fun b => !(sl.lines.any fun e => e.1 == b * 256 + set) with
  | some b => .got (b * 256 + set) sl
  | none =>
    match sl.lines.filter fun e => e.1 % 256 == set && decide (e.1 / 256 ∈ bays) && sl.mayGo e.2 with
    | [] => .noWay
    | x :: r =>
      let v := r.foldl (fun (b : Nat × SliceLine) y => if y.2.used < b.2.used then y else b) x
      let rest := sl.lines.filter fun e => e.1 != v.1
      if !v.2.anyDirty then .got v.1 { sl with lines := rest }
      else if v.2.dirtyBad then .bad
      else if !host && sl.credits == 0 then .noCredit
      else .got v.1 { sl with lines := rest, wbQueue := sl.wbQueue ++ [v.2] }

/-- A line's dirty sub-lines put on their way back ahead of a write to it, which leaves it clean (R231, R321). -/
def Slice.sendOld (sl : Slice) (k : Nat) (l : SliceLine) : Slice :=
  { sl with wbQueue := sl.wbQueue ++ [l]
            lines := tset {} sl.lines k { l with dirty := [false, false, false, false], old := false, flush := false } }

/-! ### Pin windows (R223) -/

/-- The pin window of an image that holds an address. -/
def Part.pinOf (part : Part) (a : Nat) : Option PinWindow :=
  match part.image with
  | none => none
  | some im => im.pins.find? fun w => decide (w.base ≤ a) && decide (a < w.base + w.bays * 65536)

/-- The address within a window at which a unit of a stream in it is taken. -/
def PinWindowAt (w : PinWindow) (a : Nat) : Nat := w.base + ((a + 2 ^ 44 - w.base) % 2 ^ 44) % (w.bays * 65536)

/-- The slice byte that holds an address of a window. -/
def pinByte (w : PinWindow) (a : Nat) : Nat := w.firstBay * 65536 + (a - w.base)

/-! ### Reading -/

/-- The line from which a reader who sees the drafts of `view` takes sub-line `k` (R230). -/
def Slice.subLine (sl : Slice) (view : List Nat) (a k : Nat) : Option SliceLine :=
  match sl.lines.find? fun e => e.2.addr == lineOf a && e.2.valid.getD k false
      && (match e.2.shadow with | some g => decide (g ∈ view) | none => false) with
  | some e => some e.2
  | none => match sl.fair a with
    | some e => if e.2.valid.getD k false then some e.2 else none
    | none => none

/-- `n` bytes of a slice from address `a` on, within one line, for a reader who sees the drafts of `view`; none where a sub-line
is not valid. -/
def Slice.readBytes (sl : Slice) (view : List Nat) (a : Nat) : Nat → Option (List Byte)
  | 0 => some []
  | n + 1 =>
    match sl.subLine view a (a % 256 / 64), sl.readBytes view (a + 1) n with
    | some l, some r => some (tget 0 l.bytes (a % 256) :: r)
    | _, _ => none

/-- `n` bytes of a pin window: a shadow's, where the reader sees one, or the window's own. -/
def Slice.readPin (sl : Slice) (view : List Nat) (w : PinWindow) (a : Nat) : Nat → List Byte
  | 0 => []
  | n + 1 =>
    (match sl.lines.find? fun e => e.2.addr == lineOf a && e.2.valid.getD (a % 256 / 64) false
        && (match e.2.shadow with | some g => decide (g ∈ view) | none => false) with
      | some e => tget 0 e.2.bytes (a % 256)
      | none => tget 0 sl.pin (pinByte w a)) :: sl.readPin view w (a + 1) n

/-- Whether a reader who sees the drafts of `view` meets an uncorrectable error in the `n` sub-lines of a slice from address `a` on (R232). -/
def Slice.badAt (sl : Slice) (view : List Nat) (a : Nat) : Nat → Bool
  | 0 => false
  | n + 1 =>
    (match sl.subLine view a (a % 256 / 64) with
      | some l => decide (a % 256 / 64 ∈ l.bad)
      | none => false) || sl.badAt view (a + 64) n

/-- The same for a pin window (R232). -/
def Slice.pinBadAt (sl : Slice) (view : List Nat) (w : PinWindow) (a : Nat) : Nat → Bool
  | 0 => false
  | n + 1 =>
    (match sl.lines.find? fun e => e.2.addr == lineOf a && e.2.valid.getD (a % 256 / 64) false
        && (match e.2.shadow with | some g => decide (g ∈ view) | none => false) with
      | some e => decide (a % 256 / 64 ∈ e.2.bad)
      | none => decide (pinByte w a / 64 ∈ sl.pinBad)) || sl.pinBadAt view w (a + 64) n

/-- What a read of a unit meets in a slice (R232): 1 an error that is corrected and counted, 2 one that is not, in the unit's first sub-line. -/
def Slice.meet (sl : Slice) (view : List Nat) (a err : Nat) : Slice :=
  if err = 1 then { sl with counts := bump sl.counts 5 }
  else if err = 2 then
    match sl.subLine view a (a % 256 / 64) with
    | some l => { sl with lines := sl.lines.map fun e =>
        if e.2.addr = l.addr && e.2.shadow == l.shadow then (e.1, { e.2 with bad := addOnce e.2.bad (a % 256 / 64) }) else e }
    | none => sl
  else sl

/-- The same in a pin window. -/
def Slice.meetPin (sl : Slice) (w : PinWindow) (a err : Nat) : Slice :=
  if err = 1 then { sl with counts := bump sl.counts 5 }
  else if err = 2 then { sl with pinBad := addOnce sl.pinBad (pinByte w a / 64) }
  else sl

/-- A clean line in which a unit of two sub-lines meets an uncorrectable error invalidated, to be filled again (R232). -/
def Slice.refill (sl : Slice) (view : List Nat) (a : Nat) : Slice :=
  match sl.fair a with
  | some e =>
    if sl.badAt view a 2 && !e.2.bad.isEmpty && !e.2.anyDirty then
      { sl with lines := sl.lines.filter (fun x => x.1 != e.1), counts := bump sl.counts 6 }
    else sl
  | none => sl

/-- Whether a fill has installed the line of an address in this very slot (R227). -/
def Slice.fresh (sl : Slice) (t a : Nat) : Bool := match sl.fair a with | some e => e.2.filled == t + 1 | none => false

/-- The stored types of the `n` words from address `a` on, for a reader who sees the drafts of `view` (R54). -/
def State.memTypeAt (s : State) (p : Nat) (sl : Slice) (view : List Nat) (a : Nat) : Nat → List (Option SType)
  | 0 => []
  | n + 1 =>
    (match sl.lines.find? fun e => e.2.addr == lineOf a && (tget none e.2.types (a % 256 / 16)).isSome
        && (match e.2.shadow with | some g => decide (g ∈ view) | none => false) with
      | some e => (tget none e.2.types (a % 256 / 16)).getD none
      | none => tget none (s.part p).memTypes (a / 16)) :: s.memTypeAt p sl view (a + 16) n

/-- A use of a line noted for replacement (R225). -/
def Slice.use (sl : Slice) (a : Nat) : Slice :=
  match sl.fair a with
  | some e => sl.put e.1 e.2
  | none => sl

/-! ### Writing -/

/-- Bytes written into a line, whose sub-lines become valid and dirty. -/
def SliceLine.write (l : SliceLine) (a : Nat) (b : List Byte) : SliceLine :=
  let touched (k : Nat) : Bool := decide (a % 256 / 64 ≤ k) && decide (k ≤ (a % 256 + b.length - 1) / 64)
  { l with bytes := tsetAll 0 l.bytes ((upFrom (a % 256) b.length).zip b)
           valid := (upFrom 0 4).map fun k => l.valid.getD k false || touched k
           dirty := (upFrom 0 4).map fun k => l.dirty.getD k false || touched k
           bad := l.bad.filter fun k => !touched k }

/-- Stored types written into a shadow line. -/
def SliceLine.writeTypes (l : SliceLine) (a : Nat) (ts : List (Option SType)) : SliceLine :=
  { l with types := tsetAll none l.types ((upFrom (a % 256 / 16) ts.length).zip (ts.map some)) }

/-- What a write into a slice comes to: done, held as a slice miss, held for draft space (R227, R230), or ended on an uncorrectable error in the
line that would have to make room (R232). -/
inductive StoreRes
  | done (sl : Slice)
  | miss
  | space
  | bad

/-- A line put at a way that has been asked for; a draft that finds no way waits for draft space (R227, R230). -/
def WayRes.store (r : WayRes) (draft : Bool) (l : SliceLine) : StoreRes :=
  match r with
  | .got k sl => .done (sl.put k l)
  | .noWay => if draft then .space else .miss
  | .noCredit => .miss
  | .bad => .bad

/-- A write of bytes of whole sub-lines into a slice, by a draft of a group or fair (R225, R230). `keep` tells that the page belongs
to a satchel set, so that a line dirty since before the step is first written back (R231, R322). `pin` gives the window when the
address lies in one; `host` marks an access that no job makes. -/
def Slice.store (sl : Slice) (bays : List Nat) (a : Nat) (b : List Byte) (ts : List (Option SType)) (group : Option Nat) (keep : Bool)
    (pin : Option PinWindow) (host : Bool) : StoreRes :=
  let other := sl.lines.any fun e => e.2.addr == lineOf a && e.2.shadow.isSome && e.2.shadow != group
  if other then .space
  else
    match group, pin with
    | some g, _ =>
      match sl.shadowOf a g with
      | some e => .done (sl.put e.1 ((e.2.write a b).writeTypes a ts))
      | none =>
        if 1024 ≤ sl.shadows then .space
        else (sl.takeWay bays (setOf a) host).store true ((({ addr := lineOf a, shadow := some g } : SliceLine).write a b).writeTypes a ts)
    | none, some w => .done { sl with pin := tsetAll 0 sl.pin ((upFrom (pinByte w a) b.length).zip b)
                                      pinWritten := ((upFrom a b.length).map fun x => pinByte w x / 64).foldl addOnce sl.pinWritten
                                      pinBad := sl.pinBad.filter fun k => decide (k < pinByte w a / 64) || decide (pinByte w (a + b.length - 1) / 64 < k) }
    | none, none =>
      match sl.fair a with
      | some e =>
        if keep && e.2.old && e.2.anyDirty then
          if e.2.dirtyBad then .bad
          else if !host && sl.credits == 0 then .miss
          else .done ((sl.sendOld e.1 e.2).put e.1 ({ e.2 with dirty := [false, false, false, false], old := false, flush := false }.write a b))
        else .done (sl.put e.1 (e.2.write a b))
      | none => (sl.takeWay bays (setOf a) host).store false (({ addr := lineOf a } : SliceLine).write a b)

/-! ### Verdicts (R230) -/

/-- A committed shadow's sub-lines joined to the fair line of its address: the superseded fair sub-lines are gone. -/
def joinShadow (f sh : SliceLine) : SliceLine :=
  { f with bytes := (sh.bytes.filter fun e => sh.valid.getD (e.1 / 64) false).foldl (fun m e => tset 0 m e.1 e.2)
             (f.bytes.filter fun e => !sh.valid.getD (e.1 / 64) false)
           valid := (upFrom 0 4).map fun k => f.valid.getD k false || sh.valid.getD k false
           dirty := (upFrom 0 4).map fun k => f.dirty.getD k false || sh.dirty.getD k false
           bad := (f.bad.filter fun k => !sh.valid.getD k false) ++ sh.bad }

/-- The pieces of its slice that a shadow line of a pin window's address has written. -/
def pinPieces (w : PinWindow) (sh : SliceLine) : List Nat :=
  ((upFrom 0 4).filter fun k => sh.valid.getD k false).map fun k => pinByte w (sh.addr + 64 * k) / 64

/-- A committed shadow of a pin window's address joined to the window's bytes. -/
def pinShadow (w : PinWindow) (sh : SliceLine) (pin : SMap Byte) : SMap Byte :=
  let kept := pin.filter fun x => !((upFrom 0 4).any fun k => sh.valid.getD k false && x.1 / 64 == pinByte w (sh.addr + 64 * k) / 64)
  (sh.bytes.filter fun x => sh.valid.getD (x.1 / 64) false).foldl (fun m x => tset 0 m (pinByte w (sh.addr + x.1)) x.2) kept

/-- A committed shadow line of cached memory: it joins the fair line of its address, whose boundary data goes back first (R231), or becomes it. -/
def Slice.joinFair (sl : Slice) (part : Part) (k : Nat) (sh : SliceLine) : Slice :=
  match sl.fair sh.addr with
  | some f =>
    let first := part.inSat (sh.addr / pageBytes) && f.2.old && f.2.anyDirty && !f.2.dirtyBad
    let sl := if first then sl.sendOld f.1 f.2 else sl
    { sl with lines := tmod {} sl.lines f.1 fun l => joinShadow l sh }
  | none => { sl with lines := tset {} sl.lines k { sh with shadow := none, types := [] } }

/-- A verdict applied in a slice: on a commit the group's shadows become fair, dirty lines, and those of a pin window its contents;
on a discard they are gone. -/
def Slice.verdict (sl : Slice) (part : Part) (g : Nat) (commit : Bool) : Slice :=
  let mine := sl.lines.filter fun e => e.2.shadow == some g
  let sl := { sl with lines := sl.lines.filter fun e => e.2.shadow != some g }
  if commit then
    mine.foldl (fun (sl : Slice) e =>
      match part.pinOf e.2.addr with
      | some w => { sl with pin := pinShadow w e.2 sl.pin, pinWritten := (pinPieces w e.2).foldl addOnce sl.pinWritten }
      | none => sl.joinFair part e.1 e.2) sl
  else sl

/-- Stored types of a committed shadow line, which hold for memory until the step ends (R54). -/
def Part.joinTypes (part : Part) (l : SliceLine) : Part :=
  { part with memTypes := l.types.foldl (fun m e => tset none m (l.addr / 16 + e.1) (e.2.getD none)) part.memTypes }

/-- One verdict applied in a slice, with the types and the SAT_DIRTY bits that its lines bring (R230, R231). -/
def State.applyVerdict (s : State) (k : Nat) (v : Nat × Bool) : State :=
  let p := s.partOfSlice k
  let sl := s.slice k
  let mine := (sl.lines.filter fun e => e.2.shadow == some v.1).map Prod.snd
  let s := s.setSlice k (sl.verdict (s.part p) v.1 v.2)
  if v.2 then s.modPart p fun part => mine.foldl (fun (pt : Part) l =>
    let pt := pt.joinTypes l
    if (pt.pinOf l.addr).isSome then pt else pt.markDirty (l.addr / pageBytes)) part
  else s

/-- The verdicts that have reached a slice applied, as they are before it serves any later access (R230). -/
def State.settleSlice (s : State) (k : Nat) : State :=
  match (s.slice k).inbox with
  | [] => s
  | l => (l.foldl (fun s v => s.applyVerdict k v) s).modSlice k fun sl => { sl with inbox := [], applied := sl.applied ++ l }

end Sys2Proof.Machine
end

