-- ==== Sys2Proof/Machine/EndStep.lean ====
section
/-! DEFINITION. The end of a run: at a step boundary (R379), or part way through a step with the consequences of R55, R92, R255
and R316, with the return of satchel-set pages to the boundary (R322) and of the intake to the step's first sample (R356). -/

namespace Sys2Proof.Machine

open Sys2Proof

/-- The state byte of a job (R379, R382): NONE 0, LOADED 1, RUNNING 2, HELD 3 (DEDUCED, entry 18). -/
def jobCode : JobSt → Nat
  | .none => 0 | .loaded => 1 | .running => 2 | .held => 3

/-- The intake cursor as the data-position register holds it: INDEX [35:0], SHARD [47:36], EPOCH [59:48] (R144, R328). -/
def cursorOf (epoch shard index : Nat) : Nat := index % 2 ^ 36 + shard % 4096 * 2 ^ 36 + epoch % 4096 * 2 ^ 48

/-- Samples per step that the image fixes (R356). -/
def Part.sps (part : Part) : Nat := match part.image with | some im => im.sps | none => 1

/-- The cursor of the first sample of the step numbered `t` (R144, R356): recorded when it was written, or the present cursor when the intake
has still to write it. -/
def Part.firstCursor (part : Part) (t : Nat) : Nat :=
  let it := part.intake
  if !it.configured then part.dataPos
  else if it.k ≤ t * part.sps then cursorOf it.epoch it.shard it.index
  else tget (cursorOf it.epoch it.shard it.index) it.firsts t

/-- The intake restarted from the first sample of the step that begins at step number `t` (R356): cursor, sample number, and both
bells. One that had stopped at the end of its last epoch runs again. -/
def Part.rewindIntake (part : Part) (t : Nat) : Part :=
  let it := part.intake
  if it.configured then
    let k := t * part.sps
    let c := part.firstCursor t
    let n : W32 := BitVec.ofNat 32 k
    { part with
      intake := { it with
        epoch := c / 2 ^ 48 % 4096, shard := c / 2 ^ 36 % 4096, index := c % 2 ^ 36, k := k, finished := false, retried := false
        st := if it.finished && it.st == 3 then 1 else it.st }
      bells := tset 0 (tset 0 part.bells it.fill n) it.free n }
  else part

/-- The completion and the event that tell the end of a run (Tables 6 and 8 of chapter 13). -/
def State.tellEnd (s : State) (p status : Nat) : State :=
  let part := s.part p
  let key := part.endNote.getD {}
  let cls := match part.endNote with | some k => k.cls | none => 0
  let s := s.finish part.runRing part.runTag
    { status := status
      detail := match part.endNote with
        | some k => k.dev % 2 ^ 14 + k.kind % 4 * 2 ^ 14 + k.unit % 2 ^ 16 * 2 ^ 16
        | none => 0
      value := part.step % 2 ^ 64 + part.stepsDone % 2 ^ 32 * 2 ^ 64 + cls % 256 * 2 ^ 96 }
  s.partEvent p 0x0001
    (packList [(1, status), (2, part.runTag), (8, part.step), (4, part.stepsDone), (2, key.dev), (1, key.kind), (1, cls), (2, key.unit)])

/-- What the running section and its timetable hold is gone: no task fires, no verdict forms and nothing moves (R55, R92), and every entry of the rung
table is 0 again, as at any boundary (R266). Registers
and stall counters of the cores keep their values until the next section load. -/
def Part.stopSection (part : Part) : Part :=
  { part with
    sect := .idle, stepClosed := false, groups := [], up := [], toks := [], credits := [], streams := [], flits := [], ended := [], prefetch := []
    moves := [], linkBlocks := [], timedOut := [], lastU := [], colls := []
    memTypes := [], widened := [], rungWait := [], rungs := [], clip := none, armed := [], fwHold := false, boundHold := false }

/-- Shadow lines, job fills and verdicts of a partition's slices, and link-stream data not yet sent, are gone (R55: no task of the step
commits). -/
def State.clearShadows (s : State) (p : Nat) : State :=
  let s := (s.portsOf p).foldl (fun s l => if (tget {} s.ports l).ready = [] then s else s.modPort l fun x => { x with ready := [] }) s
  (s.slicesOf p).foldl (fun s k => s.modSlice k fun sl =>
    { sl with lines := sl.lines.filter (fun e => e.2.shadow.isNone), fills := sl.fills.filter (fun f => f.host), inbox := [], applied := [], held := [] }) s

/-- Draft frames of a key-value pool given back (R179), and its waiting requests dropped. -/
def KvPool.drop (k : KvPool) : KvPool :=
  { k with free := k.free ++ k.draftFrames.map (fun x => x.2.2), draftFrames := [], draftReqs := [], reqs := [] }

/-- The draft state and the tap tables of a partition's cores are gone: neither outlives the step (R153). -/
def Core.dropDrafts (core : Core) : Core := { core with drafts := [], openDrafts := [], taps := [], tapDrafts := [], clipToks := [], inbox := [] }

/-- The drafts of every core of a partition dropped. -/
def State.dropCoreDrafts (s : State) (p : Nat) : State :=
  (s.coresOf p).foldl (fun s c =>
    let core := tget {} s.cores c
    if core.drafts = [] && core.openDrafts = [] && core.inbox = [] && core.taps = [] && core.tapDrafts = [] then s else s.modCore c Core.dropDrafts) s

/-- What a norm root holds of a job's clip scalar is gone with its step: a replay forms it anew (R270, R339). -/
def State.dropClip (s : State) (p : Nat) : State :=
  { s with form := { s.form with clips := tset none s.form.clips p none, provIn := s.form.provIn.filter fun h => h.1 / 2 ^ 14 % 8 != p } }

/-- The running step of a partition ends with a status other than OK: the job holds at its previous step boundary (R55). -/
def State.endStep (s : State) (p status : Nat) : State :=
  let part := s.part p
  if part.job != .running then s
  else
    let s := s.clearShadows p
    let s := s.rollback p
    let s := ((s.dropCoreDrafts p).sendOverflow p).dropClip p
    let s := s.modPart p fun part =>
      let part := part.stopSection.rewindIntake part.step
      { part with job := .held, lastStatus := status, replay := true, norms := [], escalated := [], openStep := part.step
                  pool := part.pool.map KvPool.drop }
    s.tellEnd p status

/-- The running step ends on a failure of the memory tiers met by a job access (R254, R255): the failure is reported by its class
(Table 2 of chapter 11), with the kind and unit of its source. -/
def State.endJobAccess (s : State) (p status kind unit : Nat) : State :=
  let s := if status = stDataError then s.report kind unit 0x23 p
    else if status = stIntegrity then s.report kind unit 0x24 p
    else if status = stFarTier || status = stTimeout then s.report 0 0 0x50 p
    else s
  s.endStep p status

/-- The running step ends on a note (R316): FENCED, with the note named. -/
def State.endFenced (s : State) (p : Nat) (key : NoteKey) : State :=
  (s.modPart p fun part => { part with endNote := some key }).endStep p stFenced

/-- The run ends at a step boundary, with every step it was asked for done or a JOB_STOP taken (R379). -/
def State.endRun (s : State) (p : Nat) : State :=
  let s := (s.clearShadows p).dropCoreDrafts p
  let s := s.modPart p fun part =>
    { part.stopSection with job := .held, lastStatus := stOK, replay := false, stopAsked := false, openStep := part.step, endNote := none
                            pool := part.pool.map KvPool.drop }
  s.tellEnd p stOK

end Sys2Proof.Machine
end

