-- ==== Sys2Proof/Machine/Timetable.lean ====
section
/-! DEFINITION. The timetable of an open section (R185 to R190), distances and delivery slots (R194 to R197), stream entries and
the addresses of their units (R190, R191), and the launch of a block (R191, R227). -/

namespace Sys2Proof.Machine

open Sys2Proof

/-! ### Periods (R185 to R187) -/

/-- A period entry of a section (Table 1 of chapter 7). -/
def secEntry (sec : Section) (i : Nat) : Nat := (sec.entries.getD i 0).toNat
/-- Length of a period in slots: LENGTH_M1 [15:0] plus 1. -/
def periodLen (e : Nat) : Nat := bits e 0 16 + 1
/-- CONFIG [21:16]. -/
def periodConfig (e : Nat) : Nat := bits e 16 6
/-- BEAT_ALIGN [22]. -/
def periodAlign (e : Nat) : Bool := bit e 22

/-- The period entry in progress. -/
def Part.period (part : Part) : Nat := secEntry part.sec part.entry

/-- Whether a section's timetable runs in slot `t`: from its start until the switch slot of the next change (R185, R208). -/
def Part.timetableRuns (part : Part) (t : Nat) : Bool :=
  part.sect == .open || part.sect == .closed || (part.sect == .closing && decide (t < part.switchAt))

/-- Whether slot `t` lies in the period in progress (R186: a gap before it carries nothing). -/
def Part.inPeriod (part : Part) (t : Nat) : Bool :=
  part.timetableRuns t && decide (part.entryAt ≤ t) && decide (t < part.entryAt + periodLen part.period)

/-- The configuration of the period in progress. -/
def Part.config (part : Part) : Nat := periodConfig part.period

/-- PHASES of a configuration (R187). -/
def Part.phasesOf (part : Part) (cfg : Nat) : Nat := tget 1 part.sec.phases cfg

/-- The phase of slot `t` (R187). -/
def Part.phase (part : Part) (t : Nat) : Nat := (t - part.entryAt) % part.phasesOf part.config

/-- Whether a delivery slot falls before the end of the period in progress (R197). -/
def Part.fits (part : Part) (due : Nat) : Bool := decide (due < part.entryAt + periodLen part.period)

/-- The slot at which a period that follows one ending at `t` starts (R186). -/
def periodStart (e t : Nat) : Nat := if periodAlign e then (t + 2 ^ 20 - 1) / 2 ^ 20 * 2 ^ 20 else t

/-! ### Route entries (Table 2 of chapter 7) -/

/-- PHASE [3:0]. -/
def routePhase (r : Nat) : Nat := bits r 0 4
/-- HOPS [10:4]. -/
def routeHops (r : Nat) : Nat := bits r 4 7
/-- CREDIT_PHASE [14:11]. -/
def routeCreditPhase (r : Nat) : Nat := bits r 11 4
/-- CREDIT_HOPS [21:15]. -/
def routeCreditHops (r : Nat) : Nat := bits r 15 7
/-- LAUNCH [34:22]: the stream that the edge launches; none for 0x1FFF. -/
def routeLaunch (r : Nat) : Option Nat := if bits r 22 13 = 0x1FFF then none else some (bits r 22 13)
/-- Whether a route is active in a configuration: CONFIG_MASK [127:64]. -/
def routeActive (r cfg : Nat) : Bool := bit r (64 + cfg)

/-- The route entry of an output edge of a core. -/
def cfgRoute (cfg : CoreCfg) (e : Nat) : Nat := (tget 0 cfg.routes (edgeRoute (tget 0 cfg.edges e).toNat)).toNat

/-- Where a route leads: a core; or, from 4,096 on, a link stream, as 4,096 × (port + 1) + stream (R189, R296). -/
def cfgDest (cfg : CoreCfg) (e : Nat) : Nat :=
  let d := tget (0, 0) cfg.consumers (edgeRoute (tget 0 cfg.edges e).toNat)
  if d.2 = 0 then d.1 else 4096 * (d.1 + 1) + d.2

/-! ### Stream entries (Table 3 of chapter 7) -/

/-- A stream's entry in the open section. -/
def Part.stream (part : Part) (st : Nat) : Nat := (tget 0 part.sec.streams st).toNat
/-- KIND [1:0]. -/
def stKind (x : Nat) : Nat := bits x 0 2
/-- SLICE [9:2]. -/
def stSlice (x : Nat) : Nat := bits x 2 8
/-- CONFIG [32:27]. -/
def stConfig (x : Nat) : Nat := bits x 27 6
/-- PHASE_MASK [26:11]. -/
def stPhase (x ph : Nat) : Bool := bit x (11 + ph)
/-- The rectangle of cores: ROW0 [37:33] to ROW1 [42:38], COL0 [48:43] to COL1 [54:49]. -/
def stRect (x : Nat) : List Nat :=
  (upFrom (bits x 33 5) (bits x 38 5 + 1 - bits x 33 5)).flatMap fun r =>
    (upFrom (bits x 43 6) (bits x 49 6 + 1 - bits x 43 6)).map fun c => r * 48 + c
/-- The source core of a kind 0b01 stream (ROW0, COL0) or of a kind 0b11 stream (SRC_ROW [59:55], SRC_COL [65:60]). -/
def stSource (x : Nat) : Nat :=
  if stKind x = 3 then bits x 55 5 * 48 + bits x 60 6 else bits x 33 5 * 48 + bits x 43 6
/-- EDGE [70:66]. -/
def stEdge (x : Nat) : Nat := bits x 66 5
/-- BELL_EN [73]. -/
def stBellEn (x : Nat) : Bool := bit x 73
/-- BELL [87:74]. -/
def stBell (x : Nat) : Nat := bits x 74 14
/-- Units of a block: UNITS_M1 [103:88] plus 1. -/
def stUnits (x : Nat) : Nat := bits x 88 16 + 1
/-- SPAD_ADDR [123:104]. -/
def stSpad (x : Nat) : Nat := bits x 104 20
/-- Buffers in rotation: RING_M1 [127:124] plus 1. -/
def stRing (x : Nat) : Nat := bits x 124 4 + 1
/-- BUF_STEP [147:128]. -/
def stBufStep (x : Nat) : Nat := bits x 128 20
/-- MEM_ADDR [191:148]. -/
def stMem (x : Nat) : Nat := bits x 148 44
/-- MEM_STEP [223:192]. -/
def stMemStep (x : Nat) : Nat := bits x 192 32
/-- HOPS [230:224]. -/
def stHops (x : Nat) : Nat := bits x 224 7

/-- Bytes of a unit: 64 for a vector stream, 128 otherwise (R190). -/
def stUnitBytes (x : Nat) : Nat := if stKind x = 3 then 64 else 128

/-- Scratchpad word address of unit `u` of block `b` (R191). -/
def stUnitSpad (x b u : Nat) : Nat := stSpad x + b % stRing x * stBufStep x + u * (stUnitBytes x / 16)
/-- Memory address of unit `u` of block `b`, modulo 2⁴⁴ (R191, R222). -/
def stUnitMem (x b u : Nat) : Nat := (stMem x + b * stMemStep x + u * stUnitBytes x) % 2 ^ 44
/-- Source scratchpad word address of unit `u` of block `b` of a vector stream (R191). -/
def stUnitSource (x b u : Nat) : Nat := bits x 148 20 + b % stRing x * stMemStep x + u * 4

/-- Units of a launched block: a key-value block's own number (R193). -/
def Launch.units (l : Launch) (x : Nat) : Nat := match l.kv with | some k => k.units | none => stUnits x
/-- Memory address of a unit of a launched block. -/
def Launch.mem (l : Launch) (x u : Nat) : Nat :=
  match l.kv with
  | some k => (k.mem + 128 * (if k.store then (k.data.getD u (0, [])).1 else u)) % 2 ^ 44
  | none => stUnitMem x l.block u
/-- Scratchpad word address of a unit of a launched block. -/
def Launch.spad (l : Launch) (x u : Nat) : Nat := match l.kv with | some k => k.spad + 8 * u | none => stUnitSpad x l.block u

/-! ### Distances (R194, R195) -/

/-- Position of a physical column, counted from the west edge routers on. -/
def columnPos (c : Nat) : Nat := if c < 48 then c + c / 6 + 1 else c + 9
/-- Position of slice `k`, counted likewise. -/
def slicePos (k : Nat) : Nat := 7 * (k % 8) + 7
/-- The distance between two numbers. -/
def dist (a b : Nat) : Nat := (a - b) + (b - a)

/-- Position of an edge router: −1 west, 58 east, counted likewise (R194). -/
def edgePos (g : Nat) : Nat := if g < 16 then 0 else 59

/-- Pitches between an edge router, reached from the nearer row of its pair, and a slice (R194). -/
def edgeSlice (g k : Nat) : Nat :=
  min (dist (2 * (g % 16)) (k / 8)) (dist (2 * (g % 16) + 1) (k / 8)) + dist (edgePos g) (slicePos k)

/-- Pitches between a core and a slice under the unrepaired seating. -/
def coreSlice (c k : Nat) : Nat := dist (c / 48) (k / 8) + dist (columnPos (c % 48)) (slicePos k)

/-- Slots from the slot in which a unit of a stream is sent to the one in which it is delivered (R195, R196). -/
def stDelay (x : Nat) : Nat :=
  match stKind x with
  | 0 => 7 + ((stRect x).map fun c => coreSlice c (stSlice x)).foldl max 0 / 4
  | 1 => 7 + coreSlice (stSource x) (stSlice x) / 4
  | 3 => 2 + stHops x
  | _ => 7 + edgeSlice (stEdge x) (stSlice x) / 4

/-! ### Launching a block (R191, R227) -/

/-- The lines that a block takes from its slice, ascending; none of a pin window. -/
def Part.blockLines (part : Part) (x : Nat) (l : Launch) : List Nat :=
  if (part.pinOf (l.mem x 0)).isSome then [] else
    (((upFrom 0 (l.units x)).map fun u => lineOf (l.mem x u)).dedup)

/-- Fill requests of a slice added for the lines that are not valid there and not asked for already (R227). -/
def Slice.request (sl : Slice) (view : List Nat) (lines : List Nat) : Slice × List Nat :=
  let want := lines.filter fun a => !((upFrom 0 4).all fun k => (sl.subLine view a k).isSome)
  ({ sl with fills := sl.fills ++ (want.filter fun a => !sl.fills.any fun f => f.addr == a).map fun a => { addr := a } }, want)

/-- The groups whose drafts a block launched by a draft task sees (R230). -/
def Part.viewOf (part : Part) (g : Option Nat) : List Nat :=
  match g with
  | some g => secView part.sec g
  | none => []

/-- A block of a stream launched by a core: it takes the next block number, and its slice asks for the lines it lacks. -/
def State.launch (s : State) (p st : Nat) (group : Option Nat) (core : Nat) (seq : Stream) (order : Nat)
    (kv : Option KvBlock) : State :=
  let part := s.part p
  let x := part.stream st
  let ss := tget {} part.streams st
  let l : Launch := { block := ss.launched, group := group, core := core, seq := seq, order := order, kv := kv, at' := s.slot }
  let r := (s.slice (stSlice x)).request (part.viewOf group) (part.blockLines x l)
  let s := if stKind x = 0 then s.setSlice (stSlice x) { r.1 with touched := true } else s
  let l := if stKind x = 0 then { l with missed := r.2 } else l
  s.modPart p fun part => { part with streams := tset {} part.streams st { ss with pending := ss.pending ++ [l], launched := ss.launched + 1 } }

/-! ### Paths through the router settings (R188, R189) -/

/-- The output ports of a router that an input port drives in a phase of a configuration (R188): N 0, S 1, E 2, W 3, L 4. -/
def secDrives (sec : Section) (vec : Bool) (cfg ph c i : Nat) : List Nat :=
  match sec.settings.find? fun r => r.config == cfg && r.phase == ph && r.core == c with
  | some r => ((if vec then r.vec else r.scal).filter fun e => e.2 == i).map Prod.fst
  | none => []

/-- The logical neighbour at an output port; none past the interior's edge. -/
def hopTo (c o : Nat) : Option Nat :=
  match o with
  | 0 => if 48 ≤ c then some (c - 48) else none
  | 1 => if c + 48 < 1536 then some (c + 48) else none
  | 2 => if c % 48 < 47 then some (c + 1) else none
  | 3 => if 0 < c % 48 then some (c - 1) else none
  | _ => none

/-- The input port that an output port of a neighbour leads to. -/
def opposite (o : Nat) : Nat := match o with | 0 => 1 | 1 => 0 | 2 => 3 | _ => 2

/-- A path of a word: where it comes out, a core or an edge router as 1,536 + G, and its hops, each by the core whose router it leaves and the output
port. -/
abbrev Trail := Nat × List (Nat × Nat)

/-- The edge router that an output port of a router leads to: W at column 0, E at column 47 (R188). -/
def edgeBy (c o : Nat) : Option Nat :=
  if o = 3 && c % 48 == 0 then some (1536 + c / 96) else if o = 2 && c % 48 == 47 then some (1552 + c / 96) else none

/-- The paths that a word takes on from where it enters the router of core `c` by port `i` in phase `ph`. A word takes one hop a slot, so the phase goes on
by one at each hop (R195; DEDUCED, entry 26). -/
def secWalk (sec : Section) (vec : Bool) (cfg : Nat) : Nat → Nat → Nat → Nat → List Trail
  | 0, _, _, _ => []
  | fuel + 1, c, i, ph =>
    (secDrives sec vec cfg ph c i).flatMap fun o =>
      if o = 4 then [(c, [])]
      else
        match hopTo c o with
        | none => match edgeBy c o with
          | some g => [(g, [(c, o)])]
          | none => []
        | some d => (secWalk sec vec cfg fuel d (opposite o) ((ph + 1) % max 1 (tget 1 sec.phases cfg))).map fun x => (x.1, (c, o) :: x.2)

/-- The paths of a word launched by core `c` in a phase of a configuration. -/
def secPaths (sec : Section) (vec : Bool) (cfg ph c : Nat) : List Trail := secWalk sec vec cfg 128 c 4 ph

end Sys2Proof.Machine
end

