-- ==== Sys2Proof/Machine/Tokens.lean ====
section
/-! DEFINITION. Tokens and credits (R72 to R77, R82, R189, R196), the sending of a task's tokens with the blocks they launch (R85, R191,
R192), rings that sequencers hold (R204, R452), and the end of a section for a core (R91). -/

namespace Sys2Proof.Machine

open Sys2Proof

/-! ### Sending -/

/-- The core number under which a producer on another device is kept in a token's source. -/
def remoteCore (dev c : Nat) : Nat := 65536 * (dev + 1) + c

/-- The stream that an output edge of a core launches; a local edge has no route (R76). -/
def cfgLaunch (cfg : CoreCfg) (e : Nat) : Option Nat :=
  if edgeLocal (tget 0 cfg.edges e).toNat then none else routeLaunch (cfgRoute cfg e)

/-- Whether a core may send a token over an edge now: a credit (R76) and, where it launches, room among the four pending launches
(R191), `used` of which other tokens of the same close take. -/
def State.edgeReady (s : State) (c e used : Nat) : Bool :=
  let core := s.core c
  decide (1 ≤ tget 0 core.credits e) &&
    (match cfgLaunch core.cfg e with
      | some st => decide ((tget {} (s.part (s.partOfCore c)).streams st).pending.length + used < 4)
      | none => true)

/-- Whether every edge of a list may send its token, tokens for one stream counted together. -/
def State.edgesReady (s : State) (c : Nat) : List Nat → List (Option Nat) → Bool
  | [], _ => true
  | e :: es, before =>
    let st := cfgLaunch (s.core c).cfg e
    s.edgeReady c e (before.filter fun x => x.isSome && x == st).length && s.edgesReady c es (before ++ [st])

/-- The token that a task of tag `tag` sends over an edge (R75). -/
def edgeTok (core : Core) (e : Nat) (tag : W32) (group : Option Nat) (payload gen : Nat) : Tok :=
  let x := (tget 0 core.cfg.edges e).toNat
  { tag := mkTag (edgePass x) (tagEpoch tag) (if edgeKeep x then tagLayer tag else edgeLayer x) (tagMb tag)
    draft := group.isSome, group := group.getD 0
    gen := if edgeLocal x then core.gen else gen
    queue := edgeQueue x, kind := 0, payload := BitVec.ofNat 64 payload }

/-- PAYLOAD of a token whose edge launches block `b` of a stream (R75). -/
def launchPayload (x b : Nat) : Nat :=
  stUnitSpad x b 0 % 2 ^ 20 + min (if stKind x = 3 then stUnits x else 2 * stUnits x) 65535 * 2 ^ 20

/-- A token sent over an edge (R76, R77, R191): it spends a credit, launches a block where its route names a stream, and passes to the
core's own queue in one arithmetic cycle (R72) or waits in the router for its route's slot. -/
def State.sendToken (s : State) (c e : Nat) (tag : W32) (group : Option Nat) (q : Stream) (order : Nat) : State :=
  let p := s.partOfCore c
  let core := s.core c
  let gen := tget 0 core.gens (cfgDest core.cfg e)
  let core' := { core with credits := tset 0 core.credits e (tget 0 core.credits e - 1) }
  match cfgLaunch core.cfg e with
  | some st =>
    let x := (s.part p).stream st
    let b := (tget {} (s.part p).streams st).launched
    let tok := edgeTok core e tag group (launchPayload x b) gen
    let o : OutTok := { edge := e, tok := tok, seq := q, order := order, block := some (st, b) }
    (s.setCore c { core' with outToks := core'.outToks ++ [o] }).launch p st group c q order none
  | none =>
    let tok := edgeTok core e tag group 0 gen
    if edgeLocal (tget 0 core.cfg.edges e).toNat then
      (s.setCore c core').modPart p fun part =>
        { part with toks := part.toks ++ [{ dest := c, tok := tok, src := some (c, e), seq := q, order := order, due := s.slot + 2 }] }
    else
      let o : OutTok := { edge := e, tok := tok, seq := q, order := order }
      s.setCore c { core' with outToks := core'.outToks ++ [o] }

/-- Tokens of a close sent over edges in ascending order. -/
def State.sendTokens (s : State) (c : Nat) (es : List Nat) (tag : W32) (group : Option Nat) (q : Stream) (order : Nat) : State :=
  es.foldl (fun s e => s.sendToken c e tag group q order) s

/-- A wake from clock stop asked for (R94). -/
def Core.rouse (core : Core) (slot : Nat) : Core :=
  if core.power == .clockStop && core.wake.isNone then { core with wake := some slot } else core

/-- Whether a sequencer's running task is at its TASK_CLOSE. -/
def Core.atClose (core : Core) (q : Stream) : Bool :=
  match (core.seq q).running with
  | some t => opcode ((core.seq q).instr t.pc) == 0xF1
  | none => false

/-! ### Queues and credits -/

/-- A queue slot freed (R69, R76): its credit goes back to the producing edge, inside the core for a local edge, and over the link a remote token
came by (R296; its producer is written as 4096 × (port + 1) + core and 16 × stream + edge); a re-injected token returns none (R211). -/
def State.freeSlot (s : State) (c : Nat) (t : QTok) : State :=
  match t.src with
  | none => s
  | some (pc, e) =>
    if pc = c && edgeLocal (tget 0 (s.core c).cfg.edges e).toNat then
      s.modPart (s.partOfCore c) fun part => { part with credits := part.credits ++ [{ core := c, edge := e, count := 1, due := s.slot + 2 }] }
    else if 4096 ≤ pc then
      s.modPort (pc / 4096 - 1) fun l => { l with ready := l.ready ++
        [(e / 16, { stream := e / 16, sent := s.slot, part := s.partOfCore c, srcDev := s.self, credits := [(pc % 4096, e % 16, 1)] })] }
    else s.modCore c fun core => { core with owed := tmod 0 core.owed (pc * 16 + e) (· + 1) }

/-- The tokens of a queue. -/
def Core.queue (core : Core) (q : Nat) : List QTok := tget [] core.queues q

/-- Whether a token may fire a task (R69, R82): equal tags, and for a draft token a draft task whose group is its own or descends. -/
def tokFits (view : List Nat) (draft : Bool) (tag : W32) (t : Tok) : Bool :=
  t.tag == tag && (!t.draft || (draft && decide (t.group ∈ view)))

/-- Whether a token of equal tag is a group mismatch for a task (R82). -/
def tokMismatch (view : List Nat) (draft : Bool) (tag : W32) (t : Tok) : Bool :=
  t.tag == tag && !tokFits view draft tag t

/-- Group mismatches for a task dropped from the queues of its IN_MASK, counted, and their credits returned (R82). -/
def State.dropMismatches (s : State) (c : Nat) (task : Task) (view : List Nat) : State :=
  (maskList 16 task.inMask).foldl (fun s q =>
    let l := (s.core c).queue q
    let bad := l.filter fun t => tokMismatch view task.draft task.tag t.tok
    if bad = [] then s else
    let s := s.modCore c fun core =>
      { core with queues := tset [] core.queues q (l.filter fun t => !tokMismatch view task.draft task.tag t.tok)
                  dropGroup := min (core.dropGroup + bad.length) (2 ^ 32 - 1) }
    bad.foldl (fun s t => s.freeSlot c t) s) s

/-- Whether every queue of a task's IN_MASK holds a token that fires it (R69); a reposted task takes none (R87). -/
def Core.tokensReady (core : Core) (task : Task) (view : List Nat) : Bool :=
  task.reposted || (maskList 16 task.inMask).all fun q => (core.queue q).any fun t => tokFits view task.draft task.tag t.tok

/-- The oldest fitting token of each queue of a task's IN_MASK taken (R69): the payloads by queue, and the slots freed. -/
def State.takeTokens (s : State) (c : Nat) (task : Task) (view : List Nat) : State × SMap W64 :=
  if task.reposted then (s, task.held) else
    (maskList 16 task.inMask).foldl (fun (acc : State × SMap W64) q =>
      match takeFirst (fun (t : QTok) => tokFits view task.draft task.tag t.tok) ((acc.1.core c).queue q) with
      | none => acc
      | some (t, r) =>
        let s := acc.1.modCore c fun core => { core with queues := tset [] core.queues q r }
        (s.freeSlot c t, acc.2 ++ [(q, t.tok.payload)])) (s, [])

/-! ### Rings that sequencers hold (R204, R452) -/

/-- Whether a token or a stream unit that a task of a sequencer has sent has still to be delivered (R204). -/
def State.undelivered (s : State) (c : Nat) (q : Stream) : Bool :=
  let part := s.part (s.partOfCore c)
  (s.core c).outToks.any (fun o => o.seq == q)
    || part.toks.any (fun f => (match f.src with | some (pc, _) => pc == c | none => false) && f.seq == q && decide (s.slot ≤ f.due))
    || part.streams.any (fun e => e.2.pending.any (fun l => l.core == c && l.seq == q)
        || e.2.moving.any (fun l => l.1.core == c && l.1.seq == q && decide (s.slot ≤ l.2)))
    || part.flits.any (fun f => f.launch.core == c && f.launch.seq == q)

/-- The core whose router sent a message up the bell tree. -/
def UpMsg.core : UpMsg → Nat
  | .ring _ _ c | .arm _ c _ | .closure _ c _ _ _ _ | .fin c => c

/-- Messages up the bell tree that a core's router input buffers (R203). -/
def upBuffer : Nat := 16

/-- Room in the buffer of a core's router for upward messages, of which those on their way to the control root take up a place each (R203; one
buffer a core, that of its own input: DESIGN CHOICE, entry 81). -/
def State.upRoom (s : State) (c : Nat) : Nat := upBuffer - ((s.part (s.partOfCore c)).up.filter fun m => m.core == c).length

/-- A message sent up the bell tree. -/
def State.sendUp (s : State) (c : Nat) (m : UpMsg) : State := s.modPart (s.partOfCore c) fun part => { part with up := part.up ++ [m] }

/-- Whether a task posted before `before` has still to meet the conditions of R452: to close, and as a draft to have its verdict and its
COMMIT_EDGES tokens sent. -/
def Core.undone (core : Core) (q : Stream) (before : Nat) : Bool :=
  let sq := core.seq q
  sq.window.any (fun t => decide (t.order < before)) || sq.reposts.any (fun t => decide (t.order < before))
    || (match sq.running with | some t => decide (t.order < before) | none => false)
    || core.openDrafts.any (fun d => d.seq == q && decide (d.task.order < before))
    || core.kept.any (fun o => o.seq == q && decide (o.order < before))

/-- Whether a TIMED flit that a sequencer's tasks have sent has still to reach its hand-on slot (R302). -/
def State.timedOwed (s : State) (c : Nat) (q : Stream) : Bool :=
  let p := s.partOfCore c
  let part := s.part p
  part.moves.any (fun m => m.origin == some (c, q)) || part.timedOut.any (fun x => x.1 == c && x.2.1 == q && decide (s.slot ≤ x.2.2))
    || (s.portsOf p).any fun l => (s.port l).ready.any fun e => e.2.origin == some (c, q)

/-- Whether a ring may leave its router: R204 for any ring, R452 for one read between bodies, and for a global bell every TIMED flit of its
tasks handed on (R302). -/
def State.ringReady (s : State) (c : Nat) (q : Stream) (r : HeldRing) : Bool :=
  (r.body || !(s.core c).undone q r.before) && !s.undelivered c q
    && (decide (1024 ≤ r.bell) || !s.timedOwed c q)

/-- Rings of one kind that may leave, in program order, as far as there is room for them (R203). -/
def State.ringsOut (s : State) (c : Nat) (q : Stream) : Nat → List HeldRing → List UpMsg × List HeldRing
  | _, [] => ([], [])
  | 0, l => ([], l)
  | room + 1, r :: l =>
    if s.ringReady c q r then
      let x := s.ringsOut c q room l
      (.ring r.bell r.amount c :: x.1, x.2)
    else ([], r :: l)

/-- Every ring of a sequencer that may leave sent up the bell tree. -/
def State.releaseRings (s : State) (c : Nat) (q : Stream) : State :=
  let sq := (s.core c).seq q
  if sq.held = [] then s else
  let body := s.ringsOut c q (s.upRoom c) (sq.held.filter fun r => r.body)
  let rest := s.ringsOut c q (s.upRoom c - body.1.length) (sq.held.filter fun r => !r.body)
  let s := s.modCore c fun core => core.setSeq q { core.seq q with held := body.2 ++ rest.2 }
  s.modPart (s.partOfCore c) fun part => { part with up := part.up ++ body.1 ++ rest.1 }

/-! ### Tokens kept at a commit (R85) -/

/-- Kept tokens sent in order while credit and launch room are there. -/
def State.sendKept (s : State) (c : Nat) : List OutTok → State
  | [] => s.modCore c fun core => { core with kept := [] }
  | o :: l =>
    if s.edgeReady c o.edge 0 then (s.sendToken c o.edge o.tok.tag none o.seq o.order).sendKept c l
    else s.modCore c fun core => { core with kept := o :: l }

/-- A core's COMMIT_EDGES tokens of one committed task: sent at once, or kept where the edge has no credit or room, or an earlier token
of it is kept (R85). -/
def State.sendCommit (s : State) (c : Nat) (es : List Nat) (tag : W32) (q : Stream) (order : Nat) : State :=
  es.foldl (fun s e =>
    if s.edgeReady c e 0 && !(s.core c).kept.any (fun o => o.edge == e) then s.sendToken c e tag none q order
    else s.modCore c fun core => { core with kept := core.kept ++ [{ edge := e, tok := { tag := tag }, seq := q, order := order }] }) s

/-! ### The end of a section for a core (R91) -/

/-- Whether a core has ended: every sequencer at SECTION_END with an empty window, and no draft open. -/
def Core.hasEnded (core : Core) : Bool :=
  [core.seqF, core.seqB, core.seqU].all (fun q => q.ended && q.window.isEmpty && q.reposts.isEmpty && q.running.isNone)
    && core.openDrafts.isEmpty

/-- Whether a core has still to send END (R208). -/
def Core.owesEnd (core : Core) : Bool := core.seated && !core.endSent && core.hasEnded

/-- END sent once when a core has ended, with room for it (R203, R208). -/
def State.tryEnd (s : State) (c : Nat) : State :=
  let core := s.core c
  if core.owesEnd && decide (0 < s.upRoom c) then (s.setCore c { core with endSent := true }).sendUp c (.fin c)
  else s

/-- What a core does of itself once something has changed for it: kept tokens and held rings leave where they may, and it ends. -/
def State.settleCore (s : State) (c : Nat) : State :=
  let s := if (s.core c).kept = [] then s else s.sendKept c (s.core c).kept
  (((s.releaseRings c .F).releaseRings c .B).releaseRings c .U).tryEnd c

end Sys2Proof.Machine
end

