-- ==== Sys2Proof/Machine/Commit.lean ====
section
/-! DEFINITION. The commit controller (R83 to R87, R265): closures, verdicts and their cascade, the layer rung table and its messages
(R266, R267), overflow event records (R450), and the provisional norm of a CLIP group (R154). -/

namespace Sys2Proof.Machine

open Sys2Proof

/-! ### Types of a layer in the image (R450) -/

/-- The programs of an image. -/
def imagePrograms (im : Image) : List (List (BitVec 128)) :=
  im.sections.flatMap fun sec => sec.cores.flatMap fun c => [c.2.progF, c.2.progB, c.2.progU]

/-- The operations of a layer in an image, those of its twins included (R277). -/
def imageLayerOps (im : Image) (layer : Nat) : List Nat :=
  (imagePrograms im).flatMap fun pr => (pr.map fun w => w.toNat).filter fun n =>
    decide (opcode n < 0xF0) && tget (opLayer n) im.twins (opLayer n) == layer

/-- The wider of two types (R450). -/
def widerType (a b : Nat) : Nat := if typeRank a < typeRank b then b else a

/-- The widest A or B type of a layer's tile operations in the image, attention commands counted as BF16 tiles (R172); none where it has
no tile operation. -/
def imageTileType (im : Image) (layer : Nat) : Option Nat :=
  let ts := (imageLayerOps im layer).filterMap fun n =>
    if decide (0x10 ≤ opcode n) && decide (opcode n ≤ 0x13) then some (widerType (opAType n) (opBType n))
    else if decide (0x20 ≤ opcode n) && decide (opcode n < 0x30) then some 0
    else none
  match ts with
  | [] => none
  | t :: l => some (l.foldl widerType t)

/-- The widest Z type narrower than FP32 of a layer's row and vector operations; BF16 where none is. -/
def imageZType (im : Image) (layer : Nat) : Nat :=
  let ts := (imageLayerOps im layer).filterMap fun n =>
    if decide (0x40 ≤ opcode n) && decide (opcode n < 0x80) && decide (typeRank (opZType n) < 5) then some (opZType n) else none
  match ts with
  | [] => 0
  | t :: l => l.foldl widerType t

/-- FROM_TYPE at a rung and TO_TYPE one rung up of a layer; no TO_TYPE where the ladder has no rung above (R54, R450). -/
def recTypes (im : Image) (layer rung : Nat) : Nat × Option Nat :=
  match imageTileType im layer with
  | some t => let a := raiseType rung t; (a, if a == 8 then none else some (raiseOne a))
  | none => if rung = 0 then (imageZType im layer, some 5) else (5, none)

/-! ### Rounds -/

/-- A group's round. -/
def Part.group (part : Part) (g : Nat) : Group := tget {} part.groups g

/-- A group's round changed. -/
def Part.modGroup (part : Part) (g : Nat) (f : Group → Group) : Part := { part with groups := tmod {} part.groups g f }

/-- A group's parameters in the open section. -/
def Part.groupCfg (part : Part) (g : Nat) : GroupCfg := tget {} part.sec.groups g

/-- Draft tasks of a group that are open on a core: the running ones and those that have closed (R81). -/
def Core.draftsOf (core : Core) (g : Nat) : List Task :=
  let run (q : Seq) : List Task := match q.running with
    | some t => if t.draft && t.group == g then [t] else []
    | none => []
  run core.seqF ++ run core.seqB ++ run core.seqU ++ (core.openDrafts.filter fun d => d.task.group == g).map fun d => d.task

/-- Draft tasks of a group's present round that are open on some core: tasks that a verdict on its way to their core is to discard are
not among them. -/
def State.roundTasks (s : State) (p g : Nat) : List Task :=
  let att := ((s.part p).group g).att
  (s.coresOf p).flatMap fun c =>
    let core := tget {} s.cores c
    if tget 0 core.atts g = att then core.draftsOf g else []

/-- Whether a group's round has begun: closures in, or tasks open (R86). -/
def State.active (s : State) (p g : Nat) : Bool :=
  !((s.part p).group g).closures.isEmpty || !(s.roundTasks p g).isEmpty

/-- A child's dependence on the parent rounds that are open now (R84), noted when a task of the child fires. -/
def State.noteParents (s : State) (p g : Nat) : State :=
  let part := s.part p
  let live := (part.groupCfg g).parents.filter fun h => !(part.group h).closures.isEmpty
  if live = [] then s else s.setPart p (part.modGroup g fun x => { x with parents := live.foldl addOnce x.parents })

/-! ### Escalation (R54, R55, R266, R267) -/

/-- Closures of a layer with a flag. -/
def flagged (cs : List Closure) : List Closure := cs.filter fun c => !c.causes.isEmpty

/-- The closure of lowest micro-batch and, at that, lowest core. -/
def firstClosure (cs : List Closure) : Closure :=
  match cs with
  | [] => {}
  | c :: l => l.foldl (fun a b => if b.mb < a.mb || (b.mb == a.mb && decide (b.core < a.core)) then b else a) c

/-- The lowest cause of a list of closures; a peer's flag alone carries none, and gives 1. -/
def lowestCause (cs : List Closure) : Nat :=
  match cs.flatMap fun c => c.causes.map Prod.fst with
  | [] => 1
  | a :: l => l.foldl min a

/-- The greatest type without a rung above it among flags, plus 1; 0 where every flag has a rung above. -/
def topType (cs : List Closure) : Nat := (cs.flatMap fun c => c.causes.map Prod.snd).foldl max 0

/-- An overflow record written (R450), of the closure that Table 11 names. -/
def Part.overflowRecord (part : Part) (slot layer cause fromT toT rung : Nat) (c : Closure) : Part :=
  part.addRecord { step := part.step % 2 ^ 32, layer := layer, cause := cause, fromType := fromT, toType := toT, rung := rung,
                   mb := c.mb, row := c.core / 48, col := c.core % 48, beat := slot / 2 ^ 20 % 2 ^ 32 }

/-- Whether an overflow of a layer finds no rung above it (R266). -/
def Part.noRung (part : Part) (im : Image) (layer : Nat) (cs : List Closure) : Bool :=
  decide (3 ≤ part.rungOf layer) || topType cs != 0 || (recTypes im layer (part.rungOf layer)).2.isNone

/-- One layer raised by a rung: its table entry, the record of it, and the acknowledgements that its consumers owe (R267). -/
def State.raiseLayer (s : State) (p layer : Nat) (cs : List Closure) : State :=
  let part := s.part p
  let im := part.image.getD {}
  let r := part.rungOf layer
  let t := recTypes im layer r
  let part := part.overflowRecord s.slot layer (lowestCause cs) t.1 (t.2.getD 15) (r + 1) (firstClosure cs)
  let devs := tget [] im.consumers layer
  let part := { part with rungs := tset 0 part.rungs layer (r + 1), escalated := addOnce part.escalated layer
                          rungWait := part.rungWait ++ devs.map fun d => (layer, d) }
  let s := s.setPart p part
  if devs = [] then s else s.sendBell s.form.prefect p (msgRung layer (r + 1) part.step)

/-- The closures of a discarded group whose layers rise (R266): those with a flag, and of a REMOTE group every closure, since a flag between
peers names the group and not the layer, and all peers raise the same entries (R267, Table 9 of chapter 10; DEDUCED, entry 72). -/
def Part.rising (part : Part) (g : Nat) : List Closure :=
  if (part.groupCfg g).remote = [] then flagged (part.group g).closures else (part.group g).closures

/-- The layers that an overflow discard of a group raises, in ascending order. -/
def Part.risen (part : Part) (g : Nat) : List Nat := (((part.rising g).map fun c => c.layer).dedup).mergeSort (· ≤ ·)

/-- The flagged layers of a discarded group raised, or the step ended where one has no rung above (R55, R266, R267). -/
def State.escalate (s : State) (p g : Nat) : State × Bool :=
  let part := s.part p
  let im := part.image.getD {}
  let layers := part.risen g
  let of (l : Nat) : List Closure := (part.rising g).filter fun c => c.layer == l
  match layers.find? fun l => part.noRung im l (of l) with
  | some l =>
    let r := part.rungOf l
    let top := topType (of l)
    let fromT := if top = 0 then (recTypes im l r).1 else top - 1
    let part := part.overflowRecord s.slot l (lowestCause (of l)) fromT 15 r (firstClosure (of l))
    ((s.setPart p part).endStep p stExhausted, false)
  | none => (layers.foldl (fun s l => s.raiseLayer p l (of l)) s, true)

/-- The step of a partition ended by a fair task's overflow (R264, R450). -/
def State.fairOverflow (s : State) (p c layer mb : Nat) (causes : List (Nat × Nat)) : State :=
  let part := s.part p
  let im := part.image.getD {}
  let l := part.twin layer
  let cl : Closure := { core := c, layer := l, mb := mb, causes := causes }
  let top := topType [cl]
  let fromT := if top = 0 then (recTypes im l (part.rungOf l)).1 else top - 1
  (s.setPart p (part.overflowRecord s.slot l (lowestCause [cl]) fromT 15 (part.rungOf l) cl)).endStep p stExhausted

/-! ### Verdicts (R84 to R86) -/

/-- Cores that a verdict goes to: the seated ones (R85). -/
def State.seatedOf (s : State) (p : Nat) : List Nat := (s.coresOf p).filter fun c => (tget {} s.cores c).seated

/-- A launch of a group's task after the group's commit: it is fair. -/
def Launch.made (g : Nat) (l : Launch) : Launch := if l.group == some g then { l with group := none } else l

/-- Launched blocks and their units on the way after a verdict of their group: fair, or dropped. -/
def Part.judgeLaunches (part : Part) (g : Nat) (commit : Bool) : Part :=
  if commit then
    { part with
      streams := part.streams.map fun e =>
        (e.1, { e.2 with pending := e.2.pending.map (Launch.made g), moving := e.2.moving.map fun l => (l.1.made g, l.2) })
      flits := part.flits.map fun f => { f with launch := f.launch.made g } }
  else
    { part with
      streams := part.streams.map fun e =>
        (e.1, { e.2 with pending := e.2.pending.filter fun l => l.group != some g
                         unit := match e.2.pending with | l :: _ => if l.group == some g then 0 else e.2.unit | [] => 0
                         moving := e.2.moving.filter fun l => l.1.group != some g })
      flits := part.flits.filter fun f => f.launch.group != some g }

/-- A verdict sent to every seated core and to every slice that holds a shadow of the group, ahead of other messages (R85, R203, R230). The
launches of the group's tasks become fair, or are dropped, and its draft appends take effect, or are undone (R179). -/
def State.broadcast (s : State) (p g : Nat) (commit clip : Bool) : State :=
  let cores := s.seatedOf p
  let slices := (s.slicesOf p).filter fun k => (tget {} s.slices k).lines.any fun e => e.2.shadow == some g
  let s := cores.foldl (fun s c => s.modCore c fun core => { core with inbox := core.inbox ++ [.verdict g commit clip] }) s
  let s := slices.foldl (fun s k => s.modSlice k fun sl => { sl with inbox := sl.inbox ++ [(g, commit)] }) s
  s.modPart p fun part =>
    let part := (part.judgeLaunches g commit).modGroup g fun x => { x with verdict := some (commit, clip), toApply := cores, slicesToApply := slices }
    { part with pool := part.pool.map fun k => k.verdict g commit }

/-- What a verdict leaves of a group's round: closures cleared and the round's number raised. -/
def Group.next' (x : Group) : Group :=
  { x with closures := [], att := x.att + 1, round := (x.round + 1) % 128, flagSent := false
           flags := x.flags.filter fun f => f.2.1 != x.round }

/-- A commit: children's rounds no longer wait for this one, and the next round starts afresh (R84, R265). -/
def State.commitGroup (s : State) (p g : Nat) : State :=
  let part := s.part p
  let part := (secChildren part.sec g).foldl (fun (pt : Part) c => pt.modGroup c fun x => { x with parents := x.parents.filter (· != g) }) part
  let part := part.modGroup g fun x => { x.next' with rung := 0, clipped := false, parents := [] }
  (s.setPart p part).broadcast p g true false

/-- One group discarded: its rung rises, and where no task of its round repeats the round is over (R86, R87). -/
def State.discardOne (s : State) (p g : Nat) (clip : Bool) : State :=
  let repeats := (s.roundTasks p g).any fun t => t.repeatIdx != 0
  let part := s.part p
  let part := part.modGroup g fun x => { x.next' with rung := x.rung + 1, clipped := x.clipped || clip }
  let part := if repeats then part else
    (secChildren part.sec g).foldl (fun (pt : Part) c => pt.modGroup c fun x => { x with parents := x.parents.filter (· != g) })
      (part.modGroup g fun x => { x with rung := 0, clipped := false, parents := [] })
  (s.setPart p part).broadcast p g false clip

/-- Whether a group's present round holds a draft of one of the layers, twins counted as their layers (R54, R277). -/
def State.holdsLayer (s : State) (p h : Nat) (layers : List Nat) : Bool :=
  let part := s.part p
  (part.group h).closures.any (fun c => decide (c.layer ∈ layers)) || (s.roundTasks p h).any fun t => decide (part.twin (tagLayer t.tag) ∈ layers)

/-- The groups that a discard of a group takes with it: those that hold open drafts of a layer that rises (R54), and every descendant whose
round has begun (R86). -/
def State.discardedWith (s : State) (p g : Nat) (layers : List Nat) : List Nat :=
  let sec := (s.part p).sec
  let alike := (sec.groups.map Prod.fst).filter fun h => h != g && s.holdsLayer p h layers
  let below := (g :: alike).flatMap fun h => (secBelow sec h).filter fun d => s.active p d
  (alike ++ below).dedup.filter (· != g)

/-- A discard with its cascade (R54, R86). Groups that hold open drafts of a layer that rises are discarded whole (DEDUCED, entry 71). -/
def State.discardGroup (s : State) (p g : Nat) (overflow clip : Bool) : State :=
  let layers := if overflow then ((s.part p).risen g) else []
  let others := s.discardedWith p g layers
  let r := if overflow then s.escalate p g else (s, true)
  if r.2 then others.foldl (fun s d => s.discardOne p d false) (r.1.discardOne p g clip) else r.1

/-- Whether a group's round raised the overflow flag, here or on a REMOTE peer (R53, R84). -/
def Group.overflow (x : Group) : Bool := !(flagged x.closures).isEmpty || x.flags.any fun f => f.2.1 == x.round && f.2.2

/-- Whether a CLIP group's clip scalar asks for a discard (R84). -/
def Part.clipBad (part : Part) (g : Nat) : Bool :=
  (part.groupCfg g).clip && !(part.group g).clipped && part.clip != some 0x3F800000

/-- Whether all that a verdict of a group needs is in (R84, R289). -/
def Part.verdictReady (part : Part) (g : Nat) : Bool :=
  let x := part.group g
  let cfg := part.groupCfg g
  !x.closures.isEmpty && decide (cfg.expected ≤ x.closures.length) && x.toApply.isEmpty && x.slicesToApply.isEmpty
    && x.parents.isEmpty && part.unchecked == 0
    && cfg.remote.all (fun d => x.flags.any fun f => f.1 == d && f.2.1 == x.round)
    && (!cfg.clip || x.clipped || part.clip.isSome)

/-- Whether a commit is held: until the boundary of the step before (R22, R84), or until a consuming device has acknowledged a rung
(R267). -/
def Part.commitHeld (part : Part) (g : Nat) : Bool :=
  decide (part.step < part.openStep) || (part.group g).closures.any fun c => part.rungWait.any fun w => w.1 == c.layer

/-- Verdicts formed for those of a list of groups that are ready, and for the children that a commit frees (R84). The flags of drafts that the clip
scalar discards are dropped with them (R51, R53). -/
def State.tryVerdicts (s : State) (p : Nat) : Nat → List Nat → State
  | 0, _ => s
  | _, [] => s
  | fuel + 1, g :: gs =>
    let part := s.part p
    if part.job == .running && part.verdictReady g then
      if (part.group g).overflow || part.clipBad g then
        (s.discardGroup p g ((part.group g).overflow && !part.clipBad g) (part.clipBad g)).tryVerdicts p fuel gs
      else if part.commitHeld g then s.tryVerdicts p fuel gs
      else (s.commitGroup p g).tryVerdicts p fuel (gs ++ secChildren part.sec g)
    else s.tryVerdicts p fuel gs

/-- Every group of a partition looked at (R84). -/
def State.allVerdicts (s : State) (p : Nat) : State := s.tryVerdicts p 1024 ((s.part p).sec.groups.map Prod.fst)

/-! ### Closures (R84, R265) -/

/-- The provisional records of a CLIP group (R154): the G copies of its layers added in the order of R155, one record a layer. -/
def State.provisional (s : State) (p g : Nat) : List NormRec :=
  let part := s.part p
  let copies := (s.seatedOf p).flatMap fun c =>
    ((tget {} s.cores c).tapDrafts.filter fun t => t.1 == g).map fun t => (t.2.1, c, t.2.2.g)
  (((copies.map fun x => x.1).dedup).mergeSort (· ≤ ·)).map fun layer =>
    let v := (copies.filter fun x => x.1 == layer).foldl (fun (acc : W32) x =>
      srAdd acc (decodeFloat 5 x.2.2.toNat) (roundDraw part.roundKey.toNat part.position layer 3 1 x.2.1 (3 * layer + 1))) 0
    { w := 0, g := v, u := 0, layer := layer, provisional := true }

/-- What follows once all closures of a group are in: this device's flag for the REMOTE peers (R53, R303), and a CLIP group's provisional
norm for the Prefect and the Deputy (R154, R306). -/
def State.closuresIn (s : State) (p g : Nat) : State :=
  let part := s.part p
  let x := part.group g
  let cfg := part.groupCfg g
  if x.closures.length < cfg.expected || x.flagSent then s
  else
    let s := s.setPart p (part.modGroup g fun x => { x with flagSent := true })
    let s := s.sendBells cfg.remote p (msgFlag g (!(flagged x.closures).isEmpty) x.round part.openStep)
    if cfg.clip && !x.clipped then
      let recs := s.provisional p g
      if recs = [] then s else s.sendPackets s.superiors { cls := 0x22, part := p, norm := recs, arg := BitVec.ofNat 64 part.step }
    else s

/-- A closure taken in (R84): one of a round already discarded is dropped, and one of the next round is held until the verdict has been
applied everywhere (R265). -/
def State.closure (s : State) (p g : Nat) (cl : Closure) (att : Nat) : State :=
  let part := s.part p
  let x := part.group g
  if x.att != att then s
  else if !(x.toApply.isEmpty && x.slicesToApply.isEmpty) then s.setPart p (part.modGroup g fun x => { x with next := x.next ++ [cl] })
  else
    let part := part.modGroup g fun x => { x with closures := x.closures ++ [{ cl with layer := part.twin cl.layer }] }
    let s := s.setPart p part
    let live := (secChildren part.sec g).filter fun c => !(s.roundTasks p c).isEmpty
    let s := live.foldl (fun s c => s.modPart p fun pt => pt.modGroup c fun x => { x with parents := addOnce x.parents g }) s
    (s.closuresIn p g).tryVerdicts p 1024 [g]

/-- A committed task noted where it is a U task of the step's last micro-batch (R269). -/
def Part.noteU (part : Part) (q : Stream) (tag : W32) : Part :=
  if q == .U && tagMb tag + 1 == (part.image.getD {}).microBatches then { part with lastU := tmod 0 part.lastU (tagLayer tag) (· + 1) } else part

/-- A verdict applied at one core or slice; once it has been applied everywhere the held closures of the next round come in (R265). -/
def State.applied (s : State) (p g : Nat) : State :=
  let x := (s.part p).group g
  if x.toApply.isEmpty && x.slicesToApply.isEmpty then
    let s := s.modPart p fun part => part.modGroup g fun x => { x with next := [], verdict := none }
    let s := x.next.foldl (fun s cl => s.closure p g cl x.att) s
    s.tryVerdicts p 1024 [g]
  else s

end Sys2Proof.Machine
end

