-- ==== Sys2Proof/Machine/KvCache.lean ====
section
/-! DEFINITION. The key-value commands of the attention pipe (R178 to R182, R193): KV_APPEND and KV_LOAD, the admission of an append, the
blocks by which frames travel, and the allocator's answers. -/

namespace Sys2Proof.Machine

open Sys2Proof

/-! ### The record of a key-value command (Table 4 of chapter 6) -/

/-- SEQ [291:282]. -/
def kvSeq (r : Nat) : Nat := bits r 282 10
/-- LAYER_SLOT [299:292]. -/
def kvLayer (r : Nat) : Nat := bits r 292 8
/-- HEAD [305:300]. -/
def kvHead (r : Nat) : Nat := bits r 300 6
/-- START [323:306]. -/
def kvStart (r : Nat) : Nat := bits r 306 18
/-- COUNT [329:324] plus 1. -/
def kvCount (r : Nat) : Nat := bits r 324 6 + 1
/-- LIMIT [348:330]. -/
def kvLimit (r : Nat) : Nat := bits r 330 19
/-- FIRST_PAGE [360:349]. -/
def kvFirstPage (r : Nat) : Nat := bits r 349 12

/-! ### KV_APPEND: reading and quantising the rows (R178) -/

/-- One row quantised block by block along the head dimension (R38, R39, R175): element encodings, block scale bytes, and whether a block
takes the NaN scale or a value before it left FP32. -/
def kvQuantise (t : Nat) (coarse : FV) (row : List FV) : List Nat × List Nat × Bool × Bool × Bool :=
  let y := row.map fun x => x.mul (FV.fn 3 coarse)
  let blocks := (upFrom 0 (ceilDiv row.length 32)).map fun b => (y.drop (32 * b)).take 32
  let scales := blocks.map fun b => blockScale t (b.map fun v => v.v)
  let enc := (blocks.zip scales).flatMap fun b => b.1.map fun v => quantise t 0 b.2 v.v
  (enc.map fun c => c.bits, scales, y.any fun v => v.out, y.any (fun v => v.spec) || enc.any (fun c => c.spec), scales.any (· == 255))

/-- The rows of an append as the cache stage quantises them, with the flags they raise (R52). -/
def Issue.kvRows (i : Issue) (k : KvPool) : List KvRow × List (Nat × Nat) :=
  let r := i.attnRec
  let n := kvCount r
  let d := k.hdim
  let pos := i.posWords (bits r 156 20) n
  let ks := i.matBlock (i.atAddr 0) (atKv i.n) n d
  let ks := if atRopeK i.n then i.rotate (bit r 237) pos ks else ks
  let vs := i.matBlock (i.atAddr 1) (atKv i.n) n d
  let coarse := k.table.getD (kvLayer r) (0, 0, 0)
  let qk := ks.map (kvQuantise k.type (FV.of (decodeFloat 5 coarse.2.1.toNat)))
  let qv := vs.map (kvQuantise k.type (FV.of (decodeFloat 5 coarse.2.2.toNat)))
  let all := qk ++ qv
  let top := if i.rung = 0 then 0 else 9
  let flags := addFlags (addFlags (flagIf (all.any fun x => x.2.2.1) 2 top) (flagIf (all.any fun x => x.2.2.2.1) 3 top))
    (flagIf (all.any fun x => x.2.2.2.2) 5 top)
  (((qk.zip qv).zip pos).map fun x =>
    { k := x.1.1.1, kScale := x.1.1.2.1, v := x.1.2.1, vScale := x.1.2.2.1, word := BitVec.ofNat 64 x.2 }, flags)

/-- The request that an issuing key-value command makes. -/
def Issue.kvReq (i : Issue) (k : KvPool) (load : Bool) : KvReq :=
  let r := i.attnRec
  { id := k.nextReq, core := i.c, seq := i.q, order := i.task.order, load := load, slot := kvSeq r, layerSlot := kvLayer r, head := kvHead r
    start := kvStart r, count := kvCount r, limit := kvLimit r, firstPage := kvFirstPage r, addr := i.atAddr 2
    rows := if load then [] else (i.kvRows k).1, draft := i.draft }

/-- The effect of a key-value command's issue on its core: the cache stage takes it (R158), and its reads and writes count for later
operations (R129). -/
def kvTry (load : Bool) (i : Issue) : Try :=
  if i.core.attn.length ≥ 2 then .wait (seqUnit i.q) 1
  else
    let r := i.attnRec
    let d := atDim i.n
    let n := kvCount r
    match i.part.pool with
    | none => .eff { core := i.core, units := [(10, 0)], stallUnit := 13 }
    | some k =>
      if load then
        .eff { core := i.core, reads := [i.rangeRec 64], units := [(10, 0)], port := true, base := k.nextReq, stallUnit := 13
               later := [byteRange (i.atAddr 2) (n * k.frameSize)] }
      else
        .eff { core := i.core, flags := (i.kvRows k).2, units := [(10, 0)], port := true, base := k.nextReq, stallUnit := 13
               reads := [tileRange false (i.atAddr 0) (i.typeAt (i.atAddr 0) (atKv i.n)) n d,
                         tileRange false (i.atAddr 1) (i.typeAt (i.atAddr 1) (atKv i.n)) n d,
                         byteRange (bits r 156 20) (8 * n), i.rangeRec 64] ++ i.freqRange (atRopeK i.n) }

/-! ### Blocks of frames (R193) -/

/-- Whether a request is the command that its core's pipe is working on: the pipe runs one command at a time (R158). -/
def State.kvFront (s : State) (r : KvReq) : Bool :=
  match (s.core r.core).attn with
  | u :: _ => u.port && u.base == r.id
  | [] => false

/-- Whether a request names a place that the pool has. -/
def KvPool.has (k : KvPool) (r : KvReq) : Bool := decide (r.slot < k.slots) && decide (r.layerSlot < k.layers) && decide (r.head < k.heads)

/-- The stream of a core's key-value route for a frame's home slice. -/
def State.kvStream (s : State) (p c addr : Nat) (load : Bool) : Nat :=
  let x := (s.core c).cfg.kvRoute.getD (s.homeOfPage p (addr / pageBytes) - 32 * p) (0, 0)
  if load then x.1 else x.2

/-- The bytes of a frame that one appended position changes, by byte offset: elements, position word and block scales (Table 9). -/
def KvPool.rowBytes (k : KvPool) (r : Nat) (x : KvRow) : List (Nat × Byte) :=
  let elems (which : Nat) (l : List Nat) : List (Nat × Byte) :=
    if typeBits k.type = 4 then
      (upFrom 0 (l.length / 2)).map fun c => (k.elemByte which r (2 * c), BitVec.ofNat 8 (l.getD (2 * c) 0 % 16 + l.getD (2 * c + 1) 0 % 16 * 16))
    else (l.zip (upFrom 0 l.length)).map fun c => (k.elemByte which r c.2, BitVec.ofNat 8 c.1)
  let scales (which : Nat) (l : List Nat) : List (Nat × Byte) :=
    (l.zip (upFrom 0 l.length)).map fun c => (k.scaleAt which r c.2, BitVec.ofNat 8 c.1)
  elems 0 x.k ++ elems 1 x.v ++ (upFrom 0 8).map (fun b => (k.wordByte r + b, BitVec.ofNat 8 (x.word.toNat / 256 ^ b)))
    ++ scales 0 x.kScale ++ scales 1 x.vScale

/-- Bytes gathered into the 128-byte units that hold them, in ascending order. -/
def unitsOf (l : List (Nat × Byte)) : List (Nat × SMap (Option Byte)) :=
  let us := ((l.map fun x => x.1 / 128).dedup).mergeSort (· ≤ ·)
  us.map fun u => (u, tsetAll none [] ((l.filter fun x => x.1 / 128 == u).map fun x => (x.1 % 128, some x.2)))

/-- The store block of one page of an append. -/
def KvPool.storeBlock (k : KvPool) (r : KvReq) (g f : Nat) : KvBlock :=
  let bytes := (r.rows.zip (upFrom r.start r.count)).flatMap fun x => if x.2 / 64 = g then k.rowBytes (x.2 % 64) x.1 else []
  let data := unitsOf bytes
  { store := true, units := data.length, mem := k.frameAddr f, data := data, req := r.id }

/-! ### Admission (R178, R179) -/

/-- The requests of a pool with one replaced. -/
def KvPool.setReq (k : KvPool) (r : KvReq) : KvPool := { k with reqs := k.reqs.map fun x => if x.id == r.id then r else x }

/-- A request ended. -/
def KvPool.endReq (k : KvPool) (id : Nat) : KvPool := { k with reqs := k.reqs.filter fun x => x.id != id }

/-- A pool replaced. -/
def State.setPool (s : State) (p : Nat) (k : KvPool) : State := s.modPart p fun part => { part with pool := some k }

/-- Whether a request may be applied to its slot as it stands (R178, R180): an append starts at or below LENGTH, a load has an ended slot or
LIMIT positions. -/
def KvPool.applies (k : KvPool) (r : KvReq) : Bool :=
  if r.load then (k.slot r.slot).st == 3 || decide (r.limit ≤ (k.slot r.slot).length) else decide (r.start ≤ (k.slot r.slot).length)

/-- Whether a request's page is also one of another request's. -/
def KvReq.meets (r x : KvReq) : Bool :=
  r.layerSlot == x.layerSlot && r.head == x.head &&
    (let pages (y : KvReq) : Nat × Nat := if y.load then (y.firstPage, y.firstPage + y.count - 1) else (y.start / 64, (y.start + y.count - 1) / 64)
     overlaps (pages r) (pages x))

/-- Whether a slot's controller may apply a request now (R181): of the waiting requests that may be applied, the earlier come first; and no page that
an append writes is met by another request until the append is complete, nor truncated under one. -/
def State.kvTurn (s : State) (k : KvPool) (r : KvReq) : Bool :=
  !((k.reqs.takeWhile fun x => x.id != r.id).any fun x => x.slot == r.slot && !x.admitted && s.kvFront x && k.applies x) &&
  !(k.reqs.any fun x => x.id != r.id && x.slot == r.slot && x.admitted &&
      ((!(r.load && x.load) && r.meets x) || (!r.load && decide (r.start < (k.slot r.slot).length))))

/-- The frame that an append's page has: one the group has taken, or the table's, unless the append's own truncation frees it (R178, R179). -/
def KvPool.pageFrame (k : KvPool) (view : List Nat) (r : KvReq) (g : Nat) : Option Nat :=
  let e := k.entry r.slot r.layerSlot r.head g
  match r.draft with
  | none => k.frameOf view e
  | some _ =>
    match k.draftFrames.find? fun x => decide (x.1 ∈ view) && x.2.1 == e with
    | some x => some x.2.2
    | none => if r.start < (k.slot r.slot).length && decide (r.start ≤ g * 64) then none else k.frameOf view e

/-- Frames given to the pages of an append that have none. -/
def KvPool.giveFrames (k : KvPool) (view : List Nat) (r : KvReq) (gs : List Nat) : KvPool :=
  gs.foldl (fun (k : KvPool) g =>
    match k.pageFrame view r g, k.free with
    | none, f :: rest =>
      let e := k.entry r.slot r.layerSlot r.head g
      match r.draft with
      | none => { k with free := rest, table2 := tset 0 k.table2 e (f + 1) }
      | some gr => { k with free := rest, draftFrames := k.draftFrames ++ [(gr, e, f)] }
    | _, _ => k) k

/-- An append that has its frames: its store blocks wait to be launched. -/
def State.kvAdmitted (s : State) (p : Nat) (k : KvPool) (view : List Nat) (r : KvReq) : State :=
  let k := k.giveFrames view r r.pages
  let blocks := r.pages.filterMap fun g => match k.pageFrame view r g with
    | some f => some (s.kvStream p r.core (k.frameAddr f) false, k.storeBlock r g f)
    | none => none
  s.setPool p (k.setReq { r with admitted := true, noFrame := false, blocks := blocks, left := blocks.length })

/-- An append that ends without writing. -/
def State.kvDropped (s : State) (p : Nat) (k : KvPool) (id : Nat) : State := s.setPool p (k.endReq id)

/-- An append admitted, made to wait, or ended without writing (R178, R181, R182). -/
def State.kvAdmit (s : State) (p : Nat) (r : KvReq) : State :=
  let part := s.part p
  match part.pool with
  | none => s
  | some k =>
    if r.load || r.admitted || !s.kvFront r then s
    else if !k.has r || (k.slot r.slot).st != 1 || decide (k.maxp * 64 < r.start + r.count) then
      s.kvDropped p { k with notOpen := satInc32 k.notOpen } r.id
    else
      let view := part.viewOf r.draft
      let len := (k.slot r.slot).length
      if len < r.start || !s.kvTurn k r then s
      else
        let k := if r.draft.isNone && decide (r.start < len) then k.truncate r.slot r.start else k
        let need := (r.pages.filter fun g => (k.pageFrame view r g).isNone).length
        let before := (k.reqs.takeWhile fun x => x.id != r.id).any fun x => x.noFrame
        if need = 0 || (decide (need ≤ k.free.length) && !before) then s.kvAdmitted p k view r
        else s.setPool p (k.setReq { r with noFrame := true, since := if r.noFrame then r.since else s.tick })

/-! ### Loads (R180) -/

/-- The writes that make positions `from` to 63 of a frame image padding: position words, zero data and zero scales. -/
def KvPool.padWrites (k : KvPool) (spad first : Nat) : List Wr :=
  let base := spad * 16
  (upFrom first (64 - first)).flatMap fun r =>
    ((8 * (base + k.wordByte r), 64, 0xFFFF * 2 ^ 48) : Wr) ::
      ((upFrom 0 2).flatMap fun w =>
        ((upFrom 0 k.hdim).filterMap fun c => if typeBits k.type = 4 && c % 2 = 1 then none else some ((8 * (base + k.elemByte w r c), 8, 0) : Wr))
          ++ (upFrom 0 k.rowBlocks).map fun b => ((8 * (base + k.scaleAt w r b), 8, 0) : Wr))

/-- A whole frame image of padding: every byte zero but for the position words. -/
def KvPool.padImage (k : KvPool) (spad : Nat) : List Wr :=
  ((upFrom 0 (k.frameSize / 8)).map fun w => ((8 * (spad * 16 + 8 * w), 64, 0) : Wr)) ++ k.padWrites spad 0

/-- Whether a core's draft map holds a write of a group's task, or of a fair one, to the lines (R80). -/
def Core.heldLines (core : Core) (group : Option Nat) (lines : List Nat) : Bool :=
  core.drafts.any fun d => decide (d.line ∈ lines) && some d.group != group

/-- A load that has met its LIMIT: padding images are written at once, and the blocks of its other frames wait to be launched (R180, R193). -/
def State.kvLoadStart (s : State) (p : Nat) (k : KvPool) (r : KvReq) : State :=
  let view := (s.part p).viewOf r.draft
  let place (i : Nat) : Nat := r.addr + i * (k.frameSize / 16)
  let frame (i : Nat) : Option Nat :=
    let g := r.firstPage + i
    if k.has r && decide (g < k.maxp) then k.frameOf view (k.entry r.slot r.layerSlot r.head g) else none
  let pads := (upFrom 0 r.count).flatMap fun i => if (frame i).isNone then k.padImage (place i) else []
  if (s.core r.core).heldLines r.draft (writeLines pads) then s
  else
    let blocks := (upFrom 0 r.count).filterMap fun i => (frame i).map fun f =>
      (s.kvStream p r.core (k.frameAddr f) true,
        ({ store := false, units := k.frameSize / 128, mem := k.frameAddr f, spad := place i, req := r.id
           keep := min 64 (r.limit - (r.firstPage + i) * 64) } : KvBlock))
    let s := s.modCore r.core fun core => core.putAll r.draft view none pads
    if blocks = [] then s.setPool p (k.endReq r.id)
    else s.setPool p (k.setReq { r with admitted := true, blocks := blocks, left := blocks.length })

/-! ### Launching blocks, and their end -/

/-- What one waiting request may do now: a load starts once its slot has ended or holds LIMIT positions (R180), and the next block of an
admitted request is launched where its stream has room (R191). -/
def State.kvPumpOne (s : State) (p id : Nat) : State :=
  let part := s.part p
  match part.pool with
  | none => s
  | some k =>
    match k.reqs.find? fun r => r.id == id with
    | none => s
    | some r =>
      if r.admitted then
        match r.blocks with
        | [] => s
        | (st, b) :: rest =>
          if (tget {} part.streams st).pending.length < 4 then
            (s.setPool p (k.setReq { r with blocks := rest })).launch p st r.draft r.core r.seq r.order (some b)
          else s
      else if r.load && s.kvFront r && k.applies r && s.kvTurn k r then s.kvLoadStart p k r
      else s

/-- Every request of a partition's pool looked at once. -/
def State.kvPump (s : State) (p : Nat) : State :=
  match (s.part p).pool with
  | none => s
  | some k => k.reqs.foldl (fun s r => s.kvPumpOne p r.id) s

/-- A key-value block has been delivered: the padding of a loaded frame is written, and with its last block the request ends (R178, R180). -/
def State.kvBlockDone (s : State) (p : Nat) (l : Launch) (b : KvBlock) : State :=
  match (s.part p).pool with
  | none => s
  | some k =>
    match k.reqs.find? fun r => r.id == b.req with
    | none => s
    | some r =>
      let s := if b.store then s else s.modCore l.core fun core =>
        core.putAll l.group ((s.part p).viewOf l.group) none (k.padWrites b.spad b.keep)
      let r := { r with left := r.left - 1 }
      let s :=
        if r.left = 0 && r.blocks = [] then
          let k := k.endReq r.id
          s.setPool p (if r.load then k else match r.draft with
            | some _ => { k with draftReqs := k.draftReqs ++ [r] }
            | none => if (k.slot r.slot).st = 1 then k.wrote r else k)
        else s.setPool p (k.setReq r)
      s.kvPump p

/-- KV_APPEND_ADMIT (R178): request number `n` of those that wait in a partition's pool. -/
def execKvAppendAdmit (p n : Nat) (s : State) : Host.Outcome State Fault Refusal :=
  .next (match (s.part p).pool with
    | none => s
    | some k => match k.reqs[n]? with
      | none => s
      | some r => (s.kvAdmit p r).kvPump p)

/-! ### The allocator (R182) -/

/-- The slot that a frame shortage reclaims: the PARKED one of smallest PARK_BEAT, then lowest. -/
def KvPool.reclaim (k : KvPool) : Option Nat :=
  let l := (upFrom 0 k.slots).filter fun n => (k.slot n).st == 2
  match l with
  | [] => none
  | a :: r => some (r.foldl (fun x n => if (k.slot n).parkBeat < (k.slot x).parkBeat then n else x) a)

/-- The page that firmware takes for a pool: any page that is neither allocated nor otherwise in use. -/
def Part.freePoolPage (part : Part) : Nat :=
  let used := part.pages.map Prod.fst
  let free (pg : Nat) : Bool := decide (pg < rangePages) && (part.page pg).st == .unmapped
  let x := Config.poolPage used % rangePages
  if free x then x else ((upFrom 0 (used.length + 1)).find? free).getD 0

/-- One page of 2 MiB added to a partition's pool, with a frame charged to the HBM quota (R173). -/
def State.addPoolPage (s : State) (p : Nat) (k : KvPool) : Option (State × KvPool) :=
  let part := s.part p
  let pg := part.freePoolPage
  let tables := part.newTables pg 1
  let h := s.stackOfPage p pg
  if part.quotaOf 2 < part.useOf 2 + tables.length + 1 then none
  else
  match s.takeTables p tables with
  | none => none
  | some s =>
  match (s.stack h).pickFrame h with
  | none => none
  | some f =>
    let s := s.takeFrame h f
    let s := (s.modPart p fun part => part.charge 2 1).setPage p pg { st := .hbm, frame := f }
    let first := k.pages.length * k.perPage
    some (s, { k with pages := k.pages ++ [pg], free := k.free ++ upFrom first k.perPage })

/-- NO_PAGE: the slot of a waiting append ends, and the append completes without writing; the event carries the slot and its SEQ_TAG. -/
def State.kvNoPage (s : State) (p : Nat) (k : KvPool) (r : KvReq) : State :=
  let d := k.slot r.slot
  let k := (k.modSlot r.slot fun d => { d with st := 3, endStatus := stNoPage }).endReq r.id
  (s.setPool p k).partEvent p 0x0002 (packList [(2, r.slot), (4, d.tag)])

/-- KV_ALLOCATOR_ANSWER (R182): firmware grows the pool, reclaims a parked slot, or ends the waiting one. -/
def execKvAllocatorAnswer (p n : Nat) (s : State) : Host.Outcome State Fault Refusal :=
  .next <| State.kvPump (p := p) (match (s.part p).pool with
    | none => s
    | some k => match k.reqs[n]? with
      | none => s
      | some r =>
        if !r.noFrame || !s.power.fwReady then s
        else
          let last (s : State) : State :=
            match k.reclaim with
            | some v => (s.setPool p (k.evict v)).kvAdmit p r
            | none => s.kvNoPage p k r
          if k.grow && decide ((s.part p).useOf 2 < (s.part p).quotaOf 2) then
            match s.addPoolPage p k with
            | some (s, k) => (s.setPool p k).kvAdmit p r
            | none => last s
          else last s)

/-- KV_ALLOCATOR_TIMEOUT (R182): with no answer within 10 ms the hardware ends the waiting slot itself. -/
def execKvAllocatorTimeout (p n : Nat) (s : State) : Host.Outcome State Fault Refusal :=
  .next (match (s.part p).pool with
    | none => s
    | some k => match k.reqs[n]? with
      | none => s
      | some r => if r.noFrame && decide (r.since + 250000 ≤ s.tick) then s.kvNoPage p k r else s)

end Sys2Proof.Machine
end

