-- ==== Sys2Proof/Machine/CoreOps.lean ====
section
/-! DEFINITION. The issue of the operations of a core's compute units (R70, R106): what each opcode tries, which stream a contested unit takes, and the
meaning of every tile, row, vector, attention and key-value operation; and the ends of operations. -/

namespace Sys2Proof.Machine

open Sys2Proof

/-! ### What an operation tries -/

/-- ROW_SUMSQ: the row sum of the rounded squares (R132). -/
def rowSumSquares (l : List FV) : FV := rowSum (l.map fun a => a.mul a)

/-- What the next operation of a task tries, by its opcode (Table 3 of chapter 4, Table 2 and Table 5 of chapter 5, Table 1 of chapter 6). -/
def tryOf (s : State) (i : Issue) : Try :=
  match opcode i.n with
  | 0x10 => cubeTry false false i | 0x11 => cubeTry true false i | 0x12 => cubeTry false true i | 0x13 => cubeTry true true i
  | 0x14 => accLoadTry i | 0x18 => drainTry i | 0x19 => drainAddTry i
  | 0x20 => attnFwd i (useFused s false i) | 0x21 => attnRecomp i (useFused s false i)
  | 0x22 => attnDs i (useFused s false i) | 0x23 => rope i (useFused s false i)
  | 0x24 => kvTry false i | 0x25 => kvTry true i
  | 0x28 => attnFwd i true | 0x29 => attnRecomp i true | 0x2A => attnDs i true | 0x2B => rope i true
  | 0x40 => rowReduce i rowSum | 0x41 => rowReduce i rowMax | 0x42 => rowReduce i rowSumSquares | 0x43 => rowFn i
  | 0x44 => softmax i | 0x45 => softmaxBwd i | 0x46 => norm i | 0x47 => normBwd i
  | 0x60 => vecBinary i Val.add | 0x61 => vecBinary i Val.sub | 0x62 => vecBinary i Val.mul | 0x63 => vecMad i
  | 0x64 => vecBinary i Val.max2 | 0x65 => vecBinary i Val.min2 | 0x66 => vecCvt i | 0x67 => vecAffine i | 0x68 => vecAddLs i
  | 0x6A => vecRand i | 0x6B => vecDrop i | 0x6C => vecPut i
  | 0x70 => optTry i true | 0x71 => optTry i false | 0x72 => optStep i
  | _ => .wait (seqUnit i.q) 1

/-! ### Competition for a unit (R70, R71, R106) -/

/-- Streams in the order of a priority code, highest first (Table 5 of chapter 3). -/
def priorityOrder : Nat → List Stream
  | 1 => [.B, .U, .F] | 2 => [.F, .B, .U] | 3 => [.F, .U, .B] | 4 => [.U, .B, .F] | 5 => [.U, .F, .B] | _ => [.B, .F, .U]

/-- Streams that rank above one under a priority code. -/
def higherStreams (code : Nat) (q : Stream) : List Stream := (priorityOrder code).takeWhile (· != q)

/-- The units that an operation takes when it issues. -/
def Try.names : Try → List Nat
  | .wait _ _ => []
  | .eff e => e.units.map Prod.fst

/-- Whether a sequencer has issued in the present arithmetic cycle; it issues at most one operation in each (R106). -/
def State.hasIssued (s : State) (c : Nat) (q : Stream) : Bool := ((s.core c).seq q).issuedAt == cycleOf s.slot

/-- The next operation of the task that a sequencer runs, whatever its opcode. -/
def State.nextIssue (s : State) (c : Nat) (q : Stream) : Option Issue :=
  let sq := (s.core c).seq q
  match sq.running with
  | none => none
  | some t => issueOf s c q (opcode (sq.instr t.pc))

/-- The units that a sequencer's next operation offers to take in the present cycle. -/
def State.offers (s : State) (c : Nat) (q : Stream) : List Nat :=
  if s.hasIssued c q then []
  else match s.nextIssue c q with
    | none => []
    | some i =>
      let t := tryOf s i
      if (i.blocked t).isNone then t.names else []

/-- The units that the operations of some streams take, the streams given highest first: each takes its own where no higher one takes any of them. -/
def State.taken (s : State) (c : Nat) (l : List Stream) : List Nat :=
  l.foldl (fun t h => let o := s.offers c h; if o.any fun u => decide (u ∈ t) then t else t ++ o) []

/-- Whether a stream of higher priority takes one of the units that an operation names (R70). -/
def State.outranked (s : State) (c : Nat) (q : Stream) (names : List Nat) : Bool :=
  (s.taken c (higherStreams (s.core c).priority q)).any fun u => decide (u ∈ names)

/-- Whether an operation issues now: its sequencer has issued none in the cycle, nothing blocks it, and no stream of higher priority takes a unit it
names. -/
def State.issues (s : State) (i : Issue) (t : Try) : Bool :=
  !s.hasIssued i.c i.q && (i.blocked t).isNone && !s.outranked i.c i.q t.names

/-- The operation of opcode `op` that a core's sequencer comes to next: it takes effect when it issues, and otherwise waits (R70). -/
def State.runOp (s : State) (c : Nat) (q : Stream) (op : Nat) (f : Issue → Try) : State :=
  match issueOf s c q op with
  | none => s
  | some i => if s.issues i (f i) then s.complete i (f i) else s

/-- An attention command: where a pipe form runs as its fused form, the site counts it as it issues (R169, R90). -/
def State.runAttn (s : State) (c : Nat) (q : Stream) (op : Nat) (f : Issue → Bool → Try) : State :=
  match issueOf s c q op with
  | none => s
  | some i =>
    let named := decide (op ≥ 0x28)
    let fused := useFused s named i
    if s.issues i (f i fused) then
      let s' := s.complete i (f i fused)
      if fused && !named then s'.modSite (s.siteOf c) fun x => { x with fusedRuns := satInc32 x.fusedRuns } else s'
    else s

/-- A key-value command: as the pipe takes it, its request waits with those of its partition. Where the partition has no pool it asks for nothing
(log entry 20). -/
def State.runKv (s : State) (c : Nat) (q : Stream) (op : Nat) (load : Bool) : State :=
  match issueOf s c q op with
  | none => s
  | some i =>
    if s.issues i (kvTry load i) then
      let s' := s.complete i (kvTry load i)
      match i.part.pool with
      | some k => s'.modPart i.p fun part => { part with pool := some { k with reqs := k.reqs ++ [i.kvReq k load], nextReq := k.nextReq + 1 } }
      | none => s'
    else s

/-! ### Tensor-engine operations (Table 3 of chapter 4) -/

/-- MMA (0x10): region := A × B. -/
def execMma (c : Nat) (q : Stream) (s : State) : Host.Outcome State Fault Refusal := .next (s.runOp c q 0x10 (cubeTry false false))

/-- MMA_ACC (0x11): region += A × B. -/
def execMmaAcc (c : Nat) (q : Stream) (s : State) : Host.Outcome State Fault Refusal := .next (s.runOp c q 0x11 (cubeTry true false))

/-- MMA_WG (0x12): as MMA, skipped for a frozen layer. -/
def execMmaWg (c : Nat) (q : Stream) (s : State) : Host.Outcome State Fault Refusal := .next (s.runOp c q 0x12 (cubeTry false true))

/-- MMA_ACC_WG (0x13): as MMA_ACC, skipped for a frozen layer. -/
def execMmaAccWg (c : Nat) (q : Stream) (s : State) : Host.Outcome State Fault Refusal := .next (s.runOp c q 0x13 (cubeTry true true))

/-- ACC_LOAD (0x14). -/
def execAccLoad (c : Nat) (q : Stream) (s : State) : Host.Outcome State Fault Refusal := .next (s.runOp c q 0x14 accLoadTry)

/-- DRAIN (0x18). -/
def execDrain (c : Nat) (q : Stream) (s : State) : Host.Outcome State Fault Refusal := .next (s.runOp c q 0x18 drainTry)

/-- DRAIN_ADD (0x19). -/
def execDrainAdd (c : Nat) (q : Stream) (s : State) : Host.Outcome State Fault Refusal := .next (s.runOp c q 0x19 drainAddTry)

/-! ### Row-unit operations (Table 2 of chapter 5) -/

/-- ROW_SUM (0x40): the row sum (R132). -/
def execRowSum (c : Nat) (q : Stream) (s : State) : Host.Outcome State Fault Refusal := .next (s.runOp c q 0x40 fun i => rowReduce i rowSum)

/-- ROW_MAX (0x41): the exact maximum (R132). -/
def execRowMax (c : Nat) (q : Stream) (s : State) : Host.Outcome State Fault Refusal := .next (s.runOp c q 0x41 fun i => rowReduce i rowMax)

/-- ROW_SUMSQ (0x42) (R132). -/
def execRowSumsq (c : Nat) (q : Stream) (s : State) : Host.Outcome State Fault Refusal := .next (s.runOp c q 0x42 fun i => rowReduce i rowSumSquares)

/-- ROW_FN (0x43) (R131). -/
def execRowFn (c : Nat) (q : Stream) (s : State) : Host.Outcome State Fault Refusal := .next (s.runOp c q 0x43 rowFn)

/-- SOFTMAX (0x44) (R134). -/
def execSoftmax (c : Nat) (q : Stream) (s : State) : Host.Outcome State Fault Refusal := .next (s.runOp c q 0x44 softmax)

/-- SOFTMAX_BWD (0x45) (R135). -/
def execSoftmaxBwd (c : Nat) (q : Stream) (s : State) : Host.Outcome State Fault Refusal := .next (s.runOp c q 0x45 softmaxBwd)

/-- NORM (0x46) (R136). -/
def execNorm (c : Nat) (q : Stream) (s : State) : Host.Outcome State Fault Refusal := .next (s.runOp c q 0x46 Sys2Proof.Machine.norm)

/-- NORM_BWD (0x47) (R137). -/
def execNormBwd (c : Nat) (q : Stream) (s : State) : Host.Outcome State Fault Refusal := .next (s.runOp c q 0x47 normBwd)

/-! ### Vector-unit operations (Table 5 of chapter 5) -/

/-- VADD (0x60). -/
def execVadd (c : Nat) (q : Stream) (s : State) : Host.Outcome State Fault Refusal := .next (s.runOp c q 0x60 fun i => vecBinary i Val.add)

/-- VSUB (0x61). -/
def execVsub (c : Nat) (q : Stream) (s : State) : Host.Outcome State Fault Refusal := .next (s.runOp c q 0x61 fun i => vecBinary i Val.sub)

/-- VMUL (0x62). -/
def execVmul (c : Nat) (q : Stream) (s : State) : Host.Outcome State Fault Refusal := .next (s.runOp c q 0x62 fun i => vecBinary i Val.mul)

/-- VMAD (0x63). -/
def execVmad (c : Nat) (q : Stream) (s : State) : Host.Outcome State Fault Refusal := .next (s.runOp c q 0x63 vecMad)

/-- VMAX (0x64). -/
def execVmax (c : Nat) (q : Stream) (s : State) : Host.Outcome State Fault Refusal := .next (s.runOp c q 0x64 fun i => vecBinary i Val.max2)

/-- VMIN (0x65). -/
def execVmin (c : Nat) (q : Stream) (s : State) : Host.Outcome State Fault Refusal := .next (s.runOp c q 0x65 fun i => vecBinary i Val.min2)

/-- VCVT (0x66). -/
def execVcvt (c : Nat) (q : Stream) (s : State) : Host.Outcome State Fault Refusal := .next (s.runOp c q 0x66 vecCvt)

/-- VAFFINE (0x67). -/
def execVaffine (c : Nat) (q : Stream) (s : State) : Host.Outcome State Fault Refusal := .next (s.runOp c q 0x67 vecAffine)

/-- VADD_LS (0x68). -/
def execVaddLs (c : Nat) (q : Stream) (s : State) : Host.Outcome State Fault Refusal := .next (s.runOp c q 0x68 vecAddLs)

/-- VRAND (0x6A). -/
def execVrand (c : Nat) (q : Stream) (s : State) : Host.Outcome State Fault Refusal := .next (s.runOp c q 0x6A vecRand)

/-- VDROP (0x6B). -/
def execVdrop (c : Nat) (q : Stream) (s : State) : Host.Outcome State Fault Refusal := .next (s.runOp c q 0x6B vecDrop)

/-- VPUT (0x6C). -/
def execVput (c : Nat) (q : Stream) (s : State) : Host.Outcome State Fault Refusal := .next (s.runOp c q 0x6C vecPut)

/-- OPT_ADAMW (0x70). -/
def execOptAdamw (c : Nat) (q : Stream) (s : State) : Host.Outcome State Fault Refusal := .next (s.runOp c q 0x70 fun i => optTry i true)

/-- OPT_SGDM (0x71). -/
def execOptSgdm (c : Nat) (q : Stream) (s : State) : Host.Outcome State Fault Refusal := .next (s.runOp c q 0x71 fun i => optTry i false)

/-- OPT_STEP (0x72). -/
def execOptStep (c : Nat) (q : Stream) (s : State) : Host.Outcome State Fault Refusal := .next (s.runOp c q 0x72 optStep)

/-! ### Attention commands (Table 1 of chapter 6) -/

/-- ATTN_FWD (0x20). -/
def execAttnFwd (c : Nat) (q : Stream) (s : State) : Host.Outcome State Fault Refusal := .next (s.runAttn c q 0x20 attnFwd)

/-- ATTN_RECOMP (0x21). -/
def execAttnRecomp (c : Nat) (q : Stream) (s : State) : Host.Outcome State Fault Refusal := .next (s.runAttn c q 0x21 attnRecomp)

/-- ATTN_DS (0x22). -/
def execAttnDs (c : Nat) (q : Stream) (s : State) : Host.Outcome State Fault Refusal := .next (s.runAttn c q 0x22 attnDs)

/-- ROPE (0x23). -/
def execRope (c : Nat) (q : Stream) (s : State) : Host.Outcome State Fault Refusal := .next (s.runAttn c q 0x23 rope)

/-- The fused form of ATTN_FWD (0x28). -/
def execAttnFwdFused (c : Nat) (q : Stream) (s : State) : Host.Outcome State Fault Refusal := .next (s.runAttn c q 0x28 attnFwd)

/-- The fused form of ATTN_RECOMP (0x29). -/
def execAttnRecompFused (c : Nat) (q : Stream) (s : State) : Host.Outcome State Fault Refusal := .next (s.runAttn c q 0x29 attnRecomp)

/-- The fused form of ATTN_DS (0x2A). -/
def execAttnDsFused (c : Nat) (q : Stream) (s : State) : Host.Outcome State Fault Refusal := .next (s.runAttn c q 0x2A attnDs)

/-- The fused form of ROPE (0x2B). -/
def execRopeFused (c : Nat) (q : Stream) (s : State) : Host.Outcome State Fault Refusal := .next (s.runAttn c q 0x2B rope)

/-- KV_APPEND (0x24). -/
def execKvAppend (c : Nat) (q : Stream) (s : State) : Host.Outcome State Fault Refusal := .next (s.runKv c q 0x24 false)

/-- KV_LOAD (0x25). -/
def execKvLoad (c : Nat) (q : Stream) (s : State) : Host.Outcome State Fault Refusal := .next ((s.runKv c q 0x25 true).kvPump (s.partOfCore c))

/-! ### The end of an operation -/

/-- ENGINE_OPERATION_DONE (R109): the oldest unfinished operation of a class of an engine ends. -/
def execEngineOperationDone (c e : Nat) (port : Bool) (s : State) : Host.Outcome State Fault Refusal :=
  .next (s.modCore c fun core => core.endOperation e port)

/-- The oldest unfinished operation of the row unit (11), the vector unit (12) or the attention pipe (13) ends (R129, R158). -/
def Core.endCompute (core : Core) (unit : Nat) : Core :=
  if unit = 11 then { core with rowUnit := core.rowUnit.drop 1 }.dropRequests (bankOrder false 8) (decide (core.rowUnit.length ≤ 1))
  else if unit = 12 then { core with vecUnit := core.vecUnit.drop 1 }.dropRequests (bankOrder false 9) (decide (core.vecUnit.length ≤ 1))
  else if unit = 13 then { core with attn := core.attn.drop 1 }.dropRequests (bankOrder false 10) (decide (core.attn.length ≤ 1))
  else core

/-- COMPUTE_UNIT_OPERATION_DONE (R129, R158); a key-value command ends once its request has (R178, R180). -/
def execComputeUnitOperationDone (c unit : Nat) (s : State) : Host.Outcome State Fault Refusal :=
  .next (if unit = 13 && s.kvWaits c then s else s.modCore c fun core => core.endCompute unit)

end Sys2Proof.Machine
end

