-- ==== Sys2Proof/Machine/Sections.lean ====
section
/-! DEFINITION. Changing sections (R91, R208 to R212), the norm table's part in it (R155), seating plans (R213, R319), roll call (R96) and
the running timetable's period boundaries (R185, R186). -/

namespace Sys2Proof.Machine

open Sys2Proof

/-! ### The close-section bell (R155, R171, R208) -/

/-- One tap of a core's entry added into the norm table under site kind 3 with STAGE 1 (R155). `k` is 0 for W, 1 for G, 2 for U. -/
def normTap (key dataPos layer c k : Nat) (acc : Option W32) (n : Nat) (v : W32) : Option W32 :=
  if n = 0 then acc
  else some (srAdd (acc.getD 0) (decodeFloat 5 v.toNat) (roundDraw key dataPos layer 3 1 c (3 * layer + k)))

/-- A core's entry of a layer added into the norm table (R155). -/
def Part.addNorm (part : Part) (c layer : Nat) (t : TapEntry) : Part :=
  let key := part.roundKey.toNat
  { part with norms := tmod {} part.norms layer fun x =>
      { w := normTap key part.position layer c 0 x.w t.nw t.w
        g := normTap key part.position layer c 1 x.g t.ng t.g
        u := normTap key part.position layer c 2 x.u t.nu t.u } }

/-- Every seated core's fair tap entries added into the norm table in ascending core order, and freed (R155). -/
def State.gatherTaps (s : State) (p : Nat) : State :=
  (s.seatedOf p).foldl (fun s c =>
    let core := s.core c
    if core.taps = [] then s else
      let part := core.taps.foldl (fun (pt : Part) e => pt.addNorm c e.1 e.2) (s.part p)
      (s.setPart p part).setCore c { core with taps := [] }) s

/-- Values of FUSED that wait for the close-section bell taken (R171). -/
def State.takeFused (s : State) (p : Nat) : State :=
  { s with sites := s.sites.map fun e =>
      if s.partOfSite e.1 = p then
        (e.1, match e.2.fusedNext with | some f => { e.2 with fused := f, fusedNext := none } | none => e.2)
      else e }

/-- The first multiple of 16 that is at least `F` + 128 (R208). -/
def switchSlotOf (F : Nat) : Nat := (F + 128 + 15) / 16 * 16

/-- The change to section `k` begun (R208): CLOSE goes to every core of the partition that is seated, naming the new epoch and the switch
slot. -/
def State.beginChange (s : State) (p k : Nat) : State :=
  let at' := switchSlotOf s.slot
  let part := s.part p
  let s := (s.seatedOf p).foldl (fun s c => s.modCore c fun core => { core with inbox := core.inbox ++ [.close ((part.epoch + 1) % 64) at'] }) s
  s.setPart p { part with sect := .closing, switchAt := at', nextSection := k, ended := [] }

/-- Sections of the image, in the order in which a step runs them. -/
def Part.sectionCount (part : Part) : Nat := match part.image with | some im => im.sections.length | none => 0

/-- The indices of the sections with which a step begins (R22): the first section of the image, and each whose section table states another step than
the section before it. -/
def Part.firstSections (part : Part) : List Nat :=
  let ss := match part.image with | some im => im.sections.map Section.step | none => []
  (upFrom 0 ss.length).filter fun i => i == 0 || ss.getD i 0 != ss.getD (i - 1) 0

/-- The first section of step number `t`: the image's runs of sections follow one another, cyclically (DEDUCED, entry 64). -/
def Part.firstSection (part : Part) (t : Nat) : Nat := part.firstSections.getD (t % max 1 part.firstSections.length) 0

/-- Whether the open section is the last of its step (R22). -/
def Part.lastOfStep (part : Part) : Bool :=
  decide (part.sectionCount ≤ part.section_ + 1) || part.firstSections.contains (part.section_ + 1)

/-- The change to the first section of step number `t` begun, with the step's data position (R144). -/
def State.beginStep (s : State) (p t : Nat) : State :=
  (s.modPart p fun part => { part with openStep := t, openPos := part.firstCursor t
                                       dataPos := if part.step = t then part.firstCursor t else part.dataPos }).beginChange p ((s.part p).firstSection t)

/-- Whether the run goes on after the running step (R379). -/
def Part.goesOn (part : Part) : Bool := !part.stopAsked && (part.runSteps == 0 || decide (part.stepsDone + 1 < part.runSteps))

/-- The close-section bell (R208): the norm table takes the taps, and the next section's change begins; after the last section of a step
the first one of the next step opens early where the run goes on (R22). -/
def State.closeSection (s : State) (p : Nat) : State :=
  let s := (s.gatherTaps p).takeFused p
  let part := s.part p
  if !part.lastOfStep then s.beginChange p (part.section_ + 1)
  else
    let s := s.modPart p fun part => { part with stepClosed := true }
    if part.goesOn && !part.fwHold then s.beginStep p (part.openStep + 1)
    else s.modPart p fun part => { part with sect := .closed }

/-! ### The switch slot (R208, R210, R213) -/

/-- The tokens left in a core's queues, in ascending queue and arrival order, with their queues (R210). -/
def Core.leftovers (core : Core) : List (Nat × Tok) :=
  (upFrom 0 16).flatMap fun q =>
    ((core.queue q ++ core.clipToks.filter fun t => t.tok.queue == q).map fun t => (q, t.tok))

/-- Whether a cloakroom has room for another token: it holds 4,096, spilled and late ones together (R210, R212). -/
def Cloak.room (k : Cloak) : Bool := decide (k.toks.length + k.late.length < 4096)

/-- One token spilled to a cloakroom, or discarded and counted when it is full (R210). -/
def Cloak.spill (k : Cloak) (col q : Nat) (t : Tok) : Cloak :=
  if k.room then { k with toks := k.toks ++ [(col, q, t)], counts := bump k.counts 0 }
  else { k with counts := bump k.counts 3 }

/-- A row's tokens spilled, cores in ascending logical column (R210). -/
def State.spillRow (s : State) (r : Nat) : State :=
  (upFrom 0 48).foldl (fun s col =>
    let c := r * 48 + col
    let l := (tget {} s.cores c).leftovers
    if l = [] then s
    else
      (s.modCloak r fun k => l.foldl (fun (k : Cloak) t => k.spill col t.1 t.2) k).modCore c fun core =>
        { core with queues := [], clipToks := [] }) s

/-- An engine with no block live (R113). -/
def Engine.clear (e : Engine) : Engine := { e with live := [], resident := [], frames := [] }

/-- A seating plan put into effect in a row (R213, R95): each logical position that moves starts empty at its new site, with its generation
raised. -/
def State.reseatRow (s : State) (p r : Nat) : State :=
  let old := tget [] (s.part p).failed r
  let new := tget [] (s.part p).failedNext r
  if new = [] || new = old then s
  else
    let moved := (upFrom 0 48).filter fun col => physicalCol col old != physicalCol col new
    let s := moved.foldl (fun s col => s.modCore (r * 48 + col) fun core =>
      { ({} : Core) with power := .running, seated := core.seated, gen := (core.gen + 1) % 256, stalls := core.stalls
                         dropGen := core.dropGen, dropDraft := core.dropDraft, dropGroup := core.dropGroup, wallDrops := core.wallDrops }) s
    s.modPart p fun part => { part with failed := tset [] part.failed r new }

/-- The switch slot (R208): the epoch rises, the old timetable stops, no accumulator block is live, the new priority holds, the groups are
clear (R83), leftover tokens spill (R210), prefetch of the new section starts (R251), and, where a step begins, the seating plan takes effect
(R319). -/
def State.switch (s : State) (p : Nat) : State :=
  let s := (s.rowsOf p).foldl (fun s r => s.spillRow r) s
  let s := s.modPart p fun part =>
    let part := { part with section_ := part.nextSection, epoch := (part.epoch + 1) % 64, sect := .windowA, groups := [], streams := [], linkBlocks := []
                            flits := [], credits := [], armed := [], ended := [] }
    let sec := part.sec
    let pages := sec.prefetch.flatMap fun w => match part.image with
      | some im => match im.windows[w]? with
        | some c => (upFrom c.firstPage c.pages).filter fun pg => (part.page pg).st == .far
        | none => []
      | none => []
    { part with startAt := part.switchAt + 512 + sec.load, prefetch := pages }
  let prio := ((s.part p).sec).priority
  let s := (s.coresOf p).foldl (fun s c =>
    let core := tget {} s.cores c
    if core == {} then s
    else s.setCore c { core with priority := prio, engines := core.engines.map fun e => (e.1, e.2.clear), outToks := [], kept := [] }) s
  if (s.part p).firstSections.contains (s.part p).section_ then (s.rowsOf p).foldl (fun s r => s.reseatRow p r) s else s

/-- The flit schedules of the new section's link table loaded (R294). -/
def State.loadLinks (s : State) (p : Nat) : State :=
  let links := (s.part p).sec.links
  (s.portsOf p).foldl (fun s l =>
    let x := tget {} s.ports l
    let sched := tget {} links l
    if x.sched == sched then s else s.setPort l { x with sched := sched, three := x.st == 3 && sched.three.isSome }) s

/-- SWITCH_SLOT (R208). -/
def execSwitchSlot (p : Nat) (s : State) : Host.Outcome State Fault Refusal :=
  .next (if (s.part p).sect == .closing && decide ((s.part p).switchAt ≤ s.slot) then (s.switch p).loadLinks p else s)

/-! ### Window B (R209) and roll call (R96) -/

/-- A sequencer at the start of a section (R451). -/
def freshSeq (prog : List (BitVec 128)) (ctx : SMap (BitVec 256)) : Seq := { prog := prog, ctx := ctx }

/-- A core with a section configuration and its stream priority loaded (R71, R96, R209, R451): queues, windows, credits and edges start anew; scratchpad and accumulators
keep what they hold. -/
def Core.load (core : Core) (cfg : CoreCfg) (prio : Nat) : Core :=
  { core with
    cfg := cfg, priority := prio, seated := true, valid := true, rollCall := none
    seqF := freshSeq cfg.progF cfg.ctxF, seqB := freshSeq cfg.progB cfg.ctxB, seqU := freshSeq cfg.progU cfg.ctxU
    queues := [], credits := [], outToks := [], kept := [], owed := [], lastTok := [], lastCredit := [], atts := [], openDrafts := []
    fired := [], clipToks := [], drafts := [], taps := [], tapDrafts := [], inbox := [], idle := 0
    routerWaits := [], endSent := false }

/-- A core that the open section does not seat: it has no part in it. -/
def Core.unseat (core : Core) : Core :=
  { core with seated := false, valid := false, rollCall := none, cfg := {}, seqF := {}, seqB := {}, seqU := {}, queues := [], credits := []
              outToks := [], kept := [], owed := [], openDrafts := [], drafts := [], clipToks := [], inbox := [] }

/-- A core's section configuration as its pin window holds it (R209, R223): none with an uncorrectable error in it; where the job has stored over it, what
that leaves is open (entry 95). -/
def State.cfgRead (s : State) (p c : Nat) : Option CoreCfg :=
  let part := s.part p
  let cfg := tget {} part.sec.cores c
  match (part.image.getD {}).pins[cfg.cfgWindow]? with
  | none => some cfg
  | some w =>
    let sl := s.slice w.slice
    let first := pinByte w (w.base + cfg.cfgOffset)
    let inside (k : Nat) : Bool := decide (first < 64 * k + 64) && decide (64 * k < first + cfg.cfgSize)
    if sl.pinBad.any inside then none
    else if sl.pinWritten.any inside then
      some (Config.cfgOver cfg (((upFrom first cfg.cfgSize).filter fun b => decide (b / 64 ∈ sl.pinWritten)).map fun b => (b - first, tget 0 sl.pin b)))
    else some cfg

/-- Window B: seated cores that are powered load their configurations; those that are gated wait for power and roll call (R95, R96). -/
def State.loadCores (s : State) (p : Nat) : State :=
  let sec := (s.part p).sec
  let s0 := s
  let listed := (sec.cores.map Prod.fst).filter fun c => s.partOfCore c == p
  let s := (s.coresOf p).foldl (fun s c =>
    if c ∈ listed || tget {} s.cores c == {} then s else s.modCore c Core.unseat) s
  listed.foldl (fun s c => s.modCore c fun core =>
    match core.power with
    | .running | .clockStop => { core.load ((s0.cfgRead p c).getD {}) sec.priority with power := .running, wake := none }
    | .gated => { core.unseat with seated := true }
    | .fenced => core) s

/-- Whether every configuration that window B loads can be read (R209, R232). -/
def State.cfgsGood (s : State) (p : Nat) : Bool :=
  ((s.part p).sec.cores.map Prod.fst).all fun c => (s.core c).power == .gated || (s.core c).power == .fenced || (s.cfgRead p c).isSome

/-- WINDOW_B_START (R209); a configuration with an uncorrectable error ends the step (R232, R255). -/
def execWindowBStart (p : Nat) (s : State) : Host.Outcome State Fault Refusal :=
  .next (if (s.part p).sect == .windowA && decide ((s.part p).switchAt + 256 ≤ s.slot) then
      if s.cfgsGood p then (s.loadCores p).modPart p fun part => { part with sect := .windowB } else s.endJobAccess p stDataError 0 0
    else s)

/-! ### Window C (R76, R211) -/

/-- PASS, LAYER, OLD_COL, OLD_QUEUE of a cloakroom map entry, and its destination core and queue (Table 8 of chapter 7). -/
def cloakMatch (e : Nat) (col q : Nat) (t : Tok) : Bool :=
  bits e 0 2 == tagPass t.tag && bits e 2 12 == tagLayer t.tag && bits e 14 6 == col && bits e 20 4 == q

/-- The core to which a cloakroom map entry delivers. -/
def cloakDest (e : Nat) : Nat := bits e 24 5 * 48 + bits e 29 6
/-- The queue to which a cloakroom map entry delivers. -/
def cloakQueue (e : Nat) : Nat := bits e 35 4

/-- Re-injected tokens that a queue's reserve holds. -/
def Core.reserveUsed (core : Core) (q : Nat) : Nat := ((core.queue q).filter fun t => t.src.isNone).length

/-- One spilled token of a row handed on, or discarded (R211). -/
def State.reinject (s : State) (p r : Nat) (x : Nat × Nat × Tok) : State :=
  let part := s.part p
  let entries := (tget [] part.sec.cloak r).map fun w => w.toNat
  let drop := s.modCloak r fun k => { k with counts := bump k.counts 2 }
  if x.2.2.draft then drop
  else
    match entries.find? fun e => cloakMatch e x.1 x.2.1 x.2.2 with
    | none => drop
    | some e =>
      let d := cloakDest e
      let q := cloakQueue e
      let core := s.core d
      if core.seated && decide (core.reserveUsed q < core.cfg.reserves.getD q 0) then
        let t := x.2.2
        let tok := { t with tag := mkTag (tagPass t.tag) part.epoch (tagLayer t.tag) (tagMb t.tag), queue := q, gen := core.gen }
        (s.setCore d { core with queues := tmod [] core.queues q (· ++ [{ tok := tok }]) }).modCloak r fun k =>
          { k with counts := bump k.counts 1 }
      else drop

/-- A row's spilled tokens handed on or discarded, in the order of their spilling (R210, R211). -/
def State.reinjectRow (s : State) (p r : Nat) : State :=
  (((s.cloak r).toks.foldl (fun s x => s.reinject p r x) s)).modCloak r fun k => { k with toks := [] }

/-- A producer's credit counter for an edge set to its DEPTH, where the consumer is valid; until roll call it holds none (R76, R95, R96). -/
def State.edgeCredit (s : State) (c e : Nat) : Nat :=
  let core := s.core c
  let x := (tget 0 core.cfg.edges e).toNat
  let d := cfgDest core.cfg e
  if edgeLocal x || decide (4096 ≤ d) || (s.core d).valid then edgeDepth x else 0

/-- Credit counters and known generations of a core's edges set (R76, R96, R209). -/
def State.setCredits (s : State) (c : Nat) : State :=
  let core := s.core c
  let es := core.cfg.edges.map Prod.fst
  s.setCore c { core with
    credits := tsetAll 0 [] (es.map fun e => (e, s.edgeCredit c e))
    gens := tsetAll 0 [] ((es.filter fun e => !edgeLocal (tget 0 core.cfg.edges e).toNat && decide (cfgDest core.cfg e < 4096)).map fun e =>
      (cfgDest core.cfg e, (s.core (cfgDest core.cfg e)).gen)) }

/-- WINDOW_C_START (R211): re-injection, then every producer's credits (R76). -/
def execWindowCStart (p : Nat) (s : State) : Host.Outcome State Fault Refusal :=
  .next (if (s.part p).sect == .windowB && decide ((s.part p).switchAt + 256 + (s.part p).sec.load ≤ s.slot) then
      let s := (s.rowsOf p).foldl (fun s r => s.reinjectRow p r) s
      let s := (s.seatedOf p).foldl (fun s c => s.setCredits c) s
      s.modPart p fun part => { part with sect := .windowC }
    else s)

/-! ### START (R185, R186, R209, R210, R212) -/

/-- The section's start: late tokens are discarded, the round counter and the watchdog are 0, and the first period begins. -/
def State.startSection (s : State) (p : Nat) : State :=
  let s := (s.rowsOf p).foldl (fun s r => s.modCloak r fun k =>
    { k with late := [], toks := [], counts := if k.toks = [] then k.counts else tmod 0 k.counts 2 fun n => satAdd32 n k.toks.length }) s
  s.modPart p fun part =>
    let t := periodStart (secEntry part.sec 0) part.startAt
    { part with sect := .open, entry := 0, entryAt := t, gap := decide (part.startAt < t), round := 0, watchdog := 0 }

/-- SECTION_START (R209). A section that seats no core has every END it waits for, so its close-section bell rings at once (R208). -/
def execSectionStart (p : Nat) (s : State) : Host.Outcome State Fault Refusal :=
  .next (if (s.part p).sect == .windowC && decide ((s.part p).startAt ≤ s.slot) then
      let s := s.startSection p
      if s.seatedOf p = [] then s.closeSection p else s
    else s)

/-- The next period entry begun (R185, R186). -/
def Part.nextPeriod (part : Part) : Part :=
  let last := decide (part.sec.entries.length ≤ part.entry + 1)
  let e := if last then part.sec.loopStart else part.entry + 1
  let ending := part.entryAt + periodLen part.period
  let t := periodStart (secEntry part.sec e) ending
  { part with entry := e, entryAt := t, gap := decide (ending < t), round := if last then (part.round + 1) % 2 ^ 32 else part.round }

/-- PERIOD_BOUNDARY (R185). -/
def execPeriodBoundary (p : Nat) (s : State) : Host.Outcome State Fault Refusal :=
  let part := s.part p
  .next (if part.timetableRuns s.slot && decide (part.entryAt + periodLen part.period ≤ s.slot) then s.setPart p part.nextPeriod else s)

/-! ### A stuck section (R92) -/

/-- Whether a core's input queues or windows hold anything (R92). -/
def Core.holdsWork (core : Core) : Bool :=
  core.queues.any (fun e => !e.2.isEmpty) || [core.seqF, core.seqB, core.seqU].any fun q =>
    !q.window.isEmpty || !q.reposts.isEmpty || q.running.isSome

/-- SECTION_STUCK (R92). -/
def execSectionStuck (p : Nat) (s : State) : Host.Outcome State Fault Refusal :=
  .next (if (s.part p).sect == .open && decide (2 ^ 20 ≤ (s.part p).watchdog) && (s.coresOf p).any (fun c => (tget {} s.cores c).holdsWork) then
      s.endStep p stSectionStuck
    else s)

end Sys2Proof.Machine
end

