-- ==== Sys2Proof/Machine/Sequencer.lean ====
section
/-! DEFINITION. The control operations of a sequencer (R67, R68, R204, R451, R452) and the firing of a task (R69, R79, R84, R87, R265). -/

namespace Sys2Proof.Machine

open Sys2Proof

/-! ### Reading a program -/

/-- Whether a core's sequencers go on: it runs, and its partition's section is open. -/
def State.seqRuns (s : State) (c : Nat) : Bool := (s.core c).runs && (s.part (s.partOfCore c)).sect == .open

/-- The control operation of opcode `op` that a sequencer reads next between bodies, as a number. -/
def State.readAt (s : State) (c : Nat) (q : Stream) (op : Nat) : Option Nat :=
  let sq := (s.core c).seq q
  if s.seqRuns c && !sq.ended && opcode (sq.instr sq.pc) == op then some (sq.instr sq.pc) else none

/-- The control operation of opcode `op` that the running task's body comes to next, with the task. -/
def State.bodyAt (s : State) (c : Nat) (q : Stream) (op : Nat) : Option (Task × Nat) :=
  let sq := (s.core c).seq q
  match sq.running with
  | some t => if s.seqRuns c && opcode (sq.instr t.pc) == op then some (t, sq.instr t.pc) else none
  | none => none

/-- A sequencer replaced. -/
def State.setSeq (s : State) (c : Nat) (q : Stream) (sq : Seq) : State := s.modCore c fun core => core.setSeq q sq

/-- A sequencer changed. -/
def State.modSeq (s : State) (c : Nat) (q : Stream) (f : Seq → Seq) : State := s.modCore c fun core => core.setSeq q (f (core.seq q))

/-- The index of the first TASK_CLOSE from index `i` on, `fuel` instructions looked at. -/
def Seq.closeFrom (sq : Seq) : Nat → Nat → Nat
  | 0, i => i
  | fuel + 1, i => if opcode (sq.instr i) = 0xF1 then i else sq.closeFrom fuel (i + 1)

/-- The index of the TASK_CLOSE that ends the body opened at `i` (R451). -/
def Seq.closeOf (sq : Seq) (i : Nat) : Nat := sq.closeFrom (sq.prog.length - i) (i + 1)

/-! ### Posting (R66, R68) -/

/-- Whether the tag window has room: it holds posted tasks and the fired one, 16 in all (R68). -/
def Seq.room (sq : Seq) : Bool := decide (sq.window.length + (if sq.running.isSome then 1 else 0) < 16)

/-- Whether a task of a tag is still in the window (R68). -/
def Seq.hasTag (sq : Seq) (tag : W32) : Bool :=
  sq.window.any (fun t => t.tag == tag) || (match sq.running with | some t => t.tag == tag | none => false)

/-- The pass numbers with which the body opened at `i` begins: those of the loops it lies in, and 0 for a level on which it has a
loop of its own, which it has still to enter (R67, R103; log entry 11). -/
def Seq.bodyPasses (sq : Seq) (i : Nat) : SMap Nat :=
  (((upFrom (i + 1) (sq.closeOf i - i - 1)).map sq.instr).filter fun n => opcode n == 0xF2).foldl (fun m n => tset 0 m (bits n 38 2) 0) sq.passes

/-- The task that a TASK_OPEN posts (R66, R67). -/
def openTask (part : Part) (q : Stream) (sq : Seq) (n : Nat) : Task :=
  { tag := mkTag (streamPass q) part.epoch (ctlLayer n) sq.mb, openIdx := sq.pc, inMask := ctlInMask n, draft := bit n 10
    group := ctlGroup n, draftLines := ctlDraftLines n, repeatIdx := ctlRepeat n, pc := sq.pc + 1
    passes := sq.bodyPasses sq.pc, passes0 := sq.bodyPasses sq.pc, order := sq.posted }

/-- Whether a task may not yet be posted because its step has not begun (R22), or because firmware is away at the boundary (R20). -/
def Part.holdsOpen (part : Part) (q : Stream) (draft : Bool) : Bool :=
  part.boundHold || (decide (part.step < part.openStep) && !(q == .F && draft))

/-- Whether a sequencer waits in BELL_WAIT, between bodies or in the running one; it then posts nothing (R67, R68). -/
def Seq.waitsBell (sq : Seq) : Bool := sq.waiting.isSome || sq.waitingBody.isSome

/-- TASK_OPEN (R66, R68): the task is posted and reading goes on past its TASK_CLOSE, unless a full window, an equal tag, a bell, or a hold of R20 or
R22 stops posting. -/
def State.postTask (s : State) (c : Nat) (q : Stream) : State :=
  match s.readAt c q 0xF0 with
  | none => s
  | some n =>
    let part := s.part (s.partOfCore c)
    let sq := (s.core c).seq q
    let t := openTask part q sq n
    if sq.waitsBell || part.holdsOpen q t.draft || !sq.room || sq.hasTag t.tag then s
    else s.setSeq c q { sq with window := sq.window ++ [t], pc := sq.closeOf sq.pc + 1, posted := sq.posted + 1 }

/-- TASK_OPEN (R68). -/
def execTaskOpen (c : Nat) (q : Stream) (s : State) : Host.Outcome State Fault Refusal := .next (s.postTask c q)

/-! ### Loops and the micro-batch register (R67, R103) -/

/-- A LOOP read with the given pass numbers: where reading goes on, the pass numbers, and whether it branched back. -/
def loopStep (n pc : Nat) (passes : SMap Nat) : Nat × SMap Nat × Bool :=
  let lv := bits n 38 2
  let k := tget 0 passes lv
  if k < bits n 21 16 then (bits n 10 11, tset 0 passes lv (k + 1), true) else (pc + 1, tset 0 passes lv 0, false)

/-- LOOP between bodies or within the running body (R67). -/
def State.loopRead (s : State) (c : Nat) (q : Stream) (body : Bool) : State :=
  if body then
    match s.bodyAt c q 0xF2 with
    | none => s
    | some (t, n) =>
      let r := loopStep n t.pc t.passes
      s.modSeq c q fun sq => { sq with running := some { t with pc := r.1, passes := r.2.1 } }
  else
    match s.readAt c q 0xF2 with
    | none => s
    | some n =>
      s.modSeq c q fun sq =>
        let r := loopStep n sq.pc sq.passes
        { sq with pc := r.1, passes := r.2.1, mb := if r.2.2 && bit n 37 then (sq.mb + 1) % 4096 else sq.mb }

/-- LOOP (R67). -/
def execLoop (c : Nat) (q : Stream) (body : Bool) (s : State) : Host.Outcome State Fault Refusal := .next (s.loopRead c q body)

/-- SET_MB (R67). -/
def execSetMb (c : Nat) (q : Stream) (s : State) : Host.Outcome State Fault Refusal :=
  .next (match s.readAt c q 0xF3 with
    | none => s
    | some n => s.modSeq c q fun sq => { sq with mb := bits n 10 12, pc := sq.pc + 1 })

/-! ### Bells (R67, R204, R452) -/

/-- A ring held by its sequencer until R452 and R204 let it leave. -/
def State.ringRead (s : State) (c : Nat) (q : Stream) (body : Bool) : State :=
  if body then
    match s.bodyAt c q 0xF4 with
    | none => s
    | some (t, n) =>
      (s.modSeq c q fun sq =>
        { sq with running := some { t with pc := t.pc + 1 }
                  held := sq.held ++ [{ bell := ctlBell n, amount := BitVec.ofNat 32 (ctlAmount n), before := t.order + 1, body := true }] }).releaseRings c q
  else
    match s.readAt c q 0xF4 with
    | none => s
    | some n =>
      (s.modSeq c q fun sq =>
        { sq with pc := sq.pc + 1
                  held := sq.held ++ [{ bell := ctlBell n, amount := BitVec.ofNat 32 (ctlAmount n), before := sq.posted, body := false }] }).releaseRings c q

/-- BELL_RING (R452). -/
def execBellRing (c : Nat) (q : Stream) (body : Bool) (s : State) : Host.Outcome State Fault Refusal := .next (s.ringRead c q body)

/-- An arm put in place of the bell's former one. -/
def armBell (bell : Nat) (threshold : W32) (l : List Arm) : List Arm :=
  (l.filter fun a => a.bell != bell) ++ [{ bell := bell, threshold := threshold }]

/-- A bell armed: the threshold set, and ARM sent to the control root, whose COUNT answer gives the base (R67, R203, R204). Without room for the ARM
the sequencer holds (R203). -/
def State.armRead (s : State) (c : Nat) (q : Stream) (body : Bool) : State :=
  let send (s : State) (n : Nat) : State := s.sendUp c (.arm (ctlBell n) c q)
  if s.upRoom c = 0 then s
  else if body then
    match s.bodyAt c q 0xF5 with
    | none => s
    | some (t, n) =>
      send (s.modSeq c q fun sq =>
        { sq with running := some { t with pc := t.pc + 1 }, arms := armBell (ctlBell n) (BitVec.ofNat 32 (ctlAmount n)) sq.arms }) n
  else
    match s.readAt c q 0xF5 with
    | none => s
    | some n =>
      send (s.modSeq c q fun sq =>
        { sq with pc := sq.pc + 1, arms := armBell (ctlBell n) (BitVec.ofNat 32 (ctlAmount n)) sq.arms }) n

/-- BELL_ARM (R67). -/
def execBellArm (c : Nat) (q : Stream) (body : Bool) (s : State) : Host.Outcome State Fault Refusal := .next (s.armRead c q body)

/-- Whether a sequencer's wait on a bell ends: the answer to its arm is there, and (count − base) mod 2³² is at least the threshold
(R67, R204). -/
def Seq.waitOver (sq : Seq) (bell : Nat) : Bool :=
  match sq.arms.find? fun a => a.bell == bell with
  | some a => a.answered && decide (a.threshold.toNat ≤ (a.count - a.base).toNat)
  | none => true

/-- A wait on a bell: reading goes on when it is over, and otherwise the sequencer holds (R67). -/
def State.waitRead (s : State) (c : Nat) (q : Stream) (body : Bool) : State :=
  let sq := (s.core c).seq q
  if body then
    match s.bodyAt c q 0xF6 with
    | none => s
    | some (t, n) =>
      if sq.waitOver (ctlBell n) then s.setSeq c q { sq with running := some { t with pc := t.pc + 1 }, waitingBody := none }
      else s.setSeq c q { sq with waitingBody := some (ctlBell n) }
  else
    match s.readAt c q 0xF6 with
    | none => s
    | some n =>
      if sq.waitOver (ctlBell n) then s.setSeq c q { sq with pc := sq.pc + 1, waiting := none }
      else s.setSeq c q { sq with waiting := some (ctlBell n) }

/-- BELL_WAIT (R67). -/
def execBellWait (c : Nat) (q : Stream) (body : Bool) (s : State) : Host.Outcome State Fault Refusal := .next (s.waitRead c q body)

/-- SECTION_END (R67, R91). -/
def execSectionEnd (c : Nat) (q : Stream) (s : State) : Host.Outcome State Fault Refusal :=
  .next (match s.readAt c q 0xF7 with
    | none => s
    | some _ => (s.modSeq c q fun sq => { sq with ended := true }).tryEnd c)

/-! ### Firing (R50, R69, R79, R265) -/

/-- The loops of the body opened at `o` that enclose its instruction `i`: level and count (R67). -/
def Seq.loopsAt (sq : Seq) (o i : Nat) : List (Nat × Nat) :=
  (upFrom (i + 1) (sq.closeOf o - i - 1)).filterMap fun j =>
    let n := sq.instr j
    if opcode n == 0xF2 && decide (bits n 10 11 ≤ i) then some (bits n 38 2, bits n 21 16) else none

/-- Every set of pass numbers that a list of loops goes through, from the ones given (R67, R103). -/
def passSets (m : SMap Nat) : List (Nat × Nat) → List (SMap Nat)
  | [] => [m]
  | (lv, k) :: l => (passSets m l).flatMap fun x => (upFrom 0 (k + 1)).map fun j => tset 0 x lv j

/-- Whether an operation adds to a long sum (R119, R139). -/
def isSumAdd (n : Nat) : Bool := (opcode n == 0x19 && opCType n == 5) || (opcode n == 0x68 && opZType n == 5)

/-- Whether an operation may open a long sum as its first contribution (R119, R262). -/
def isSumFirst (n : Nat) : Bool := (opcode n == 0x18 && opCType n == 5) || (opcode n == 0x66 && opZType n == 5)

/-- Targets of the long sums of a task over every pass of its body's loops: those it adds to, and those it may open as a first
contribution (R50, R119, R139, R262). -/
def Seq.sumTargets (sq : Seq) (t : Task) : List Nat × List Nat :=
  let ops := upFrom (t.openIdx + 1) (sq.closeOf t.openIdx - t.openIdx - 1)
  let targets (i : Nat) : List Nat :=
    let n := sq.instr i
    (passSets t.passes0 (sq.loopsAt t.openIdx i)).map fun m => ctxStep (sq.ctxAt (opCtx n)) m 2 (opC n)
  ((ops.filter fun i => isSumAdd (sq.instr i)).flatMap targets, (ops.filter fun i => isSumFirst (sq.instr i)).flatMap targets)

/-- Whether a contribution comes before another: lower micro-batch, then program order (R50). -/
def sumBefore (a b : Task) : Bool := decide (tagMb a.tag < tagMb b.tag) || (tagMb a.tag == tagMb b.tag && decide (a.order < b.order))

/-- Whether no earlier contribution to a long sum that a task adds to is still to be applied where the task can see it (R50, R78). -/
def Core.sumsInOrder (core : Core) (q : Stream) (t : Task) (view : List Nat) : Bool :=
  let sq := core.seq q
  let mine := (sq.sumTargets t).1
  let hits (u : Task) : Bool :=
    let w := sq.sumTargets u
    sumBefore u t && mine.any fun a => decide (a ∈ w.1) || decide (a ∈ w.2)
  mine.isEmpty || !((sq.window ++ sq.reposts).any hits ||
    core.openDrafts.any fun d => d.seq == q && !(decide (d.task.group ∈ view)) && hits d.task)

/-- Whether a draft task has room to fire: fewer than 64 open drafts, its DRAFT_LINES unreserved (R79), and its core's share of the group
not used up (R265). -/
def Core.draftRoom (core : Core) (t : Task) : Bool :=
  !t.draft || (decide (core.openCount < 64) && decide (core.reservedLines + t.draftLines ≤ 4096)
    && decide (tget 0 core.fired t.group < tget 0 core.cfg.shares t.group))

/-- The clip token of a task: one of its tag in the group's clip queue (R87, R271). -/
def Core.clipFor (core : Core) (t : Task) : Option (QTok × List QTok) := takeFirst (fun (x : QTok) => x.tok.tag == t.tag) core.clipToks

/-- The groups whose drafts a task of the section sees (R78). -/
def Part.taskView (part : Part) (t : Task) : List Nat := if t.draft then secView part.sec t.group else []

/-- Whether a posted task's tokens and its clip token are there (R69, R87). -/
def Core.operandsReady (core : Core) (part : Part) (t : Task) : Bool :=
  core.tokensReady t (part.taskView t) && (!t.needClip || (core.clipFor t).isSome)

/-- Whether a posted task may fire now. -/
def Core.mayFire (core : Core) (part : Part) (q : Stream) (t : Task) : Bool :=
  core.operandsReady part t && core.sumsInOrder q t (part.taskView t) && core.draftRoom t

/-- A task fired: its tokens and clip token taken, its draft lines reserved, and its body begun (R69, R79, R87). -/
def State.fireTask (s : State) (c : Nat) (q : Stream) (t : Task) (rest : List Task) : State :=
  let p := s.partOfCore c
  let r := s.takeTokens c t ((s.part p).taskView t)
  let core := r.1.core c
  let clip := if t.needClip then core.clipFor t else none
  let t := { t with
    st := .running, held := r.2, pc := if t.reposted then t.repeatIdx else t.openIdx + 1, passes := t.passes0, flags := [], mapped := 0
    reserved := t.draftLines, needClip := false, clip := match clip with | some x => some x.1.tok.payload | none => t.clip }
  let sq := core.seq q
  let back := if sq.reposts = [] then ([], []) else (sq.reposts.take 1, sq.reposts.drop 1)
  let room := decide (rest.length + 1 < 16)
  let sq := { sq with running := some t, window := if room then rest ++ back.1 else rest, reposts := if room then back.2 else sq.reposts }
  let core := { core.setSeq q sq with
    idle := 0, clipToks := match clip with | some x => x.2 | none => core.clipToks
    fired := if t.draft then tmod 0 core.fired t.group (· + 1) else core.fired }
  let s := (r.1.setCore c core).modPart p fun part => { part with watchdog := 0 }
  if t.draft && tget 0 core.atts t.group == ((s.part p).group t.group).att then s.noteParents p t.group else s

/-- The oldest posted task that is ready fires (R69). -/
def State.fire (s : State) (c : Nat) (q : Stream) : State :=
  let p := s.partOfCore c
  let part := s.part p
  let sq := (s.core c).seq q
  if !s.seqRuns c || sq.running.isSome || sq.window = [] then s
  else
    let s := sq.window.foldl (fun s t => if t.reposted then s else s.dropMismatches c t (part.taskView t)) s
    let core := s.core c
    match takeFirst (core.mayFire part q) sq.window with
    | some (t, rest) => s.fireTask c q t rest
    | none => s

/-- TASK_FIRE (R69). -/
def execTaskFire (c : Nat) (q : Stream) (s : State) : Host.Outcome State Fault Refusal := .next (s.fire c q)

/-! ### Closing (R76, R81, R87) -/

/-- Whether an operation of a task is still unfinished in some unit. -/
def Core.unfinished (core : Core) (q : Stream) (t : Task) : Bool :=
  (core.unfinRows ++ core.unfinEngines).any fun u => u.stream == q && u.task == t.tag

/-- The edges over which a task that closes at `n` sends tokens at once (R76, R81, R87). -/
def closeEdges (t : Task) (n : Nat) : List Nat := maskList 16 (if t.draft then bits n 24 16 else bits n 24 16 ||| bits n 40 16)

/-- Whether a task may close: its edges hold credit and launch room (R76, R191), and there is room for a draft's CLOSURE message (R203). -/
def State.mayClose (s : State) (c : Nat) (t : Task) (n : Nat) : Bool := s.edgesReady c (closeEdges t n) [] && (!t.draft || decide (0 < s.upRoom c))

/-- A task closed: its tokens sent; a draft stays open and reports its closure (R81), a fair task with an overflow flag ends the step
(R264). A task waits for its last operations and for credit and launch room (R76, R191). -/
def State.closeTask (s : State) (c : Nat) (q : Stream) : State :=
  match s.bodyAt c q 0xF1 with
  | none => s
  | some (t, n) =>
    let p := s.partOfCore c
    if (s.core c).unfinished q t || !s.mayClose c t n then s
    else
      let s := s.sendTokens c (closeEdges t n) t.tag (if t.draft then some t.group else none) q t.order
      let layer := tagLayer t.tag
      let mb := tagMb t.tag
      let s := s.modSeq c q fun sq =>
        { sq with running := none, window := sq.window ++ sq.reposts.take 1, reposts := sq.reposts.drop 1 }
      if t.draft then
        let att := tget 0 (s.core c).atts t.group
        let s := s.modCore c fun core =>
          { core with openDrafts := core.openDrafts ++ [{ seq := q, task := t, commitEdges := bits n 40 16 }] }
        (s.sendUp c (.closure t.group c layer mb t.flags att)).settleCore c
      else if t.flags = [] then (s.modPart p fun part => part.noteU q t.tag).settleCore c
      else s.fairOverflow p c layer mb t.flags

/-- TASK_CLOSE (R81). -/
def execTaskClose (c : Nat) (q : Stream) (s : State) : Host.Outcome State Fault Refusal := .next (s.closeTask c q)

end Sys2Proof.Machine
end

