-- ==== Sys2Proof/Machine/Fabric.lean ====
section
/-! DEFINITION. Events of the fabric: tokens and credits (R73, R76, R77, R82, R95, R212), the verdicts as cores and slices apply them (R85 to
R87, R230), and the messages of the bell lane (R203, Table 5 of chapter 7). -/

namespace Sys2Proof.Machine

open Sys2Proof

/-! ### Tokens -/

/-- A token delivered to a core: dropped with a stale generation (R95), written to the cloakroom or discarded with an epoch that is not
current (R212), and otherwise put in its queue (R73). -/
def State.deliver (s : State) (p d : Nat) (t : Tok) (src : Option (Nat × Nat)) : State :=
  let core := s.core d
  let epoch := (s.part p).epoch
  if core.power == .gated || core.power == .fenced || t.gen != core.gen then
    s.setCore d { core with dropGen := satInc32 core.dropGen }
  else if tagEpoch t.tag = epoch then
    s.setCore d (({ core with queues := tmod [] core.queues t.queue (· ++ [{ tok := t, src := src }]) } : Core).rouse s.slot)
  else if (tagEpoch t.tag + 1) % 64 = epoch then
    s.modCloak (d / 48) fun k =>
      if k.room then { k with late := k.late ++ [t], counts := bump k.counts 4 } else { k with counts := bump (bump k.counts 3) 4 }
  else s.modCloak (d / 48) fun k => { k with counts := bump k.counts 4 }

/-- TOKEN_ARRIVE (R73): token number `n` of those on their way, once its delivery slot has come. -/
def execTokenArrive (p n : Nat) (s : State) : Host.Outcome State Fault Refusal :=
  .next (match (s.part p).toks[n]? with
    | none => s
    | some f =>
      if f.due ≤ s.slot then (s.modPart p fun part => { part with toks := dropAt part.toks n }).deliver p f.dest f.tok f.src
      else s)

/-- Whether a waiting token may take a token occurrence whose delivery slot is `due`: its block's last unit is delivered before (R192). -/
def Part.tokenReady (part : Part) (due : Nat) (o : OutTok) : Bool :=
  match o.block with
  | none => true
  | some (st, b) =>
    match tget 0 (tget {} part.streams st).due b with
    | 0 => false
    | d + 1 => decide (d < due)

/-- Whether slot `t` is an occurrence of a route in a phase (R189, R197). -/
def Part.routeOccurs (part : Part) (r ph due t : Nat) : Bool :=
  part.inPeriod t && routeActive r part.config && part.phase t == ph && part.fits due

/-- A token put on its way to a link stream, behind the block that the stream moves ahead of it (R296). -/
def Part.linkMove (part : Part) (l st : Nat) (m : LinkMove) : Part :=
  let m := { m with port := l, stream := st }
  match part.sec.blocks.find? fun b => b.port == l && b.stream == st with
  | none => { part with moves := part.moves ++ [m] }
  | some b =>
    let n := tget 0 part.linkBlocks (4096 * l + st)
    let m := { m with addr := b.addr + n * b.step, left := b.bytes, dest := b.dest + n * b.destStep, core := b.core, cores := b.cores }
    { part with moves := part.moves ++ [m], linkBlocks := tset 0 part.linkBlocks (4096 * l + st) (n + 1) }

/-- A token that leaves in its route's occurrence (R77, R196): to a core, or to a link stream that leaves the device (R296). -/
def State.tokenLeaves (s : State) (c e due : Nat) (o : OutTok) : State :=
  let p := s.partOfCore c
  let d := cfgDest (s.core c).cfg e
  if 4096 ≤ d then
    s.modPart p fun part => part.linkMove (d / 4096 - 1) (d % 4096) { tok := some o.tok, credits := [(c, e, 0)], origin := some (c, o.seq) }
  else if s.partOfCore d != p then s.modCore c fun core => { core with wallDrops := satInc32 core.wallDrops }
  else s.modPart p fun part =>
    { part with toks := part.toks ++ [{ dest := d, tok := o.tok, src := some (c, e), seq := o.seq, order := o.order, due := due }] }

/-- A token occurrence of an output edge in the present slot (R77, R189): the edge's oldest token goes, when it may; otherwise the slot pair
carries nothing and counts as unused (R88). -/
def State.tokenOccurs (s : State) (c e : Nat) : State :=
  let part := s.part (s.partOfCore c)
  let core := s.core c
  let r := cfgRoute core.cfg e
  let due := s.slot + 3 + routeHops r
  if edgeLocal (tget 0 core.cfg.edges e).toNat || tget 0 core.lastTok e = s.slot + 1 || !part.routeOccurs r (routePhase r) due s.slot then s
  else
    let core := { core with lastTok := tset 0 core.lastTok e (s.slot + 1) }
    let s := s.setCore c core
    match takeFirst (fun (o : OutTok) => o.edge == e) core.outToks with
    | some (o, rest) =>
      if part.tokenReady due o then ((s.setCore c { core with outToks := rest }).tokenLeaves c e due o).settleCore c
      else (s.routerWait c s.slot 6).routerWait c (s.slot + 1) 6
    | none => (s.routerWait c s.slot 6).routerWait c (s.slot + 1) 6

/-- TOKEN_OCCURRENCE (R77). -/
def execTokenOccurrence (c e : Nat) (s : State) : Host.Outcome State Fault Refusal := .next (s.tokenOccurs c e)

/-! ### Credits -/

/-- A credit occurrence of an output edge in the present slot (R76, R189, R201): the consumer returns up to 15 credits. -/
def State.creditOccurs (s : State) (c e : Nat) : State :=
  let p := s.partOfCore c
  let core := s.core c
  let r := cfgRoute core.cfg e
  let due := s.slot + 2 + routeCreditHops r
  let d := cfgDest core.cfg e
  if edgeLocal (tget 0 core.cfg.edges e).toNat || tget 0 core.lastCredit e = s.slot + 1
      || !(s.part p).routeOccurs r (routeCreditPhase r) due s.slot then s
  else
    let s := s.setCore c { core with lastCredit := tset 0 core.lastCredit e (s.slot + 1) }
    let owed := tget 0 (s.core d).owed (c * 16 + e)
    let n := min 15 owed
    if n = 0 || decide (4096 ≤ d) then s
    else
      (s.modCore d fun k => { k with owed := tset 0 k.owed (c * 16 + e) (owed - n) }).modPart p fun part =>
        { part with credits := part.credits ++ [{ core := c, edge := e, count := n, due := due + 1 }] }

/-- CREDIT_OCCURRENCE (R76). -/
def execCreditOccurrence (c e : Nat) (s : State) : Host.Outcome State Fault Refusal := .next (s.creditOccurs c e)

/-- CREDIT_ARRIVE (R76): credits number `n` of those on their way, once they may be spent. -/
def execCreditArrive (p n : Nat) (s : State) : Host.Outcome State Fault Refusal :=
  .next (match (s.part p).credits[n]? with
    | none => s
    | some f =>
      if f.due ≤ s.slot then
        ((s.modPart p fun part => { part with credits := dropAt part.credits n }).modCore f.core fun core =>
          let core := { core with credits := tmod 0 core.credits f.edge (· + f.count) }
          if [Stream.F, .B, .U].any core.atClose then core.rouse s.slot else core).settleCore f.core
      else s)

/-! ### Closures and verdicts -/

/-- CLOSURE_MESSAGE (R84): the message at the head of those on their way to the control root, when it is a closure. -/
def execClosureMessage (p : Nat) (s : State) : Host.Outcome State Fault Refusal :=
  .next (match (s.part p).up with
    | .closure g c layer mb causes att :: rest =>
      (s.modPart p fun part => { part with up := rest }).closure p g { core := c, layer := layer, mb := mb, causes := causes } att
    | _ => s)

/-- The first verdict among a core's messages (R203: verdicts come ahead of other kinds), with the rest. -/
def takeVerdict (l : List DownMsg) : Option ((Nat × Bool × Bool) × List DownMsg) :=
  match takeFirst (fun (m : DownMsg) => match m with | .verdict .. => true | _ => false) l with
  | some (.verdict g c f, r) => some ((g, c, f), r)
  | _ => none

/-- Draft lines of a group copied to their target lines in ascending target order (R85). -/
def Core.copyDrafts (core : Core) (g : Nat) : Core :=
  let mine := (core.drafts.filter fun d => d.group == g).mergeSort fun a b => decide (a.line ≤ b.line)
  let core := mine.foldl (fun (k : Core) d => k.request 1 [d.line]) core
  let core := mine.foldl (fun (k : Core) d =>
    { k with
      spad := d.bytes.foldl (fun m b => tset 0 m (d.line * 64 + b.1) (b.2.getD 0)) k.spad
      stored := d.types.foldl (fun m w => tset none m (d.line * 4 + w.1) (w.2.getD none)) k.stored }) core
  { core with drafts := core.drafts.filter fun d => d.group != g }

/-- Draft copies of a group's tap entries made fair (R154). -/
def Core.commitTaps (core : Core) (g : Nat) : Core :=
  { core with taps := (core.tapDrafts.filter fun t => t.1 == g).foldl (fun m t => tset {} m t.2.1 t.2.2) core.taps
              tapDrafts := core.tapDrafts.filter fun t => t.1 != g }

/-- Accumulator regions that a group's tasks opened: kept, no longer the group's, on a commit; not live on a discard (R121). -/
def Engine.verdict (e : Engine) (g : Nat) (commit : Bool) : Engine :=
  let mine (b : Option Block8) : Bool := match b with | some x => x.group == some g | none => false
  if commit then { e with live := e.live.map fun b => if mine b.2 then (b.1, b.2.map fun x => { x with group := none }) else b }
  else { e with live := e.live.filter fun b => !mine b.2 }

/-- What every verdict does at a core (R87, R265): the group's share is free again, and the verdict counts as received. -/
def Core.received (core : Core) (g : Nat) (commit : Bool) : Core :=
  { core with fired := tset 0 core.fired g 0, atts := tmod 0 core.atts g (· + 1), openDrafts := core.openDrafts.filter fun d => d.task.group != g
              engines := core.engines.map fun e => (e.1, e.2.verdict g commit) }

/-- Whether every slice that a group's verdict concerns has applied it: slices do so no later than any core (R230). -/
def State.slicesFirst (s : State) (p g : Nat) : Bool := ((s.part p).group g).slicesToApply.isEmpty

/-- A core struck from those that have still to apply a group's verdict. -/
def State.coreApplied (s : State) (p c g : Nat) : State :=
  (s.modPart p fun part => part.modGroup g fun x => { x with toApply := x.toApply.filter (· != c) }).applied p g

/-- A commit verdict at a core (R85): the draft lines are copied, the map entries freed, and each task's COMMIT_EDGES tokens sent or kept. -/
def State.commitAt (s : State) (c g : Nat) (rest : List DownMsg) : State :=
  let p := s.partOfCore c
  let core := s.core c
  let tasks := core.openDrafts.filter fun d => d.task.group == g
  let copies := core.drafts.any fun d => d.group == g
  let core := (((core.copyDrafts g).commitTaps g).received g true)
  let s := s.setCore c { core with inbox := rest, idle := if copies then 0 else core.idle }
  let s := if copies then s.modPart p fun part => { part with watchdog := 0 } else s
  let s := s.modPart p fun part => tasks.foldl (fun (pt : Part) d => pt.noteU d.seq d.task.tag) part
  let s := tasks.foldl (fun s d => s.sendCommit c (maskList 16 d.commitEdges) d.task.tag d.seq d.task.order) s
  (s.coreApplied p c g).settleCore c

/-- Whether a core has drafts of a group: a verdict for it then wakes the core first (R94). -/
def Core.hasDrafts (core : Core) (g : Nat) : Bool := core.openDrafts.any (fun d => d.task.group == g) || core.drafts.any (fun d => d.group == g)

/-- COMMIT_VERDICT (R85). -/
def execCommitVerdict (c g : Nat) (s : State) : Host.Outcome State Fault Refusal :=
  .next (match takeVerdict (s.core c).inbox with
    | some ((h, true, _), rest) =>
      if h != g || !s.slicesFirst (s.partOfCore c) g then s
      else if (s.core c).power == .clockStop && (s.core c).hasDrafts g then s.modCore c fun core => core.rouse s.slot
      else s.commitAt c g rest
    | _ => s)

/-- A discarded task as it is posted again (R87). -/
def repostOf (t : Task) (clip : Bool) : Task :=
  { t with st := .posted, reposted := true, needClip := clip || t.needClip, flags := [], mapped := 0, reserved := 0, pc := t.repeatIdx
           passes := t.passes0 }

/-- A task put back in its sequencer's window, or held until there is room (R68, R87). -/
def Seq.repost (sq : Seq) (t : Task) : Seq :=
  if sq.room && sq.reposts.isEmpty then { sq with window := sq.window ++ [t] } else { sq with reposts := sq.reposts ++ [t] }

/-- The running task of a group taken off its sequencer. -/
def Seq.stop (sq : Seq) (g : Nat) : Seq :=
  match sq.running with
  | some t => if t.draft && t.group == g then { sq with running := none, waitingBody := none } else sq
  | none => sq

/-- Queued draft tokens of a group dropped from a core's queues, counted, and their credits returned (R86). -/
def State.dropDrafts (s : State) (c g : Nat) : State :=
  (upFrom 0 16).foldl (fun s q =>
    let l := (s.core c).queue q
    let bad := l.filter fun t => t.tok.draft && t.tok.group == g
    if bad = [] then s else
    let s := s.modCore c fun core =>
      { core with queues := tset [] core.queues q (l.filter fun t => !(t.tok.draft && t.tok.group == g))
                  dropDraft := min (core.dropDraft + bad.length) (2 ^ 32 - 1) }
    bad.foldl (fun s t => s.freeSlot c t) s) s

/-- Draft tokens of a group that wait in the producer dropped, their credits restored. -/
def Core.dropUnsent (core : Core) (g : Nat) : Core :=
  let bad := core.outToks.filter fun o => o.tok.draft && o.tok.group == g
  { core with outToks := core.outToks.filter fun o => !(o.tok.draft && o.tok.group == g)
              credits := bad.foldl (fun m o => tmod 0 m o.edge (· + 1)) core.credits }

/-- Clip tokens for the closed tasks of a group (R271). -/
def clipTokens (c : W32) (q gen : Nat) (tasks : List OpenDraft) : List QTok :=
  tasks.map fun d => { tok := { tag := d.task.tag, gen := gen, queue := q, kind := 1, payload := c.setWidth 64 } }

/-- A discard verdict at a core (R86, R87): map entries and draft copies go, queued draft tokens of the group are dropped, a running task of
it stops, and the tasks with a REPEAT index are posted again. -/
def State.discardAt (s : State) (c g : Nat) (clip : Bool) (rest : List DownMsg) : State :=
  let p := s.partOfCore c
  let part := s.part p
  let core := s.core c
  let tasks := core.openDrafts.filter fun d => d.task.group == g
  let running (q : Stream) : List (Stream × Task) := match (core.seq q).running with
    | some t => if t.draft && t.group == g then [(q, t)] else []
    | none => []
  let all := (tasks.map fun d => (d.seq, d.task)) ++ running .F ++ running .B ++ running .U
  let toks := if clip then clipTokens (part.clip.getD 0) ((part.groupCfg g).clipQueue.getD 0) core.gen tasks else []
  let core := (core.received g false).dropUnsent g
  let core := { core with
    inbox := rest, drafts := core.drafts.filter fun d => d.group != g, tapDrafts := core.tapDrafts.filter fun t => t.1 != g
    clipToks := core.clipToks ++ toks, seqF := core.seqF.stop g, seqB := core.seqB.stop g, seqU := core.seqU.stop g }
  let core := (all.filter fun x => x.2.repeatIdx != 0).foldl (fun (k : Core) x =>
    k.setSeq x.1 ((k.seq x.1).repost (repostOf x.2 (clip && tasks.any fun d => d.task == x.2)))) core
  (((s.setCore c core).dropDrafts c g).coreApplied p c g).settleCore c

/-- DISCARD_VERDICT (R86). -/
def execDiscardVerdict (c g : Nat) (s : State) : Host.Outcome State Fault Refusal :=
  .next (match takeVerdict (s.core c).inbox with
    | some ((h, false, clip), rest) =>
      if h != g || !s.slicesFirst (s.partOfCore c) g then s
      else if (s.core c).power == .clockStop && (s.core c).hasDrafts g then s.modCore c fun core => core.rouse s.slot
      else s.discardAt c g clip rest
    | _ => s)

/-- The oldest verdict that a slice has received told to the commit controller as applied, and applied first where it still waits (R83, R230). -/
def State.sliceVerdict (s : State) (k g : Nat) : State :=
  let p := s.partOfSlice k
  let s := (s.settleSlice k).modSlice k fun sl => { sl with applied := sl.applied.drop 1 }
  (s.modPart p fun part => part.modGroup g fun x => { x with slicesToApply := x.slicesToApply.filter (· != k) }).applied p g

/-- SLICE_VERDICT (R230). -/
def execSliceVerdict (sl g : Nat) (s : State) : Host.Outcome State Fault Refusal :=
  .next (match (s.slice sl).applied ++ (s.slice sl).inbox with
    | (h, _) :: _ => if h = g then s.sliceVerdict sl g else s
    | [] => s)

/-! ### Bells (R67, R202 to R204, R302) -/

/-- A bell's count set, and COUNT sent to every seated core when some sequencer has armed the bell (Table 5 of chapter 7). -/
def State.setBell (s : State) (p b : Nat) (n : W32) : State :=
  let s := s.modPart p fun part => { part with bells := tset 0 part.bells b n }
  if b ∈ (s.part p).armed then
    (s.seatedOf p).foldl (fun s c => s.modCore c fun core => { core with inbox := core.inbox ++ [.count b n none] }) s
  else s

/-- A ring that has reached the control root: added to a bell of the partition, modulo 2³²; one of a global bell leaves for the Prefect and
the Deputy (R302), or counts here where the device belongs to no Form. -/
def State.ringRoot (s : State) (p b : Nat) (amount : W32) : State :=
  if b < 1024 && s.form.set then s.sendBells s.superiors p (msgRing b amount)
  else s.setBell p b (tget 0 (s.part p).bells b + amount)

/-- RING_MESSAGE (R202). -/
def execRingMessage (p : Nat) (s : State) : Host.Outcome State Fault Refusal :=
  .next (match (s.part p).up with
    | .ring b amount _ :: rest => (s.modPart p fun part => { part with up := rest }).ringRoot p b amount
    | _ => s)

/-- ARM_MESSAGE (R203): the root answers with COUNT to the sequencer that armed. -/
def execArmMessage (p : Nat) (s : State) : Host.Outcome State Fault Refusal :=
  .next (match (s.part p).up with
    | .arm b c q :: rest =>
      let s := s.modPart p fun part => { part with up := rest, armed := addOnce part.armed b }
      s.modCore c fun core => { core with inbox := core.inbox ++ [.count b (tget 0 (s.part p).bells b) (some q)] }
    | _ => s)

/-- A count as a sequencer takes it: the answer to its arm gives the base too (R67, R204). -/
def Seq.takeCount (sq : Seq) (b : Nat) (n : W32) (answer : Bool) : Seq :=
  { sq with arms := sq.arms.map fun a =>
      if a.bell != b then a
      else if answer then { a with base := n, count := n, answered := true }
      else { a with count := n } }

/-- A COUNT message. -/
def DownMsg.isCount : DownMsg → Bool
  | .count .. => true
  | _ => false

/-- A CLOSE message. -/
def DownMsg.isClose : DownMsg → Bool
  | .close .. => true
  | _ => false

/-- A GEN message. -/
def DownMsg.isGen : DownMsg → Bool
  | .gen .. => true
  | _ => false

/-- COUNT_MESSAGE (R204): the first COUNT on its way to a core, taken by the sequencer it answers or by all three. -/
def execCountMessage (c : Nat) (s : State) : Host.Outcome State Fault Refusal :=
  .next (match takeFirst DownMsg.isCount (s.core c).inbox with
    | some (.count b n (some q), rest) => s.modCore c fun core => { core with inbox := rest }.setSeq q ((core.seq q).takeCount b n true)
    | some (.count b n none, rest) => s.modCore c fun core =>
        let waits := [core.seqF, core.seqB, core.seqU].any fun q => q.waiting == some b || q.waitingBody == some b
        let core := { core with inbox := rest, seqF := core.seqF.takeCount b n false, seqB := core.seqB.takeCount b n false
                                seqU := core.seqU.takeCount b n false }
        if waits then core.rouse s.slot else core
    | _ => s)

/-- END_MESSAGE (R208): the root holds the core's END; with END from every seated core the close-section bell rings. -/
def execEndMessage (p : Nat) (s : State) : Host.Outcome State Fault Refusal :=
  .next (match (s.part p).up with
    | .fin c :: rest =>
      let s := s.modPart p fun part => { part with up := rest, ended := addOnce part.ended c }
      if (s.part p).sect == .open && (s.seatedOf p).all (fun c => decide (c ∈ (s.part p).ended)) then s.closeSection p else s
    | _ => s)

/-- CLOSE_MESSAGE (R208): the first CLOSE on its way to a core has reached it. What it announces takes effect at the switch slot. -/
def execCloseMessage (c : Nat) (s : State) : Host.Outcome State Fault Refusal :=
  .next (match takeFirst DownMsg.isClose (s.core c).inbox with
    | some (_, rest) => s.modCore c fun core => { core with inbox := rest }
    | none => s)

/-- GEN_MESSAGE (R96): the generation that a consumer's roll call has published reaches a producer, whose credit counters for edges into it
are set to DEPTH. -/
def execGenMessage (p c : Nat) (s : State) : Host.Outcome State Fault Refusal :=
  .next (if s.partOfCore c != p then s else
    match takeFirst DownMsg.isGen (s.core c).inbox with
    | some (.gen d g, rest) =>
      (s.modCore c fun core =>
        let es := (core.cfg.edges.map Prod.fst).filter fun e => !edgeLocal (tget 0 core.cfg.edges e).toNat && cfgDest core.cfg e == d
        { core with inbox := rest, gens := tset 0 core.gens d g
                    credits := es.foldl (fun m e => tset 0 m e (edgeDepth (tget 0 core.cfg.edges e).toNat)) core.credits }).settleCore c
    | _ => s)

end Sys2Proof.Machine
end

