-- ==== Sys2Proof/Machine/CorePower.lean ====
section
/-! DEFINITION. The power states of cores (R93 to R95), waking (R94) and roll call (R96). -/

namespace Sys2Proof.Machine

open Sys2Proof

/-- Whether a sequencer's posting stands still (R67, R68): it has read its program, waits on a bell, for a place in the window, for an equal tag to leave
it, or for its step. -/
def State.postingStill (s : State) (c : Nat) (q : Stream) : Bool :=
  let sq := (s.core c).seq q
  let n := sq.instr sq.pc
  let part := s.part (s.partOfCore c)
  sq.ended || sq.waitsBell ||
    (opcode n == 0xF0 && (!sq.room || part.holdsOpen q (bit n 10) || sq.hasTag (openTask part q sq n).tag))

/-- Whether the running task of a sequencer stands still: at a close that its edges hold, in BELL_WAIT, or at an operation that cannot
issue. -/
def State.taskStill (s : State) (c : Nat) (q : Stream) (t : Task) : Bool :=
  let sq := (s.core c).seq q
  let n := sq.instr t.pc
  if opcode n = 0xF1 then !s.edgesReady c (closeEdges t n) []
  else if opcode n = 0xF6 then sq.waitingBody.isSome
  else decide (opcode n < 0xF0) && (match s.nextIssue c q with
    | some i => (i.blocked (tryOf s i)).isSome
    | none => true)

/-- Whether a sequencer has nothing to do until something comes from outside: no ready task, nothing to read, and no operation to issue. -/
def State.seqQuiet (s : State) (c : Nat) (q : Stream) : Bool :=
  let core := s.core c
  let sq := core.seq q
  (match sq.running with
    | some t => s.taskStill c q t
    | none => !(sq.window.any (core.mayFire (s.part (s.partOfCore c)) q)))
  && s.postingStill c q

/-- Whether an arithmetic cycle of a core passes with no task firing, no operation in progress, no commit copy and no ready task (R93;
operations of every compute unit count, DEDUCED, entry 19). -/
def State.quiet (s : State) (c : Nat) : Bool :=
  let core := s.core c
  core.unfinRows.isEmpty && core.unfinEngines.isEmpty && [Stream.F, .B, .U].all (s.seqQuiet c)

/-- CLOCK_STOP (R93): after 64 consecutive idle arithmetic cycles. -/
def execClockStop (c : Nat) (s : State) : Host.Outcome State Fault Refusal :=
  let core := s.core c
  .next (if core.power == .running && decide (64 ≤ core.idle) && s.quiet c then
      s.setCore c { core with power := .clockStop, wake := none }
    else s)

/-- CORE_WAKE (R94): 48 slots after the waking event. -/
def execCoreWake (c : Nat) (s : State) : Host.Outcome State Fault Refusal :=
  let core := s.core c
  .next (match core.wake with
    | some t => if core.power == .clockStop && decide (t + 48 ≤ s.slot) then
        (s.setCore c { core with power := .running, wake := none, idle := 0 }).settleCore c
      else s
    | none => s)

/-- A producer's credits for edges into a core are zero, and none is on its way (R95). -/
def State.zeroProducers (s : State) (c : Nat) : State :=
  let p := s.partOfCore c
  let into (k : Core) (e : Nat) : Bool := !edgeLocal (tget 0 k.cfg.edges e).toNat && cfgDest k.cfg e == c
  let s := (s.coresOf p).foldl (fun s d =>
    let k := tget {} s.cores d
    let es := (k.cfg.edges.map Prod.fst).filter (into k)
    if es = [] then s else s.setCore d { k with credits := es.foldl (fun m e => tset 0 m e 0) k.credits }) s
  s.modPart p fun part => { part with credits := part.credits.filter fun f => !(into (s.core f.core) f.edge) }

/-- What a core whose power is off keeps: the counters of its router island and its generation (R93, R95; DEDUCED, entry 19). -/
def Core.unpowered (core : Core) (pw : CorePower) : Core :=
  { power := pw, seated := core.seated, gen := core.gen, dropGen := core.dropGen, dropDraft := core.dropDraft, dropGroup := core.dropGroup
    wallDrops := core.wallDrops, stalls := core.stalls.filter fun e => decide (14 * 8 ≤ e.1), gens := core.gens }

/-- Whether a core may be gated: it is unseated in the running section, or its partition is idle (R93). -/
def State.mayGate (s : State) (c : Nat) : Bool := !(s.core c).seated || (s.part (s.partOfCore c)).sect == .idle

/-- CORE_GATE (R95). -/
def execCoreGate (c : Nat) (s : State) : Host.Outcome State Fault Refusal :=
  let core := s.core c
  .next (if (core.power == .running || core.power == .clockStop) && s.mayGate c then
      (s.zeroProducers c).modCore c fun core => core.unpowered .gated
    else s)

/-- CORE_POWER_UP (R95): the generation rises at the exit from the gated state, and a seated core's roll call begins. -/
def execCorePowerUp (c : Nat) (s : State) : Host.Outcome State Fault Refusal :=
  let core := s.core c
  .next (if core.power == .gated && s.power.mainOn then
      s.setCore c { core with power := .running, gen := (core.gen + 1) % 256, valid := false
                              rollCall := if core.seated then some s.slot else none }
    else s)

/-- A roll call completed (R96): the configuration is loaded, the generation published to every producer, and the core valid. -/
def State.rollCallDone (s : State) (c : Nat) : State :=
  let p := s.partOfCore c
  let cfg := (s.cfgRead p c).getD {}
  let s := s.modCore c fun core => core.load cfg (s.part p).sec.priority
  let s := s.setCredits c
  let g := (s.core c).gen
  (s.coresOf p).foldl (fun s d =>
    let k := tget {} s.cores d
    if d != c && k.seated && (k.cfg.edges.map Prod.fst).any (fun e => !edgeLocal (tget 0 k.cfg.edges e).toNat && cfgDest k.cfg e == c) then
      s.setCore d { k with inbox := k.inbox ++ [.gen c g] }
    else s) s

/-- Whether a section is being loaded or is open, so that a core has a configuration to take. -/
def Part.loads (part : Part) : Bool :=
  part.sect == .windowB || part.sect == .windowC || part.sect == .open || part.sect == .closing || part.sect == .closed

/-- ROLL_CALL (R96). -/
def execRollCall (c : Nat) (s : State) : Host.Outcome State Fault Refusal :=
  let core := s.core c
  let p := s.partOfCore c
  .next (if core.power == .running && core.seated && !core.valid && (s.part p).loads then
      (if (s.cfgRead p c).isSome then s.rollCallDone c else s.endJobAccess p stDataError 0 0)
    else s)

end Sys2Proof.Machine
end

