-- ==== Sys2Proof/Machine/Streams.lean ====
section
/-! DEFINITION. The occurrences of launched streams (R190 to R193, R197, R227, R230) and the delivery of blocks (R192). -/

namespace Sys2Proof.Machine

open Sys2Proof

/-! ### Units -/

/-- What a stream's occurrence does with its next unit: it moves, or the occurrence is held and counted under a cause of R88. -/
inductive UnitRes
  | moved (s : State)
  | held (s : State) (cause : Nat)
  /-- the step has ended on the access (R255). -/
  | ended (s : State)

/-- The pin window that serves a unit: the one that holds the stream's MEM_ADDR (R223), or, for a later block that runs into a PIN page, the
one that holds the unit's address (R244). A key-value route lies in none. -/
def Part.streamPin (part : Part) (x : Nat) (l : Launch) (a : Nat) : Option PinWindow :=
  match l.kv with
  | some _ => none
  | none => match part.pinOf (stMem x) with
    | some w => some w
    | none => part.pinOf a

/-- The slice that serves a unit. -/
def unitSlice (x : Nat) (pin : Option PinWindow) : Nat := match pin with | some w => w.slice | none => stSlice x

/-- Whether a core takes in units: it is seated and its scratchpad is powered (R93, R94). -/
def Core.takesUnits (core : Core) : Bool := core.seated && (core.power == .running || core.power == .clockStop)

/-- A unit put on its way to its delivery slot (R196, R199). -/
def State.putFlit (s : State) (p st : Nat) (l : Launch) (u : Nat) (cores : List Nat) (b : List Byte) (ts : List (Option SType)) : State :=
  s.modPart p fun part => { part with flits := part.flits ++
    [{ stream := st, launch := l, unit := u, data := b, types := ts, cores := cores, due := s.slot + stDelay (part.stream st) }] }

/-- Bytes written into a core from a word address on, with the stored types of their 16-byte words, as draft lines where a draft task
launched the block (R54, R78, R191). -/
def Core.putUnit (core : Core) (group : Option Nat) (spad : Nat) (b : List Byte) (ts : List (Option SType)) : Core :=
  let core := (b.zip (upFrom (spad * 16) b.length)).foldl (fun (k : Core) x => k.putByte group x.2 x.1) core
  (ts.zip (upFrom spad ts.length)).foldl (fun (k : Core) x => k.putType group x.1 x.2) core

/-- Lines of `k` bytes of scratchpad from a word address on. -/
def spadLines (w k : Nat) : List Nat := upFrom (w / 4) ((w * 16 + k - 1) / 64 + 1 - w / 4)

/-- The next unit of a kind 0b00 block: 128 bytes from the slice, once its sub-lines are valid (R225), after the slot in which a fill installed them
(R227), and once its page serves (R244, R252). `err` tells what the read meets in the slice (R232): 1 an error that is corrected, 2 one that is not. -/
def State.unitFromSlice (s : State) (p st : Nat) (l : Launch) (u err : Nat) : UnitRes :=
  let part := s.part p
  let x := part.stream st
  let view := part.viewOf l.group
  let a := l.mem x u
  let pin := part.streamPin x l a
  let k := unitSlice x pin
  let s := s.settleSlice k
  match pin with
  | some w =>
    let a := PinWindowAt w a
    let sl := (s.slice k).meetPin w a err
    let s := s.setSlice k { sl with counts := bump sl.counts 0, touched := true }
    if sl.pinBadAt view w a 2 then .ended (s.endJobAccess p stDataError 0 0)
    else .moved (s.putFlit p st l u (stRect x) (sl.readPin view w a 128) (s.memTypeAt p sl view a 8))
  | none =>
    match s.touchPage p (a / pageBytes) with
    | .fail c => .ended (s.endJobAccess p c 0 0)
    | .pin => .ended (s.endJobAccess p stNoPage 0 0)
    | .wait s => .held (s.modSlice k fun sl => { (sl.request view [lineOf a]).1 with touched := true }) 4
    | .frame s | .zeros s =>
      let sl := ((s.slice k).meet view a err).refill view a
      match if sl.fresh s.slot a then none else sl.readBytes view a 128 with
      | none => .held (s.setSlice k { (sl.request view [lineOf a]).1 with touched := true }) 4
      | some b =>
        if sl.badAt view a 2 then .ended ((s.setSlice k sl).endJobAccess p stDataError 0 0) else
        let hit := !decide (lineOf a ∈ l.missed)
        let sl' := sl.use a
        let s' := s.setSlice k { sl' with touched := true, counts := if hit then bump sl'.counts 0 else sl'.counts }
        .moved (s'.putFlit p st l u (stRect x) b (s.memTypeAt p sl view a 8))

/-- A ZERO page given a frame at its first write, under the quota (R244, R248); under the step keep its boundary version is the ZERO page (R321). -/
def State.zeroFrame (s : State) (p pg : Nat) : UnitRes :=
  match s.needFrame p pg with
  | .got s f =>
    let part := s.part p
    let keep := part.job == .running && part.inSat pg
    .moved (s.setPage p pg { part.page pg with st := .hbm, frame := f, boundary := if keep then some zeroBoundary else none
                                               copied := [], copyAll := false })
  | .wait s => .held s 4
  | .fail c => .ended (s.endJobAccess p c 0 0)

/-- What the page of a store meets before its slice takes it (R244): a ZERO page takes a frame at its first write, a page on the far tier
comes in first, and a page that is not there ends the step. -/
def State.storePage (s : State) (p pg : Nat) (draft : Bool) : UnitRes :=
  match s.touchPage p pg with
  | .frame s => .moved s
  | .pin => .moved s
  | .zeros s =>
    if draft then .moved s
    else s.zeroFrame p pg
  | .wait s => .held s 4
  | .fail c => .ended (s.endJobAccess p c 0 0)

/-- The bytes and stored types that a unit writes into a slice: its own, or a key-value unit's bytes over what the slice holds (R193). -/
def State.storeBytes (s : State) (p x : Nat) (l : Launch) (u : Nat) (unit : List Byte) (types : List (Option SType)) :
    Option (List Byte × List (Option SType)) :=
  let part := s.part p
  let view := part.viewOf l.group
  match l.kv with
  | some b =>
    let d := (b.data.getD u (0, [])).2
    let old := (s.slice (stSlice x)).readBytes view (l.mem x u) 128
    match old with
    | none => none
    | some o => some ((o.zip (upFrom 0 128)).map fun y => (tget none d y.2).getD y.1, List.replicate 8 none)
  | none => some (unit, types)

/-- A unit of a kind 0b01 block taken by its slice: 128 bytes written (R225, R227, R230, R231), or for a key-value block its changed bytes over what the slice
holds (R193). -/
def State.storeUnit (s : State) (p st : Nat) (l : Launch) (u : Nat) (unit : List Byte) (types : List (Option SType)) : UnitRes :=
  let part := s.part p
  let x := part.stream st
  let a := l.mem x u
  let pin := part.streamPin x l a
  let k := unitSlice x pin
  let a := match pin with | some w => PinWindowAt w a | none => a
  let pg := a / pageBytes
  let s := s.settleSlice k
  let wait (s : State) (c : Nat) : UnitRes := .held (s.modSlice k fun sl => { sl with held := addOnce sl.held (lineOf a) }) c
  match if pin.isSome then UnitRes.moved s else s.storePage p pg l.group.isSome with
  | .held s c => wait s c
  | .ended s => .ended s
  | .moved s =>
    match s.storeBytes p x l u unit types with
    | none => wait (s.modSlice k fun sl => { (sl.request (part.viewOf l.group) [lineOf a]).1 with touched := true }) 4
    | some (b, ts) =>
      let part := s.part p
      let keep := part.job == .running && part.inSat pg
      match (s.slice k).store (s.cacheBays k) a b ts l.group keep pin false with
      | .miss => wait s 4
      | .space => wait s 5
      | .bad => .ended (s.endJobAccess p stDataError 0 0)
      | .done sl =>
        let s := s.setSlice k { sl with touched := true, held := sl.held.filter (· != lineOf a) }
        .moved (match l.group, pin with
          | some _, _ => s
          | none, w => s.modPart p fun part =>
              let part := { part with memTypes := (ts.zip (upFrom (a / 16) ts.length)).foldl (fun m y => tset none m y.2 y.1) part.memTypes }
              if w.isSome then part else part.markDirty pg)

/-- A unit of `k` bytes read from its source core's scratchpad, as the launching task sees it, and put on its way (R64, R190, R191). -/
def State.unitFromCore (s : State) (p st : Nat) (l : Launch) (u w k : Nat) (cores : List Nat) : State :=
  let view := (s.part p).viewOf l.group
  let c := stSource ((s.part p).stream st)
  let core := s.core c
  let s := s.modCore c fun core => (spadLines w k).foldl (fun core x => core.request 0 [x]) core
  s.putFlit p st l u cores ((upFrom (w * 16) k).map fun a => core.byteAt view a) ((upFrom w (k / 16)).map fun k => core.typeAt view k)

/-- The next unit of a kind 0b01 block (R190): it leaves once its slice could take it now (R227, R230); a key-value block's unit brings its own bytes. -/
def State.unitToSlice (s : State) (p st : Nat) (l : Launch) (u : Nat) : UnitRes :=
  let x := (s.part p).stream st
  match s.storeUnit p st l u (List.replicate 128 0) (List.replicate 8 none) with
  | .moved _ => .moved (if l.kv.isSome then s.putFlit p st l u [] [] [] else s.unitFromCore p st l u (l.spad x u) 128 [])
  | r => r

/-- Transfers of an edge router on its interior side counted (Table 6 of chapter 7). -/
def State.countEdge (s : State) (g k n : Nat) : State := s.modEdge g fun e => { e with counts := tmod 0 e.counts k fun c => satAdd32 c n }

/-- The edge routers to which the router settings lead a vector flit that leaves a core in the present slot (R188, R206). -/
def State.vecEdges (s : State) (p x : Nat) : List Nat :=
  let part := s.part p
  ((secPaths part.sec true (stConfig x) (part.phase s.slot) (stSource x)).filter fun y => decide (1536 ≤ y.1)).map fun y => y.1 - 1536

/-- The next unit of a kind 0b11 block: 64 bytes from the source core's scratchpad (R190, R191), counted at each edge router that it enters. -/
def State.unitVector (s : State) (p st : Nat) (l : Launch) (u : Nat) : UnitRes :=
  let x := (s.part p).stream st
  .moved (((s.vecEdges p x).foldl (fun s g => s.countEdge g 0 1) s).unitFromCore p st l u (stUnitSource x l.block u) 64 (stRect x))

/-! ### Delivery (R196, R199) -/

/-- A unit delivered to the cores of its rectangle that take it now; the others have its lines mapped by a draft that R80 protects. -/
def State.deliverCores (s : State) (p : Nat) (f : Flit) : State × List Nat :=
  let w := f.launch.spad ((s.part p).stream f.stream) f.unit
  let lines := spadLines w f.data.length
  let live := f.cores.filter fun c => (s.core c).takesUnits
  let held := live.filter fun c => (s.core c).heldLines f.launch.group lines
  ((live.filter fun c => !decide (c ∈ held)).foldl (fun s c => s.modCore c fun core =>
      lines.foldl (fun core x => core.request 0 [x]) (core.putUnit f.launch.group w f.data f.types)) s, held)

/-- A unit whose delivery slot has come: it is delivered, or what is left of it waits at the router, counted slot by slot (R80, R88, R227). -/
def State.deliverFlit (s : State) (p : Nat) (f : Flit) : State × Option Flit :=
  if stKind ((s.part p).stream f.stream) = 1 then
    match s.storeUnit p f.stream f.launch f.unit f.data f.types with
    | .moved s => (s, none)
    | .held s c => (s.routerWait f.launch.core s.slot c, some f)
    | .ended s => (s, none)
  else
    let r := s.deliverCores p f
    if r.2 = [] then (r.1, none) else (r.1.routerWait f.launch.core s.slot 5, some { f with cores := r.2 })

/-- Every unit of a partition whose delivery slot has come, in the order in which the units left; a unit stays behind an earlier one of its stream. -/
def State.deliverFlits (s : State) (p : Nat) : State :=
  let due := (s.part p).flits.filter fun f => decide (f.due ≤ s.slot)
  if due = [] then s
  else
    let s := s.modPart p fun part => { part with flits := part.flits.filter fun f => !decide (f.due ≤ s.slot) }
    let r := due.foldl (fun (x : State × List Flit) f =>
      if x.2.any fun g => g.stream == f.stream then (x.1, x.2 ++ [f])
      else
        let y := x.1.deliverFlit p f
        match y.2 with
        | none => (y.1, x.2)
        | some f => (y.1, x.2 ++ [f])) (s, [])
    if (r.1.part p).job == .running then r.1.modPart p fun part => { part with flits := r.2 ++ part.flits } else r.1

/-! ### Occurrences -/

/-- Whether the present slot is an occurrence of a stream (R190, R197). -/
def Part.streamOccurs (part : Part) (x t : Nat) : Bool :=
  part.inPeriod t && part.config == stConfig x && stPhase x (part.phase t) && part.fits (t + stDelay x)

/-- The core at whose router a stream's unused occurrences count: the source of its units; for a stream from a slice, the lowest core with
an edge that launches it, or else the first of its rectangle. -/
def State.streamCore (s : State) (p st : Nat) : Nat :=
  let part := s.part p
  let x := part.stream st
  if stKind x = 0 then
    match part.sec.cores.find? fun c => c.2.edges.any fun e => cfgLaunch c.2 e.1 == some st with
    | some c => c.1
    | none => (stRect x).headD 0
  else stSource x

/-- A unit of the oldest pending block has moved (R191): with its last one the block leaves the pending launches, to be delivered at the
unit's delivery slot (R192). -/
def State.unitMoved (s : State) (p st : Nat) (l : Launch) (rest : List Launch) : State :=
  let x := (s.part p).stream st
  s.modPart p fun part =>
    let ss := tget {} part.streams st
    let due := s.slot + stDelay x
    let ss := if ss.unit + 1 < l.units x then { ss with unit := ss.unit + 1 }
      else { ss with unit := 0, pending := rest, moving := ss.moving ++ [(l, due)], due := tset 0 ss.due l.block (due + 1) }
    { part with streams := tset {} part.streams st ss }

/-- Launch room is there again (R191): a core held at TASK_CLOSE for it is woken, as by a credit (R94; DEDUCED, entry 19). -/
def State.launchRoom (s : State) (c : Nat) : State :=
  s.modCore c fun core => if [Stream.F, .B, .U].any core.atClose then core.rouse s.slot else core

/-- What the next unit of a key-value request waits for, as the pipe that issued it counts it (R168, R193). -/
def State.kvWhy (s : State) (p : Nat) (l : Launch) (why : Nat) : State :=
  match l.kv, (s.part p).pool with
  | some b, some k => match k.reqs.find? fun r => r.id == b.req with
    | some r => if r.why = why then s else s.setPool p (k.setReq { r with why := why })
    | none => s
  | _, _ => s

/-- An occurrence of a launched stream in the present slot (R191, R227). -/
def State.streamOccurrence (s : State) (p st err : Nat) : State :=
  let part := s.part p
  let x := part.stream st
  let ss := tget {} part.streams st
  if stKind x = 2 || ss.last = s.slot + 1 || !part.streamOccurs x s.slot || (part.sec.streams.find? fun e => e.1 == st).isNone then s
  else
    let s := s.modPart p fun part => { part with streams := tset {} part.streams st { ss with last := s.slot + 1 } }
    match ss.pending with
    | [] => s.routerWait (s.streamCore p st) s.slot 6
    | l :: rest =>
      if s.slot ≤ l.at' then s.routerWait (s.streamCore p st) s.slot 6
      else
        let r := if stKind x = 0 then s.unitFromSlice p st l ss.unit err
          else if stKind x = 1 then s.unitToSlice p st l ss.unit
          else s.unitVector p st l ss.unit
        match r with
        | .ended s => s
        | .held s c => (s.kvWhy p l (c + 1)).routerWait l.core s.slot c
        | .moved s => (((s.kvWhy p l 0).unitMoved p st l rest).launchRoom l.core).kvPump p

/-- STREAM_OCCURRENCE (R191). -/
def execStreamOccurrence (p st err : Nat) (s : State) : Host.Outcome State Fault Refusal := .next (s.streamOccurrence p st err)

/-! ### Delivered blocks (R192) -/

/-- BLOCK_DELIVERED (R192): the delivery slot of a block's last unit has passed. With BELL_EN the launching core's router sends the ring, for
a global bell once every TIMED flit has been handed on (R302); a key-value block goes back to its command. -/
def execBlockDelivered (p st : Nat) (s : State) : Host.Outcome State Fault Refusal :=
  let part := s.part p
  let x := part.stream st
  let ss := tget {} part.streams st
  .next (match ss.moving with
    | [] => s
    | (l, due) :: rest =>
      let global := stBellEn x && decide (stBell x < 1024) && s.timedOwed l.core l.seq
      let held := part.flits.any fun f => f.stream == st && f.launch.block == l.block
      let ring := stBellEn x
      if s.slot ≤ due || held || global || (ring && s.upRoom l.core == 0) then s
      else
        let s := s.modPart p fun part =>
          { part with streams := tset {} part.streams st { ss with moving := rest }
                      up := if ring then part.up ++ [.ring (stBell x) 1 l.core] else part.up }
        let s := match l.kv with
          | some b => s.kvBlockDone p l b
          | none => s
        s.settleCore l.core)

end Sys2Proof.Machine
end

