-- ==== Sys2Proof/Machine/SliceHbm.lean ====
section
/-! DEFINITION. The traffic between slices and HBM: cache slots (R190, R197, R229), translations (R228) and fills (R225, R227, R228, R239). -/

namespace Sys2Proof.Machine

open Sys2Proof

/-! ### Cache slots (R190, R197, R229) -/

/-- The stack with which a slice exchanges cache traffic (R220). -/
def State.stackOfSlice (s : State) (k : Nat) : Nat :=
  let p := s.partOfSlice k
  let l := s.stacksOf p
  l.getD ((s.slicesOf p).idxOf k % l.length) 0

/-- The edge routers of a slice's cache slots in the present slot: those of its kind 0b10 occurrences while a timetable runs, or, when none does, one
slot in sixteen (R229), to the gateway of its stack (R205). -/
def State.cacheSlots (s : State) (k : Nat) : List Nat :=
  let part := s.part (s.partOfSlice k)
  if part.timetableRuns s.slot then
    (part.sec.streams.filter fun e =>
      let x := e.2.toNat
      stKind x == 2 && stSlice x == k && part.inPeriod s.slot && part.config == stConfig x && stPhase x (part.phase s.slot)
        && part.fits (s.slot + stDelay x)).map fun e => stEdge e.2.toNat
  else if s.slot % 16 = 0 then [s.stackOfSlice k]
  else []

/-- The edge router of the next cache slot of a slice that the present slot still has. -/
def State.cacheSlot (s : State) (k : Nat) : Option Nat :=
  let sl := s.slice k
  (s.cacheSlots k)[if sl.lastSlot = s.slot + 1 then sl.slotUses else 0]?

/-- Slots that a unit takes between a slice and an edge router (R195, R196). -/
def cacheDelay (g k : Nat) : Nat := 7 + edgeSlice g k / 4

/-! ### Miss slots and banks (R228) -/

/-- A bank of HBM as one number: stack, logical pseudo-channel and bank. -/
def bankNumber (h f u : Nat) : Nat :=
  let x := hbmPlace f u
  (h * 32 + x.1) * 64 + x.2.1

/-- The bank of HBM that holds a line (R228). -/
def State.bankOf (s : State) (p a : Nat) : Nat :=
  bankNumber (s.stackOfPage p (a / pageBytes)) ((s.part p).page (a / pageBytes)).frame (a % pageBytes / 256)

/-- The bank that holds a page's entry in its page table, of 8 bytes each (R228, R245). -/
def Part.walkBank (part : Part) (pg : Nat) : Nat :=
  match tget none part.tables (pg / 262144) with
  | some (h, f) => bankNumber h f (pg % 262144 * 8 / 256)
  | none => 0

/-- Whether a fill request holds a miss slot (R228): it has been sent, and is not parked on a page (R247). -/
def Fill.holds (f : Fill) : Bool := f.sent && !f.parked

/-- Miss slots of a slice in use (R228). -/
def Slice.missSlots (sl : Slice) : Nat := (sl.fills.filter Fill.holds).length + (sl.walks.filter fun w => w.sent).length

/-- Miss slots of a slice that wait on a bank. -/
def State.waitOn (s : State) (p : Nat) (sl : Slice) (bank : Nat) : Nat :=
  (sl.fills.filter fun f => f.holds && s.bankOf p f.addr == bank).length
    + (sl.walks.filter fun w => w.sent && (s.part p).walkBank w.page == bank).length

/-- Whether a line has its page's translation, and no write-back of it that would have to go first (R228, R229). -/
def Slice.mayAsk (sl : Slice) (a : Nat) : Bool :=
  decide (a / pageBytes ∈ sl.xlate) && !(sl.wbQueue.any fun l => l.addr == a)

/-- Whether a request waits under the bank cap of 16 (R228). -/
def State.capped (s : State) (k : Nat) : Bool :=
  let p := s.partOfSlice k
  let sl := tget {} s.slices k
  sl.fills.any (fun f => !f.sent && sl.mayAsk f.addr && decide (16 ≤ s.waitOn p sl (s.bankOf p f.addr)))
    || sl.walks.any fun w => !w.sent && decide (16 ≤ s.waitOn p sl ((s.part p).walkBank w.page))

/-- A slot in which a request of a slice waits under the bank cap counted in `SLC.BANK_CAP` (R228). -/
def State.countCap (s : State) (k : Nat) : State :=
  if s.capped k then s.modSlice k fun sl => { sl with counts := bump sl.counts 3 } else s

/-! ### Bundles (R228, R229) -/

/-- The pages for whose translation a slice's requests and write-backs wait (R228). -/
def Slice.untranslated (sl : Slice) : List Nat :=
  (((sl.wbQueue.map fun l => l.addr) ++ ((sl.lines.filter fun e => e.2.flush && e.2.anyDirty).map fun e => e.2.addr)
    ++ (sl.fills.filter fun f => !f.sent).map fun f => f.addr).map fun a => a / pageBytes).dedup.filter fun pg => !decide (pg ∈ sl.xlate)

/-- Page-table reads begun for the translations that a slice lacks. -/
def Slice.walk (sl : Slice) : Slice :=
  { sl with walks := sl.walks ++ ((sl.untranslated.filter fun pg => !sl.walks.any fun w => w.page == pg).map fun pg => { page := pg }) }

/-- Page-table reads put into a bundle in request order, as the miss slots and the bank cap allow: the slice, and the room left in the bundle. -/
def State.bundleWalks (s : State) (p due : Nat) (acc : Slice × Nat) : List Walk → Slice × Nat
  | [] => acc
  | w :: l =>
    let go := !w.sent && acc.2 != 0 && decide (acc.1.missSlots < 64) && decide (s.waitOn p acc.1 ((s.part p).walkBank w.page) < 16)
    let sl := { acc.1 with walks := acc.1.walks.map fun x => if x.page = w.page then { x with sent := true, due := due } else x }
    s.bundleWalks p due (if go then (sl, acc.2 - 1) else acc) l

/-- Fill requests put into a bundle of at most 16 in request order, likewise. -/
def State.bundleFills (s : State) (p due : Nat) (acc : Slice × Nat) : List Fill → Slice × Nat
  | [] => acc
  | f :: l =>
    let go := !f.sent && acc.2 != 0 && acc.1.mayAsk f.addr && decide (acc.1.missSlots < 64)
      && decide (s.waitOn p acc.1 (s.bankOf p f.addr) < 16)
    let sl := { acc.1 with fills := acc.1.fills.map fun x => if x.addr = f.addr then { x with sent := true, due := due } else x }
    s.bundleFills p due (if go then (sl, acc.2 - 1) else acc) l

/-- A bundle of at most 16 requests: the slice once they have been sent, and how many there are. -/
def State.bundle (s : State) (p due : Nat) (sl : Slice) : Slice × Nat :=
  let sl := sl.walk
  let r := s.bundleWalks p due (sl, 16) sl.walks
  let r := s.bundleFills p due r r.1.fills
  (r.1, 16 - r.2)

/-! ### Occurrences (R229) -/

/-- A line marked to go back that a slice can send now: it has a credit and its page's translation, and no error stands in its way (R229, R232). -/
def Slice.toFlush (sl : Slice) : Option (Nat × SliceLine) :=
  if sl.credits = 0 then none
  else sl.lines.find? fun e => e.2.flush && e.2.anyDirty && !e.2.dirtyBad && decide (e.2.addr / pageBytes ∈ sl.xlate)

/-- The write-back that a slice sends in an occurrence, where one waits for which it holds a credit (R229): a victim, then a line marked to go
back. -/
def Slice.nextBack (sl : Slice) : Option Slice :=
  match sl.wbQueue with
  | l :: rest =>
    if decide (l.addr / pageBytes ∈ sl.xlate) && decide (sl.wbSent.length + sl.owed < 8) then
      some { sl with wbQueue := rest, wbSent := sl.wbSent ++ [l] }
    else none
  | [] =>
    sl.toFlush.map fun e =>
      { sl with lines := tset {} sl.lines e.1 { e.2 with dirty := [false, false, false, false], old := false, flush := false }
                wbSent := sl.wbSent ++ [e.2] }

/-- What an occurrence brings a slice (R229): its credits, and an entry or a fill line that is ready, the entries first. -/
def Slice.inward (sl : Slice) (due : Nat) : Slice × Bool :=
  let sl := { sl with owed := 0 }
  match sl.walks.find? fun w => w.read && !w.arriving with
  | some w => ({ sl with walks := sl.walks.map fun x => if x.page = w.page then { x with arriving := true, due := due } else x }, true)
  | none => match sl.fills.find? fun f => f.data.isSome && !f.arriving with
    | some f => ({ sl with fills := sl.fills.map fun x => if x.addr = f.addr then { x with arriving := true, due := due } else x }, true)
    | none => (sl, false)

/-- Units counted at an edge router's crossbar ports (R206): `k` is 2 for a unit from the interior, 3 for one into it. -/
def State.countXbar (s : State) (g k : Nat) : State := s.modEdge g fun e => { e with counts := bump (bump e.counts k) 4 }

/-- A cache slot of a slice to edge router `g` (R229): towards the edge router a write-back, or else a bundle of requests; towards the slice one fill
line. -/
def State.cacheOccurs (s : State) (k g : Nat) : State :=
  let s := s.settleSlice k
  let sl := s.slice k
  let sl := { sl with lastSlot := s.slot + 1, slotUses := if sl.lastSlot = s.slot + 1 then sl.slotUses + 1 else 1 }
  let d := cacheDelay g k
  let out := match sl.nextBack with
    | some sl => (sl, true)
    | none => let r := s.bundle (s.partOfSlice k) (s.slot + d + 120) sl; (r.1, r.2 != 0)
  let inw := out.1.inward (s.slot + d + 1)
  let s := s.setSlice k inw.1
  let s := if out.2 then s.countXbar g 2 else s
  if inw.2 then s.countXbar g 3 else s

/-- CACHE_SLOT_OCCURRENCE (R229). -/
def execCacheSlotOccurrence (sl : Nat) (s : State) : Host.Outcome State Fault Refusal :=
  .next (match s.cacheSlot sl with
    | some g => s.cacheOccurs sl g
    | none => s)

/-! ### Fills (R225, R227, R239, R247) -/

/-- A fill request of a slice changed. -/
def State.modFill (s : State) (k a : Nat) (f : Fill → Fill) : State :=
  s.modSlice k fun sl => { sl with fills := sl.fills.map fun x => if x.addr = a then f x else x }

/-- Requests parked on pages of a partition (R247). -/
def State.parkedOf (s : State) (p : Nat) : Nat :=
  ((s.slicesOf p).map fun k => ((tget {} s.slices k).fills.filter fun f => f.parked).length).sum

/-- A request parked: it stands behind those parked before it (R247). -/
def Slice.park (sl : Slice) (a : Nat) : Slice :=
  { sl with fills := sl.fills.filter (fun f => f.addr != a) ++ (sl.fills.filter fun f => f.addr == a).map fun f => { f with parked := true } }

/-- What a read of four lines of a page meets at its stack, and the read (R233, R239): a second parity error ends it. -/
def State.readMet (s : State) (p a : Nat) (ev : HbmEvent) : State × HbmRead :=
  let pg := a / pageBytes
  let h := s.stackOfPage p pg
  let line := ((s.part p).page pg).frame * 32768 + a % pageBytes / 64
  let s := s.modStack h fun st => st.meet line 4 ev
  if 2 ≤ ev.parity then (s.modStack h fun st => st.parityFails line 4, .fail stDataError) else s.readSliceLine p a

/-- A fill request at its controller (R239, R244, R247): the line is read and checked, a request to a page that is not in HBM waits, and one
that fails ends the running step (R255). -/
def State.fillReady (s : State) (k a : Nat) (ev : HbmEvent) : State :=
  let p := s.partOfSlice k
  let pg := a / pageBytes
  let drop (s : State) : State := s.modSlice k fun sl => { sl with fills := sl.fills.filter fun f => f.addr != a }
  match s.touchPage p pg with
  | .frame s =>
    match s.readMet p a ev with
    | (s, .ok b) => s.modFill k a fun f => { f with data := some b, parked := false }
    | (s, .fail c) => (drop s).endJobAccess p c 2 (s.stackOfPage p pg)
  | .zeros s => s.modFill k a fun f => { f with data := some [], parked := false }
  | .wait s => if s.parkedOf p < 1024 then s.modSlice k fun sl => sl.park a else s
  | .pin => (drop s).endJobAccess p stNoPage 0 0
  | .fail c => (drop s).endJobAccess p c 0 0

/-- FILL_READY (R228, R239): a fill whose request has had its time at the controller, once a write-back of its line has been written, or else the page's
entry for the translation cache. -/
def execFillReady (sl a : Nat) (ev : HbmEvent) (s : State) : Host.Outcome State Fault Refusal :=
  let k := s.slice sl
  .next (match k.fills.find? fun f => f.addr == a && f.holds && f.data.isNone with
    | some f => if f.due ≤ s.slot && !((k.wbSent ++ k.wbQueue).any fun l => l.addr == a) then s.fillReady sl a ev else s
    | none => match k.walks.find? fun w => w.page == a / pageBytes && w.sent && !w.read with
      | some w => if w.due ≤ s.slot then
          s.setSlice sl { k with walks := k.walks.map fun x => if x.page = w.page then { x with read := true } else x }
        else s
      | none => s)

/-- A fill line joined to the line that a slice holds for its address: sub-lines that are valid stay (R225). -/
def SliceLine.fill (l : SliceLine) (b : SMap Byte) : SliceLine :=
  { l with
    bytes := tsetAll 0 (l.bytes.filter fun e => l.valid.getD (e.1 / 64) false) (b.filter fun e => !l.valid.getD (e.1 / 64) false)
    valid := [true, true, true, true] }

/-- A fill line installed in its slice in slot `t`, where a way can be had (R225). -/
def Slice.install (sl : Slice) (bays : List Nat) (a t : Nat) (b : SMap Byte) : WayRes :=
  let r : WayRes := match sl.fair a with
    | some e => .got e.1 sl
    | none => sl.takeWay bays (setOf a) false
  match r with
  | .got k sl =>
    let l : SliceLine := match sl.fair a with | some e => e.2 | none => { addr := lineOf a }
    .got k ({ sl with fills := sl.fills.filter (fun f => f.addr != a), counts := bump sl.counts 1 }.put k { l.fill b with filled := t + 1 })
  | r => r

/-- A page's translation put at the front of the translation cache of 512 entries (R228). -/
def Slice.translate (sl : Slice) (pg : Nat) : Slice :=
  { sl with xlate := (pg :: sl.xlate.filter (· != pg)).take 512, walks := sl.walks.filter fun w => w.page != pg }

/-- FILL_INSTALL (R225, R228): the page-table entry or fill line that has arrived at a slice; a line whose victim has an uncorrectable error ends the
request (R232). -/
def execFillInstall (sl : Nat) (s : State) : Host.Outcome State Fault Refusal :=
  .next (
    let s := s.settleSlice sl
    let k := s.slice sl
    match k.walks.find? fun w => w.arriving && decide (w.due ≤ s.slot) with
    | some w => s.setSlice sl (k.translate w.page)
    | none => match k.fills.find? fun f => f.arriving && decide (f.due ≤ s.slot) with
      | none => s
      | some f =>
        match k.install (s.cacheBays sl) f.addr s.slot (f.data.getD []) with
        | .got _ k => s.setSlice sl { k with touched := true }
        | .bad => (s.setSlice sl { k with fills := k.fills.filter fun x => x.addr != f.addr }).endJobAccess (s.partOfSlice sl) stDataError 0 0
        | _ => s)

/-! ### Boundary versions (R321) -/

/-- LINE_COPY_DONE (R321): every line not yet written is copied from the boundary version. -/
def execLineCopyDone (p pg : Nat) (s : State) : Host.Outcome State Fault Refusal :=
  let e := (s.part p).page pg
  .next (match e.boundary with
    | none => s
    | some _ =>
      if e.copyAll then s
      else
        let ls := s.pageLines p pg
        (s.putLines (s.stackOfPage p pg) e.frame ls).setPage p pg { e with copyAll := true })

end Sys2Proof.Machine
end

