-- ==== Sys2Proof/Machine/FarTier.lean ====
section
/-! DEFINITION. Page transfers to and from the far tier (R246, R247, R252, R254, R255), and prefetch (R251). -/

namespace Sys2Proof.Machine

open Sys2Proof

/-! ### Ends of transfers -/

/-- Whether a request of the job waits on a page: a fill, or a write held at its home slice (R255). -/
def State.jobWaits (s : State) (p pg : Nat) : Bool :=
  let sl := s.slice (s.homeOfPage p pg)
  sl.fills.any (fun f => f.addr / pageBytes == pg && !f.host) || sl.held.any fun a => a / pageBytes == pg

/-- Whether a request of a partition's job waits for a frame: a parked fill of a page that is still FAR, or a write held for a page that is FAR or
ZERO (R248, R255). -/
def State.frameWaits (s : State) (p : Nat) : Bool :=
  let st (a : Nat) : PageSt := ((s.part p).page (a / pageBytes)).st
  (s.slicesOf p).any fun k =>
    let sl := tget {} s.slices k
    sl.fills.any (fun f => f.parked && !f.host && st f.addr == .far) || sl.held.any fun a => st a == .far || st a == .zero

/-- A running MEM_FLUSH of a partition ended with a status, where there is one (R250). -/
def State.endFlush (s : State) (p status : Nat) : State :=
  s.rings.foldl (fun s r =>
    match r.2.inflight.find? fun c => c.running && !c.done && c.opcode == 0x0405
        && (match ringPart r.1 with | some q => s.lowest q | none => s.lowest c.partition) == p with
    | some c => s.finishStatus r.1 c.tag status
    | none => s) s

/-- MEM_FLUSH ended once none of its pages is on its way. -/
def State.checkFlush (s : State) (p : Nat) : State :=
  if (s.part p).pages.any fun e => e.2.flushing then s else s.endFlush p stOK

/-! ### Transfers in -/

/-- A page has come in (R247): HBM with FAR_VALID, or fetched again where its window's version has changed (R252). -/
def State.pageIn (s : State) (p pg : Nat) : State :=
  let part := s.part p
  let e := part.page pg
  if (part.windowOf pg).isSome && e.version != part.versionOf pg then
    let s := s.modStack (s.stackOfPage p pg) fun st => { st with lines := clearFrame e.frame st.lines }
    (s.setPage p pg { e with version := part.versionOf pg, arrived := [], tries := 0, started := s.tick }).askIn p pg
  else
    let s := s.modPart p fun part => part.dropTransfer pg
    (s.setPage p pg { e with st := .hbm, farValid := true, arrived := [], tries := 0, touched := s.care.windows }).unpark p pg

/-- A failure of traffic that no request waits for counted and logged (R251, R255): 0 prefetch, 1 scrub, 2 satchel. -/
def Part.logFailure (part : Part) (kind pg status : Nat) : Part :=
  { part with
    prefetchDropped := if kind = 0 then satInc32 part.prefetchDropped else part.prefetchDropped
    failLog := part.failLog ++ [(kind, pg, status)] }

/-- A transfer in that has ended without its page (R247, R254, R255): the page stays FAR. A failed prefetch is dropped, counted and logged, and requests
that have come to wait on it bring the page in by demand; a demand's failure ends the running step where a request of the job waits on the page. -/
def State.failIn (s : State) (p pg status : Nat) : State :=
  let e := (s.part p).page pg
  let prefetch := (s.part p).transfers.any fun t => t.page == pg && t.prefetch
  let s := s.freeFrame (s.stackOfPage p pg) e.frame
  let s := (s.modPart p fun part => (part.dropTransfer pg).release 2 1).setPage p pg { e with st := .far, frame := 0, arrived := [], tries := 0 }
  let waits := s.jobWaits p pg
  let s := s.unpark p pg
  if prefetch then s.modPart p fun part => part.logFailure 0 pg status
  else if waits then s.endJobAccess p status 0 0
  else s

/-- MIGRATION_IN_DONE (R247): the lines come with the command from host memory, and have come in FAR_DATA packets over the links; `none` is
a transfer that has failed, which is tried three times (R246). -/
def execMigrationInDone (p pg : Nat) (lines : Option (SMap HbmLine)) (s : State) : Host.Outcome State Fault Refusal :=
  let part := s.part p
  let e := part.page pg
  .next (if !part.inTransfer pg true then s
    else
      match lines with
      | none =>
        if e.tries < 2 then (s.setPage p pg { e with tries := e.tries + 1, arrived := [] }).askIn p pg
        else s.failIn p pg stFarTier
      | some ls =>
        if (part.backendOf pg).kind = 0 then (s.putLines (s.stackOfPage p pg) e.frame ls).pageIn p pg
        else if e.arrived.length = 512 then s.pageIn p pg
        else s)

/-! ### Transfers out -/

/-- A page is on its backend (R247): its frame is freed and it is FAR, or, where MEM_FLUSH sent it, it stays in HBM with FAR_VALID (R250). -/
def State.pageOut (s : State) (p pg : Nat) : State :=
  let e := (s.part p).page pg
  let s := s.modPart p fun part => part.dropTransfer pg
  if e.flushing then
    ((s.setPage p pg { e with st := .hbm, farValid := true, flushing := false, arrived := [], tries := 0 }).unpark p pg).checkFlush p
  else
    let s := s.freeFrame (s.stackOfPage p pg) e.frame
    ((s.modPart p fun part => part.release 2 1).setPage p pg { e with st := .far, farValid := true, frame := 0, arrived := [], tries := 0 }).unpark p pg

/-- A transfer out that has ended without reaching its backend (R247, R254, R255): the page stays HBM with its data; a job's request for
which the frame was wanted ends the running step, and a MEM_FLUSH ends with the status. -/
def State.failOut (s : State) (p pg status : Nat) : State :=
  let e := (s.part p).page pg
  let s := (s.modPart p fun part => (part.dropTransfer pg).release 3 1).setPage p pg { e with st := .hbm, flushing := false, arrived := [], tries := 0 }
  let s := s.unpark p pg
  if e.flushing then
    (s.modPart p fun part => { part with pages := part.pages.map fun x => (x.1, { x.2 with flushing := false }) }).endFlush p status
  else if s.frameWaits p then s.endJobAccess p status 0 0
  else s

/-- A page on its way out looked at again (R247): once its lines have been written back it goes on; an uncorrectable error among them ends its way
(R232). -/
def State.settleOut (s : State) (p pg : Nat) : State :=
  if s.pageBad p pg then s.failOut p pg stDataError
  else if s.pageDirty p pg then s
  else s.drained p pg

/-- Every page of a partition whose lines are being written back before it goes out looked at again. -/
def State.settleOuts (s : State) (p : Nat) : State :=
  ((s.part p).transfers.filter fun t => t.drain).foldl (fun s t => s.settleOut p t.page) s

/-- Whether a page of a partition is being sent to its backend, its lines written back. -/
def Part.sending (part : Part) (pg : Nat) : Bool := part.transfers.any fun t => t.page == pg && !t.inward && !t.drain

/-- MIGRATION_OUT_DONE (R247). -/
def execMigrationOutDone (p pg : Nat) (ok : Bool) (s : State) : Host.Outcome State Fault Refusal :=
  let part := s.part p
  let e := part.page pg
  .next (if !part.sending pg then s
    else if ok then
      if (part.backendOf pg).kind = 0 || e.arrived.length = 512 then s.pageOut p pg else s
    else if e.tries < 2 then (s.setPage p pg { e with tries := e.tries + 1, arrived := [] }).sendOut p pg
    else s.failOut p pg stFarTier)

/-- FAR_TRANSFER_TIMEOUT (R246, R254): a transfer that outlasts its backend's TIMEOUT. -/
def execFarTransferTimeout (p pg : Nat) (s : State) : Host.Outcome State Fault Refusal :=
  let part := s.part p
  let e := part.page pg
  .next (if e.started + (part.backendOf pg).timeoutMs * 25000 ≤ s.tick then
      if part.inTransfer pg true then s.failIn p pg stTimeout
      else if part.inTransfer pg false then s.failOut p pg stTimeout
      else s
    else s)

/-! ### Prefetch (R251) -/

/-- PREFETCH (R251): the next page of the windows named for prefetch is brought in, by a transfer slot that no demand uses; one that fails is
dropped and counted. -/
def execPrefetch (p : Nat) (s : State) : Host.Outcome State Fault Refusal :=
  .next (match (s.part p).prefetch with
    | [] => s
    | pg :: rest =>
      let next (s : State) : State := s.modPart p fun part => { part with prefetch := rest }
      if ((s.part p).page pg).st != .far then next s
      else
        match s.startIn p pg true with
        | .got s _ => next s
        | .wait s => s
        | .fail c => next (s.modPart p fun part => part.logFailure 0 pg c))

/-! ### Write-backs (R225, R229, R321) -/

/-- What the page of a write-back meets (R244, R248): a ZERO page takes a frame under the quota, a page on the far tier comes in first. -/
def State.backFrame (s : State) (p pg : Nat) : UnitRes :=
  match ((s.part p).page pg).st with
  | .zero => s.zeroFrame p pg
  | .out => if (s.part p).sending pg then .held s 4 else .moved s
  | .far | .inn => match s.touchPage p pg with
    | .wait s => .held s 4
    | .fail c => .ended (s.endJobAccess p c 0 0)
    | _ => .held s 4
  | _ => .moved s

/-- The oldest write-back line on its way from a slice to HBM written (R225, R321), its credit on the way back (R229); where the stack has no frame for
a new version of the page, the demand ends with NO_MEMORY (R249). -/
def State.writeBack (s : State) (k : Nat) (l : SliceLine) (rest : List SliceLine) : State :=
  let p := s.partOfSlice k
  let pg := l.addr / pageBytes
  match s.backFrame p pg with
  | .held s _ => s
  | .ended s => s
  | .moved s =>
    let none' := (s.writeFrame p pg l.old).2.isNone
    if none' then s.endJobAccess p stNoMemory 0 0
    else
      ((s.writeSubs p l).modSlice k fun sl => { sl with wbSent := rest, owed := sl.owed + 1, counts := bump sl.counts 2 }).settleOuts p

/-- WRITE_BACK (R321). -/
def execWriteBack (sl : Nat) (s : State) : Host.Outcome State Fault Refusal :=
  .next (match (s.slice sl).wbSent with
    | [] => s
    | l :: rest => s.writeBack sl l rest)

end Sys2Proof.Machine
end

