-- ==== Sys2Proof/Machine/MemAccess.lean ====
section
/-! DEFINITION. Accesses to a partition's memory that no job makes: those of the HBM aperture (R346), of the intake (R355) and of commands,
served through the line's home slice. -/

namespace Sys2Proof.Machine

open Sys2Proof

/-- A sub-line of memory as a line that is being written back holds it, the newest first (R225). -/
def Slice.onWay (sl : Slice) (a k : Nat) : Option SliceLine :=
  (sl.wbSent ++ sl.wbQueue).reverse.find? fun l => l.addr == lineOf a && l.dirty.getD k false

/-- Sub-line `k` of the line of an address, in a page that is in HBM or ZERO, as its home slice shows it: a valid sub-line of the slice, then one that is
being written back, then HBM. An uncorrectable error in a clean line drops the line (R232). -/
def State.seenSub (s : State) (p a k : Nat) : State × HbmRead :=
  let pg := a / pageBytes
  let at' := s.homeOfPage p pg
  let sl := s.slice at'
  let below (s : State) : State × HbmRead :=
    match sl.onWay a k with
    | some l => (s, .ok (subBytes l.bytes k))
    | none => if ((s.part p).page pg).st == .hbm then s.readPageLine p pg (lineOf a % pageBytes / 64 + k) else (s, .ok [])
  match sl.fair a with
  | some e =>
    if !e.2.valid.getD k false then below s
    else if !decide (k ∈ e.2.bad) then (s, .ok (subBytes e.2.bytes k))
    else if e.2.anyDirty then (s, .fail stDataError)
    else below (s.setSlice at' { sl with lines := sl.lines.filter (fun x => x.1 != e.1), counts := bump sl.counts 6 })
  | none => below s

/-- What an access to memory comes to: the bytes read, or the status with which it ends (R254). -/
inductive MemRes
  | ok (s : State) (bytes : List Byte)
  | fail (s : State) (status : Nat)

/-- Sub-lines of 64 bytes read from address `a` on, a multiple of 64, `n` of them; those that lie within `skip`, first byte and end, are not needed
and not read. -/
def State.readSubs (s : State) (p : Nat) (skip : Nat × Nat) (a : Nat) : Nat → MemRes
  | 0 => .ok s []
  | n + 1 =>
    match if skip.1 ≤ a && decide (a + 64 ≤ skip.2) then (s, .ok []) else s.seenSub p a (a % 256 / 64) with
    | (s, .fail c) => .fail s c
    | (s, .ok b) =>
      match s.readSubs p skip (a + 64) n with
      | .ok s r => .ok s ((upFrom 0 64).map (fun k => tget 0 b k) ++ r)
      | r => r

/-- A page's home slice woken for an access that no job makes, with every verdict applied that it has received (R230, R413). -/
def State.wakeHome (s : State) (p pg : Nat) : State :=
  let k := s.homeOfPage p pg
  (s.settleSlice k).modSlice k fun sl => { sl with asleep := false, touched := true }

/-- What the page of such an access meets (R346): a page in HBM or ZERO serves it; one on the far tier is busy, and starts to come in. -/
def State.pageServes (s : State) (p pg : Nat) : State × Nat :=
  match s.touchPage p pg with
  | .frame s => (s, stOK)
  | .zeros s => (s, stOK)
  | .wait s => (s, stBusy)
  | .pin => (s, stNoPage)
  | .fail c => (s, if c = stNoPage then stNoPage else if ((s.part p).page pg).st == .far then stBusy else c)

/-- `n` bytes of memory read from address `a` on, within one page. -/
def State.readMem (s : State) (p a n : Nat) : MemRes :=
  match s.pageServes p (a / pageBytes) with
  | (s, c) =>
    if c != stOK then .fail s c
    else
      match (s.wakeHome p (a / pageBytes)).readSubs p (0, 0) (a / 64 * 64) ((a % 64 + n + 63) / 64) with
      | .ok s b => .ok s ((b.drop (a % 64)).take n)
      | r => r

/-- A ZERO page given a frame at its first write (R244, R248). -/
def State.frameForWrite (s : State) (p pg : Nat) : State × Nat :=
  if ((s.part p).page pg).st != .zero then (s, stOK)
  else
    match s.needFrame p pg with
    | .got s f => (s.setPage p pg { (s.part p).page pg with st := .hbm, frame := f, copied := [], copyAll := false }, stOK)
    | .wait s => (s, stBusy)
    | .fail c => (s, c)

/-- Bytes written within one line of memory, into the line that its home slice holds or takes (R229); a line with a shadow, or a set with no way to
give, makes it wait, which such an access reports as BUSY (R230; DESIGN CHOICE, entry 87). -/
def State.writeInLine (s : State) (p a : Nat) (b : List Byte) : State × Nat :=
  let pg := a / pageBytes
  let first := a / 64 * 64
  let n := (a + b.length - 1) / 64 - a / 64 + 1
  match (s.wakeHome p pg).readSubs p (a, a + b.length) first n with
  | .fail s c => (s, c)
  | .ok s old =>
    let bytes := old.take (a % 64) ++ b ++ old.drop (a % 64 + b.length)
    let part := s.part p
    let k := s.homeOfPage p pg
    match (s.slice k).store (s.cacheBays k) first bytes [] none (part.job == .running && part.inSat pg) none true with
    | .done sl => ((s.setSlice k sl).modPart p fun part => part.markDirty pg, stOK)
    | .bad => (s, stDataError)
    | _ => (s, stBusy)

/-- Bytes written from address `a` on, line by line; `fuel` bounds the lines. -/
def State.writeSpan (s : State) (p : Nat) : Nat → Nat → List Byte → State × Nat
  | 0, _, _ => (s, stOK)
  | _, _, [] => (s, stOK)
  | fuel + 1, a, b =>
    let n := 256 - a % 256
    match s.writeInLine p a (b.take n) with
    | (s, c) => if c = stOK then s.writeSpan p fuel (a + n) (b.drop n) else (s, c)

/-- Bytes written to memory from address `a` on, within one page (R346). -/
def State.writeMem (s : State) (p a : Nat) (b : List Byte) : State × Nat :=
  match s.pageServes p (a / pageBytes) with
  | (s, c) =>
    if c != stOK then (s, c)
    else
      match s.frameForWrite p (a / pageBytes) with
      | (s, c) => if c != stOK then (s, c) else s.writeSpan p (b.length / 256 + 2) a b

/-- Bytes written to memory over page bounds, page by page. -/
def State.writePages (s : State) (p : Nat) : Nat → Nat → List Byte → State × Nat
  | 0, _, _ => (s, stOK)
  | _, _, [] => (s, stOK)
  | fuel + 1, a, b =>
    let n := pageBytes - a % pageBytes
    match s.writeMem p a (b.take n) with
    | (s, c) => if c = stOK then s.writePages p fuel (a + n) (b.drop n) else (s, c)

end Sys2Proof.Machine
end

