-- ==== Sys2Proof/Machine/Intake.lean ====
section
/-! DEFINITION. The sample intake (R350 to R357): the cursor, the shuffle, conversion, the sample ring, and its stops. -/

namespace Sys2Proof.Machine

open Sys2Proof

/-! ### The cursor (R351) -/

/-- LENGTH of a shard of the list; 0 past its end. -/
def Intake.lenOf (it : Intake) (j : Nat) : Nat := (it.shards.getD j {}).len

/-- The first shard from number `j` on whose LENGTH is not 0. -/
def Intake.shardFrom (it : Intake) (j : Nat) : Option Nat :=
  (upFrom j (it.shards.length - j)).find? fun x => decide (0 < it.lenOf x)

/-- The cursor after the present sample; none at the end of the last epoch (R351). -/
def Intake.nextCursor (it : Intake) : Option (Nat × Nat × Nat) :=
  if it.index + 1 < it.lenOf it.shard then some (it.epoch, it.shard, it.index + 1)
  else
    match it.shardFrom (it.shard + 1) with
    | some j => some (it.epoch, j, 0)
    | none =>
      if it.epoch + 1 < it.epochs then
        match it.shardFrom 0 with
        | some j => some (it.epoch + 1, j, 0)
        | none => none
      else none

/-- A shard of LENGTH 0 under a cursor that has read none of it is skipped (R351). -/
def Intake.skipEmpty (it : Intake) : Intake :=
  if it.index = 0 && it.lenOf it.shard = 0 then
    match it.shardFrom it.shard with
    | some j => { it with shard := j }
    | none => it
  else it

/-- The present cursor as the data-position register holds it. -/
def Intake.cursor (it : Intake) : Nat := cursorOf it.epoch it.shard it.index

/-! ### The shuffle (R352) -/

/-- Domain bits: even, at least 2. -/
def shuffleBits (n : Nat) : Nat :=
  let w := max 2 (if n ≤ 1 then 0 else (n - 1).log2 + 1)
  w + w % 2

/-- Rounds `rnd` on of the network: L and R of h bits each. -/
def feistel (h w s e key : Nat) : Nat → Nat → Nat × Nat → Nat × Nat
  | 0, _, x => x
  | n + 1, rnd, (l, r) =>
    let c := r + (rnd ||| (w * 256)) * 2 ^ 32 + (s ||| (e * 4096)) * 2 ^ 64 + 3 * 2 ^ 124
    feistel h w s e key n (rnd + 1) (r, l ^^^ (philox c key % 2 ^ 32 % 2 ^ h))

/-- The network applied until it falls below `n`; `fuel` bounds the walk. -/
def shuffleWalk (h w n s e key : Nat) : Nat → Nat → Nat
  | 0, x => x
  | fuel + 1, x =>
    let y := feistel h w s e key 4 0 (x / 2 ^ h, x % 2 ^ h)
    let z := y.1 * 2 ^ h + y.2
    if z < n then z else shuffleWalk h w n s e key fuel z

/-- The permutation of R352: the record that index `j` of a shard names. The walk returns below `n` within the size of its domain. -/
def shuffle (j n e s key : Nat) : Nat :=
  let w := shuffleBits n
  shuffleWalk (w / 2) w n s e key (2 ^ w) j

/-! ### Conversion (R353, R354) -/

/-- An IEEE binary16 or binary64 encoding read with input flushing (R30, R354): `eb` exponent bits, `fb` fraction bits. -/
def decodeIeee (eb fb n : Nat) : Val :=
  let neg := bit n (eb + fb)
  let ex := bits n fb eb
  let fr := bits n 0 fb
  if ex = 2 ^ eb - 1 then (if fr = 0 then .inf neg else .nan)
  else if ex = 0 then .fin neg 0 0
  else .fin neg (2 ^ fb + fr) ((ex : Int) - (2 ^ (eb - 1) - 1 : Nat) - fb)

/-- SRC_OFFSET, SRC_KIND, DST_TYPE, COUNT, DST_OFFSET, A and B of a field entry (Table 5). -/
def fldSrc (x : Nat) : Nat := bits x 0 26
def fldKind (x : Nat) : Nat := bits x 26 2
def fldType (x : Nat) : Nat := bits x 28 4
def fldCount (x : Nat) : Nat := bits x 32 24
def fldDst (x : Nat) : Nat := bits x 64 26
def fldA (x : Nat) : Val := decodeIeee 11 52 (bits x 128 64)
def fldB (x : Nat) : Val := decodeIeee 11 52 (bits x 192 64)

/-- Bytes of a source element, and of a destination element, of a field; 1 for COPY. -/
def fldSrcBytes (x : Nat) : Nat := match fldKind x with | 0 => 8 | 1 => 4 | 2 => 2 | _ => 1
def fldDstBytes (x : Nat) : Nat := if fldKind x = 3 then 1 else if fldType x = 5 then 4 else 2

/-- A source element as a value. -/
def fldRead (x n : Nat) : Val :=
  match fldKind x with
  | 0 => decodeIeee 11 52 n
  | 1 => decodeFloat 5 n
  | _ => decodeIeee 5 10 n

/-- One element converted (R354): its bytes, and whether it counts in MBX.INTAKE_RANGE. -/
def fldConvert (x n : Nat) : List Byte × Bool :=
  let c := convert (fldType x) ((fldRead x n).fma (fldA x) (fldB x))
  (leBytes (fldDstBytes x) c.bits, c.oor || c.spec)

/-- `n` elements of a field converted from the record's bytes at its source. -/
def fldElems (x : Nat) : Nat → List Byte → List Byte × Nat
  | 0, _ => ([], 0)
  | n + 1, b =>
    let e := fldConvert x (leNat (b.take (fldSrcBytes x)))
    let r := fldElems x n (b.drop (fldSrcBytes x))
    (e.1 ++ r.1, r.2 + e.2.toNat)

/-- A field's bytes in the slot, and the elements it counts. -/
def fldBytes (x : Nat) (rec : List Byte) : List Byte × Nat :=
  if fldKind x = 3 then ((rec.drop (fldSrc x)).take (fldCount x), 0)
  else fldElems x (fldCount x) (rec.drop (fldSrc x))

/-! ### States and their causes (R349, R355, R357) -/

/-- The intake cause of the function that serves a partition, and the INTAKE event (Table 3 of chapter 12, Table 6 of chapter 13). -/
def State.intakeCause (s : State) (p : Nat) : State :=
  let it := (s.part p).intake
  let f := s.fnOfPart p
  (s.partEvent p 0x0006 (packList [(1, it.st), (1, it.stopStatus), (8, it.cursor)])).raise f (if f = 0 then 11 else 5)

/-- The intake stopped with a status (R357); its cause is set. -/
def State.stopIntake (s : State) (p status : Nat) : State :=
  let it := (s.part p).intake
  if it.st = 1 || it.st = 2 then
    (s.modPart p fun part => { part with intake := { part.intake with st := 3, stopStatus := status, ringFull := false } }).intakeCause p
  else s

/-- Whether the next sample waits for FREE (R355). -/
def Part.ringWaits (part : Part) : Bool :=
  let it := part.intake
  decide (it.slots ≤ (BitVec.ofNat 32 it.k - tget 0 part.bells it.free).toNat)

/-- The intake's state after anything it waits on has changed: it waits for host data where the cursor lies at or beyond its shard's
LENGTH, and sets its cause as it begins to wait (R355). -/
def State.settleIntake (s : State) (p : Nat) : State :=
  let part := s.part p
  let it := part.intake.skipEmpty
  if !(it.st = 1 || it.st = 2) then s
  else if it.finished then s.stopIntake p stOK
  else
    let st := if it.index < it.lenOf it.shard then 1 else 2
    let s := s.modPart p fun part => { part with intake := { it with st := st, ringFull := part.ringWaits } }
    if st = 2 && it.st = 1 then s.intakeCause p else s

/-! ### Samples -/

/-- A counter of the intake raised. -/
def Intake.count (it : Intake) (i n : Nat) : Intake := { it with counts := tmod 0 it.counts i fun c => satAdd32 c n }

/-- Whether sample `k` may be written now: running, with host data and room (R355). -/
def Part.intakeReady (part : Part) : Bool :=
  let it := part.intake
  it.configured && it.st == 1 && !it.finished && decide (it.index < it.lenOf it.shard) && !part.ringWaits

/-- The fields of a sample written into its slot, one after another; the first failure ends it. -/
def State.writeFields (s : State) (p base : Nat) (rec : List Byte) : List Nat → State × Nat × Nat
  | [] => (s, stOK, 0)
  | x :: l =>
    let b := fldBytes x rec
    match s.writePages p 64 (base + fldDst x) b.1 with
    | (s, c) =>
      if c != stOK then (s, c, 0)
      else match s.writeFields p base rec l with
        | (s, c, n) => (s, c, n + b.2)

/-- The present sample's place: recorded where its number is a multiple of SPS (R356), its cursor moved on (R351), FILL rung (R355). -/
def State.sampleDone (s : State) (p range : Nat) : State :=
  let s := s.modPart p fun part =>
    let it := part.intake
    let first := it.k % part.sps == 0
    let cur := it.cursor
    let t := it.k / part.sps
    let it := if first then { it with firsts := tset 0 it.firsts t cur } else it
    let it := match it.nextCursor with
      | some c => { it with epoch := c.1, shard := c.2.1, index := c.2.2 }
      | none => { it with finished := true }
    { part with intake := ({ it with k := it.k + 1, retried := false }.count 0 1).count 1 range
                openPos := if first && t == part.openStep then cur else part.openPos }
  let part := s.part p
  let s := s.setBell p part.intake.fill (tget 0 part.bells part.intake.fill + 1)
  s.settleIntake p

/-- SAMPLE_WRITE (R355): the record that the cursor names has been read, and is converted into its slot. -/
def execSampleWrite (p : Nat) (rec : List Byte) (s : State) : Host.Outcome State Fault Refusal :=
  .next (
    let s := s.settleIntake p
    let part := s.part p
    let it := part.intake
    if !(part.intakeReady && rec.length == it.recordBytes) then s
    else
      match s.writeFields p (it.ringBase + it.k % it.slots * it.slotBytes) rec (it.fields.map fun x => x.toNat) with
      | (s, c, range) =>
        if c = stOK then s.sampleDone p range else if c = stBusy then s else (s.endJobAccess p c 0 0).stopIntake p c)

/-- The host address of the record that the cursor names (R350, R351). -/
def Intake.recordAddr (it : Intake) : Nat :=
  let sh := it.shards.getD it.shard {}
  sh.base + (if sh.shuffle then shuffle it.index sh.len it.epoch it.shard it.key.toNat else it.index) * sh.stride

/-- INTAKE_DMA_FAILURE (R357): an error or poisoned data is retried once; a second one, or a timeout, ends the running step and stops the
intake. -/
def execIntakeDmaFailure (p : Nat) (timeout : Bool) (s : State) : Host.Outcome State Fault Refusal :=
  .next (
    let it := (s.part p).intake
    if !(it.configured && it.st == 1) then s
    else if timeout then (s.endJobAccess p stTimeout 0 0).stopIntake p stTimeout
    else if it.retried then (s.endJobAccess p stDataError 0 0).stopIntake p stDataError
    else (s.modPart p fun part => { part with intake := { part.intake with retried := true } }).put (.hostRead it.recordAddr it.recordBytes))

end Sys2Proof.Machine
end

