-- ==== Sys2Proof/Machine/Satchels.lean ====
section
/-! DEFINITION. Satchels: the schedule record (R328), what a due boundary takes (R324), buddies (R326), copies and their commits (R325, R327,
R329, R330). -/

namespace Sys2Proof.Machine

open Sys2Proof

/-! ### The job's devices and buddies -/

/-- Devices of a partition's job: those of its rank map, or of its image (R257, R297). -/
def Part.jobDevices (part : Part) : List Nat :=
  if part.ranks != [] then part.ranks.dedup
  else match part.image with | some im => im.devices.dedup | none => []

/-- The number of devices in the job. -/
def Part.deviceCount (part : Part) : Nat := max 1 part.jobDevices.length

/-- The buddy that R326 places for device `d` among the job's devices, those absent left out. -/
def buddyOf (devs absent : List Nat) (d : Nat) : Option Nat :=
  let forms := ((devs.map (· / 64)).dedup).mergeSort (· ≤ ·)
  let m := forms.length
  if m ≤ 1 then
    let l := devs.mergeSort (· ≤ ·)
    let b := l.getD ((l.idxOf d + (l.length + 1) / 2) % l.length) d
    if b = d || decide (b ∈ absent) then none else some b
  else
    ((upFrom 1 (m - 1)).map fun j => forms.getD ((forms.idxOf (d / 64) + j) % m) 0 * 64 + d % 64).find? fun b =>
      decide (b ∈ devs) && !decide (b ∈ absent)

/-- This device's buddy placed anew for a partition's job. -/
def State.placeBuddy (s : State) (p : Nat) : State :=
  let b := buddyOf (s.part p).jobDevices s.form.absent s.self
  let s := s.modPart p fun part => { part with satchel := { part.satchel with buddy := if part.satchel.buddyEn then b else none } }
  if s.isPrefect || s.isDeputy then
    let devs := (s.part p).jobDevices
    { s with form := { s.form with placed := devs.foldl (fun m d => tset none m d (buddyOf devs s.form.absent d)) s.form.placed } }
  else s

/-! ### The schedule record (R328) -/

/-- Where the sequencers of a partition's seated cores stand. -/
def State.seqPositions (s : State) (p : Nat) : List SeqPos :=
  (s.seatedOf p).flatMap fun c =>
    let core := tget {} s.cores c
    [Stream.F, .B, .U].map fun q => { core := c, seq := q, pc := (core.seq q).pc, loops := (core.seq q).passes, mb := (core.seq q).mb }

/-- Fair tokens in the input queues of a partition's cores. -/
def State.fairQueued (s : State) (p : Nat) : List (Nat × Tok) :=
  (s.coresOf p).flatMap fun c =>
    (tget {} s.cores c).queues.flatMap fun q => (q.2.filter fun t => !t.tok.draft).map fun t => (c, t.tok)

/-- The schedule record of the present boundary; `pages` are those that its satchel holds. -/
def State.schedRecord (s : State) (p : Nat) (pages : List Nat) : SchedRec :=
  let part := s.part p
  { digest := part.digest, step := part.step, epoch := part.layoutEpoch, level := match part.image with | some im => im.level | none => 0
    dataPos := part.dataPos, cursor := part.dataPos, round := part.round, roundKey := part.roundKey, randomKey := part.randomKey
    intakeKey := part.intake.key, frozen := part.frozen, bells := part.bells, versions := part.versions, quota := part.quota, use := part.use
    seqs := s.seqPositions p, toks := s.fairQueued p, allocs := part.allocs.map fun a => (a.base, a.len, a.policy, a.backend), pages := pages }

/-! ### What a boundary takes (R231, R324) -/

/-- Pages of the satchel set, in ascending order. -/
def Part.setPages (part : Part) : List Nat :=
  ((part.allocs.filter fun a => decide (a.base ∈ part.satchel.set)).flatMap fun a =>
    upFrom (a.base / pageBytes) (a.len / pageBytes)).mergeSort (· ≤ ·)

/-- Every dirty line of a partition's slices marked as dirty since before the step that begins (R322). -/
def State.markOld (s : State) (p : Nat) : State :=
  (s.slicesOf p).foldl (fun s k =>
    let sl := tget {} s.slices k
    if sl == {} then s else
      let old (l : SliceLine) : SliceLine := if l.shadow.isNone && l.anyDirty then { l with old := true } else l
      s.setSlice k { sl with lines := sl.lines.map fun e => (e.1, old e.2), wbQueue := sl.wbQueue.map old, wbSent := sl.wbSent.map old }) s

/-- Every dirty line of a partition's slices marked to be written back in their next occurrences (R229, R231). -/
def State.flushAll (s : State) (p : Nat) : State :=
  (s.slicesOf p).foldl (fun s k =>
    let sl := tget {} s.slices k
    if sl == {} then s else
      s.setSlice k { sl with lines := sl.lines.map fun e => if e.2.shadow.isNone && e.2.anyDirty then (e.1, { e.2 with flush := true }) else e }) s

/-- Whether a dirty line of the boundary is still to be written back in a partition's slices (R231); one that cannot be, for an uncorrectable error, is
not waited for. -/
def State.boundaryDirty (s : State) (p : Nat) : Bool :=
  (s.slicesOf p).any fun k =>
    let sl := tget {} s.slices k
    sl.lines.any (fun e => e.2.old && e.2.flush && e.2.anyDirty && !e.2.dirtyBad) || sl.wbQueue.any (fun l => l.old) || sl.wbSent.any fun l => l.old

/-- The pages named made PENDING, and to be sent. -/
def State.pend (s : State) (p : Nat) (pages : List Nat) : State :=
  s.modPart p fun part =>
    let part := pages.foldl (fun (pt : Part) pg => pt.setPage pg { pt.page pg with satPending := true }) part
    { part with satchel := { part.satchel with toSend := pages, piece := 0, sent := 0, recordLeft := true } }

/-- SAT_DIRTY cleared for every page. -/
def Part.clearSatDirty (part : Part) : Part :=
  (part.pages.map Prod.fst).foldl (fun (pt : Part) pg => pt.setPage pg { pt.page pg with satDirty := false }) part

/-- A satchel begun at the present boundary (R324): a base satchel holds every page of the set, another those with SAT_DIRTY. Without a
buddy nothing is sent, and SAT_BELL is rung at once; the same in a job of one device, whose buddy by R326 would be itself (log entry 21). -/
def State.takeSatchel (s : State) (p : Nat) : State :=
  let s := s.flushAll p
  let part := s.part p
  let all := part.setPages
  let pages := if part.satchel.baseNext then all else all.filter fun pg => (part.page pg).satDirty
  let s := (s.pend p pages).modPart p Part.clearSatDirty
  let r := s.schedRecord p pages
  let s := s.modPart p fun part =>
    { part with
      record := some r
      satchel := { part.satchel with inProgress := some part.step, bellBase := tget 0 part.bells part.satchel.satBell, dueNext := false,
                                     baseNext := false, inSet := all.length } }
  if part.satchel.buddyEn && part.deviceCount != 1 then s else s.ringRoot p part.satchel.satBell 1

/-! ### Sending and receiving copies (R325, R327) -/

/-- A line of a page as it stood at the boundary: from its boundary version while it has one (R324). -/
def State.boundaryLine (s : State) (p pg i : Nat) : State × HbmRead :=
  let e := (s.part p).page pg
  let h := s.stackOfPage p pg
  let addr := pg * pageBytes + i * 64
  match e.boundary with
  | some b => if b = zeroBoundary then (s, .ok []) else s.readLine p h b i addr
  | none => if e.st == .hbm then s.readLine p h e.frame i addr else (s, .ok [])

/-- The 64 lines of a piece of 4 KiB of a page as plaintext, lines of zeros left out; none where a line cannot be read. -/
def State.pieceLines (s : State) (p pg k : Nat) : Nat → State × Option (SMap HbmLine)
  | 0 => (s, some [])
  | n + 1 =>
    match s.pieceLines p pg k n with
    | (s, none) => (s, none)
    | (s, some m) =>
      match s.boundaryLine p pg (64 * k + n) with
      | (s, .fail _) => (s, none)
      | (s, .ok b) => (s, some (tset {} m (64 * k + n) { data := packLine b }))

/-- A base satchel sent at once to a buddy placed anew, where a satchel is in progress (R329). -/
def State.baseAgain (s : State) (p : Nat) : State :=
  if (s.part p).satchel.inProgress.isNone then s
  else
    let all := (s.part p).setPages
    (s.pend p all).modPart p fun part => { part with record := part.record.map fun r => { r with pages := all } }

/-- The pages of a satchel whose copy has failed put back, a note of class 0x70 sent, a new buddy placed and a base satchel for it begun
(R329). -/
def State.satchelFailed (s : State) (p : Nat) : State :=
  let s := s.modPart p fun part =>
    (part.pages.map Prod.fst).foldl (fun (pt : Part) pg =>
      let e := pt.page pg
      pt.setPage pg { e with satDirty := e.satDirty || e.satPending, satPending := false }) part
  let s := (s.report 0 0 0x70 p).placeBuddy p
  (s.partEvent p 0x0007 (packList [(8, (s.part p).satchel.inProgress.getD 0), (1, 2)])).baseAgain p

/-- The next packet of the satchel in progress put on a port that leads to the buddy, where it holds none that waits (R325): pages in 512
pieces each, the schedule record last. No page is read before every line that was dirty at the boundary is back in HBM (R231); a page that cannot be
read is logged, and the copy has failed (R255, R329). -/
def State.feedSatchel (s : State) (l : Nat) : State :=
  let p := s.partOfPort l
  let part := s.part p
  match part.satchel.inProgress, part.satchel.buddy with
  | some step, some b =>
    if !(s.portTo b == some l) || (s.port l).pktQ.any (fun k => k.cls == 0x10) || s.boundaryDirty p then s
    else
      let pkt : Packet := { cls := 0x10, flits := 19, dest := b, part := p, tag := step % 2 ^ 16, arg := BitVec.ofNat 64 step }
      match part.satchel.toSend with
      | pg :: rest =>
        (match if s.pageBad p pg then (s, none) else s.pieceLines p pg part.satchel.piece 64 with
        | (s, none) => (s.modPart p fun part => part.logFailure 2 pg stDataError).satchelFailed p
        | (s, some ls) =>
          let k := part.satchel.piece
          let s := s.queuePacket l { pkt with addr := pg * pageBytes + 4096 * k, lines := ls }
          s.modPart p fun part =>
            { part with satchel := if k = 511 then { part.satchel with toSend := rest, piece := 0, sent := part.satchel.sent + 1 }
                                   else { part.satchel with piece := k + 1 } })
      | [] =>
        if part.satchel.recordLeft then
          (s.queuePacket l { pkt with record := part.record }).modPart p fun part =>
            { part with satchel := { part.satchel with recordLeft := false } }
        else s
  | _, _ => s

/-- A buddy store of a partition changed, one being opened for a source that has none. -/
def Part.modBuddy (part : Part) (src : Nat) (f : BuddyStore → BuddyStore) : Part :=
  if part.buddies.any (fun b => b.src == src) then
    { part with buddies := part.buddies.map fun b => if b.src == src then f b else b }
  else { part with buddies := part.buddies ++ [f { src := src }] }

/-- The buddy store that a partition keeps for a source. -/
def Part.buddyStore (part : Part) (src : Nat) : BuddyStore := (part.buddies.find? fun b => b.src == src).getD { src := src }

/-- The first accepted packet of a class, with the rest. -/
def takePacket (cls : Nat) (l : List (Nat × Packet)) : Option ((Nat × Packet) × List (Nat × Packet)) := takeFirst (fun x => x.2.cls == cls) l

/-- SATCHEL (R325, R326): a piece of a page, or the schedule record, kept in the buddy store; with every page and the record in it the buddy
acknowledges (R327). -/
def execSatchel (s : State) : Host.Outcome State Fault Refusal :=
  .next (match takePacket 0x10 s.pktIn with
    | none => s
    | some ((l, k), rest) =>
      let s := { s with pktIn := rest }
      let p := s.partOfPort l
      let step := k.arg.toNat
      let s := s.modPart p fun part => part.modBuddy k.src fun b =>
        let b := if b.newStep = some step then b else { b with newStep := some step, newPages := [], newRecord := none, newPieces := 0 }
        match k.record with
        | some r => { b with newRecord := some r }
        | none => { b with
            newPieces := b.newPieces + 1
            newPages := tmod [] b.newPages (k.addr / pageBytes) fun m => k.lines.foldl (fun m e => tset {} m e.1 e.2) m }
      let b := (s.part p).buddyStore k.src
      match b.newRecord with
      | some r =>
        if b.newPieces = 512 * r.pages.length then s.sendPacket k.src { cls := 0x11, part := p, tag := k.tag, arg := k.arg } else s
      | none => s)

/-- SATCHEL_ACK (R327): the source rings SAT_BELL by 1. -/
def execSatchelAck (s : State) : Host.Outcome State Fault Refusal :=
  .next (match takePacket 0x11 s.pktIn with
    | none => s
    | some ((l, k), rest) =>
      let s := { s with pktIn := rest }
      let p := s.partOfPort l
      let sat := (s.part p).satchel
      if sat.inProgress = some k.arg.toNat && sat.toSend = [] && !sat.recordLeft then s.ringRoot p sat.satBell 1 else s)

/-- A buddy store's new version in place of the previous one (R327): a base satchel replaces every page, another the pages it holds. -/
def BuddyStore.commit (b : BuddyStore) (step : Nat) : BuddyStore :=
  if b.newStep = some step then
    { b with step := some step, record := b.newRecord
             pages := b.newPages.foldl (fun m e => tset [] m e.1 e.2) b.pages
             newStep := none, newPages := [], newRecord := none, newPieces := 0 }
  else b

/-- Whether a far satchel falls due with a commit (R330). -/
def Satchel.farDue (x : Satchel) : Bool := x.farEvery != 0 && (x.taken + 1) % x.farEvery == 0

/-- SATCHEL_COMMIT (R327): SAT_BELL has risen by the number of devices in the job. Where a far satchel is due, what it writes to FAR_BACKEND is taken from
the buddy stores, with their schedule records (R330). -/
def execSatchelCommit (p : Nat) (s : State) : Host.Outcome State Fault Refusal :=
  let part := s.part p
  let sat := part.satchel
  .next (match sat.inProgress with
    | none => s
    | some step =>
      if (tget 0 part.bells sat.satBell - sat.bellBase).toNat < part.deviceCount then s
      else
        let far := sat.farDue
        let held := part.buddies.map fun b => b.commit step
        let s := s.modPart p fun part =>
          let part := (part.pages.map Prod.fst).foldl (fun (pt : Part) pg => pt.setPage pg { pt.page pg with satPending := false }) part
          { part with
            satRecord := part.record
            buddies := held
            farCopy := if far then held else part.farCopy
            satchel := { sat with inProgress := none, committed := some step, taken := sat.taken + 1
                                  farInProgress := if far then some step else sat.farInProgress
                                  farAbandoned := if far && sat.farInProgress.isSome then sat.farAbandoned + 1 else sat.farAbandoned } }
        let s := if s.isPrefect || s.isDeputy then { s with form := { s.form with committed := some step } } else s
        s.partEvent p 0x0007 (packList [(8, step), (1, 0)]))

/-- SATCHEL_COPY_FAILURE (R329): the buddy is absent, or a packet of the copy has failed three times. -/
def execSatchelCopyFailure (p : Nat) (s : State) : Host.Outcome State Fault Refusal :=
  let sat := (s.part p).satchel
  .next (if sat.inProgress.isSome && sat.buddyEn then s.satchelFailed p else s)

/-- FAR_SATCHEL_COMMIT (R330): every device's far copy of the satchel has landed. -/
def execFarSatchelCommit (p : Nat) (s : State) : Host.Outcome State Fault Refusal :=
  .next (match (s.part p).satchel.farInProgress with
    | none => s
    | some step =>
      (s.modPart p fun part => { part with satchel := { part.satchel with far := some step, farInProgress := none }, farCopy := [] }).partEvent p 0x0007
        (packList [(8, step), (1, 1)]))

/-! ### Pages written from a source (R322, R332, R333) -/

/-- A page's lines written from plaintext: lines not listed hold zeros (R332, R333). -/
def State.fillPage (s : State) (p pg : Nat) (lines : SMap HbmLine) : State :=
  let s := s.dropPage p pg true
  match s.frameForWrite p pg with
  | (s, _) =>
    let e := (s.part p).page pg
    if e.st != .hbm then s
    else
      let h := s.stackOfPage p pg
      let s := s.modStack h fun st => { st with lines := clearFrame e.frame st.lines }
      let s := lines.foldl (fun s x => s.writeLine p h e.frame x.1 (pg * pageBytes + x.1 * 64) (unpackLine x.2.data)) s
      s.modPart p fun part => (part.staleFar pg).markDirty pg

/-- Whether every stored line of a page can be read. -/
def State.pageReads (s : State) (p pg : Nat) : Bool :=
  let e := (s.part p).page pg
  e.st != .hbm || (frameLines e.frame (s.stack (s.stackOfPage p pg)).lines).all fun x =>
    match (s.readPageLine p pg x.1).2 with | .ok _ => true | .fail _ => false

/-- Whether this device holds its own satchel set at the current boundary: every stored line of it can be read. -/
def State.ownStateHolds (s : State) (p : Nat) : Bool :=
  (s.part p).record.isSome && (s.part p).setPages.all (s.pageReads p)

/-- The pages of the satchel set that cannot be read, refilled from a source at the current boundary before a step that ended with DATA_ERROR or
INTEGRITY_FAIL is replayed (R322). -/
def State.refillSet (s : State) (p : Nat) (refill : SMap (SMap HbmLine)) : State :=
  let part := s.part p
  if part.replay && (part.lastStatus == stDataError || part.lastStatus == stIntegrity) then
    part.setPages.foldl (fun s pg =>
      if refill.any (fun e => e.1 == pg) && !s.pageReads p pg then s.fillPage p pg (tget [] refill pg) else s) s
  else s

end Sys2Proof.Machine
end

