-- ==== Sys2Proof/Machine/StepBoundary.lean ====
section
/-! DEFINITION. The step boundary (R22, R144, R155, R257, R321, R324, R327, R331). -/

namespace Sys2Proof.Machine

open Sys2Proof

/-- The norm records of the step (R155): one for each layer with a tapped write-back or frozen, in ascending layer order. -/
def Part.normRecords (part : Part) : List NormRec :=
  (upFrom 0 4096).filterMap fun l =>
    if part.frozenLayer l then some { layer := l, frozen := true, escalated := decide (l ∈ part.escalated) }
    else
      let x := tget {} part.norms l
      if x == {} then none
      else some { w := x.w.getD 0, g := x.g.getD 0, u := x.u.getD 0, layer := l, escalated := decide (l ∈ part.escalated) }

/-- Whether a fair token of a partition's cores is on its way (R328). -/
def State.fairInFlight (s : State) (p : Nat) : Bool :=
  (s.part p).toks.any (fun t => !t.tok.draft) || (s.seatedOf p).any fun c =>
    let core := tget {} s.cores c
    core.outToks.any (fun o => !o.tok.draft) || core.kept.any (fun o => !o.tok.draft)

/-- Whether the boundary falls (R22, R257, R321, R327): the step's last section has closed, the step bell has risen by the number of devices, no
satchel is in progress, no fair token is on its way and the boundary versions have been copied. -/
def State.boundaryFalls (s : State) (p : Nat) : Bool :=
  let part := s.part p
  let bell := match part.image with | some im => im.stepBell | none => 0
  part.job == .running && part.stepClosed && part.satchel.inProgress.isNone && !s.fairInFlight p && part.linesCopied
    && decide (part.deviceCount ≤ (tget 0 part.bells bell - part.stepBase).toNat)

/-- The rank of this device in a partition's job. -/
def State.rankOf (s : State) (p : Nat) : Nat := (s.part p).ranks.idxOf s.self

/-- What the step leaves: its number rises and what it kept is cleared; the frozen map and the data position of the next step hold. -/
def Part.nextStep (part : Part) : Part :=
  let bell := match part.image with | some im => im.stepBell | none => 0
  { part with
    step := part.step + 1, stepsDone := part.stepsDone + 1, stepBase := tget 0 part.bells bell, stepClosed := false
    frozen := part.frozenNext, dataPos := part.firstCursor (part.step + 1), norms := [], escalated := [], rungs := [], memTypes := [], widened := []
    rungWait := [], clip := none, replay := false, lastU := [], colls := [] }

/-- A proposed Prefect takes its role at the boundary (R309). -/
def State.handOver (s : State) : State :=
  match s.form.handover with
  | none => s
  | some d =>
    let role := if d = s.self then 1 else if s.form.role = 1 then 0 else s.form.role
    { s with form := { s.form with prefect := d, role := role, handover := none } }

/-- The satchel of the boundary, where one is due (R323, R324). -/
def State.satchelAt (s : State) (p : Nat) : State :=
  let sat := (s.part p).satchel
  if sat.configured && (sat.dueNext || (s.part p).step % sat.interval == 0) then s.takeSatchel p else s

/-- After the boundary: the run ends, or the step whose first section has opened goes on, or its first section opens now (R22, R379). Where firmware is
down the sequencers hold here (R20). -/
def State.afterBoundary (s : State) (p : Nat) (goesOn : Bool) : State :=
  if !goesOn then s.endRun p
  else
    let s := s.modPart p fun part => { part with boundHold := part.fwHold }
    if (s.part p).sect == .idle || (s.part p).sect == .closed then (if (s.part p).fwHold then s else s.beginStep p (s.part p).step)
    else s.allVerdicts p

/-- STEP_BOUNDARY (R22). -/
def execStepBoundary (p : Nat) (s : State) : Host.Outcome State Fault Refusal :=
  .next (if !s.boundaryFalls p then s
    else
      let old := s.part p
      let goesOn := old.goesOn
      let recs := old.normRecords
      let s := (s.sendPackets s.superiors { cls := 0x22, part := p, norm := recs, arg := BitVec.ofNat 64 old.step }).sendOverflow p
      let s := if s.isPrefect || s.isDeputy then
          { s with form := { s.form with positions := s.form.positions ++ [(jobDev p s.self, old.step, old.dataPos, old.dataPos)] } } else s
      let s := s.modPart p Part.nextStep
      let s := ((s.part p).satPages).foldl (fun s pg => s.releaseKeep p pg) s
      let s := s.markOld p
      let s := s.modPart p fun part => { part with record := some (s.schedRecord p []) }
      let part := s.part p
      let s := s.sendPackets s.superiors { cls := 0x20, part := p, ctl := some (.position (s.rankOf p) part.step part.dataPos part.dataPos) }
      ((s.satchelAt p).handOver).afterBoundary p goesOn)

end Sys2Proof.Machine
end

