-- ==== Sys2Proof/Machine/LightLink.lean ====
section
/-! DEFINITION. Light links: flit times (R283 to R285, R294), frames and BELL flits as they arrive (R286 to R289), hand-on (R295, R296),
collective additions (R298 to R300), resends, and lane failure (R290). -/

namespace Sys2Proof.Machine

open Sys2Proof

/-! ### Flit times (R282, R283) -/

/-- The slot in which flit time `n` of a port begins: n × 384/125 on four lanes, n × 512/125 on three. -/
def flitSlot (three : Bool) (n : Nat) : Nat := n * (if three then 512 else 384) / 125

/-- The first flit time that begins in slot `t` or later. -/
def flitFrom (three : Bool) (t : Nat) : Nat := (t * 125 + (if three then 512 else 384) - 1) / (if three then 512 else 384)

/-- Whether a port runs on three lanes. -/
def Port.onThree (l : Port) : Bool := l.st == 3

/-- The link stream that owns flit time `n`, by the schedule in use (R290, R294): 0 is the satchel reserve. -/
def Port.owner (l : Port) (n : Nat) : Option Nat :=
  let m := if l.three then l.sched.three.getD l.sched.four else l.sched.four
  (m.find? fun e => e.1 == n % 256).map Prod.snd

/-- The credit class of a packet (Table 4 of chapter 10). -/
def Packet.creditClass (k : Packet) : Nat := k.cls / 32 % 8 * 2 + k.vc % 2

/-- Whether a packet's flits may go: the peer holds credit for its class, one for each flit (log entry 22). -/
def Port.mayGo (l : Port) (k : Packet) : Bool := decide (k.flits ≤ tget 0 l.credits (Packet.creditClass k))

/-- The packet whose next flit goes in a free flit time (R285, R325): the one under way; else in a satchel-reserve entry the oldest SATCHEL packet that may
go; else the oldest packet that may go. -/
def Port.nextPacket (l : Port) (reserve : Bool) : Option (Packet × List Packet) :=
  if 0 < l.pktPos then match l.pktQ with | k :: r => some (k, r) | [] => none
  else
    match (if reserve then takeFirst (fun k => k.cls == 0x10 && l.mayGo k) l.pktQ else none) with
    | some x => some x
    | none => takeFirst (fun k => l.mayGo k) l.pktQ

/-- Rings of one bell in a BELL flit merged by adding their amounts (R302). -/
def mergeRings : List W64 → List W64
  | [] => []
  | m :: l =>
    let r := mergeRings l
    if m.toNat % 256 = 1 then
      match takeFirst (fun (x : W64) => x.toNat % 2 ^ 32 == m.toNat % 2 ^ 32) r with
      | some (x, rest) => BitVec.ofNat 64 (m.toNat % 2 ^ 32 + (m.toNat / 2 ^ 32 + x.toNat / 2 ^ 32) % 2 ^ 32 * 2 ^ 32) :: rest
      | none => m :: r
    else m :: r

/-- Whether a bell message travels under the link key: heartbeats and what follows their loss; the others name their job by the job key (R303). -/
def underLinkKey (m : W64) : Bool := decide (7 ≤ m.toNat % 256)

/-- The waiting messages that the next BELL flit takes: up to 28 from the front, of one key (R287, R303). -/
def flitMsgs : List W64 → List W64
  | [] => []
  | m :: l => ((m :: l).takeWhile fun x => underLinkKey x == underLinkKey m).take 28

/-- A BELL flit sent: up to 28 messages under the next bell sequence number (R287). -/
def State.sendBellFlit (s : State) (l : Nat) : State :=
  let x := s.port l
  let msgs := mergeRings (flitMsgs x.bellQ)
  let s := s.setPort l { x with
    bellQ := x.bellQ.drop (flitMsgs x.bellQ).length, bellSeq := x.bellSeq + 1, bellOut := x.bellOut ++ [(x.bellSeq + 1, msgs, s.slot)]
    bellsInFrame := x.bellsInFrame + 1 }
  msgs.foldl (fun s m => s.put (.bell x.peer (s.partOfPort l) m)) s

/-- One flit of a packet sent; with its last flit it is kept until it is acknowledged (R288). -/
def State.sendPacketFlit (s : State) (l frame : Nat) (k : Packet) (rest : List Packet) : State :=
  let x := s.port l
  let x := if x.pktPos = 0 then { x with credits := tmod 0 x.credits (Packet.creditClass k) fun c => c - k.flits } else x
  if x.pktPos + 1 < k.flits then s.setPort l { x with pktQ := k :: rest, pktPos := x.pktPos + 1, touched := true }
  else (s.setPort l { x with pktQ := rest, pktPos := 0, touched := true, pktOut := x.pktOut ++ [(k, frame, s.slot)] }).put (.packet x.peer k)

/-- A flit time assigned to a link stream that carries another kind counts as unused (R294). -/
def State.countUnused (s : State) (l : Nat) (owner : Option Nat) : State :=
  match owner with
  | some x => if x = 0 then s else s.modPort l fun y => { y with counts := bump y.counts 5 }
  | none => s

/-- The TIMED flit of a stream that a flit time beginning in slot `t` may carry: its data is ready, its schedule is of the current layout epoch
(R300), and the device's TIMED streams have not ended (R291). -/
def State.timedFor (s : State) (l t : Nat) (owner : Option Nat) : Option (TimedFlit × List (Nat × TimedFlit)) :=
  match owner with
  | none => none
  | some st =>
    let x := s.port l
    if st = 0 || s.beat.timedEnded || x.sched.epoch != (s.part (s.partOfPort l)).layoutEpoch then none
    else (takeFirst (fun (e : Nat × TimedFlit) => e.1 == st && decide (e.2.sent ≤ t)) x.ready).map fun e => (e.1.2, e.2)

/-! ### Data for link streams (R269, R294, R296, R299) -/

/-- Bytes that a link stream takes from the interior: from a core's scratchpad by the vector network, or from memory by the crossbar (R206). -/
def State.linkRead (s : State) (p : Nat) (m : LinkMove) (n : Nat) : MemRes :=
  if m.cores = [] then s.readMem p m.addr n else .ok s ((upFrom m.addr n).map fun a => (s.core m.core).byteAt [] a)

/-- The stored types of the words that a link stream takes (R267; DEDUCED, entry 90). -/
def State.linkTypes (s : State) (p : Nat) (m : LinkMove) (n : Nat) : List (Option SType) :=
  if m.cores = [] then s.memTypeAt p (s.slice (s.homeOfPage p (m.addr / pageBytes))) [] m.addr (n / 16)
  else (upFrom (m.addr / 16) (n / 16)).map fun w => (s.core m.core).typeAt [] w

/-- Bytes that each device sends in a collective: its share of the ring's steps (Table 7 of chapter 10). -/
def collTotal (k : Collective) : Nat := (k.count - 1) * k.chunk * (if k.kind = 2 then 2 else 1)

/-- A rank's neighbour on a ring, and the chunk with whose sum it starts (R298). -/
def collNext (k : Collective) (r : CollRing) : Nat := if r.descending then (k.index + k.count - 1) % k.count else (k.index + 1) % k.count
/-- The chunk whose sum this rank starts: its contribution is the first (R298). -/
def collStarts (k : Collective) (r : CollRing) : Nat := if r.descending then (k.index + 1) % k.count else (k.index + k.count - 1) % k.count

/-- The addend index of this rank in the sum of chunk `c` (R298). -/
def collAddend (k : Collective) (r : CollRing) (c : Nat) : Nat :=
  if r.descending then (c + 2 * k.count - 1 - k.index) % k.count else (k.index + 2 * k.count - c - 1) % k.count

/-- What a collective starts with on a ring: the contribution to the sum that this rank starts, or its own chunk (R298, R299). -/
def collFirst (k : Collective) (r : CollRing) : LinkMove :=
  let off := (if k.kind = 1 then k.index else collStarts k r) * k.chunk + r.first
  { port := r.outPort, stream := r.outStream, addr := (if k.kind = 1 then k.dest else k.src) + off, left := r.bytes
    dest := if k.kind = 1 then k.dest + off else off, coll := some k.layer }

/-- Collectives of the open section whose layer's U tasks have committed started (R269). -/
def Part.startColls (part : Part) : Part :=
  part.sec.colls.foldl (fun (pt : Part) k =>
    if decide (tget 0 pt.lastU k.layer < k.tasks) || (tget none pt.colls k.layer).isSome then pt
    else { pt with colls := tset none pt.colls k.layer (some { coll := k }), moves := pt.moves ++ if k.count ≤ 1 then [] else k.rings.map (collFirst k) })
    part

/-- A TIMED flit ready on a port. -/
def State.addReady (s : State) (l : Nat) (fl : TimedFlit) : State := s.modPort l fun x => { x with ready := x.ready ++ [(fl.stream, fl)] }

/-- Bytes that a collective has sent on a port's link stream counted; with its last transfer goes a token that names the layer (R269). -/
def State.collSent (s : State) (p layer l st n : Nat) : State :=
  match tget none (s.part p).colls layer with
  | none => s
  | some k =>
    let part := s.part p
    let s := s.setPart p { part with colls := tset none part.colls layer (some { k with sent := k.sent + n }) }
    if k.sent < collTotal k.coll && decide (collTotal k.coll ≤ k.sent + n) then
      s.addReady l { stream := st, sent := s.slot, part := p, srcDev := s.self
                     tok := some { tag := mkTag (streamPass .U) 0 layer ((part.image.getD {}).microBatches - 1) } }
    else s

/-- What a link stream's next flit brings ready (R294): the next 256 bytes of the first block on its way, or the token behind them. Where memory does
not serve yet nothing is ready, and a failure of the access ends the step (R255). -/
def State.feedLink (s : State) (l st : Nat) : State :=
  let p := s.partOfPort l
  let s := s.modPart p Part.startColls
  if (s.port l).ready.any fun e => e.1 == st then s
  else
    match takeFirst (fun (m : LinkMove) => m.port == l && m.stream == st) (s.part p).moves with
    | none => s
    | some (m, rest) =>
      let fl : TimedFlit := { stream := st, sent := s.slot, part := p, srcDev := s.self, origin := m.origin }
      if m.left = 0 then (s.modPart p fun part => { part with moves := rest }).addReady l { fl with tok := m.tok, credits := m.credits }
      else
        let n := min 256 m.left
        match s.linkRead p m n with
        | .fail s c => if c = stBusy then s else s.endJobAccess p c 0 0
        | .ok s b =>
          let m' := { m with addr := m.addr + n, left := m.left - n, dest := m.dest + n }
          let s := s.modPart p fun part => { part with moves := if m.left ≤ n && m.tok.isNone then rest else m' :: rest }
          let s := if m.cores = [] then s.countEdge (l / 2) 2 1 else s
          let s := s.addReady l { fl with addr := m.dest, bytes := b, types := s.linkTypes p m n, cores := m.cores }
          match m.coll with
          | some layer => s.collSent p layer l st n
          | none => s

/-- A TIMED flit sent: its task's global rings wait for its hand-on slot at the peer (R302). -/
def State.sendTimed (s : State) (l t : Nat) (fl : TimedFlit) : State :=
  let s := match fl.origin with
    | some (c, q) => s.modPart (s.partOfPort l) fun part =>
        { part with timedOut := (part.timedOut.filter fun (x : Nat × Stream × Nat) => decide (s.slot ≤ x.2.2)) ++ [(c, q, t + (s.port l).compiled)] }
    | none => s
  s.put (.timed l { fl with sent := t })

/-- The seal of the frame before the one that flit time `n` begins (R286): what is acknowledged, the packet credits returned, the slot, the lanes and the key.
Its TAG is that of the keyed transform (log entry 9). -/
def State.sendSeal (s : State) (l n : Nat) : State :=
  let x := s.port l
  if n % 256 != 0 || n = 0 then s
  else
    (s.setPort l { x with owed := [] }).put (.seal l (n / 256 - 1) x.frameGot x.bellGot ((upFrom 0 8).map fun k => tget 0 x.owed k) (flitSlot x.onThree n)
      (x.onThree.toNat + x.lanes % 16 * 4) x.jobKey)

/-- One flit time of a port that is up (R285). -/
def State.flitTime (s : State) (l : Nat) : State :=
  let s := (s.feedSatchel l).sendSeal l (s.port l).flit
  let x := s.port l
  let n := x.flit
  let s := match x.owner n with | some st => if st = 0 then s else s.feedLink l st | none => s
  let x := s.port l
  let t := flitSlot x.onThree n
  let x := { x with flit := n + 1, bellsInFrame := if n % 256 = 0 then 0 else x.bellsInFrame }
  let s := s.setPort l x
  let owner := x.owner n
  if x.bellQ != [] && decide (x.bellsInFrame < 16) then (s.sendBellFlit l).countUnused l owner
  else
    let s := if x.bellQ != [] && x.bellsInFrame == 16 then
        s.modPort l fun y => { y with counts := bump y.counts 3, bellsInFrame := 17 } else s
    match s.timedFor l t owner with
    | some (fl, rest) => (s.modPort l fun y => { y with ready := rest }).sendTimed l t fl
    | none =>
      let s := s.countUnused l owner
      match (s.port l).nextPacket (owner == some 0) with
      | some (k, rest) => s.sendPacketFlit l (n / 256) k rest
      | none => s

/-- Whether a port carries traffic: it is up, and the device has completed FORM_SETUP (R280). -/
def State.carries (s : State) (l : Nat) : Bool := s.form.set && (s.port l).up

/-- FLIT_TIME (R285): the port's next flit time, once its slot has come. -/
def execFlitTime (l : Nat) (s : State) : Host.Outcome State Fault Refusal :=
  let x := s.port l
  .next (if s.carries l && !x.parked && decide (flitSlot x.onThree x.flit ≤ s.slot) then s.flitTime l else s)

/-! ### Frames (R286, R288, R289) -/

/-- The count of frames that hold a partition's verdicts brought up to date; with none left its groups are looked at (R289). -/
def State.countOpen (s : State) (p : Nat) : State :=
  let n := ((s.portsOf p).map fun l => (tget {} s.ports l).openFrames.length).sum
  if (s.part p).unchecked = n then s
  else
    let s := s.modPart p fun part => { part with unchecked := n }
    if n = 0 then s.allVerdicts p else s

/-- Whether a PSEQ counts as accepted already: among the accepted numbers kept, those of the 65,536 below the highest (R288). -/
def Port.seen (l : Port) (q : Nat) : Bool := decide (q ∈ l.accepted)

/-- Buffer space that a packet's flits have left is to be credited to the peer (R286, R288). -/
def State.oweFlits (s : State) (l : Nat) (k : Packet) : State :=
  s.modPort l fun x => { x with owed := tmod 0 x.owed (Packet.creditClass k) (· + k.flits) }

/-- A packet of a frame that has checked, accepted unless its PSEQ has been (R288); a Prefect passes on the word to wake a port of another device (R415). -/
def State.acceptPacket (s : State) (l : Nat) (k : Packet) : State :=
  let x := s.port l
  if x.seen k.pseq then s
  else
    let top := match x.highest with
      | none => k.pseq
      | some h => if (k.pseq + 2 ^ 32 - h) % 2 ^ 32 < 2 ^ 31 then k.pseq else h
    let s := s.setPort l { x with
      highest := some top, touched := true
      accepted := (x.accepted ++ [k.pseq]).filter fun q => decide ((top + 2 ^ 32 - q) % 2 ^ 32 ≤ 65536) }
    match k.ctl with
    | some (.overflow step recs) => if s.isPrefect then s.keepOverflow k.part k.src step recs else s
    | some .wake => if k.dest = s.self then { s with pktIn := s.pktIn ++ [(l, k)] } else s.passPacket k.dest k
    | _ => { s with pktIn := s.pktIn ++ [(l, k)] }

/-- What an intact frame and its seal bring: packets, acknowledgements and credits. -/
def State.frameGood (s : State) (l : Nat) (fr : RxFrame) : State :=
  let x := s.port l
  let s := s.setPort l { x with
    frameGot := max x.frameGot fr.frame
    pktOut := x.pktOut.filter fun e => decide (fr.ack < e.2.1)
    bellOut := x.bellOut.filter fun e => decide (fr.bellAck < e.1)
    credits := (fr.credits.zip (upFrom 0 8)).foldl (fun m c => tmod 0 m c.2 fun n => n + c.1) x.credits }
  fr.packets.foldl (fun s k => s.acceptPacket l k) s

/-- FRAME_SEAL (R289): an intact frame's packets are accepted; a failed frame is counted, its packets are left to be sent again, and the step of the job
whose TIMED flits it carried ends with DATA_ERROR. -/
def execFrameSeal (l : Nat) (fr : RxFrame) (s : State) : Host.Outcome State Fault Refusal :=
  let p := s.partOfPort l
  .next (if !s.carries l then s
    else
      let s := s.modPort l fun x => { x with openFrames := x.openFrames.filter (· != fr.frame) }
      let s := fr.packets.foldl (fun s k => s.oweFlits l k) s
      if fr.ok then (s.frameGood l fr).countOpen p
      else
        let s := s.modPort l fun x => { x with counts := bump x.counts 1 }
        let s := if fr.timed != [] then (s.report 1 l 0x33 p).endStep p stDataError else s
        s.countOpen p)

/-! ### BELL flits (R287, R289) -/

/-- The port on which a device passes BELL flits that come on a port: that of a bell route which names the device as its relay (R304; DEDUCED, entry
17). -/
def State.relayFrom (s : State) (l : Nat) : Option Nat :=
  (s.form.routes.find? fun r => r.port == l && r.relayPort != 0xFF && r.relay == s.self).map fun r => r.relayPort

/-- BELL_FLIT (R287): the messages of one that checks are taken in, those of a job under its job key and the others under the link key (R303), or passed on
where this device is the relay of the hop (R304); one that fails is discarded. -/
def execBellFlit (l : Nat) (fl : RxBell) (s : State) : Host.Outcome State Fault Refusal :=
  .next (if !(s.carries l && fl.ok) then s
    else
      let s := s.modPort l fun x => { x with bellGot := max x.bellGot fl.seq }
      let msgs := (fl.msgs.take 28).filter (· != 0)
      match s.relayFrom l with
      | some o => s.modPort o fun x => { x with bellQ := x.bellQ ++ msgs }
      | none => { s with bellIn := s.bellIn ++ (msgs.filter fun m => underLinkKey m == !fl.jobKey).map fun m => (fl.dev, fl.part, m) })

/-- BELL_RESEND (R289): messages that BELL_ACK has not covered within 2 µs wait to be sent again, in a new BELL flit. -/
def execBellResend (l : Nat) (s : State) : Host.Outcome State Fault Refusal :=
  .next (match takeFirst (fun (e : Nat × List W64 × Nat) => decide (e.2.2 + 2400 ≤ s.slot)) (s.port l).bellOut with
    | some (e, rest) => s.modPort l fun x => { x with bellOut := rest, bellQ := e.2.1 ++ x.bellQ, counts := bump x.counts 2 }
    | none => s)

/-- PACKET_RESEND (R288): a packet whose frame has not been acknowledged within 4 µs is sent again under its PSEQ. -/
def execPacketResend (l : Nat) (s : State) : Host.Outcome State Fault Refusal :=
  .next (match takeFirst (fun (e : Packet × Nat × Nat) => decide (e.2.2 + 4800 ≤ s.slot)) (s.port l).pktOut with
    | some (e, rest) => s.modPort l fun x =>
        match x.pktQ with
        | k :: q => if 0 < x.pktPos then { x with pktOut := rest, pktQ := k :: e.1 :: q } else { x with pktOut := rest, pktQ := e.1 :: k :: q }
        | [] => { x with pktOut := rest, pktQ := [e.1] }
    | none => s)

/-! ### Hand-on (R295, R296) -/

/-- A remote token delivered by the inbound map, with the receiving section's epoch and the destination's generation, or dropped and counted
(R296). -/
def State.inboundToken (s : State) (l : Nat) (fl : TimedFlit) (t : Tok) : State :=
  let p := s.partOfPort l
  let part := s.part p
  let m := if part.sect == .open || part.sect == .closing then
      part.sec.inbound.find? fun e => e.srcDev == fl.srcDev && e.pass == tagPass t.tag && e.layer == tagLayer t.tag
    else none
  match m with
  | none => s.modPort l fun x => { x with counts := bump x.counts 6 }
  | some e =>
    let src := match fl.credits with
      | (c, g, _) :: _ => some (4096 * (l + 1) + c % 4096, 16 * fl.stream + g % 16)
      | [] => none
    s.deliver p e.core { t with tag := mkTag (tagPass t.tag) part.epoch (tagLayer t.tag) (tagMb t.tag), queue := e.queue,
                                gen := (s.core e.core).gen } src

/-- Data of a TIMED flit in memory (R296), with the stored types that came with it; while its page or line does not take it, it waits. A failure of its
access ends the step (R255). -/
def State.handMem (s : State) (p l : Nat) (fl : TimedFlit) : UnitRes :=
  match s.writePages p 2 fl.addr fl.bytes with
  | (s, c) =>
    if c = stBusy then .held s 4
    else if c != stOK then .ended (s.endJobAccess p c 0 0)
    else .moved ((s.countEdge (l / 2) 3 1).modPart p fun part =>
      { part with memTypes := (fl.types.zip (upFrom (fl.addr / 16) fl.types.length)).foldl (fun m y => tset none m y.2 y.1) part.memTypes })

/-- Data of a TIMED flit in the scratchpads of its cores, over the vector network (R206, R296); a line that a draft has mapped makes it wait (R80). -/
def State.handCores (s : State) (l : Nat) (fl : TimedFlit) : UnitRes :=
  let w := fl.addr / 16
  let live := fl.cores.filter fun c => (s.core c).takesUnits
  if live.any fun c => (s.core c).heldLines none (spadLines w fl.bytes.length) then .held s 5
  else .moved (live.foldl (fun s c => s.modCore c fun core => core.putUnit none w fl.bytes fl.types) (s.countEdge (l / 2) 1 ((fl.bytes.length + 63) / 64)))

/-- The collective of a partition of whose result a TIMED flit on a port's link stream brings a piece, with its ring (R299). -/
def Part.gatherOf (part : Part) (l : Nat) (fl : TimedFlit) : Option (Collective × CollRing) :=
  ((part.colls.filterMap fun e => e.2.map CollRun.coll) ++ part.sec.colls).findSome? fun k =>
    if k.kind != 0 && fl.cores == [] && decide (k.dest ≤ fl.addr) && decide (fl.addr < k.dest + k.count * k.chunk) then
      (k.rings.find? fun r => r.inPort == l && r.inStream == fl.stream).map fun r => (k, r)
    else none

/-- A piece of an ALL_GATHER sent onward in the same pass, unless the next rank is the one that began it (R299). -/
def State.gatherOn (s : State) (p l : Nat) (fl : TimedFlit) : State :=
  match (s.part p).gatherOf l fl with
  | none => s
  | some (k, r) =>
    if collNext k r = (fl.addr - k.dest) / k.chunk then s
    else
      (s.addReady r.outPort { stream := r.outStream, sent := s.slot, part := p, srcDev := s.self, addr := fl.addr, bytes := fl.bytes
                              types := fl.types }).collSent p k.layer r.outPort r.outStream fl.bytes.length

/-- What a TIMED flit brings: data, which an ALL_GATHER also sends on; a token; or returned credits (R296, R299). -/
def State.handOn (s : State) (l : Nat) (fl : TimedFlit) : UnitRes :=
  let p := s.partOfPort l
  match if fl.bytes = [] then UnitRes.moved s else if fl.cores = [] then s.handMem p l fl else s.handCores l fl with
  | .held s c => .held s c
  | .ended s => .ended s
  | .moved s =>
    let s := if fl.bytes = [] then s else s.gatherOn p l fl
    .moved (match fl.tok with
      | some t => s.inboundToken l fl t
      | none => (fl.credits.filter fun c => c.2.2 != 0).foldl (fun s c =>
          (s.modCore c.1 fun core => { core with credits := tmod 0 core.credits c.2.1 fun n => n + c.2.2 }).settleCore c.1) s)

/-- The hand-on counted: a late one, and the frame that is still to be checked (R289, R295); sixteen late flits in a beat raise the timing alarm. -/
def State.countHandOn (s : State) (l : Nat) (fl : TimedFlit) : State :=
  let x := s.port l
  let late := decide (fl.sent + x.compiled < fl.arrived)
  let frame := flitFrom x.onThree fl.sent / 256
  (s.setPort l { x with
    openFrames := if frame ≤ x.frameGot && x.frameGot != 0 then x.openFrames else addOnce x.openFrames frame
    counts := if late then bump x.counts 4 else x.counts
    lateInBeat := if late then x.lateInBeat + 1 else x.lateInBeat
    timingAlarm := x.timingAlarm || (late && x.lateInBeat == 15) }).countOpen (s.partOfPort l)

/-- TIMED_FLIT_HAND_ON (R295): in slot s + L, or on a later arrival. Data that memory cannot take yet waits in the edge router, for this command to try
again (DEDUCED, entry 91). -/
def execTimedFlitHandOn (l : Nat) (fl : TimedFlit) (s : State) : Host.Outcome State Fault Refusal :=
  .next (if !s.carries l || decide (s.slot < fl.sent + (s.port l).compiled) then s
    else
      match (s.countHandOn l fl).handOn l fl with
      | .moved s => s
      | .ended s => s
      | .held _ _ =>
        match s.handOn l fl with
        | .held s _ => s
        | _ => s)

/-! ### Collectives (R298 to R300) -/

/-- Words of 32 bits of a list of bytes. -/
def words32 : Nat → List Byte → List W32
  | 0, _ => []
  | n + 1, b => BitVec.ofNat 32 (leNat (b.take 4)) :: words32 n (b.drop 4)

/-- The partial sums with the local contributions added, each rounded stochastically under site kind 2 (R298). -/
def addPartials (key dataPos layer addend elem : Nat) (own arriving : List W32) : List W32 :=
  ((arriving.zip own).zip (upFrom elem arriving.length)).map fun x =>
    srAdd x.1.1 (decodeFloat 5 x.1.2.toNat) (roundDraw key dataPos layer 2 0 addend x.2)

/-- The collective of a layer that has started on this device, with the ring by which a partial sum comes (R297). -/
def Part.reduceOf (part : Part) (fl : ReduceFlit) : Option (Collective × CollRing) :=
  match tget none part.colls fl.layer with
  | some k => if k.coll.kind = 1 then none else (k.coll.rings.find? fun r => r.inPort == fl.port).map fun r => (k.coll, r)
  | none => none

/-- A sum on its way: sent to the next rank, or at the last rank written to the layer's reduced gradient, and of an ALL_REDUCE sent round from there
(R298, R299). -/
def State.sumOn (s : State) (p : Nat) (k : Collective) (r : CollRing) (fl : ReduceFlit) (bytes : List Byte) : UnitRes :=
  let out : TimedFlit := { stream := r.outStream, sent := s.slot, part := p, srcDev := s.self, addr := fl.off, bytes := bytes }
  if k.index != fl.off / k.chunk then .moved ((s.addReady r.outPort out).collSent p k.layer r.outPort r.outStream bytes.length)
  else
    match s.writePages p 2 (k.dest + fl.off) bytes with
    | (s, c) =>
      if c = stBusy then .held s 4
      else if c != stOK then .ended (s.endJobAccess p c 0 0)
      else
        let s := s.countEdge (fl.port / 2) 3 1
        .moved (if k.kind = 2 then
            (s.addReady r.outPort { out with addr := k.dest + fl.off }).collSent p k.layer r.outPort r.outStream bytes.length else s)

/-- EDGE_ROUTER_ADDITION (R299): the router of the receiving port reads the local contribution from its home slices, adds, and sends the rounded
result onward, or writes it at the last rank. Until the local contribution is there the partial sum waits (R50, R269). A flit of another layout
epoch ends the collective with LAYOUT_EPOCH_STALE, and nothing is added (R300). -/
def execEdgeRouterAddition (g : Nat) (fl : ReduceFlit) (s : State) : Host.Outcome State Fault Refusal :=
  let p := s.partOfEdge g
  let part := s.part p
  .next (if part.job != .running || !s.carries fl.port || s.partOfPort fl.port != p then s
    else if fl.epoch != part.layoutEpoch then s.endStep p stLayoutStale
    else
      let s := s.modPart p Part.startColls
      match (s.part p).reduceOf fl with
      | none => s
      | some (k, r) =>
        match s.readMem p (k.src + fl.off) (4 * fl.arriving.length) with
        | .fail s c => if c = stBusy then s else s.endJobAccess p c 0 0
        | .ok s b =>
          let own := words32 fl.arriving.length b
          let sum := addPartials part.roundKey.toNat part.dataPos k.layer (collAddend k r (fl.off / k.chunk)) (fl.off / 4) own fl.arriving
          match s.sumOn p k r fl (sum.flatMap fun w => leBytes 4 w.toNat) with
          | .moved s => s.countEdge (fl.port / 2) 2 1
          | .held s _ => s
          | .ended s => s)

/-! ### Ports going down and coming back (R290, Table 6 of chapter 13) -/

/-- The LINK event of a port. -/
def State.linkEvent (s : State) (l : Nat) : State := s.event mgmtEvents 0x0008 0 (packList [(1, l), (1, (s.port l).st)])

/-- Whether the image of a partition's job names a port. -/
def Part.usesPort (part : Part) (l : Nat) : Bool := match part.image with | some im => decide (l ∈ im.ports) | none => false

/-- A port taken down: what it carried is gone, it is reported, and the running step of a job that uses it ends with LINK_DOWN (R255, R290). -/
def State.portDown (s : State) (l : Nat) : State :=
  let p := s.partOfPort l
  if (s.port l).st = 0 then s
  else
    let s := s.modPort l fun x =>
      { x with st := 0, lanes := 0, jobKey := false, bellQ := [], bellOut := [], pktQ := [], pktPos := 0, pktOut := [], ready := [], openFrames := [], parked := false }
    let s := (s.linkEvent l).report 1 l 0x31 p
    let s := s.countOpen p
    if (s.part p).usesPort l then s.endStep p stLinkDown else s

/-- A port up on four lanes or three, its flit times numbered from fabric time (R283). -/
def State.portUp (s : State) (l lanes : Nat) : State :=
  let three := lanes != 15
  (s.modPort l fun x =>
    { x with st := if three then 3 else 2, lanes := lanes, three := three && x.sched.three.isSome, flit := flitFrom three s.slot, parked := false }).linkEvent l

/-- The frames in flight on a port that retrains fail (R289, R290): the running step of a job of whose streams flits have been handed on from them ends. -/
def State.framesFail (s : State) (l : Nat) : State :=
  let x := s.port l
  let p := s.partOfPort l
  if x.openFrames = [] then s
  else
    let s := s.setPort l { x with openFrames := [], counts := x.openFrames.foldl (fun m _ => bump m 1) x.counts }
    ((s.report 1 l 0x33 p).endStep p stDataError).countOpen p

/-- A lane of a port that has failed (R290): the port retrains on its other three lanes, and a second loss takes it down. -/
def State.laneFails (s : State) (l lane : Nat) : State :=
  let x := s.port l
  if !bit x.lanes (lane % 4) then s
  else if x.st = 2 then
    let s := s.setPort l { x with st := 1, lanes := x.lanes - 2 ^ (lane % 4) }
    ((s.report 1 l 0x30 (s.partOfPort l)).linkEvent l).framesFail l
  else s.portDown l

/-- LANE_FAILURE (R290). -/
def execLaneFailure (l lane : Nat) (s : State) : Host.Outcome State Fault Refusal := .next (s.laneFails l lane)

/-- LANE_RETRAIN_DONE (R290): a port that was retraining on three lanes resumes with its three-lane schedule, or goes down. -/
def execLaneRetrainDone (l : Nat) (ok : Bool) (s : State) : Host.Outcome State Fault Refusal :=
  let x := s.port l
  .next (if x.st != 1 then s else if ok then s.portUp l x.lanes else s.portDown l)

end Sys2Proof.Machine
end

