-- ==== Sys2Proof/Machine/FormBells.lean ====
section
/-! DEFINITION. Bell messages between devices (R302 to R308), the beat (R291 to R293) and the loss of a Prefect (R308). -/

namespace Sys2Proof.Machine

open Sys2Proof

/-! ### Who a device serves -/

/-- Devices that the link map and the bell routes name, but this one. -/
def State.knownDevices (s : State) : List Nat :=
  ((s.form.routes.map fun r => r.dest) ++ (s.form.links.filter fun e => e.2.valid && !e.2.node).map fun e => e.2.peer).dedup.filter (· != s.self)

/-- The live members of this device's Form, itself left out (log entry 23). -/
def State.members (s : State) : List Nat :=
  s.knownDevices.filter fun d => d / 64 == s.form.form && !decide (d ∈ s.form.absent)

/-- The Prefects of other Forms that a Head Prefect serves: the devices of other Forms that its bell routes name (log entry 23). -/
def State.prefects (s : State) : List Nat :=
  (s.form.routes.map fun r => r.dest).dedup.filter fun d => d / 64 != s.form.form

/-- Whether the job of a partition spans Forms. -/
def State.spans (s : State) (p : Nat) : Bool := (s.part p).jobDevices.any fun d => d / 64 != s.form.form

/-- Whether this device is the root of a partition's global bells (R302). -/
def State.isRoot (s : State) (p : Nat) : Bool := if s.spans p then s.isHead && s.isPrefect else s.isPrefect

/-- The Deputy Head, as a Prefect knows it: the one appointed, or the device to which its alternate lock port leads (R279, R291). -/
def State.deputyHead (s : State) : Option Nat :=
  match s.form.deputyHead, tget {} s.form.links s.beat.altPort with
  | some d, _ => if s.isPrefect then some d else none
  | none, e => if s.isPrefect && !s.isHead && e.valid && !e.node then some e.peer else none

/-- Whether this device is the Deputy Head (R279). -/
def State.isDeputyHead (s : State) : Bool := s.form.set && s.form.deputyHead == some s.self && !s.isHead

/-- The Head Prefect and the Deputy Head, this device left out: where a Prefect that is not the Head sends what goes to the Head (R302, R306). -/
def State.heads (s : State) : List Nat := (s.form.head.toList ++ s.deputyHead.toList).dedup.filter (· != s.self)

/-- The first bell message of a TYPE, with the rest. -/
def takeBell (type : Nat) (l : List (Nat × Nat × W64)) : Option ((Nat × Nat × W64) × List (Nat × Nat × W64)) :=
  takeFirst (fun x => x.2.2.toNat % 256 == type) l

/-! ### Global bells (R302) -/

/-- A ring applied at the root: the job's count rises, and COUNT goes down the tree. -/
def State.rootRing (s : State) (p b : Nat) (amount : W32) : State :=
  let n := tget 0 (s.part p).rootBells b + amount
  let s := s.modPart p fun part => { part with rootBells := tset 0 part.rootBells b n }
  s.sendBells (s.self :: s.members ++ (if s.spans p then s.prefects else [])) p (msgCount b n)

/-- A ring counted by a Deputy or the Deputy Head, which keep the root's state (R279, R308). -/
def State.keepRing (s : State) (p b : Nat) (amount : W32) : State :=
  s.modPart p fun part => { part with rootBells := tset 0 part.rootBells b (tget 0 part.rootBells b + amount) }

/-- RING (R302): applied at the root; forwarded by a Prefect to the Head and the Deputy Head where it comes from its own Form; and counted by a Deputy and
by the Deputy Head. -/
def execRing (s : State) : Host.Outcome State Fault Refusal :=
  .next (match takeBell 0x01 s.bellIn with
    | none => s
    | some ((d, p, m), rest) =>
      let s := { s with bellIn := rest }
      let b := bits m.toNat 16 10
      let own := d / 64 == s.form.form
      let amount : W32 := BitVec.ofNat 32 (bits m.toNat 32 32)
      let s := if s.isPrefect && s.spans p && own then s.sendBells s.heads p m else s
      if s.isRoot p then s.rootRing p b amount
      else if s.isDeputy || (s.isDeputyHead && s.spans p) then s.keepRing p b amount
      else s)

/-- COUNT (R302): a mirror takes a count that is not behind its own; a Prefect that is not the root passes it on to its members. -/
def execCount (s : State) : Host.Outcome State Fault Refusal :=
  .next (match takeBell 0x02 s.bellIn with
    | none => s
    | some ((_, p, m), rest) =>
      let s := { s with bellIn := rest }
      let b := bits m.toNat 16 10
      let n : W32 := BitVec.ofNat 32 (bits m.toNat 32 32)
      let s := if (n - tget 0 (s.part p).bells b).toNat < 2 ^ 31 then s.setBell p b n else s
      if s.isPrefect && !s.isRoot p then s.sendBells s.members p m else s)

/-! ### Flags, rungs and the clip scalar -/

/-- FLAG (R53, R303): a REMOTE peer's flag of a group's round reaches the commit controller; one of a step that this device has not opened waits, and
one of an earlier step is dropped. -/
def execFlag (s : State) : Host.Outcome State Fault Refusal :=
  let ahead (x : Nat × Nat × W64) : Bool :=
    let d := (bits x.2.2.toNat 32 32 + 2 ^ 32 - (s.part x.2.1).openStep % 2 ^ 32) % 2 ^ 32
    decide (0 < d) && decide (d < 2 ^ 31)
  .next (match takeFirst (fun x => x.2.2.toNat % 256 == 0x03 && !ahead x) s.bellIn with
    | none => s
    | some ((d, p, m), rest) =>
      let s := { s with bellIn := rest }
      let g := bits m.toNat 16 8
      if bits m.toNat 32 32 = (s.part p).openStep % 2 ^ 32 then
        (s.modPart p fun part => part.modGroup g fun x =>
          { x with flags := x.flags ++ [(d, bits m.toNat 25 7, bit m.toNat 24)] }).tryVerdicts p 1024 [g]
      else s)

/-- Devices from which the inbound maps of a partition's image take tokens of a layer: those whose output of it this device consumes (R267, R296). -/
def Part.layerSources (part : Part) (layer : Nat) : List Nat :=
  (((part.image.getD {}).sections.flatMap fun sec => (sec.inbound.filter fun e => e.layer == layer).map fun e => e.srcDev)).dedup

/-- RUNG (R267): the Prefect passes it on to its Form; a consuming device raises its entry for the layer and acknowledges to the devices whose output of
the layer it consumes (DESIGN CHOICE, entry 89). -/
def execRung (s : State) : Host.Outcome State Fault Refusal :=
  .next (match takeBell 0x04 s.bellIn with
    | none => s
    | some ((d, p, m), rest) =>
      let s := { s with bellIn := rest }
      let layer := bits m.toNat 16 12
      let rung := bits m.toNat 28 2
      let s := if s.isPrefect && d / 64 == s.form.form then s.sendBells (s.members.filter (· != d)) p m else s
      match ((s.part p).layerSources layer).filter (· != s.self) with
      | [] => s
      | srcs =>
        let s := if bits m.toNat 32 32 = (s.part p).step % 2 ^ 32 then
            s.modPart p fun part => { part with rungs := tmod 0 part.rungs layer fun r => max r rung }
          else s
        s.sendBells srcs p (msgRungAck layer rung (bits m.toNat 32 32)))

/-- RUNG_ACK (R267): commits held for the layer may go on. -/
def execRungAck (s : State) : Host.Outcome State Fault Refusal :=
  .next (match takeBell 0x05 s.bellIn with
    | none => s
    | some ((d, p, m), rest) =>
      let s := { s with bellIn := rest }
      (s.modPart p fun part => { part with rungWait := part.rungWait.filter fun w => w != (bits m.toNat 16 12, d) }).allVerdicts p)

/-- CLIP (R270, R307): the first clip scalar of the step; a scalar that is no finite number ends the step (log entry 24). A Prefect under the Head
passes it on to its members. -/
def execClip (s : State) : Host.Outcome State Fault Refusal :=
  .next (match takeBell 0x06 s.bellIn with
    | none => s
    | some ((d, p, m), rest) =>
      let s := { s with bellIn := rest }
      let c : W32 := BitVec.ofNat 32 (bits m.toNat 32 32)
      let s := if s.isPrefect && d != s.self then s.sendBells s.members p m else s
      let part := s.part p
      if part.job != .running || part.clip.isSome || bits m.toNat 16 16 != part.step % 2 ^ 16 then s
      else if special32 c.toNat then s.endStep p stExhausted
      else (s.modPart p fun part => { part with clip := some c }).allVerdicts p)

/-! ### The beat (R291 to R293) -/

/-- The number of the beat in which a slot lies. -/
def beatOf (slot : Nat) : Nat := slot / 2 ^ 20

/-- A beat counted once under R293. -/
def Beat.markBad (b : Beat) : Beat := if b.bad then b else { b with bad := true, errors := satInc32 b.errors }

/-- The check of the beat that has ended: a missing edge counts, and four counted beats in a row raise the alarm (R293). -/
def State.checkBeat (s : State) : State :=
  let b := s.beat
  if !b.epochValid then { s with beat := { b with bad := false, edgeSeen := b.early, early := false } }
  else
    let b := if b.edgeSeen then b else b.markBad
    let run := if b.bad then b.badRun + 1 else 0
    let s := { s with beat := { b with bad := false, badRun := run, edgeSeen := b.early, early := false } }
    if run = 4 then ({ s with beat := { s.beat with alarm := true } }).report 0 0 0x41 0 else s

/-- Heartbeats of the beat, and what is missed (R308). -/
def State.beats (s : State) : State :=
  let s := if s.isPrefect then s.sendBells s.members 0 (msgHeartbeat (beatOf s.slot)) else s
  let s := if s.isHead && s.isPrefect then s.sendBells s.prefects 0 (msgHeartbeat (beatOf s.slot)) else s
  let f := s.form
  if f.set && !s.isPrefect then
    { s with form := { f with missedBeats := if f.heard then 0 else f.missedBeats + 1, heard := false,
                              missingSent := f.missingSent && !f.heard } }
  else if s.isPrefect && !s.isHead then
    { s with form := { f with headMissed := if f.headHeard then 0 else f.headMissed + 1, headHeard := false,
                              headMissingSent := f.headMissingSent && !f.headHeard } }
  else s

/-- Members that a note of class 0x40 or 0x61 names, as far as they are not yet absent (R315). -/
def State.suspects (s : State) : List Nat :=
  ((s.form.notes.filter fun n => n.1.key.kind == 0 && (n.1.key.cls == 0x40 || n.1.key.cls == 0x61) && !n.1.absent).map fun n => n.1.key.dev).filter
    fun d => d / 64 == s.form.form && !decide (d ∈ s.form.absent) && d != s.self

/-- A Prefect's probes of the beat (R315): each suspect is probed over every port of the link map that leads to it and is up, and beats without an answer
are counted. -/
def State.probeSuspects (s : State) : State :=
  if !s.isPrefect then s
  else s.suspects.foldl (fun s d =>
    (s.portsTo d).foldl (fun s l => s.queuePacket l { cls := 0x20, dest := d, ctl := some .probe })
      { s with form := { s.form with probes := tmod 0 s.form.probes d (· + 1) } }) s

/-- BEAT_BOUNDARY (R293): the next beat of fabric time begins. -/
def execBeatBoundary (s : State) : Host.Outcome State Fault Refusal :=
  .next (if s.beat.last = beatOf s.slot + 1 then s
    else
      let s := { s with beat := { s.beat with last := beatOf s.slot + 1 }, ports := s.ports.map fun (e : Nat × Port) => (e.1, { e.2 with lateInBeat := 0 }) }
      s.checkBeat.beats.probeSuspects)

/-- What a pulse of a width in ns reads as (Table 5 of chapter 10): a bit, or the frame marker; none is invalid. -/
def beatPulse (width : Nat) : Option (Option Bool) :=
  if 100 ≤ width && width < 400 then some (some false)
  else if 400 ≤ width && width < 800 then some (some true)
  else if 800 ≤ width && width < 1200 then some none
  else none

/-- Bits, least significant first, as a number. -/
def ofBits : List Bool → Nat
  | [] => 0
  | b :: l => b.toNat + 2 * ofBits l

/-- A reading of a pulse taken into the BEAT frame: markers begin one, and the 64th bit completes it. -/
def State.readPulse (s : State) (n : Nat) (r : Option (Option Bool)) : State :=
  let b := s.beat
  match r, b.frame with
  | none, _ => { s with beat := { b.markBad with frame := none } }
  | some none, _ => { s with beat := { b with frame := some [] } }
  | some (some _), none => s
  | some (some x), some l =>
    let l := l ++ [x]
    if l.length < 64 then { s with beat := { b with frame := some l } }
    else
      let e := ofBits l
      let b := { b with frame := none }
      if b.epochValid then { s with beat := if n = e + 64 then b else b.markBad }
      else if b.phaseSet then
        { s with slot := (e + 64) * 2 ^ 20 + s.slot % 2 ^ 20
                 beat := { b with epochValid := true, aligning := false, phaseSet := false, last := e + 65 } }
      else { s with beat := b }

/-- BEAT_EDGE (R292, R293): a rising edge of BEAT with the width of its pulse. After FORM_SETUP the first one sets the slot within the beat to 0; later
ones only check it. -/
def execBeatEdge (width : Nat) (s : State) : Host.Outcome State Fault Refusal :=
  let b := s.beat
  let off : Nat := s.slot % 2 ^ 20
  .next (if b.aligning && !b.phaseSet then
      ({ s with slot := s.slot / 2 ^ 20 * 2 ^ 20, beat := { b with phaseSet := true, edgeSeen := true, edgeError := 0, frame := none } }).readPulse
        (beatOf s.slot) (beatPulse width)
    else
      let early := decide (2 ^ 19 ≤ off)
      let err : Int := if early then Int.ofNat off - 1048576 else Int.ofNat off
      let b := { b with edgeError := max (-128) (min 127 err), edgeSeen := b.edgeSeen || !early, early := b.early || early }
      let b := if b.epochValid && decide (8 < err.natAbs) then b.markBad else b
      ({ s with beat := b }).readPulse ((s.slot + 2 ^ 19) / 2 ^ 20) (beatPulse width))

/-- Whether a port leads on as a lock port: it is up. -/
def State.portIsUp (s : State) (l : Nat) : Bool := (s.port l).up

/-- LOCK_PORT_DOWN (R291): the device moves to the alternate lock port, or into holdover when that is down too. -/
def execLockPortDown (s : State) : Host.Outcome State Fault Refusal :=
  let b := s.beat
  .next (if !s.form.set || b.root || b.holdover || s.portIsUp b.lockPort then s
    else if s.portIsUp b.altPort then { s with beat := { b with lockPort := b.altPort, altPort := b.lockPort } }
    else { s with beat := { b with holdover := true, locked := false, holdSince := some s.tick } })

/-- LOCK_PORT_RETURN (R291): with a lock port back, holdover and its consequences end. -/
def execLockPortReturn (s : State) : Host.Outcome State Fault Refusal :=
  let b := s.beat
  let back (b : Beat) : State := { s with beat := { b with holdover := false, locked := true, holdSince := none, timedEnded := false } }
  .next (if !b.holdover then s
    else if s.portIsUp b.lockPort then back b
    else if s.portIsUp b.altPort then back { b with lockPort := b.altPort, altPort := b.lockPort }
    else s)

/-- HOLDOVER_EXPIRY (R291): after 1 s of holdover every TIMED stream of the device ends with LINK_DOWN, reported with class 0x42. -/
def execHoldoverExpiry (s : State) : Host.Outcome State Fault Refusal :=
  .next (match s.beat.holdover, s.beat.holdSince, s.beat.timedEnded with
    | true, some t, false =>
      if t + 25000000 ≤ s.tick then
        let s := ({ s with beat := { s.beat with timedEnded := true } }).report 0 0 0x42 0
        s.partList.foldl (fun s p =>
          match (s.part p).image with
          | some im => if im.ports = [] then s else s.endStep p stLinkDown
          | none => s) s
      else s
    | _, _, _ => s)

/-! ### Loss of a Prefect (R308) -/

/-- HEARTBEAT (R308): the beat's heartbeat has come. -/
def execHeartbeat (s : State) : Host.Outcome State Fault Refusal :=
  .next (match takeBell 0x07 s.bellIn with
    | none => s
    | some ((d, _, _), rest) =>
      let s := { s with bellIn := rest }
      let s := if s.form.set && d == s.form.prefect then
          { s with form := { s.form with heard := true, missedBeats := 0, missingSent := false } } else s
      if s.form.set && s.form.head == some d then
        { s with form := { s.form with headHeard := true, headMissed := 0, headMissingSent := false } } else s)

/-- The Deputy takes over (R308): TAKEOVER goes to every member, and the silent Prefect is noted with class 0x40. -/
def State.takeOver (s : State) : State :=
  let old := s.form.prefect
  let s := { s with form := { s.form with prefect := s.self, deputy := none, role := 1, missing := [], missedBeats := 0, heard := false } }
  let s := s.sendBells (s.members.filter (· != old)) 0 (msgTakeover s.self)
  s.noteIn { key := { dev := old, kind := 0, unit := 0, cls := 0x40, epoch := 0 }, reporter := s.self, count := 1, first := s.slot, last := s.slot }

/-- Whether the Deputy takes over: it has missed four heartbeats itself, and holds MISSING from more than half of the members (R308). -/
def State.mayTakeOver (s : State) : Bool :=
  s.isDeputy && decide (4 ≤ s.form.missedBeats) && decide ((s.members.filter (· != s.form.prefect)).length < 2 * s.form.missing.length)

/-- The Deputy Head takes over from the Head Prefect (R308): TAKEOVER goes to every Prefect, and the silent Head is noted with class 0x40. -/
def State.takeOverHead (s : State) : State :=
  let old := s.form.head.getD 0
  let s := { s with form := { s.form with head := some s.self, deputyHead := none, role := 3, headMissing := [], headMissed := 0, headHeard := false } }
  let s := s.sendBells ((s.prefects ++ s.form.deputy.toList).filter (· != old)) 0 (msgTakeover s.self)
  s.noteIn { key := { dev := old, kind := 0, unit := 0, cls := 0x40, epoch := 0 }, reporter := s.self, count := 1, first := s.slot, last := s.slot }

/-- Whether the Deputy Head takes over, in the same way as a Deputy (R308). -/
def State.mayTakeOverHead (s : State) : Bool :=
  s.isDeputyHead && decide (4 ≤ s.form.headMissed) && decide ((s.prefects.filter fun d => some d != s.form.head).length < 2 * s.form.headMissing.length)

/-- MISSING (R308): the Deputy holds a member's report, and the Deputy Head a Prefect's. -/
def execMissing (s : State) : Host.Outcome State Fault Refusal :=
  .next (match takeBell 0x08 s.bellIn with
    | none => s
    | some ((d, _, m), rest) =>
      let s := { s with bellIn := rest }
      if s.isDeputy && bits m.toNat 16 14 == s.form.prefect then
        let s := { s with form := { s.form with missing := addOnce s.form.missing d } }
        if s.mayTakeOver then s.takeOver else s
      else if s.isDeputyHead && s.form.head == some (bits m.toNat 16 14) then
        let s := { s with form := { s.form with headMissing := addOnce s.form.headMissing d } }
        if s.mayTakeOverHead then s.takeOverHead else s
      else s)

/-- What a Prefect does after four beats without a heartbeat of the Head Prefect (R308). -/
def State.headLost (s : State) : State :=
  if s.isHead || s.form.headMissed < 4 then s
  else if s.isDeputyHead then (if s.mayTakeOverHead then s.takeOverHead else s)
  else if s.form.headMissingSent then s
  else
    match s.deputyHead, s.form.head with
    | some d, some h => ({ s with form := { s.form with headMissingSent := true } }).sendBell d 0 (msgMissing h)
    | _, _ => s

/-- HEARTBEAT_LOST (R308): after four beats without a heartbeat a member sends MISSING to the Deputy, and the Deputy takes over where it may; Prefects
and the Deputy Head do so for the Head Prefect. -/
def execHeartbeatLost (s : State) : Host.Outcome State Fault Refusal :=
  .next (if !s.form.set then s
    else if s.isPrefect then s.headLost
    else if s.form.missedBeats < 4 then s
    else if s.isDeputy then (if s.mayTakeOver then s.takeOver else s)
    else if s.form.missingSent then s
    else
      match s.form.deputy with
      | some d => ({ s with form := { s.form with missingSent := true } }).sendBell d 0 (msgMissing s.form.prefect)
      | none => s)

/-- The lock port moved to a link that leads to a new superior, where there is one (R291, R308). -/
def State.lockTo (s : State) (d : Nat) : State :=
  match s.portTo d with
  | some l => { s with beat := { s.beat with lockPort := l } }
  | none => s

/-- A new Prefect of the Form taken (R308): the old one, when it returns, joins as a worker. -/
def State.newPrefect (s : State) (d : Nat) : State :=
  ({ s with form := { s.form with
    prefect := d, missedBeats := 0, heard := false, missingSent := false
    deputy := if s.form.deputy = some d then none else s.form.deputy
    role := if d != s.self && s.form.role == 1 then 0 else s.form.role } }).lockTo d

/-- A new Head Prefect taken (R308). -/
def State.newHead (s : State) (d : Nat) : State :=
  let s := { s with form := { s.form with
    head := some d, headMissed := 0, headHeard := false, headMissingSent := false
    deputyHead := if s.form.deputyHead = some d then none else s.form.deputyHead
    role := if s.form.role = 3 then 1 else s.form.role } }
  if s.isPrefect then (s.sendBells s.form.deputy.toList 0 (msgTakeover d)).lockTo d else s

/-- TAKEOVER (R308): rings, records and faults go to the new Prefect from here on, and the device locks to a link that leads to it. A device of
another Form is the new Head Prefect, which a Prefect tells its Deputy (DEDUCED, entry 92). -/
def execTakeover (s : State) : Host.Outcome State Fault Refusal :=
  .next (match takeBell 0x09 s.bellIn with
    | none => s
    | some ((_, _, m), rest) =>
      let s := { s with bellIn := rest }
      let d := bits m.toNat 16 14
      if d / 64 = s.form.form then s.newPrefect d else s.newHead d)

end Sys2Proof.Machine
end

