-- ==== Sys2Proof/Machine/FormPackets.lean ====
section
/-! DEFINITION. Packets that are acted on once their frame has checked (R288): far-tier requests and answers (R246, R247), norm records (R306, R307),
probes (R315) and data positions (R331). -/

namespace Sys2Proof.Machine

open Sys2Proof

/-! ### The far tier over links (R246, R247, R288) -/

/-- The page and the first line in it that a request of a peer names: the region that a partition exports, and the request's offset in it. -/
def Part.exported (part : Part) (k : Packet) : Option (Nat × Nat) :=
  match part.exports.find? fun e => e.1 == k.arg.toNat % 2 ^ 16 with
  | some (_, base, len) =>
    if k.addr + 4096 ≤ len then some ((base + k.addr) / pageBytes, (base + k.addr) % pageBytes / 64) else none
  | none => none

/-- The lines of 4 KiB of a page as they are stored. -/
def State.storedPiece (s : State) (p pg first : Nat) : SMap HbmLine :=
  let e := (s.part p).page pg
  if e.st == .hbm then
    ((frameLines e.frame (s.stack (s.stackOfPage p pg)).lines).filter fun x => decide (first ≤ x.1) && decide (x.1 < first + 64)).map fun x =>
      (x.1 - first, x.2)
  else []

/-- FAR_READ (R288): a peer answers with the stored lines of an exported region, ciphertext and metadata unchanged. -/
def execFarRead (s : State) : Host.Outcome State Fault Refusal :=
  .next (match takePacket 0x01 s.pktIn with
    | none => s
    | some ((l, k), rest) =>
      let s := { s with pktIn := rest }
      let p := s.partOfPort l
      let reply : Packet := { cls := 0x02, flits := 19, dest := k.src, part := k.part, tag := k.tag, addr := k.addr, arg := k.arg }
      match (s.part p).exported k with
      | some (pg, first) =>
        s.queuePacket l (match ((s.part p).page pg).st with
          | .hbm | .zero => { reply with lines := s.storedPiece p pg first }
          | .unmapped | .pin => { reply with status := 3 }
          | _ => { reply with status := 1 })
      | none => s.queuePacket l { reply with status := 3 })

/-- FAR_WRITE (R288): a peer stores the lines unchanged in its exported region, and acknowledges. -/
def execFarWrite (s : State) : Host.Outcome State Fault Refusal :=
  .next (match takePacket 0x03 s.pktIn with
    | none => s
    | some ((l, k), rest) =>
      let s := { s with pktIn := rest }
      let p := s.partOfPort l
      let reply : Packet := { cls := 0x04, dest := k.src, part := k.part, tag := k.tag, addr := k.addr, arg := k.arg }
      match (s.part p).exported k with
      | none => s.queuePacket l { reply with status := 3 }
      | some (pg, first) =>
        match s.frameForWrite p pg with
        | (s, c) =>
          if c != stOK || ((s.part p).page pg).st != .hbm then s.queuePacket l { reply with status := if c = stNoPage then 3 else 1 }
          else
            let first' := k.addr % pageBytes / 64
            let ls := k.lines.map fun e => (first + (e.1 - first'), e.2)
            ((s.putLines (s.stackOfPage p pg) ((s.part p).page pg).frame ls).modPart p fun part => part.staleFar pg).queuePacket l reply)

/-- An answer that says that a transfer has failed: the transfer is tried three times (R246). -/
def State.farAnswerFails (s : State) (p pg : Nat) (inwards : Bool) : State :=
  let e := (s.part p).page pg
  if e.tries < 2 then
    let s := s.setPage p pg { e with tries := e.tries + 1, arrived := [] }
    if inwards then s.askIn p pg else s.sendOut p pg
  else if inwards then s.failIn p pg stFarTier else s.failOut p pg stFarTier

/-- The page in transfer to which an answer of a device or node belongs: by the region of its backend and the far page at its offset (R246). -/
def Part.farPageOf (part : Part) (k : Packet) (inwards : Bool) : Option Nat :=
  (part.transfers.find? fun t =>
    let b := part.backendOf t.page
    t.inward == inwards && !t.drain && k.src % 2 ^ 15 == b.target % 2 ^ 15 && (decide (2 ^ 15 ≤ k.src)) == (b.kind == 2)
      && k.arg.toNat % 2 ^ 16 == b.region % 2 ^ 16 && (part.page t.page).farSlot == k.addr / pageBytes).map Transfer.page

/-- FAR_DATA (R288): a piece of a page in transfer inwards comes to its frame. -/
def execFarData (s : State) : Host.Outcome State Fault Refusal :=
  .next (match takePacket 0x02 s.pktIn with
    | none => s
    | some ((l, k), rest) =>
      let s := { s with pktIn := rest }
      let p := s.partOfPort l
      match (s.part p).farPageOf k true with
      | none => s
      | some pg =>
        if k.status != 0 then s.farAnswerFails p pg true
        else
          let piece := k.addr % pageBytes / 4096
          let e := (s.part p).page pg
          (s.putLines (s.stackOfPage p pg) e.frame (k.lines.map fun x => (64 * piece + x.1 % 64, x.2))).setPage p pg
            { e with arrived := addOnce e.arrived piece })

/-- FAR_ACK (R288): a piece of a page in transfer outwards is on its backend. -/
def execFarAck (s : State) : Host.Outcome State Fault Refusal :=
  .next (match takePacket 0x04 s.pktIn with
    | none => s
    | some ((l, k), rest) =>
      let s := { s with pktIn := rest }
      let p := s.partOfPort l
      match (s.part p).farPageOf k false with
      | none => s
      | some pg =>
        let e := (s.part p).page pg
        if k.status != 0 then s.farAnswerFails p pg false
        else s.setPage p pg { e with arrived := addOnce e.arrived (k.addr % pageBytes / 4096) })

/-! ### Norms (R306, R307) -/

/-- The devices of the replica whose records a norm root adds, in ascending job rank. -/
def Part.replica (part : Part) : List Nat :=
  match part.image with
  | some im => if im.replicaRanks = [] then part.jobDevices else (im.replicaRanks.mergeSort (· ≤ ·)).map fun r => part.ranks.getD r 0
  | none => []

/-- Whether this device is the norm root of a partition's job (R306). -/
def State.isNormRoot (s : State) (p : Nat) : Bool :=
  match (s.part p).image with
  | some im => if im.spanForms then s.isHead && s.isPrefect else s.isPrefect
  | none => false

/-- The key under which a norm root holds a device's records of a step of a partition's job. -/
def normKey (p step dev : Nat) : Nat := (step * 8 + p) * 2 ^ 14 + dev % 2 ^ 14

/-- The layer number that marks that a device's records of a step have come. -/
def normMark : Nat := 4096

/-- The data position of a step, as a device's reports give it (R331); the partition's own where none does. -/
def State.stepPosition (s : State) (p dev step : Nat) : Nat :=
  match s.form.positions.find? fun x => x.1 == jobDev p dev && x.2.1 == step with
  | some x => x.2.2.1
  | none => (s.part p).dataPos

/-- One tap added to a combined record: the first exactly, the others under site kind 3 with STAGE 1 (R306). -/
def joinTap (key dataPos layer tap idx : Nat) (first : Bool) (acc v : W32) : W32 :=
  if first then v
  else srAdd acc (decodeFloat 5 v.toNat) (roundDraw key dataPos layer 3 1 (2048 + idx) (3 * layer + tap))

/-- The records of one layer from devices of the replica, each with the device's index, added in order (R306). -/
def joinNorms (key dataPos layer : Nat) : Option NormRec → List (Nat × NormRec) → Option NormRec
  | acc, [] => acc
  | none, (_, r) :: l => joinNorms key dataPos layer (some r) l
  | some a, (i, r) :: l =>
    let a' : NormRec := { a with
      w := joinTap key dataPos layer 0 i false a.w r.w, g := joinTap key dataPos layer 1 i false a.g r.g
      u := joinTap key dataPos layer 2 i false a.u r.u, frozen := a.frozen || r.frozen, escalated := a.escalated || r.escalated }
    joinNorms key dataPos layer (some a') l

/-- The records held for one layer of a step from the devices of a replica, with their indices. -/
def recordsOf (held : List (Nat × NormRec)) (devs : List Nat) (p step layer : Nat) : List (Nat × NormRec) :=
  (devs.zip (upFrom 0 devs.length)).flatMap fun d =>
    (held.filter fun h => h.1 == normKey p step d.1 && h.2.layer == layer).map fun h => (d.2, h.2)

/-- Layers of which records of a step are held, in ascending order. -/
def layersOf (held : List (Nat × NormRec)) (devs : List Nat) (p step : Nat) : List Nat :=
  (((held.filter fun h => h.1 / 2 ^ 14 == step * 8 + p && decide (h.1 % 2 ^ 14 ∈ devs) && h.2.layer != normMark).map fun h => h.2.layer).dedup).mergeSort
    (· ≤ ·)

/-- The 16 bytes of a norm record (Table 9 of chapter 5). -/
def normBytes (r : NormRec) : List Byte :=
  leBytes 16 (r.w.toNat + r.g.toNat * 2 ^ 32 + r.u.toNat * 2 ^ 64 + (r.layer % 4096 + r.frozen.toNat * 2 ^ 12 + r.escalated.toNat * 2 ^ 13
    + r.provisional.toNat * 2 ^ 14) * 2 ^ 96)

/-- A step's combined records kept for NORM_READ, the last four steps' of a job (R306). -/
def keepNorms (m : SMap (List NormRec)) (p step : Nat) (l : List NormRec) : SMap (List NormRec) :=
  let m := tset [] m (step * 8 + p) l
  let mine := (m.map Prod.fst).filter fun k => k % 8 == p
  m.filter fun e => e.1 % 8 != p || decide (e.1 ∈ mine.drop (mine.length - 4))

/-- Combined records posted to the job's event ring and kept (R306). -/
def State.postNorms (s : State) (p step : Nat) (l : List NormRec) : State :=
  let s := { s with form := { s.form with norms := keepNorms s.form.norms p step l } }
  l.foldl (fun s r => s.partEvent p 0x0004 (leBytes 8 step ++ normBytes r)) s

/-- A step's records combined once every device of the replica has sent them (R306); the Deputy keeps them without posting. -/
def State.combineNorms (s : State) (p step : Nat) : State :=
  let part := s.part p
  let devs := part.replica
  let held := s.form.normIn
  if !devs.all (fun d => held.any fun h => h.1 == normKey p step d && h.2.layer == normMark) then s
  else
    let pos := s.stepPosition p (devs.headD s.self) step
    let l := (layersOf held devs p step).filterMap fun layer => joinNorms part.roundKey.toNat pos layer none (recordsOf held devs p step layer)
    let s := { s with form := { s.form with normIn := held.filter fun h => h.1 / 2 ^ 14 != step * 8 + p } }
    if s.isNormRoot p then
      let s := s.postNorms p step l
      if s.spans p && s.isHead then
        s.sendPackets s.prefects { cls := 0x22, tag := 1, part := p, norm := l, arg := BitVec.ofNat 64 step } else s
    else { s with form := { s.form with norms := keepNorms s.form.norms p step l } }

/-- The clip scalar of a norm (R270). -/
def clipScalar (tau g : W32) : W32 :=
  let t := decodeFloat 5 tau.toNat
  let tau2 := rnd32 (t.mul t)
  let v := decodeFloat 5 g.toNat
  if special32 g.toNat then BitVec.ofNat 32 (canonNan 5)
  else if !tau2.lt v then 0x3F800000
  else BitVec.ofNat 32 (rne32 (t.mul (rnd32 (rowFnVal 4 v))))

/-- The squared norm G from the combined provisional records of the clipped layers, in ascending layer id (R307). -/
def sumG (key dataPos : Nat) : Option W32 → List NormRec → W32
  | acc, [] => acc.getD 0
  | none, r :: l => sumG key dataPos (some r.g) l
  | some a, r :: l => sumG key dataPos (some (srAdd a (decodeFloat 5 r.g.toNat) (roundDraw key dataPos r.layer 3 1 4095 (3 * r.layer + 1)))) l

/-- The clip scalar formed once per step, when a combined provisional record of every clipped layer is held, and sent to the devices served
(R307). The image lists a clipped layer once for each device of the replica that sends a record of it. -/
def State.formClip (s : State) (p step : Nat) : State :=
  let part := s.part p
  match part.image with
  | none => s
  | some im =>
    let devs := part.replica
    let held := s.form.provIn
    let recs (layer : Nat) := recordsOf held devs p step layer
    let layers := im.clipLayers.dedup.mergeSort (· ≤ ·)
    if im.clipLayers = [] || (tget none s.form.clips p).any (fun c => c.1 == step) || !layers.all (fun l => decide (im.clipLayers.count l ≤ (recs l).length)) then s
    else
      let pos := s.stepPosition p (devs.headD s.self) step
      let joined := layers.filterMap fun layer => joinNorms part.roundKey.toNat pos layer none (recs layer)
      let c := clipScalar (im.tau.getD 0) (sumG part.roundKey.toNat pos none joined)
      let s := { s with form := { s.form with clips := tset none s.form.clips p (some (step, c)), provIn := held.filter fun h => h.1 / 2 ^ 14 != step * 8 + p } }
      if s.isNormRoot p then s.sendBells (s.self :: s.members ++ (if im.spanForms then s.prefects else [])) p (msgClip step c) else s

/-- The clip scalar of a step sent again to a device whose records come once it has been formed, as those of a replay do (R307, R339). -/
def State.clipAgain (s : State) (p dev step : Nat) : State :=
  match tget none s.form.clips p with
  | some (t, c) => if t = step && s.isNormRoot p then s.sendBell dev p (msgClip step c) else s
  | none => s

/-- A member's records taken in by a norm root, by the Deputy or by the Deputy Head (R306). -/
def State.normsIn (s : State) (p dev step : Nat) (l : List NormRec) : State :=
  let prov := l.filter fun r => r.provisional
  let key := normKey p step dev
  if prov != [] && (tget none s.form.clips p).any (fun c => c.1 == step) then s.clipAgain p dev step
  else
  let s := if prov != [] then
      { s with form := { s.form with provIn := (s.form.provIn.filter fun (h : Nat × NormRec) => !(h.1 == key && prov.any fun r => r.layer == h.2.layer))
                                               ++ prov.map fun r => (key, r) } }
    else { s with form := { s.form with normIn := (s.form.normIn.filter fun (h : Nat × NormRec) => h.1 != key) ++ (l.map fun r => (key, r)) ++
                                          [(key, ({ layer := normMark } : NormRec))] } }
  if prov != [] then s.formClip p step else s.combineNorms p step

/-- NORM_PACKET (R306): records of a member for its norm root; of a job whose replicas span Forms a Prefect forwards its members' unchanged to the Head
Prefect and the Deputy Head, and takes combined records, which come with TAG 1 (DESIGN CHOICE, entry 93), from the Head Prefect. -/
def execNormPacket (s : State) : Host.Outcome State Fault Refusal :=
  .next (match takePacket 0x22 s.pktIn with
    | none => s
    | some ((_, k), rest) =>
      let s := { s with pktIn := rest }
      let p := k.part
      let step := k.arg.toNat
      let wide := match (s.part p).image with | some im => im.spanForms | none => false
      let own := k.src / 64 == s.form.form
      if k.tag = 1 && s.form.head == some k.src && !s.isHead && s.isPrefect then s.postNorms p step k.norm
      else
        let s := if s.isPrefect && wide && own then s.passPackets s.heads k else s
        if s.isNormRoot p || s.isDeputy || (s.isDeputyHead && wide) then s.normsIn p k.src step k.norm else s)

/-! ### Form control -/

/-- A report of a data position. -/
def FormCtl.isPosition : FormCtl → Bool
  | .position .. => true
  | _ => false

/-- An order to hold the steps of the jobs that name an absent device. -/
def FormCtl.isHold : FormCtl → Bool
  | .hold _ => true
  | _ => false

/-- A probe or its answer. -/
def FormCtl.isProbe (c : FormCtl) : Bool := c == .probe || c == .probeAnswer

/-- The first accepted FORM_CONTROL packet that says something, with the rest. -/
def takeCtl (f : FormCtl → Bool) (l : List (Nat × Packet)) : Option ((Nat × Packet) × List (Nat × Packet)) :=
  takeFirst (fun x => x.2.cls == 0x20 && match x.2.ctl with | some c => f c | none => false) l

/-- FORM_CONTROL_PROBE (R315): a member answers its Prefect's probe; the Prefect that hears an answer counts none as missed. -/
def execFormControlProbe (s : State) : Host.Outcome State Fault Refusal :=
  .next (match takeCtl FormCtl.isProbe s.pktIn with
    | none => s
    | some ((_, k), rest) =>
      let s := { s with pktIn := rest }
      if k.ctl = some .probe then s.sendPacket k.src { cls := 0x20, ctl := some .probeAnswer }
      else { s with form := { s.form with probes := tset 0 s.form.probes k.src 0 } })

/-- DATA_POSITION_REPORT (R331): the Prefect and the Deputy keep every member's data position and cursor at its boundary. -/
def execDataPositionReport (s : State) : Host.Outcome State Fault Refusal :=
  .next (match takeCtl FormCtl.isPosition s.pktIn with
    | some ((_, k), rest) =>
      let s := { s with pktIn := rest }
      (match k.ctl with
      | some (.position _ step pos cur) =>
        let d := jobDev k.part k.src
        { s with form := { s.form with positions :=
            (s.form.positions.filter fun x => !(x.1 == d && x.2.1 == step) && (x.1 != d || decide (step < x.2.1 + 65536))) ++ [(d, step, pos, cur)] } }
      | _ => s)
    | none => s)

end Sys2Proof.Machine
end

