-- ==== Sys2Proof/Machine/Notes.lean ====
section
/-! DEFINITION. Fault reports and absence notes at a Prefect, a Deputy and the Head Prefect (R312 to R314), members declared absent (R315), and
HOLD (R316). -/

namespace Sys2Proof.Machine

open Sys2Proof

/-- The latest note of a key from another Form's Prefect kept by the Head Prefect, whose note table holds the sum (R314). -/
def State.headNoteIn (s : State) (src : Nat) (n : Note) : State :=
  let mine (h : Nat × Note) : Bool := h.1 == src && h.2.key == n.key
  let old := match s.form.headNotes.find? mine with | some h => h.2.count | none => 0
  let s := { s with form := { s.form with headNotes := (s.form.headNotes.filter fun h => !mine h) ++ [(src, n)] } }
  if s.form.notes.any (fun e => e.1.key == n.key) then
    { s with form := { s.form with notes := s.form.notes.map fun e =>
        if e.1.key = n.key then ({ joinNote e.1 n with count := satAdd32 e.1.count n.count - old }, e.2.1, e.2.2.1, 0) else e } }
  else s.noteIn n

/-- ABSENCE_NOTE (R312 to R314): a report or a note reaches a Prefect, a Deputy or the Head Prefect. -/
def execAbsenceNote (s : State) : Host.Outcome State Fault Refusal :=
  .next (match takePacket 0x21 s.pktIn with
    | none => s
    | some ((_, k), rest) =>
      let s := { s with pktIn := rest }
      match k.note with
      | none => s
      | some n =>
        if s.isHead && k.src / 64 != s.form.form then s.headNoteIn k.src n
        else if s.isPrefect || s.isDeputy then s.noteIn n
        else s)

/-- What a note window's start does to one entry of the note table: `d` windows have passed, and a changed COUNT is forwarded. -/
def State.windowNote (s : State) (w d : Nat) (e : Note × Nat × Option Nat × Nat) : State :=
  if e.1.count != e.2.1 then
    let s := { s with form := { s.form with notes := s.form.notes ++ [(e.1, e.1.count, some w, e.2.2.2 + d)] } }
    s.forwardNote e.1
  else if e.2.2.1.isSome && decide (11 ≤ e.2.2.2 + d) then
    { s with form := { s.form with headNotes := s.form.headNotes.filter fun h => h.2.key != e.1.key } }
  else { s with form := { s.form with notes := s.form.notes ++ [(e.1, e.2.1, e.2.2.1, e.2.2.2 + d)] } }

/-- NOTE_WINDOW_BOUNDARY (R314): notes whose COUNT has changed are forwarded, notes idle for ten windows are freed, and this device's held reports
leave. -/
def execNoteWindowBoundary (s : State) : Host.Outcome State Fault Refusal :=
  let w := noteWindowOf s.slot
  let old := s.form.noteWindow
  .next (if old = w then s
    else
      let notes := s.form.notes
      let mine := s.form.toReport
      let s := { s with form := { s.form with noteWindow := w, notes := [], reported := mine.map fun n => n.key, toReport := [] } }
      let s := notes.foldl (fun s e => s.windowNote w (w - old) e) s
      mine.foldl (fun s n => s.sendReport n) s)

/-- Devices of this Form that run a job which holds device `d`, as this device knows them, `d` and this device left out. -/
def State.holdTargets (s : State) (d : Nat) : List Nat :=
  ((s.partList.flatMap fun p => let l := (s.part p).jobDevices; if d ∈ l then l else []).dedup).filter fun x =>
    x / 64 == s.form.form && x != d && x != s.self && !decide (x ∈ s.form.absent)

/-- Every running step of this device's jobs that hold the note's source ends with FENCED (R316). -/
def State.holdSteps (s : State) (n : Note) : State :=
  s.partList.foldl (fun s p => if n.key.dev ∈ (s.part p).jobDevices then s.endFenced p n.key else s) s

/-- The key of the note by which a member counts as absent: the one held of class 0x61 or 0x40, or a new one of class 0x40 (log entry 25). -/
def State.absenceKey (s : State) (d : Nat) : NoteKey :=
  let held (c : Nat) := s.form.notes.find? fun e => e.1.key.dev == d && e.1.key.kind == 0 && e.1.key.cls == c
  match held 0x61, held 0x40 with
  | some e, _ => e.1.key
  | none, some e => e.1.key
  | none, none => { dev := d, kind := 0, unit := 0, cls := 0x40, epoch := 0 }

/-! ### Spares (R333, R334) -/

/-- The next device that a Prefect may fill of itself for a partition's job: the lowest member of its Form that its links reach, in no rank of the job and
not absent (DESIGN CHOICE, log entry 96); none without SPARES. -/
def State.nextSpare (s : State) (p : Nat) : Option Nat :=
  let part := s.part p
  if part.satchel.spares = 0 then none
  else ((upFrom (s.form.form * 64) 64).find? fun d =>
    (d == s.self || !(s.portsTo d).isEmpty) && !part.jobDevices.contains d && !s.form.absent.contains d)

/-- A fill of a rank into a device begun from the first source of its target (R333): a replica at the current boundary, order 2 of Table 6. -/
def Part.startFill (part : Part) (rank dev : Nat) (auto : Bool) : Part :=
  { part with spareFill := some (rank, 2, part.setPages), fillDev := some dev, fillAuto := auto, fillRec := false }

/-- A spare taken for a rank: one fewer is left, and its fill begins. -/
def State.spareInto (s : State) (p rank : Nat) : State :=
  match s.nextSpare p with
  | none => s
  | some d => s.modPart p fun part =>
      { part.startFill rank d true with satchel := { part.satchel with spares := part.satchel.spares - 1 } }

/-- With SPARES set, the Prefect starts the fill of an absent member's rank itself (R333), and the Deputy keeps the same (R312); the next spare takes the
place of a destination that leaves (R334). -/
def State.autoFill (s : State) (d : Nat) : State :=
  if !(s.isPrefect || s.isDeputy) then s
  else s.partList.foldl (fun s p =>
    let part := s.part p
    match part.spareFill with
    | some (rank, _, _) => if part.fillDev == some d then s.spareInto p rank else s
    | none => if part.ranks.contains d then s.spareInto p (part.ranks.idxOf d) else s) s

/-- A member declared absent (R315): ABSENT is set in its note, and HOLD goes to every device of every job that holds it, through the Head Prefect
to other Forms. -/
def State.declareAbsent (s : State) (d : Nat) : State :=
  let key := s.absenceKey d
  let s := if s.form.notes.any (fun e => e.1.key == key) then s
    else s.noteIn { key := key, reporter := s.self, count := 1, first := s.slot, last := s.slot }
  let s := { s with form := { s.form with
    notes := s.form.notes.map fun (e : Note × Nat × Option Nat × Nat) => if e.1.key = key then ({ e.1 with absent := true }, e.2) else e
    absent := addOnce s.form.absent d, probes := tset 0 s.form.probes d 0 } }
  let n : Note := match s.form.notes.find? fun e => e.1.key == key with
    | some e => e.1
    | none => { key := key, absent := true, reporter := s.self, count := 1, first := s.slot, last := s.slot }
  let hold : Packet := { cls := 0x20, ctl := some (.hold n) }
  let s := s.sendPackets (s.holdTargets d) hold
  let s := if s.isHead then s.sendPackets s.prefects hold else s.sendPackets (s.form.head.toList.filter (· != s.self)) hold
  (s.holdSteps n).autoFill d

/-- MEMBER_ABSENT (R315): a suspected member has answered no probe for four beats in a row. -/
def execMemberAbsent (dev : Nat) (s : State) : Host.Outcome State Fault Refusal :=
  .next (if s.isPrefect && decide (dev ∈ s.suspects) && decide (4 ≤ tget 0 s.form.probes dev) then s.declareAbsent dev else s)

/-- HOLD (R315, R316): the running step of every job that holds the absent device ends, and a Prefect passes HOLD on. -/
def execHold (s : State) : Host.Outcome State Fault Refusal :=
  .next (match takeCtl FormCtl.isHold s.pktIn with
    | some ((_, k), rest) =>
      let s := { s with pktIn := rest }
      (match k.ctl with
      | some (.hold n) =>
        let s := { s with form := { s.form with absent := addOnce s.form.absent n.key.dev } }
        let hold : Packet := { cls := 0x20, ctl := some (.hold n) }
        let s := if s.isPrefect && k.src / 64 != s.form.form then s.sendPackets (s.holdTargets n.key.dev) hold else s
        let s := if s.isHead && s.isPrefect then s.sendPackets (s.prefects.filter (· != k.src)) hold else s
        (s.holdSteps n).autoFill n.key.dev
      | _ => s)
    | none => s)

end Sys2Proof.Machine
end

