-- ==== Sys2Proof/Machine/Routes.lean ====
section
/-! DEFINITION. The paths of the scalar and vector networks through the router settings of a section (R188, R189, R218), and what a seating plan
puts on them (R216 to R218). -/

namespace Sys2Proof.Machine

open Sys2Proof

/-- Bypassed routers that a hop of logical core `c` by output port `o` crosses (R215, R216): those between the two sites of a hop along a row, or between
its site and the edge router at the row's end. A vertical hop joins two sites directly. -/
def State.bypassCost (s : State) (failed : Nat → List Nat) (c o : Nat) : Nat :=
  let r := c / 48
  let col := c % 48
  let a := physicalCol col (failed r)
  let crossed (x : Nat) : Bool :=
    if o = 2 then decide (a < x) && (col == 47 || decide (x < physicalCol (col + 1) (failed r)))
    else if o = 3 then decide (x < a) && (col == 0 || decide (physicalCol (col - 1) (failed r) < x))
    else false
  ((failed r).filter fun x => crossed x && (s.site (r * 50 + x)).bypassed).length

/-- Bypassed routers that a path crosses. -/
def trailCost (cost : Nat → Nat → Nat) (x : Trail) : Nat := (x.2.map fun h => cost h.1 h.2).sum

/-- The configurations of a section in which a route is active. -/
def routeConfigs (r : Nat) : List Nat := (upFrom 0 64).filter fun c => routeActive r c

/-- Where a route's words come out: its core, or, for a link stream, the edge router of its port (R205). -/
def routeEnd (cfg : CoreCfg) (e : Nat) : Nat :=
  let d := cfgDest cfg e
  if 4096 ≤ d then 1536 + (d / 4096 - 1) / 2 else d

/-- Cost of the dearest path that a section's routes and vector streams take to their destinations. -/
def secWorst (sec : Section) (cost : Nat → Nat → Nat) : Nat :=
  let routes := sec.cores.flatMap fun k =>
    (k.2.edges.map Prod.fst).flatMap fun e =>
      if edgeLocal (tget 0 k.2.edges e).toNat then []
      else
        let r := cfgRoute k.2 e
        (routeConfigs r).flatMap fun cfg =>
          ((secPaths sec false cfg (routePhase r) k.1).filter fun x => x.1 == routeEnd k.2 e).map (trailCost cost)
  let streams := sec.streams.flatMap fun e =>
    let x := e.2.toNat
    if stKind x = 3 then
      ((upFrom 0 16).filter (stPhase x)).flatMap fun ph =>
        ((secPaths sec true (stConfig x) ph (stSource x)).filter fun y => decide (y.1 ∈ stRect x) || decide (1536 ≤ y.1)).map (trailCost cost)
    else []
  (routes ++ streams).foldl max 0

/-- Bypassed routers on the bell-tree path from the control root of a partition whose lowest row is `r0` to a core: from the west edge router into column 0,
along it, and then east (R202). -/
def State.bellCost (s : State) (failed : Nat → List Nat) (r0 c : Nat) : Nat :=
  s.bypassCost failed (48 * r0) 3 + ((upFrom 0 (c % 48)).map fun k => s.bypassCost failed (c / 48 * 48 + k) 2).sum

/-- Whether a seating plan makes some route, stream or bell-tree path of a partition's loaded image cross two bypassed routers (R217). -/
def State.crossesTwo (s : State) (p : Nat) (failed : Nat → List Nat) : Bool :=
  match (s.part p).image with
  | none => false
  | some im =>
    im.sections.any fun sec =>
      decide (2 ≤ secWorst sec (s.bypassCost failed)) || (sec.cores.map Prod.fst).any fun c => decide (2 ≤ s.bellCost failed (4 * p) c)

/-- The logical position whose core sits at a site, if one does (R213). -/
def State.coreAt (s : State) (x : Nat) : Option Nat :=
  (upFrom (x / 50 * 48) 48).find? fun c => s.siteOf c == x

/-- Whether a seated route of the running section crosses the router of a site (R316, R317): the router of a seated position drives something,
or a hop along the row passes over a position-less site. -/
def State.routerUsed (s : State) (x : Nat) : Bool :=
  let p := s.partOfSite x
  let sec := (s.part p).sec
  let moves (c o : Nat) : Bool := sec.settings.any fun r => r.core == c && (r.vec ++ r.scal).any fun e => e.1 == o
  match s.coreAt x with
  | some c => sec.settings.any fun r => r.core == c && !(r.vec.isEmpty && r.scal.isEmpty)
  | none =>
    let first := x / 50 * 48
    (decide (x < s.siteOf first) && moves first 3) || (decide (s.siteOf (first + 47) < x) && moves (first + 47) 2) ||
    (upFrom first 47).any fun c =>
      decide (s.siteOf c < x) && decide (x < s.siteOf (c + 1)) && (moves c 2 || moves (c + 1) 3)

end Sys2Proof.Machine
end

