-- ==== Sys2Proof/Machine/Repairs.lean ====
section
/-! DEFINITION. Repair on the die (R317 to R320), HBM repair, sparing and fencing (R240 to R243), the scrubs (R232, R424, R425), the attention pipe
check (R171), and the Caretaker's duty records (R423, R429). -/

namespace Sys2Proof.Machine

open Sys2Proof

/-! ### Duties (Table 6 and Table 7 of chapter 15) -/

/-- Default period of a duty, in the unit of its record: ms, and 0.125 °C for HBM interface retraining. -/
def defaultPeriod (code : Nat) : Nat :=
  match code with
  | 2 => 1 | 3 => 1000 | 4 => 80 | 5 => 2000 | 6 => 3600000 | 7 => 86400000 | 8 => 86400000 | 9 => 86400000
  | 10 => 60000 | 11 => 3600000 | 12 => 86400000 | _ => 0

/-- A duty's record. -/
def State.duty (s : State) (code : Nat) : Duty := tget { period := defaultPeriod code } s.care.duties code

/-- A duty's record changed. -/
def State.modDuty (s : State) (code : Nat) (f : Duty → Duty) : State :=
  { s with care := { s.care with duties := tmod { period := defaultPeriod code } s.care.duties code f } }

/-- A duty has dealt with unit `n` of `total`; with the last one its pass is complete. A duty goes over its units in ascending number (DESIGN
CHOICE, entry 27). -/
def State.dutyStep (s : State) (code n total : Nat) : State :=
  s.modDuty code fun d =>
    if n + 1 < total then { d with progress := (n + 1) * 65536 / total } else { d with progress := 0, lastDone := s.tick }

/-- One action of a duty counted. -/
def State.dutyEvent (s : State) (code : Nat) : State := s.modDuty code fun d => { d with events := satInc32 d.events }

/-! ### Fenced sites and bypassed routers (R317 to R319) -/

/-- A repair record written to flash (R320). -/
def State.addRepair (s : State) (r : Repair) : State := { s with sec := { s.sec with repairs := addOnce s.sec.repairs r } }

/-- The key of a note that this device's report of a failure opens (R313). -/
def State.keyOf (s : State) (kind unit cls p : Nat) : NoteKey :=
  let part := s.part p
  { dev := s.self, kind := kind, unit := unit, cls := cls, epoch := if part.job = .none then 0 else part.layoutEpoch }

/-- Failed columns of a row under the seating plan that waits for the next switch slot, or that holds now (R319). -/
def Part.plan (part : Part) (r : Nat) : List Nat :=
  match tget [] part.failedNext r with
  | [] => tget [] part.failed r
  | l => l

/-- A failed column put in ascending order among a row's. -/
def insertCol (l : List Nat) (c : Nat) : List Nat :=
  if c ∈ l then l else l.filter (fun x => decide (x < c)) ++ [c] ++ l.filter (fun x => decide (c < x))

/-- The partition leaves every job (R318): reported, its running step ends, and no job is loaded on it again. -/
def State.leaveJobs (s : State) (p unit cls : Nat) : State :=
  let key := s.keyOf 3 unit cls p
  ((s.report 3 unit cls p).modPart p fun part => { part with left := true }).endFenced p key

/-- A failed site taken out of its row's seating plan (R213, R318, R319). -/
def State.failSite (s : State) (x : Nat) : State :=
  let p := s.partOfSite x
  let r := x / 50
  let part := s.part p
  let plan := insertCol (part.plan r) (x % 50)
  if 3 ≤ plan.length then s.leaveJobs p (siteUnit x) 0x11
  else if s.crossesTwo p (fun k => if k = r then plan else part.plan k) then s.leaveJobs p (siteUnit x) 0x13
  else s.modPart p fun part => { part with failedNext := tset [] part.failedNext r plan }

/-- A core site fenced (R317): recorded and reported with class 0x10; where it was seated the running step ends. -/
def State.fenceSite (s : State) (x : Nat) : State :=
  if (s.site x).fenced then s
  else
    let p := s.partOfSite x
    let at' := s.coreAt x
    let seated := match at' with | some c => (s.core c).seated | none => false
    let key := s.keyOf 3 (siteUnit x) 0x10 p
    let s := (s.modSite x fun t => { t with fenced := true, corrected := [] }).addRepair { kind := 0, a := x / 50, b := x % 50 }
    let s := s.report 3 (siteUnit x) 0x10 p
    let s := match at' with
      | some c => (s.zeroProducers c).modCore c fun core => core.unpowered .fenced
      | none => s
    let s := s.failSite x
    if seated then s.endFenced p key else s

/-- A router marked bypassed (R216, R317): recorded and reported with class 0x12; where its site was seated or a seated route crossed it, the running
step ends. -/
def State.bypassRouter (s : State) (x : Nat) : State :=
  if (s.site x).bypassed then s
  else
    let p := s.partOfSite x
    let seated := match s.coreAt x with | some c => (s.core c).seated | none => false
    let used := seated || s.routerUsed x
    let key := s.keyOf 3 (siteUnit x) 0x12 p
    let s := (s.modSite x fun t => { t with bypassed := true, missed := 0 }).addRepair { kind := 1, a := x / 50, b := x % 50 }
    let s := (s.report 3 (siteUnit x) 0x12 p).failSite x
    if used then s.endFenced p key else s

/-- CORE_SITE_FENCE (R317). -/
def execCoreSiteFence (x : Nat) (cause : FenceCause) (s : State) : Host.Outcome State Fault Refusal :=
  .next (match cause with
    | .corrected => if 8 ≤ (s.site x).corrected.length then s.fenceSite x else s
    | _ => s.fenceSite x)

/-- ROLL_CALL_TIMEOUT (R317): a roll call not complete within 64 µs. -/
def execRollCallTimeout (c : Nat) (s : State) : Host.Outcome State Fault Refusal :=
  .next (match (s.core c).rollCall with
    | some t => if !(s.core c).valid && decide (t + 76800 ≤ s.slot) then s.fenceSite (s.siteOf c) else s
    | none => s)

/-- ROUTER_PROBE (R317, R423): a router that misses two probes is bypassed. -/
def execRouterProbe (x : Nat) (answered : Bool) (s : State) : Host.Outcome State Fault Refusal :=
  .next (if !s.power.mainOn then s
    else
      let s := s.dutyStep 3 x 1600
      let n := if answered then 0 else (s.site x).missed + 1
      let s := s.modSite x fun t => { t with missed := n }
      if 2 ≤ n then (s.bypassRouter x).dutyEvent 3 else s)

/-- ROUTER_PARITY_FAILURE (R317). -/
def execRouterParityFailure (x : Nat) (s : State) : Host.Outcome State Fault Refusal := .next (s.bypassRouter x)

/-- SITE_RETEST (R317, R423): an unseated site that fails its retest is fenced. -/
def execSiteRetest (x : Nat) (pass : Bool) (s : State) : Host.Outcome State Fault Refusal :=
  let seated := match s.coreAt x with | some c => (s.core c).seated | none => false
  .next (if !s.power.mainOn || seated then s
    else
      let s := s.dutyStep 9 x 1600
      if pass then s else (s.fenceSite x).dutyEvent 9)

/-- A check of a site's attention pipe and cache stage (R171): the pipe's outcome takes effect at the next close-section bell, and a cache stage that
fails fences the site. -/
def State.attnCheck (s : State) (x : Nat) (same cache : Bool) : State :=
  let gen := match s.coreAt x with | some c => (s.core c).gen | none => 0
  let p := s.partOfSite x
  let s := s.modSite x fun t =>
    { t with checkGen := gen, pipeOk := same, cacheOk := cache, checks := t.checks + 1
             fusedNext := if same then (if t.fusedHeld then t.fusedNext else some false) else some true
             fusedHeld := t.fusedHeld || !same }
  let s := if same then s else (s.report 3 (siteUnit x) 0x14 p).addRepair { kind := 4, a := x / 50, b := x % 50 }
  if cache then s else s.fenceSite x

/-- A gated core powered for a check of its pipe, and gated again after it (R171): leaving the gated state raises its generation (R95). -/
def State.powerForCheck (s : State) (x : Nat) : State :=
  match s.coreAt x with
  | some c => if (s.core c).power == .gated then s.modCore c fun core => { core with gen := (core.gen + 1) % 256 } else s
  | none => s

/-- ATTENTION_PIPE_CHECK (R171), while the core is unseated. -/
def execAttentionPipeCheck (x : Nat) (same : Bool) (cache : Bool) (s : State) : Host.Outcome State Fault Refusal :=
  let seated := match s.coreAt x with | some c => (s.core c).seated | none => false
  .next (if !s.power.mainOn || seated || (s.site x).fenced then s
    else
      let s := ((s.powerForCheck x).dutyStep 8 x 1600).attnCheck x same cache
      if same && cache then s else s.dutyEvent 8)

/-! ### HBM (R240 to R243) -/

/-- The stored lines of a stack that lie in a row. -/
def Stack.rowLines (st : Stack) (pc bank row : Nat) : SMap HbmLine :=
  st.lines.filter fun e =>
    let x := (scrubPlace e.1).1
    rowKey x.1 x.2.1 x.2.2.2 == rowKey pc bank row

/-- Whether a line shows a detected uncorrectable error. -/
def lineBad (l : HbmLine) : Bool := match decodeLine l with | .bad => true | _ => false

/-- Whether a row needs repair (R241): corrected errors at two or more lines within the scrub window, or an uncorrectable error. -/
def Stack.rowDue (st : Stack) (pc bank row : Nat) : Bool :=
  decide (2 ≤ (tget [] st.rowErrs (rowKey pc bank row)).length) || (st.rowLines pc bank row).any fun e => lineBad e.2

/-- A line's correctable errors corrected; an uncorrectable line stays as stored. -/
def corrected (l : HbmLine) : HbmLine := match decodeLine l with | .corrected l' => l' | _ => l

/-- ROW_REPAIR (R241). -/
def execRowRepair (h : Nat) (pc : Nat) (bank : Nat) (row : Nat) (s : State) : Host.Outcome State Fault Refusal :=
  let st := s.stack h
  .next (if !s.power.fwReady || st.st == .fenced || !st.rowDue pc bank row then s
    else
      let s := s.setStack h { st with
        lines := (st.rowLines pc bank row).foldl (fun m e => tset {} m e.1 (corrected e.2)) st.lines
        rowErrs := tset [] st.rowErrs (rowKey pc bank row) []
        rowsRepaired := tmod 0 st.rowsRepaired (st.physical pc (row * 256)) fun n => min (n + 1) 65535 }
      (s.addRepair { kind := 2, a := h, b := pc * 64 + bank, c := row }).report 2 h 0x20 (s.partOfStack h))

/-- A stack fenced (R243): its frames are lost, and the partition's running step ends. -/
def State.fenceStack (s : State) (h : Nat) : State :=
  if (s.stack h).st == .fenced then s
  else
    let p := s.partOfStack h
    let key := s.keyOf 2 h 0x22 p
    ((s.modStack h fun st => { st with st := .fenced }).report 2 h 0x22 p).endFenced p key

/-- A logical pseudo-channel spared: its copy to the spare begins, or, where the spare is in use already, the stack is fenced (R242, R243). -/
def State.spareChannel (s : State) (h pc : Nat) : State :=
  let st := s.stack h
  if st.st == .normal then
    (s.setStack h { st with st := .sparing, spareFor := pc, cursor := 0 }).report 2 h 0x21 (s.partOfStack h)
  else if st.st == .sparing && st.spareFor == pc then s
  else s.fenceStack h

/-- Whether a pseudo-channel needs sparing by its errors (R242): 256 corrected errors in the hour window, or a row that needs repair. -/
def Stack.channelDue (st : Stack) (pc : Nat) : Bool :=
  decide (256 ≤ tget 0 st.hourErrs pc)
    || st.rowErrs.any (fun e => e.1 / (64 * 24576) == pc && decide (2 ≤ e.2.length))
    || st.lines.any fun e => (scrubPlace e.1).1.1 == pc && lineBad e.2

/-- PSEUDO_CHANNEL_SPARING (R242): 256 corrected errors in an hour, or a row that needs repair and no resource left for it. -/
def execPseudoChannelSparing (h : Nat) (pc : Nat) (s : State) : Host.Outcome State Fault Refusal :=
  .next (if s.power.fwReady && (s.stack h).channelDue pc then s.spareChannel h pc else s)

/-- SPARE_COPY_COMPLETE (R242): the sparing map sends the logical channel to the spare. -/
def execSpareCopyComplete (h : Nat) (s : State) : Host.Outcome State Fault Refusal :=
  let st := s.stack h
  .next (if st.st == .sparing then
      (s.setStack h { st with st := .spare, cursor := 6291456, hourErrs := tset 0 st.hourErrs st.spareFor 0
                              rowErrs := st.rowErrs.filter fun e => e.1 / (64 * 24576) != st.spareFor }).addRepair
        { kind := 3, a := h, b := st.spareFor }
    else s)

/-- PSEUDO_CHANNEL_UNRESPONSIVE (R243): a pseudo-channel stops responding before or during its copy. -/
def execPseudoChannelUnresponsive (h : Nat) (pc : Nat) (s : State) : Host.Outcome State Fault Refusal :=
  .next (if (s.stack h).st == .spare && (s.stack h).spareFor == pc then s else s.fenceStack h)

/-- The page of a partition of which a frame of a stack holds the present or the boundary version (R221, R321). -/
def State.pageOfFrame (s : State) (h f : Nat) : Option Nat :=
  let p := s.partOfStack h
  ((s.part p).pages.find? fun e => s.stackOfPage p e.1 == h
    && ((e.2.frame == f && (e.2.st == .hbm || e.2.st == .inn || e.2.st == .out)) || e.2.boundary == some f)).map Prod.fst

/-- A line of no page as scrub leaves its stack: corrected, or its error counted (R240). -/
def Stack.scrubFree (st : Stack) (line : Nat) : Decoded → Stack
  | .corrected l => st.correct line l
  | .bad => { st with ue := bump st.ue (st.physical (scrubPlace line).1.1 (scrubPlace line).2) }
  | .clean => st

/-- A line of page `pg` as scrub leaves it, by what its read comes to: stored anew where its key is an old one; a failed read is logged (R240, R255). -/
def State.scrubPage (s : State) (h p pg addr line : Nat) (x : Stack × HbmRead) : State :=
  match x.2 with
  | .ok b =>
    let part := s.part p
    let l : HbmLine := tget {} x.1.lines line
    s.setStack h (if l != {} && l.keyId.toNat != part.keyGen % 32 then
      { x.1 with lines := tset {} x.1.lines line (part.sealLine p addr (packLine b)) } else x.1)
  | .fail c => (s.setStack h x.1).modPart p fun part => part.logFailure 1 pg c

/-- Scrub's read of a line of a stack (R239, R240): a line of a page is checked like any other and, where it passes, written again under the current key
generation; a line of no page is decoded. A failure is counted and logged (R255). -/
def State.scrubLine (s : State) (h line : Nat) : State :=
  let st := s.stack h
  let p := s.partOfStack h
  match s.pageOfFrame h (line / 32768) with
  | none => s.setStack h (st.scrubFree line (decodeLine (tget {} st.lines line)))
  | some pg =>
    let addr := pg * pageBytes + line % 32768 * 64
    s.scrubPage h p pg addr line (st.read (s.part p) p addr line)

/-- HBM_SCRUB (R240): a line of a stack, the spare's included, with what the read meets there (R233). Lines of the old channel of a stack whose spare is in
use are read no more (R242). -/
def execHbmScrub (h : Nat) (line : Nat) (ev : HbmEvent) (s : State) : Host.Outcome State Fault Refusal :=
  let st := s.stack h
  .next (if !s.power.mainOn || st.st == .fenced then s
    else
      let done := (line + 1) * 65536 / stackLines
      let old := st.ce
      let s := s.setStack h { st.meet line 1 ev with asleep := false, touched := true, progress := done }
      let s := if line / 32768 ≥ framesPerStack && (st.st == .spare || st.st == .sparing) then s
        else if 2 ≤ ev.parity then s.modStack h fun st => st.parityFails line 1
        else s.scrubLine h line
      let s := if (s.stack h).ce == old then s else s.dutyEvent 7
      let s := s.modDuty 7 fun d => { d with progress := done % 65536 }
      if (upFrom 0 32).all fun k => (s.stack k).st == .fenced || (s.stack k).progress == 65536 then
        s.modDuty 7 fun d => { d with lastDone := s.tick }
      else s)

/-- Units of the SRAM scrub: core sites, then slices. -/
def sramUnits : Nat := 1856

/-- What SRAM scrub does with an error in a line of a slice (R232): 1 corrected, 2 uncorrectable. -/
def Slice.scrubLine (sl : Slice) (line sub err : Nat) : Slice :=
  let l := tget {} sl.lines line
  if err = 1 then { sl with counts := bump sl.counts 5 }
  else if l == {} || !l.valid.getD sub false then sl
  else if l.shadow.isNone && !l.anyDirty then
    { sl with lines := sl.lines.filter (fun e => e.1 != line), counts := bump sl.counts 6 }
  else { sl with lines := tset {} sl.lines line { l with bad := addOnce l.bad sub } }

/-- SRAM_SCRUB (R423, R425): err 0 none, 1 corrected, 2 uncorrectable. Gated cores are skipped; an uncorrectable error fences a site (R317), and in a
slice goes by the state of the line (R232). -/
def execSramScrub (target : Sram) (err : Nat) (s : State) : Host.Outcome State Fault Refusal :=
  .next (if !s.power.mainOn then s
    else
      match target with
      | .site x addr =>
        let s := s.dutyStep 6 x sramUnits
        let powered := match s.coreAt x with
          | some c => (s.core c).power == .running || (s.core c).power == .clockStop
          | none => false
        if !powered || err = 0 then s
        else if err = 1 then
          let s := (s.modSite x fun t => { t with corrected := addOnce t.corrected addr }).dutyEvent 6
          if 8 ≤ (s.site x).corrected.length then s.fenceSite x else s
        else s.fenceSite x
      | .sliceLine k line sub =>
        let s := s.dutyStep 6 (1600 + k) sramUnits
        let s := s.modSlice k fun sl => { sl with asleep := false, touched := true }
        if err = 0 then s else (s.modSlice k fun sl => sl.scrubLine line sub err).dutyEvent 6
      | .pinLine k byte =>
        let s := s.dutyStep 6 (1600 + k) sramUnits
        let s := s.modSlice k fun sl => { sl with asleep := false, touched := true }
        if err = 0 then s
        else if err = 1 then (s.modSlice k fun sl => { sl with counts := bump sl.counts 5 }).dutyEvent 6
        else s.modSlice k fun sl => { sl with pinBad := addOnce sl.pinBad (byte / 64) })

/-- SCRUB_WINDOW_END (R424): the hour window of SRAM scrub or the 24-hour window of HBM scrub ends; a pass that is unfinished is counted as missed and
goes on. -/
def execScrubWindowEnd (hbm : Bool) (s : State) : Host.Outcome State Fault Refusal :=
  let now := s.tick / (if hbm then 2160000000000 else 90000000000)
  let miss (s : State) (code : Nat) : State :=
    ({ s with care := { s.care with flagScrub := true } }).modDuty code fun d => { d with missed := satInc32 d.missed }
  .next (if hbm then
      if s.care.dayWindow = now then s
      else
        let whole := (upFrom 0 32).all fun k => (s.stack k).st == .fenced || (s.stack k).progress == 65536
        let s := { s with care := { s.care with dayWindow := now } }
        let s := { s with hbm := (upFrom 0 32).foldl (fun m k => tmod {} m k fun st =>
          { st with rowErrs := [], passes := (st.passes + 1) % 65536, progress := if st.progress = 65536 then 0 else st.progress }) s.hbm }
        if whole then s else miss s 7
    else if s.care.hourWindow = now then s
    else
      let whole := decide (90000000000 * s.care.hourWindow ≤ (s.duty 6).lastDone) && decide (0 < (s.duty 6).lastDone)
      let s := { s with
        care := { s.care with hourWindow := now }
        sites := (upFrom 0 1600).foldl (fun m k => if tget {} m k == {} then m else tmod {} m k fun t => { t with corrected := [] }) s.sites
        hbm := (upFrom 0 32).foldl (fun m k => tmod {} m k fun st => { st with hourErrs := [] }) s.hbm }
      if whole then s else miss s 6)

end Sys2Proof.Machine
end

