-- ==== Sys2Proof/Machine/PowerOps.lean ====
section
/-! DEFINITION. Shared operations of power and faults: the main rails going off (R422, R442), the fault phase (R422, R441), the cooling class
(R419, R438), and commands that end for a fault. -/

namespace Sys2Proof.Machine

open Sys2Proof

/-- The cooling class in force (R438): the strapped one, or 0b11 where the strap word is not valid. -/
def State.coolClass (s : State) : Nat := if s.power.strapValid then bits s.power.straps.toNat 16 2 else 3

/-- The engines' duty ceiling in eighths (R419). -/
def State.ceiling (s : State) : Nat := 8 - s.coolClass

/-- Duty of a sensor group's engines in eighths (R420, R421). -/
def State.dutyOf (s : State) (grp : Nat) : Nat := s.ceiling - tget 0 s.care.lowered grp

/-- Every command that is still at work ended with a status. -/
def State.endCommands (s : State) (status : Nat) : State :=
  s.rings.foldl (fun s r =>
    (r.2.inflight.filter fun c => c.running && !c.done).foldl (fun s c => s.finishStatus r.1 c.tag status) s) s

/-- What a partition keeps when the main rails go off: quotas and far-tier attachments, which firmware records, and its TDISP state. Its job, memory
keys and allocations are gone (R442; what is kept is a DESIGN CHOICE, entry 28). -/
def Part.powerOff (part : Part) : Part :=
  { ({} : Part) with quota := part.quota, backends := part.backends, exports := part.exports, tdi := part.tdi, lastStatus := part.lastStatus }

/-- What a stack keeps when the main rails go off: the rows repaired since manufacture, and its fence, which stands until the module is serviced
(R243). -/
def Stack.powerOff (st : Stack) : Stack :=
  { ({} : Stack) with rowsRepaired := st.rowsRepaired, st := if st.st == .fenced then .fenced else .normal }

/-- The main rails off (R442): running steps end with HW_FAULT, every partition returns to NONE, the memory keys are destroyed, and the array, the
fabric, HBM, the links and the Form are as before start-up step 5. -/
def State.mainOff (s : State) : State :=
  let s := s.partList.foldl (fun s p => s.endStep p stHwFault) s
  let s := s.endCommands stHwFault
  { s with
    parts := s.parts.foldl (fun m e => tset {} m e.1 e.2.powerOff) s.parts
    hbm := s.hbm.foldl (fun m e => tset {} m e.1 e.2.powerOff) s.hbm
    cores := [], sites := [], slices := [], cloaks := [], edges := [], ports := [], beat := {}, form := {}, bellIn := [], pktIn := []
    care := { s.care with lowered := [], limited := [], throttle := [], shed := [], lasersOff := [] }
    power := { s.power with mainOn := false, computeReady := false } }

/-- A level driven or released on a pin. -/
def State.drive (s : State) (name : String) (level : Bool) : State := s.put (.pin name level)

/-- Whether start-up has passed step 4, whose end sets FW_READY (R447); a firmware restart does not undo it. -/
def Power.pastStep4 (w : Power) : Bool := decide (5 ≤ w.stage) || (w.stage == 4 && (w.fwReady || w.restartCause != 0))

/-- SEAT_OUT put at its level (R439): high in the run phase with start-up past step 4. -/
def State.settleSeat (s : State) : State :=
  let v := s.power.phase == .run && s.power.pastStep4
  if s.power.seatOut == v then s else ({ s with power := { s.power with seatOut := v } }).drive "SEAT_OUT" v

/-- The fault frame of a class at a boot stage (R441). -/
def faultFrame (cls stage : Nat) : BitVec 16 :=
  let body := cls % 256 + stage % 16 * 2 ^ 8
  let ones := ((upFrom 0 12).filter fun k => bit body k).length
  BitVec.ofNat 16 (body * 2 + (if ones % 2 = 0 then 1 else 0) * 2 ^ 13 + 3 * 2 ^ 14)

/-- The fault phase entered (R422, R441): the main regulators go off, PF0's device-fault cause is set, and MP2 sends the fault frame. The module does
not restart on its own. -/
def State.enterFault (s : State) (cls : Nat) : State :=
  if s.power.phase == .fault then s
  else
    let s := s.raise 0 9
    let s := s.mainOff
    let s := { s with power := { s.power with phase := .fault, faultClass := cls } }
    (s.settleSeat).put (.faultFrame (faultFrame cls s.power.stage))

/-- A cartridge's lasers turned off (R421, R445): its four ports go down. -/
def State.cartridgeDark (s : State) (c : Nat) : State := (upFrom (4 * c) 4).foldl (fun s l => s.portDown l) s

end Sys2Proof.Machine
end

