-- ==== Sys2Proof/Machine/Caretaker.lean ====
section
/-! DEFINITION. The Caretaker's calibrations (R426 to R428), sleep states (R413, R415), engine limits (R417, R418), and telemetry windows (R421,
R422, R430, R431). -/

namespace Sys2Proof.Machine

open Sys2Proof

/-! ### Calibration (R426 to R428) -/

/-- HBM_INTERFACE_RETRAINING (R426): once a stack's temperature has moved by the set drift, its interface is retrained; a pseudo-channel that fails is
spared. -/
def execHbmInterfaceRetraining (h : Nat) (pc : Nat) (ok : Bool) (s : State) : Host.Outcome State Fault Refusal :=
  let now := tget 0 s.care.latest (192 + h)
  .next (if !s.power.mainOn || (s.stack h).st == .fenced || decide ((now - (s.stack h).trainedAt).natAbs < (s.duty 4).period) then s
    else
      let s := (s.modStack h fun st => { st with trainedAt := now, asleep := false, touched := true }).dutyEvent 4
      let s := s.modDuty 4 fun d => { d with lastDone := s.tick }
      if ok then s else s.spareChannel h pc)

/-- OPTICAL_RECALIBRATION (R427): a port that does not converge within three periods has the lane concerned treated as failed. -/
def execOpticalRecalibration (l : Nat) (lane : Nat) (converged : Bool) (s : State) : Host.Outcome State Fault Refusal :=
  .next (if !s.power.mainOn || decide (l / 4 ∈ s.power.cartsOut) then s
    else
      let s := s.dutyStep 5 l 64
      if converged then s.modPort l fun x => { x with cal := true, unconverged := 0 }
      else
        let n := (s.port l).unconverged + 1
        if n < 3 then s.modPort l fun x => { x with unconverged := n }
        else ((s.modPort l fun x => { x with unconverged := 0 }).dutyEvent 5).laneFails l lane)

/-- LASER_AGEING (R427): bias currents recorded, and a note of class 0x32 at 1.5 times that of first use. -/
def execLaserAgeing (cart : Nat) (bias : Nat) (s : State) : Host.Outcome State Fault Refusal :=
  .next (if !s.power.mainOn || decide (cart ∈ s.power.cartsOut) then s
    else
      let s := s.dutyStep 10 cart 16
      let first := tget 0 s.care.biasFirst cart
      let first := if first = 0 then bias else first
      let s := { s with care := { s.care with biasFirst := tset 0 s.care.biasFirst cart first, bias := tset 0 s.care.bias cart bias } }
      if 3 * first ≤ 2 * bias then (s.dutyEvent 10).report 1 (4 * cart) 0x32 (s.partOfPort (4 * cart)) else s)

/-- THERMAL_SENSOR_CALIBRATION (R428): an offset of a core-array or edge-band sensor is stored when it has moved by less than 2 °C. -/
def execThermalSensorCalibration (sensor : Nat) (offset : Int) (s : State) : Host.Outcome State Fault Refusal :=
  .next (if !s.power.mainOn || decide (192 ≤ sensor) then s
    else
      let s := s.dutyStep 11 sensor 192
      let old := tget 0 s.care.offsets sensor
      if (offset - old).natAbs < 16 then
        ({ s with care := { s.care with offsets := tset 0 s.care.offsets sensor offset } }).dutyEvent 11
      else { s with care := { s.care with flagCalib := true } })

/-- FLASH_WEAR_LEVELLING (R423): run by firmware. -/
def execFlashWearLevelling (s : State) : Host.Outcome State Fault Refusal :=
  .next (if s.power.fwReady then s.modDuty 12 fun d => { d with lastDone := s.tick, progress := 0 } else s)

/-! ### Engine limits and rails (R417, R418) -/

/-- ENGINE_CURRENT_LIMIT (R417): a rail's current monitor withholds or releases the pulses of a group's engines. -/
def execEngineCurrentLimit (grp : Nat) (hot : Bool) (s : State) : Host.Outcome State Fault Refusal :=
  .next (if decide (grp ∈ s.care.limited) == hot then s
    else { s with care := { s.care with
      limited := if hot then addOnce s.care.limited grp else s.care.limited.filter (· != grp), flagThrottle := true } })

/-- PHASE_SHED (R418): a spare takes the share of a phase that is shed; a third loss is a fatal device fault. -/
def execPhaseShed (rail : Nat) (s : State) : Host.Outcome State Fault Refusal :=
  .next (if !s.power.mainOn then s
    else if tget 0 s.care.shed rail < 2 then
      { s with care := { s.care with shed := tmod 0 s.care.shed rail (· + 1), flagShed := true } }
    else s.enterFault 0x61)

/-! ### Sleep (R413 to R415) -/

/-- The port on which a parked port's peer is told to wake (R415): another live link to it, or one to the Prefect. -/
def State.wakeVia (s : State) (l peer : Nat) : Option Nat :=
  match (s.portsTo peer).find? fun k => k != l && !(s.port k).parked with
  | some k => some k
  | none => (s.portsTo s.form.prefect).find? fun k => k != l && !(s.port k).parked

/-- A parked port woken (R415): at the peer's word, which FORM_CONTROL has brought, or of itself, and then the peer is told. -/
def State.wakePort (s : State) (l : Nat) : State :=
  let x := s.port l
  if !x.parked then s
  else
    let s := s.modPort l fun x => { x with parked := false, flit := flitFrom x.onThree s.slot, idle := false }
    match takeFirst (fun (y : Nat × Packet) => y.2.src == x.peer && y.2.ctl == some .wake) s.pktIn with
    | some (_, rest) => { s with pktIn := rest }
    | none =>
      match s.wakeVia l x.peer with
      | some k => s.queuePacket k { cls := 0x20, dest := x.peer, ctl := some .wake }
      | none => s

/-- BLOCK_WAKE (R413, R414). -/
def execBlockWake (b : Block) (s : State) : Host.Outcome State Fault Refusal :=
  .next (match b with
    | .clockTree p => s.modPart p fun part => { part with treeStopped := false }
    | .slice k => s.modSlice k fun sl => { sl with asleep := false, touched := true }
    | .stack h => s.modStack h fun st => { st with asleep := false, touched := true }
    | .port l => s.wakePort l
    | .pcie => { s with power := { s.power with l0p := false, pcieTouched := true } })

/-- Whether the running or the next section of a partition's image gives a port an entry of its flit schedule (R415). -/
def Part.schedules (part : Part) (l : Nat) : Bool :=
  match part.image with
  | none => false
  | some im => [part.section_, part.nextSection].any fun k =>
      let e := tget {} (im.sections.getD k {}).links l
      !e.four.isEmpty || (match e.three with | some m => !m.isEmpty | none => false)

/-- Whether a port may park (R415). -/
def State.mayPark (s : State) (l : Nat) : Bool :=
  let x := s.port l
  x.up && !x.parked && x.idle && !x.touched && !(s.part (s.partOfPort l)).schedules l
    && s.beat.lockPort != l && s.beat.altPort != l && !(s.form.routes.any fun r => r.port == l)

/-- PORT_PARK (R415): parking proposed by this end or agreed to the peer's proposal. -/
def execPortPark (l : Nat) (s : State) : Host.Outcome State Fault Refusal :=
  .next (match takeFirst (fun (x : Nat × Packet) => x.1 == l && x.2.ctl == some .park) s.pktIn with
    | some (_, rest) =>
      let s := { s with pktIn := rest }
      if s.mayPark l then s.modPort l fun x => { x with parked := true } else s
    | none =>
      if s.mayPark l then (s.sendPacket (s.port l).peer { cls := 0x20, ctl := some .park }).modPort l fun x => { x with parked := true } else s)

/-! ### Window records (R430) -/

/-- A signed reading as 16 bits. -/
def int16 (x : Int) : Nat := (x % 65536).toNat

/-- A list of fields (offset, size, value) as bytes by offset. -/
def recordBytes (l : List (Nat × Nat × Nat)) : SMap Byte :=
  l.foldl (fun m x => if x.2.2 = 0 then m else tsetAll 0 m ((upFrom x.1 x.2.1).zip (leBytes x.2.1 x.2.2))) []

/-- `n` counters of a table as 4-byte fields from offset `o` on. -/
def counterFields (m : SMap Nat) (o n : Nat) : List (Nat × Nat × Nat) := (upFrom 0 n).map fun k => (o + 4 * k, 4, tget 0 m k)

/-- The stacks of a smallest partition, in ascending order; its edge routers have the same numbers (Table 1 of chapter 14). -/
def memberStacks (q : Nat) : List Nat := [2 * q, 2 * q + 1, 16 + 2 * q, 17 + 2 * q]

/-- The ports of a smallest partition, in ascending order. -/
def memberPorts (q : Nat) : List Nat := upFrom (4 * q) 4 ++ upFrom (32 + 4 * q) 4

/-- TEL.EDGE_SLOTS of an edge router: slots since its last read (R206). -/
def Edge.slots (e : Edge) (slot : Nat) : Nat := min (slot - tget 0 e.counts 5) (2 ^ 32 - 1)

/-- The fields of a core in a window record. -/
def Core.windowFields (core : Core) (o : Nat) : List (Nat × Nat × Nat) :=
  if core == {} then []
  else
    ((upFrom 0 15).flatMap fun u => (upFrom 0 7).map fun k => (o + 4 * (7 * u + k), 4, tget 0 core.stalls (u * 8 + k)))
      ++ [(o + 420, 4, core.dropGen), (o + 424, 4, core.dropDraft), (o + 428, 4, core.dropGroup)]

/-- FLAGS of the window in progress. -/
def Care.flags (c : Care) : Nat := c.flagScrub.toNat + 2 * c.flagCalib.toNat + 4 * c.flagShed.toNat + 8 * c.flagThrottle.toNat

/-- The window record of a smallest partition (Table 8). -/
def State.windowRecord (s : State) (q : Nat) : SMap Byte :=
  let p := s.lowest q
  let part := s.part p
  let care := s.care
  recordBytes
    ([(0, 8, care.windows), (8, 8, care.epochAt), (16, 8, part.tel.step), (24, 1, q), (25, 1, care.flags)]
      ++ ((upFrom 0 8).map fun k => (32 + 4 * k, 4, tget 0 care.power k))
      ++ ((upFrom 0 336).map fun k => (64 + 4 * k, 4, int16 (tget 0 care.maximum k) + 2 ^ 16 * int16 (tget 0 care.latest k)))
      ++ ((upFrom 0 20).map fun k => (1408 + 2 * k, 2, s.dutyOf (20 * q + k)))
      ++ ((upFrom 0 192).flatMap fun c => (tget {} s.cores (192 * q + c)).windowFields (1448 + 432 * c))
      ++ ((upFrom 0 32).flatMap fun k => counterFields (tget {} s.slices (32 * q + k)).counts (84392 + 28 * k) 7)
      ++ ((upFrom 0 4).flatMap fun k => counterFields (tget {} s.cloaks (4 * q + k)).counts (85288 + 20 * k) 5)
      ++ (((memberStacks q).zip (upFrom 0 4)).flatMap fun x =>
          counterFields (tget {} s.edges x.1).counts (85368 + 24 * x.2) 5 ++ [(85368 + 24 * x.2 + 20, 4, (tget {} s.edges x.1).slots s.slot)])
      ++ (((memberStacks q).zip (upFrom 0 4)).flatMap fun x => (upFrom 0 32).flatMap fun pc =>
          let st := tget {} s.hbm x.1
          let o := 85464 + 12 * (32 * x.2 + pc)
          [(o, 4, tget 0 st.ce pc), (o + 4, 4, tget 0 st.ue pc), (o + 8, 4, tget 0 st.tagFail pc)])
      ++ (((memberPorts q).zip (upFrom 0 8)).flatMap fun x => counterFields (tget {} s.ports x.1).counts (87000 + 28 * x.2) 7)
      ++ (if q = p then counterFields part.intake.counts 87224 5 else [])
      ++ ((upFrom 0 20).map fun k => (87244 + 4 * k, 4, tget 0 care.throttle (20 * q + k))))

/-- The window's records made in a partition that holds a job: the store keeps the latest sixteen windows, and TEL_STREAM takes them (R430, R431). -/
def State.keepWindow (s : State) (p : Nat) : State :=
  let part := s.part p
  let s := if part.job == .none then s
    else
      let rec' := (upFrom p s.span).map fun q => (q, s.windowRecord q)
      let l := part.tel.windows ++ [(s.care.windows, rec')]
      let s := s.modPart p fun part => { part with tel := { part.tel with windows := l.drop (l.length - 16) } }
      if part.tel.streaming && part.tel.streamEntries != 0 then
        s.put (.telemetry p s.care.windows (s.care.windows % part.tel.streamEntries))
      else s
  s.modPart p fun part => { part with tel := { part.tel with step := part.step } }

/-! ### Sensors and their actions (R421, R422) -/

/-- Readings taken, each corrected by its calibration offset. -/
def State.readSensors (s : State) (temps : List Int) (powers : List Nat) : State :=
  let v (k : Nat) : Int := temps.getD k 0 + tget 0 s.care.offsets k
  let m := tsetAll 0 [] ((upFrom 0 336).map fun k => (k, v k))
  { s with care := { s.care with latest := m, maximum := m, power := tsetAll 0 [] ((upFrom 0 8).map fun k => (k, powers.getD k 0)) } }

/-- The duty of the groups of the core array, decided by their readings (Table 5): at 105 °C or above lowered by an eighth to no less than 2/8, below
100 °C raised by an eighth. -/
def State.setDuties (s : State) : State :=
  (upFrom 0 160).foldl (fun s k =>
    let t := tget 0 s.care.latest k
    let low := tget 0 s.care.lowered k
    let low' := if 840 ≤ t then (if 2 < s.ceiling - low then low + 1 else low) else if t < 800 then low - 1 else low
    if low' = low then s
    else { s with care := { s.care with lowered := tset 0 s.care.lowered k low', flagThrottle := true } }) s

/-- The readings of HBM stacks, optical engines and cartridges acted on (Table 5). -/
def State.heatActions (s : State) : State :=
  let t (k : Nat) : Int := tget 0 s.care.latest k
  let s := (upFrom 0 32).foldl (fun s h =>
    let st := s.stack h
    let d := decide (680 ≤ t (192 + h))
    let w := decide (760 ≤ t (192 + h))
    if st.doubled == d && st.slowed == w then s else s.setStack h { st with doubled := d, slowed := w }) s
  let s := (upFrom 0 64).foldl (fun s l => if 680 ≤ t (224 + l) then s.portDown l else s) s
  (upFrom 0 16).foldl (fun s c =>
    if 600 ≤ t (288 + c) then
      ({ s with care := { s.care with lasersOff := addOnce s.care.lasersOff c } }).cartridgeDark c
    else s) s

/-- Whether a reading trips the module (R422): 120 °C in the core array or the edge band, 105 °C in a stack. -/
def State.tooHot (s : State) : Bool :=
  ((upFrom 0 192).any fun k => decide (960 ≤ tget 0 s.care.latest k)) || (upFrom 192 32).any fun k => decide (840 ≤ tget 0 s.care.latest k)

/-- Blocks without traffic for the whole window fall asleep (Table 2), and the next window's traffic is noted anew. -/
def State.fallAsleep (s : State) : State :=
  let running (p : Nat) : Bool := (s.part p).job == .running
  let s := (upFrom 0 256).foldl (fun s k => s.modSlice k fun sl =>
    { sl with asleep := sl.asleep || (!sl.touched && !running (s.partOfSlice k)), touched := false }) s
  let s := (upFrom 0 32).foldl (fun s h => s.modStack h fun st =>
    { st with asleep := st.asleep || (!st.touched && !running (s.partOfStack h)), touched := false }) s
  let s := (upFrom 0 64).foldl (fun s l =>
    let x := s.port l
    if x.st = 0 then s else s.setPort l { x with idle := !x.touched, touched := false }) s
  let s := s.partList.foldl (fun s p =>
    if (s.coresOf p).all (fun c => (tget {} s.cores c).power == .gated || (tget {} s.cores c).power == .fenced)
        && (s.slicesOf p).all (fun k => (tget {} s.slices k).asleep) then
      s.modPart p fun part => { part with treeStopped := true }
    else s) s
  { s with power := { s.power with l0p := s.power.l0p || (s.power.linkUp && !s.power.pcieTouched), pcieTouched := false } }

/-- TELEMETRY_WINDOW_END (R421, R430): the window's readings and records are taken, and what the readings decide takes effect with the next window. -/
def execTelemetryWindowEnd (temps : List Int) (powers : List Nat) (s : State) : Host.Outcome State Fault Refusal :=
  .next (if s.power.stage < 2 || s.tick / 25000 ≤ s.care.windows then s
    else
      let s := s.readSensors temps powers
      let s := s.partList.foldl (fun s p => s.keepWindow p) s
      let s := { s with care := { s.care with
        windows := s.care.windows + 1, epochAt := beatOf s.slot, flagScrub := false, flagCalib := false, flagShed := false, flagThrottle := false } }
      let s := s.modDuty 2 fun d => { d with lastDone := s.tick }
      if !s.power.mainOn then s
      else if s.tooHot then s.enterFault 0x61
      else (s.setDuties.heatActions).fallAsleep)

end Sys2Proof.Machine
end

