-- ==== Sys2Proof/Machine/HostRing.lean ====
section
/-! DEFINITION. Nerca rings: doorbells (R365, R366, R378), enabling (R363), the start of a command with its checks and waits (R370 to R374), the audit
log (R394, R395), completions (R366, R370) and firmware restarts (R376, R20). -/

namespace Sys2Proof.Machine

open Sys2Proof

/-! ### The command tables (Tables 8 to 11 of chapter 13) -/

/-- What the command tables and R374, R448 give a command: its role (0 any, 1 operator, 2 installer, 3 maker), the sizes of its inline arguments, its
state class, what it addresses (0 no partition, 1 one, 2 every one), whether it is a state command, and whether it needs the array, HBM or the links
(DEDUCED, entry 29). -/
structure CmdSpec where
  role : Nat := 0
  args : List Nat := []
  cls : Nat := 0
  scope : Nat := 1
  state : Bool := false
  compute : Bool := true

/-- State classes (R381). -/
def clsAny : Nat := 0
def clsEmpty : Nat := 1
def clsLoaded : Nat := 2
def clsHeld : Nat := 3
def clsLoadedHeld : Nat := 4
def clsIdle : Nat := 5
def clsJob : Nat := 6
def clsQuiet : Nat := 7
def clsAllEmpty : Nat := 8

/-- The command tables' entry of an opcode; none for an opcode they do not list. -/
def cmdSpec (op : Nat) : Option CmdSpec :=
  match op with
  | 0x0101 => some { scope := 0, compute := false }
  | 0x0108 => some { role := 2, args := [1], cls := clsQuiet, scope := 2, state := true, compute := false }
  | 0x0201 => some { role := 2, args := [1], cls := clsAllEmpty, scope := 2, state := true }
  | 0x0202 => some { scope := 0, compute := false }
  | 0x0301 => some { role := 1, args := [8, 8, 4], cls := clsEmpty, state := true }
  | 0x0302 => some { role := 1, cls := clsLoadedHeld, state := true }
  | 0x0303 => some { role := 1, compute := false }
  | 0x0304 => some { role := 1, args := [2], cls := clsLoadedHeld }
  | 0x0501 => some { role := 1, args := [4], cls := clsLoadedHeld, state := true }
  | 0x0502 => some { role := 1, cls := clsJob }
  | 0x0503 => some { role := 1, compute := false }
  | 0x0504 => some { role := 1, cls := clsJob }
  | 0x0510 => some { role := 1, cls := clsLoaded }
  | 0x0511 => some { role := 1, args := [1, 2], cls := clsJob }
  | 0x0512 => some { role := 1, cls := clsJob }
  | 0x0513 => some { role := 1, cls := clsJob }
  | 0x0514 => some { role := 1, compute := false }
  | 0x0401 => some { role := 2, args := [1, 2, 4, 4], compute := false }
  | 0x0402 => some { role := 1, compute := false }
  | 0x0403 => some { role := 1, args := [8, 8, 1, 1] }
  | 0x0404 => some { role := 1, args := [8, 8] }
  | 0x0405 => some { role := 1, args := [8, 8] }
  | 0x0406 => some { role := 1, args := [1, 1, 2, 2, 4, 8, 8] }
  | 0x0407 => some { role := 1, args := [1] }
  | 0x0408 => some { role := 1, args := [2, 4], cls := clsJob }
  | 0x0409 => some { role := 1, args := [4, 2] }
  | 0x0410 => some { role := 1, args := [1, 1, 1, 1, 2, 2, 4, 1], cls := clsIdle }
  | 0x0411 => some { role := 1, args := [2, 4] }
  | 0x0412 => some { role := 1, args := [2] }
  | 0x0413 => some { role := 1, args := [2] }
  | 0x0414 => some { role := 1, args := [2] }
  | 0x0415 => some { role := 1, args := [2] }
  | 0x0416 => some { role := 1, cls := clsIdle }
  | 0x0601 => some { role := 1, args := [2, 2, 2, 1, 1, 1, 1], cls := clsLoadedHeld }
  | 0x0602 => some { role := 1, compute := false }
  | 0x0603 => some { role := 1, cls := clsJob }
  | 0x0604 => some { role := 1, args := [1], cls := clsLoadedHeld, state := true }
  | 0x0605 => some { role := 1, args := [2, 2], cls := clsHeld, state := true }
  | 0x0606 => some { role := 1, args := [4, 2, 4], cls := clsHeld, state := true }
  | 0x0701 => some { role := 2, args := [1, 1, 1, 1, 1, 2], cls := clsQuiet, scope := 2, state := true }
  | 0x0702 => some { role := 1, compute := false }
  | 0x0703 => some { role := 2, args := [8], scope := 0 }
  | 0x0704 => some { role := 1, args := [8], compute := false }
  | 0x0705 => some { role := 2, args := [2, 1], scope := 0, compute := false }
  | 0x0706 => some { role := 2, args := [2], cls := clsQuiet, scope := 2, state := true, compute := false }
  | 0x0707 => some { role := 1, args := [8], compute := false }
  | 0x0801 => some { role := 1, args := [1] }
  | 0x0802 => some { role := 1, args := [8, 4, 1] }
  | 0x0803 => some { role := 1, args := [8] }
  | 0x0901 => some { args := [1], scope := 0, compute := false }
  | 0x0902 => some { role := 1, cls := clsLoadedHeld }
  | 0x0903 => some { role := 2 }
  | 0x0904 => some { role := 2, scope := 0, compute := false }
  | 0x0905 => some { role := 2, args := [8, 4], scope := 0, compute := false }
  | 0x0906 => some { scope := 0, compute := false }
  | 0x0A01 => some { role := 2, args := [8, 8], scope := 0, compute := false }
  | 0x0A02 => some { role := 2, cls := clsQuiet, scope := 2, state := true, compute := false }
  | 0x0A03 => some { scope := 0, compute := false }
  | 0x0B01 => some { role := 3, cls := clsQuiet, scope := 0, compute := false }
  | 0x0B02 => some { role := 3, scope := 0, compute := false }
  | 0x0B03 => some { role := 2, cls := clsAllEmpty, scope := 0 }
  | 0x0B10 => some { role := 2, args := [1, 1], scope := 0 }
  | 0x0B11 => some { role := 2, args := [1, 1], scope := 0 }
  | 0x0B12 => some { role := 1, compute := false }
  | 0x0B13 => some { role := 1, compute := false }
  | 0x0C01 => some { role := 1, compute := false }
  | 0x0C02 => some { role := 2, scope := 0, compute := false }
  | _ => none

/-- Whether a partition, or the module, is in a state class (R381). -/
def State.inClass (s : State) (p cls : Nat) : Bool :=
  let j := (s.part p).job
  match cls with
  | 1 => j == .none
  | 2 => j == .loaded
  | 3 => j == .held
  | 4 => j == .loaded || j == .held
  | 5 => j != .running
  | 6 => j != .none
  | 7 => s.partList.all fun q => (s.part q).job != .running
  | 8 => s.partList.all fun q => (s.part q).job == .none
  | _ => true

/-! ### Commands of a ring -/

/-- The 32 bytes of a command's inline arguments. -/
def Cmd.argBytes (c : Cmd) : List Byte := leBytes 32 (c.f 256 256)
/-- PAYLOAD_LEN of a command. -/
def Cmd.payLen (c : Cmd) : Nat := c.f 128 32
/-- RESULT_LEN of a command. -/
def Cmd.resLen (c : Cmd) : Nat := c.f 160 32
/-- The payload that was read. -/
def Cmd.bytes (c : Cmd) : List Byte := match c.payload with | .ok b => b.take c.payLen | _ => []

/-- The partition that a command addresses: that of its ring, or the one it names on a management ring. -/
def State.cmdPart (s : State) (r : Nat) (c : Cmd) : Nat :=
  match ringPart r with
  | some k => s.lowest k
  | none => s.lowest c.partition

/-- Whether a command is a state command that has started and not ended on partitions that a command of a scope and partition addresses (R374). -/
def State.holdsBack (s : State) (r : Nat) (c : Cmd) (scope p : Nat) : Bool :=
  match cmdSpec c.opcode with
  | some sp => c.started && sp.state && !(c.opcode == 0x0501 && c.running) && scope != 0 && (sp.scope == 2 || scope == 2 || s.cmdPart r c == p)
  | none => false

/-- Whether some state command holds back a command of ring `r` (R374). -/
def State.stateWait (s : State) (r : Nat) (c : Cmd) : Bool :=
  match cmdSpec c.opcode with
  | none => false
  | some sp => s.rings.any fun g => g.2.inflight.any fun x => s.holdsBack g.1 x sp.scope (s.cmdPart r c)

/-- Whether commands of a ring are served: by firmware, or by boot ROM's recovery service over I3C (R397). -/
def State.serves (s : State) (r op : Nat) : Bool :=
  s.power.fwReady || (s.sec.recovery && r == i3cRing && (op == 0x0101 || op == 0x0901 || op == 0x0A01 || op == 0x0A02 || op == 0x0A03))

/-- The next command of a ring, when it may start now: the ring is in use and has not stopped, every command before it has started, FENCE is satisfied,
and no state command holds it back (R365, R373, R374). -/
def State.startable (s : State) (r : Nat) : Option Cmd :=
  let g := s.ring r
  match g.inflight.find? fun c => !c.started with
  | none => none
  | some c =>
    let first := match g.inflight with | x :: _ => x.idx == c.idx | [] => false
    if g.enable && s.serves r c.opcode && (!bit c.desc.toNat 16 || first) && !s.stateWait r c then some c else none

/-! ### The checks of a command's start (R372) -/

/-- A byte of ARGS that no argument of the sizes takes and that is not zero, by its offset (R368). -/
def looseArg (c : Cmd) (sizes : List Nat) : Option Nat :=
  let used := ((offsetsFrom 0 sizes).zip sizes).flatMap fun x => upFrom x.1 x.2
  (upFrom 0 32).find? fun k => !(decide (k ∈ used)) && c.argBytes.getD k 0 != 0

/-- A descriptor's place of the first reserved field that is not zero, of a TAG that is in flight already, or of a misaligned address (R372, step 3),
by its byte offset (R369). On the I3C channel the addresses are ignored, and a payload of more than 4,096 bytes is refused (R385). -/
def State.badField (s : State) (r : Nat) (c : Cmd) (sizes : List Nat) : Option Nat :=
  let i3c := r == i3cRing
  if c.f 18 14 != 0 then some 2
  else if (s.ring r).inflight.any fun x => x.started && x.idx != c.idx && x.tag == c.tag then some 4
  else if c.f 51 13 != 0 then some 6
  else if !i3c && c.payLen != 0 && c.f 64 3 != 0 then some 8
  else if i3c && decide (4096 < c.payLen) then some 16
  else if !i3c && c.resLen != 0 && c.f 192 3 != 0 then some 24
  else (looseArg c sizes).map (· + 32)

/-- A command past its first four checks: its ring, its partition, its arguments and its payload. -/
structure Job where
  r : Nat
  c : Cmd
  p : Nat
  args : List Nat
  pay : List Byte

/-- Argument number `k`. -/
def Job.arg (j : Job) (k : Nat) : Nat := j.args.getD k 0
/-- TAG of the command. -/
def Job.t (j : Job) : Nat := j.c.tag

/-- The rules that a command puts on its arguments and its payload (R372, step 5): the place of the first breach, for the inline arguments and for the
payload, and the payload length that it needs. -/
structure CmdRules where
  inline : State → Job → Option Nat := fun _ _ => none
  need : Job → Nat := fun _ => 0
  pay : State → Job → Option Nat := fun _ _ => none

/-- A BAD_ARG answer with a place. -/
def badArg (detail : Nat) : Answer := { status := stBadArg, detail := detail }

/-- A place in the payload (R369). -/
def inPayload (o : Nat) : Nat := 2 ^ 31 + o

/-- The role that a ring carries (R364): a partition ring always the operator role. -/
def State.roleOf (s : State) (r : Nat) : Nat := if (ringPart r).isSome then 1 else (s.ring r).role

/-- The first four checks of a command's start (R372). A ring of a partition that is none in the present configuration answers WRONG_STATE (R343). -/
def State.checkStart (s : State) (r : Nat) (c : Cmd) : Option Answer :=
  let own := match ringPart r with | some k => c.partition != s.lowest k | none => false
  let gone := match ringPart r with | some k => !s.isPart k | none => false
  if gone then some { status := stWrongState }
  else if own then some { status := stNotPermitted }
  else
    match cmdSpec c.opcode with
    | none => some { status := stBadOpcode }
    | some sp =>
      match s.badField r c sp.args with
      | some o => some (badArg o)
      | none =>
        let role := s.roleOf r
        let recovery := !s.power.fwReady && c.opcode != 0x0901 && role != 2
        if (sp.role != 0 && role != sp.role) || recovery then some { status := stNotPermitted }
        else if (ringPart r).isNone && sp.scope == 1 && s.lowest c.partition != c.partition then some (badArg 6)
        else none

/-- All checks of a command's start (R370, R372, R448), in their order: an answer that ends it, or the command. -/
def State.check (s : State) (r : Nat) (c : Cmd) (rules : CmdRules) : Answer ⊕ Job :=
  match s.checkStart r c with
  | some a => .inl a
  | none =>
    let sp := (cmdSpec c.opcode).getD {}
    let j : Job := { r := r, c := c, p := s.cmdPart r c, args := readList c.argBytes sp.args, pay := c.bytes }
    match rules.inline s j with
    | some o => .inl (badArg o)
    | none =>
      if c.payLen < rules.need j then .inl (badArg 16)
      else
        match (if c.payLen = 0 then Dma.ok [] else c.payload) with
        | .error => .inl { status := stDataError }
        | .timeout => .inl { status := stTimeout }
        | .ok _ =>
          match rules.pay s j with
          | some o => .inl (badArg (inPayload o))
          | none =>
            if !s.inClass j.p sp.cls || (sp.compute && !s.power.computeReady) then .inl { status := stWrongState } else .inr j

/-! ### The audit log (R394, R395) -/

/-- The 128 bytes of an audit entry (Table 5 of chapter 14). -/
def auditBytes (e : Audit) : List Byte :=
  leBytes 8 e.seq ++ leBytes 4 e.boots ++ leBytes 4 0 ++ leBytes 8 e.time ++ leBytes 2 e.opcode ++ leBytes 1 e.role ++ leBytes 1 e.ring
    ++ leBytes 1 e.part ++ leBytes 1 e.status ++ leBytes 1 e.cred ++ leBytes 1 0 ++ leBytes 32 e.detail.toNat ++ leBytes 64 e.prev.toNat

/-- The first 32 bytes of a digest. -/
def digest32 (d : BitVec 512) : BitVec 256 := BitVec.ofNat 256 d.toNat

/-- An entry written to the log, chained to the one before it; the log keeps the latest 65,536 entries and the base (R395). -/
def State.audit (s : State) (opcode role ring part status cred : Nat) (detail : BitVec 256) : State :=
  let sec := s.sec
  let prev := match sec.audit with | e :: _ => Config.sha512 (auditBytes e) | [] => sec.auditBase
  let e : Audit := { seq := sec.auditSeq, boots := sec.boots, time := s.tick, opcode := opcode, role := role, ring := ring, part := part, status := status,
                     cred := cred, detail := detail, prev := prev }
  let log := (e :: sec.audit).take 65536
  { s with sec := { sec with
    audit := log, auditSeq := sec.auditSeq + 1
    auditBase := match log.getLast? with | some o => o.prev | none => sec.auditBase } }

/-- Whether a command has an audit entry (R394). -/
def audited (op : Nat) : Bool :=
  op == 0x0901 || op == 0x0301 || op == 0x0302 || op == 0x0902 || match cmdSpec op with | some sp => decide (2 ≤ sp.role) | none => false

/-- The entry of a command written (R394), with the role and the credential that its ring had at its start. -/
def State.auditCmd (s : State) (r : Nat) (c : Cmd) (status : Nat) (digest : Option (BitVec 512)) (cred : Nat := (s.ring r).cred) : State :=
  if audited c.opcode then
    let d : BitVec 256 := match digest with
      | some d => digest32 d
      | none => if c.bytes = [] then 0 else digest32 (Config.sha512 c.bytes)
    s.audit c.opcode c.role r (s.cmdPart r c) status cred d
  else s

/-! ### Starting and ending a command -/

/-- A command marked as started (R365, R372). -/
def State.markStarted (s : State) (r : Nat) (c : Cmd) : State :=
  s.modRing r fun g => { g with
    sqHead := (c.idx + 1) % g.size
    inflight := g.inflight.map fun x => if x.idx == c.idx then { x with started := true, startTick := s.tick, role := s.roleOf r } else x }

/-- A started command's final completion queued (R370). -/
def State.close (s : State) (r : Nat) (c : Cmd) (a : Answer) : State :=
  (s.queueCompletion r c a).modRing r fun g =>
    { g with inflight := g.inflight.map fun x => if x.idx == c.idx then { x with done := true } else x }

/-- A command that firmware refuses at its start: its opcode is in no table, or it is a ROLE_AUTH whose message has no defined type (R372, R391). -/
def undefinedCmd (c : Cmd) : Bool :=
  match cmdSpec c.opcode with
  | none => true
  | some _ => c.opcode == 0x0901 && !(decide (1 ≤ (c.bytes.getD 0 0).toNat) && decide ((c.bytes.getD 0 0).toNat ≤ 4))

/-- The answer to such a command. -/
def State.undefinedAnswer (s : State) (r : Nat) (c : Cmd) : Answer :=
  match s.checkStart r c with
  | some a => a
  | none => if c.payLen = 0 then badArg 16 else
      match c.payload with
      | .error => { status := stDataError }
      | .timeout => { status := stTimeout }
      | .ok _ => badArg (inPayload 0)

/-- Commands at the front of a ring that no row of the command tables takes answered (R372), `fuel` of them. -/
def State.settleRing (s : State) (r : Nat) : Nat → State
  | 0 => s
  | fuel + 1 =>
    match s.startable r with
    | none => s
    | some c =>
      if undefinedCmd c then
        let a := s.undefinedAnswer r c
        (((s.markStarted r c).auditCmd r { c with role := s.roleOf r } a.status none).close r c a).settleRing r fuel
      else s

/-- Every ring's front looked at. -/
def State.settleRings (s : State) : State :=
  (s.rings.map Prod.fst).foldl (fun s r => s.settleRing r (s.ring r).inflight.length) s

/-- What a command's execution comes to: it ends with an answer and its effect, it ends without effect, or it stays at work until an event ends it. -/
inductive CmdRes
  | done (s : State) (a : Answer)
  | fail (a : Answer)
  | later (s : State)

/-- The digest that a command's audit entry names, where it names an image or firmware. -/
structure CmdAudit where
  digest : Option (BitVec 512) := none

/-- The command of tag `t` that stands at the front of ring `r` with opcode `op` starts: its checks, its execution, and its completion (R370 to R375).
Where no such command may start, nothing happens (log entry 2). A result that exceeds RESULT_LEN leaves it without effect. -/
def State.runCmd (s : State) (r t op : Nat) (rules : CmdRules) (f : State → Job → CmdRes) (digest : Option (BitVec 512) := none) : State :=
  match s.startable r with
  | none => s
  | some c =>
    if c.tag != t || c.opcode != op || undefinedCmd c then s
    else
      let s0 := s.markStarted r c
      let c' := { c with started := true, role := s.roleOf r }
      let cred := (s.ring r).cred
      let fin (s : State) (a : Answer) : State := (((s.auditCmd r c' a.status digest cred).close r c' a)).settleRings
      match s0.check r c rules with
      | .inl a => fin s0 a
      | .inr j =>
        match f s0 j with
        | .fail a => fin s0 a
        | .later s => (s.modRing r fun g => { g with inflight := g.inflight.map fun x => if x.idx == c.idx then { x with running := true } else x }).settleRings
        | .done s a =>
          let room := if r = i3cRing then 4096 else c.resLen
          if room < a.result.length then fin s0 (badArg (if r = i3cRing then 20 else a.result.length)) else fin s a

/-! ### Doorbells (R362, R363, R365, R366, R378) -/

/-- The ring that a function names by a code (R361). A VF that names no partition keeps its rings, whose commands R343 answers. -/
def State.ringOf (s : State) (f code : Nat) : Option Nat :=
  if f = 0 then
    if code < 8 || code == 40 then some code
    else
      let k := if code < 40 then (code - 8) / 4 else code - 41
      if decide (code < 49) && s.isPart k && !(s.fn (k + 1)).enabled then some code else none
  else if (s.fn f).enabled then
    if code < 4 then some (8 + 4 * (f - 1) + code) else if code = 4 then some (40 + f) else none
  else none

/-- Whether a ring is a command ring. -/
def isCmdRing (r : Nat) : Bool := decide (r < 40)

/-- Descriptors read in SQ order from an index on; a read that fails, or one that is missing, ends the list. -/
def readDescs (size since : Nat) : Nat → Nat → List (Option (BitVec 512) × Dma) → List Cmd × Bool
  | 0, _, _ => ([], false)
  | n + 1, idx, (some d, pay) :: l =>
    let x := readDescs size since n ((idx + 1) % size) l
    ({ desc := d, payload := pay, idx := idx, since := since } :: x.1, x.2)
  | _, _, _ => ([], true)

/-- A new SQ tail of ring `k` (R365): the descriptors up to it are read in SQ order; a read that fails sets ERROR, stops the ring and is logged. -/
def State.sqTailTo (s : State) (f k idx : Nat) (descs : List (Option (BitVec 512) × Dma)) : State :=
  let g := s.ring k
  if !isCmdRing k || !g.enable || decide (g.size ≤ idx) then s
  else if g.error then s.setRing k { g with sqTail := idx }
  else
    let x := readDescs g.size s.tick ((idx + g.size - g.sqTail) % g.size) g.sqTail descs
    let s := s.setRing k { g with sqTail := idx, inflight := g.inflight ++ x.1, error := x.2 }
    let s := { s with power := { s.power with pcieTouched := true } }
    (if x.2 then s.put (.aer f) else s).settleRings

/-- A new CQ head of ring `k`, a command ring or else an event ring (R366, R378): entries freed. -/
def State.headTo (s : State) (k idx : Nat) (cmd : Bool) : State :=
  if isCmdRing k != cmd || decide ((s.ring k).size ≤ idx) then s else s.modRing k fun g => { g with cqHead := idx }

/-- SQ_TAIL_DOORBELL (R365). -/
def execSqTailDoorbell (f : Nat) (r : Nat) (idx : Nat) (descs : List ((Option (BitVec 512)) × Dma)) (s : State) : Host.Outcome State Fault Refusal :=
  .next (match s.ringOf f r with
    | none => s
    | some k => s.sqTailTo f k idx descs)

/-- CQ_HEAD_DOORBELL (R366). -/
def execCqHeadDoorbell (f : Nat) (r : Nat) (idx : Nat) (s : State) : Host.Outcome State Fault Refusal :=
  .next (match s.ringOf f r with
    | none => s
    | some k => s.headTo k idx true)

/-- EVENT_HEAD_DOORBELL (R378). -/
def execEventHeadDoorbell (f : Nat) (r : Nat) (idx : Nat) (s : State) : Host.Outcome State Fault Refusal :=
  .next (match s.ringOf f r with
    | none => s
    | some k => s.headTo k idx false)

/-- A doorbell word written for the ring that a code names (Table 1 of chapter 13, R363): INDEX, KIND and RING; KIND 0b11 is ignored. -/
def State.doorbell (s : State) (f : Nat) (ring : Nat → Option Nat) (w : Nat) (descs : List (Option (BitVec 512) × Dma)) : State :=
  match ring (bits w 14 6), bits w 12 2 with
  | some k, 0 => s.sqTailTo f k (bits w 0 12) descs
  | some k, 1 => s.headTo k (bits w 0 12) true
  | some k, 2 => s.headTo k (bits w 0 12) false
  | _, _ => s

/-! ### Enabling a ring (R363) -/

/-- A write of `MBX.RING_CONFIG`: SIZE_LOG2 is taken while ENABLE is 0; ENABLE 1 starts the ring afresh, and ENABLE 0 is ignored while
commands are in flight. Table 1 gives a ring 4 to 12 and names no outcome for a ring enabled outside them: its ENABLE stays 0
(DESIGN CHOICE, entry 69). -/
def Ring.config (g : Ring) (v : Nat) : Ring :=
  let g := if g.enable then g else { g with sizeLog2 := bits v 0 4 }
  if bit v 4 then
    if decide (g.sizeLog2 < 4) || decide (12 < g.sizeLog2) then g
    else { g with enable := true, sqHead := 0, cqTail := 0, sqTail := 0, cqHead := 0, phase := true, error := false }
  else if g.inflight.any (fun c => c.started) then g
  else { g with enable := false, inflight := [] }

/-- The write of a function to the configuration of the ring that it has selected. -/
def State.ringConfig (s : State) (f : Nat) (v : W32) : State :=
  match s.ringOf f (s.fn f).ringSel with
  | none => s
  | some k => s.modRing k fun g => g.config v.toNat

/-- RING_ENABLE (R363): a write with ENABLE 1. -/
def execRingEnable (f : Nat) (v : W32) (s : State) : Host.Outcome State Fault Refusal :=
  .next (if bit v.toNat 4 then s.ringConfig f v else s)

/-- RING_DISABLE (R363): a write with ENABLE 0. -/
def execRingDisable (f : Nat) (v : W32) (s : State) : Host.Outcome State Fault Refusal :=
  .next (if bit v.toNat 4 then s else s.ringConfig f v)

/-! ### Completions (R366, R370, R385) -/

/-- PENDING_TIMEOUT (R370): 100 ms after its doorbell write a command without a final completion posts PENDING, once. -/
def execPendingTimeout (r : Nat) (t : Nat) (s : State) : Host.Outcome State Fault Refusal :=
  .next (match (s.ring r).find t with
    | none => s
    | some c =>
      if r = i3cRing || !s.power.fwReady || c.pendingSent || decide (s.tick < c.since + 2500000) then s
      else
        (s.queueCompletion r c { status := stPending }).modRing r fun g =>
          { g with inflight := g.inflight.map fun x => if x.idx == c.idx then { x with pendingSent := true } else x })

/-- The 32 bytes of a completion (Table 3 of chapter 13). -/
def completionBytes (c : Completion) : List Byte :=
  leBytes 32 (c.tag + c.opcode * 2 ^ 16 + c.status * 2 ^ 32 + c.phase.toNat * 2 ^ 40 + c.sqHead * 2 ^ 48 + c.resultBytes * 2 ^ 64 + c.detail * 2 ^ 96
    + c.value % 2 ^ 128 * 2 ^ 128)

/-- The final completion of a command of the I3C channel becomes its answer, and ALERT# is held low (R385). -/
def State.answerI3c (s : State) (c : Completion) : State :=
  let g := s.ring i3cRing
  let s := s.setRing i3cRing { g with waiting := g.waiting.drop 1, inflight := [] }
  let s := { s with i3c := { s.i3c with st := 2, answer := completionBytes { c with sqHead := g.sqHead } ++ c.result }, power := { s.power with alert := true } }
  if s.power.phase == .run then s.drive "ALERT#" false else s

/-- A command whose final completion has been written leaves the ring. -/
def dropDone (t : Nat) : List Cmd → List Cmd
  | [] => []
  | c :: l => if c.done && c.tag == t then l else c :: dropDone t l

/-- COMPLETION_POST (R366): the oldest waiting completion of a ring is written when a CQ entry is free, after its result, and sets the ring's cause unless
QUIET suppresses it. -/
def execCompletionPost (r : Nat) (resultFails : Bool) (s : State) : Host.Outcome State Fault Refusal :=
  let g := s.ring r
  .next (match g.waiting with
    | [] => s
    | c :: rest =>
      if r = i3cRing then s.answerI3c c
      else if !g.enable || !g.free then s
      else
        let v := s.ringVector r
        let c := { c with phase := g.phase, sqHead := g.sqHead, resultBytes := if resultFails then 0 else c.resultBytes
                          result := if resultFails then [] else c.result }
        let g := { g.advance with waiting := rest, inflight := if c.status = stPending then g.inflight else dropDone c.tag g.inflight }
        let s := (s.setRing r g).put (.completion r (s.ring r).cqTail c)
        let s := if resultFails then s.put (.aer v.1) else s
        let s := { s with power := { s.power with pcieTouched := true } }
        (if c.quiet then s else s.raise v.1 v.2).settleRings)

/-! ### Firmware restarts (R20, R376) -/

/-- The firmware bank in use, as its manifest shows it. -/
def State.runningBank (s : State) : FwImage := if s.sec.bank = 0 then s.sec.bank0 else s.sec.bank1

/-- Firmware goes down: started commands are abandoned (ring 64 is none, so that the end of a run is reported by its event alone), jobs hold at their next boundary, and the I3C state returns to none (R20, R376, R385). -/
def State.fwDown (s : State) (cause : Nat) : State :=
  let drop (g : Ring) : Ring := { g with inflight := g.inflight.filter fun c => !c.started, waiting := [] }
  { s with
    rings := s.rings.foldl (fun m e => tset {} m e.1 (drop e.2)) s.rings
    parts := s.parts.foldl (fun m e => if e.2.job == .running then tset {} m e.1 { e.2 with fwHold := true, runRing := 64 } else m) s.parts
    i3c := { s.i3c with st := if s.i3c.st = 1 then 0 else s.i3c.st }
    power := { s.power with fwReady := false, restarts := (s.power.restarts + 1) % 256, restartCause := cause } }

/-- FW_WATCHDOG_RESTART (R376, Table 2 of chapter 11): the watchdog restarts firmware, reported with class 0x60. -/
def execFwWatchdogRestart (s : State) : Host.Outcome State Fault Refusal :=
  .next (if s.power.fwReady then (s.fwDown 1).report 0 0 0x60 0 else s)

/-- The ABANDON fields of an event ring: the SQ index below which commands were abandoned, per command ring (R376, R378). -/
def State.abandon (s : State) (first n : Nat) : List (Nat × Nat) := (upFrom first n).map fun r => (2, (s.ring r).sqHead)

/-- Jobs that held for firmware go on: the next step of each that stands at its boundary starts (R20). -/
def State.releaseHolds (s : State) : State :=
  s.partList.foldl (fun s p =>
    let part := s.part p
    if !part.fwHold then s
    else
      let s := s.modPart p fun part => { part with fwHold := false, boundHold := false }
      if part.job == .running && (part.sect == .idle || part.sect == .closed) && !part.stepClosed then s.beginStep p part.step else s) s

/-- FW_RESTART (R376): restarted firmware serves rings again, logs the restart (R394), and posts the event to every event ring. -/
def execFwRestart (s : State) : Host.Outcome State Fault Refusal :=
  .next (if s.power.fwReady || s.power.restartCause == 0 then s
    else
      let cause := s.power.restartCause
      let s := { s with power := { s.power with fwReady := true, restartCause := 0 } }
      let head := [(1, s.power.restarts), (1, cause), (1, s.sec.bank), (4, s.runningBank.version)]
      let s := s.audit 0xFF00 0 0 0 0 0xFF (digest32 s.runningBank.digest)
      let s := s.event mgmtEvents 0x0005 0 (packList (head ++ s.abandon 0 8))
      let s := s.partList.foldl (fun s p => s.partEvent p 0x0005 (packList (head ++ s.abandon (8 + 4 * p) 4))) s
      s.releaseHolds.settleRings)

end Sys2Proof.Machine
end

