-- ==== Sys2Proof/Machine/HostRegs.lean ====
section
/-! DEFINITION. What the functions of the endpoint reach: the register views (R12 to R15, R90, R310, R343, R345, R362, R410), interrupts (R348, R349),
`MBX.INTAKE_APPEND` (R358) and the HBM aperture (R346, R347). -/

namespace Sys2Proof.Machine

open Sys2Proof

/-! ### Views of a partition's registers (R343, R409) -/

/-- Whether a function is there: PF0, or a VF that is enabled (R343). -/
def State.fnLive (s : State) (f : Nat) : Bool := f == 0 || (decide (f < 9) && (s.fn f).enabled)

/-- Whether a partition's TDISP interface is CONFIG_LOCKED or RUN, so that PF0 sees nothing of it (R409). -/
def State.locked (s : State) (p : Nat) : Bool := (s.part p).tdi == 1 || (s.part p).tdi == 2

/-- What a function reads of a register of partition `p` that holds `v`: a VF sees its own partition only, and PF0 all ones of one that is locked. -/
def State.viewOf (s : State) (f p v : Nat) : Nat :=
  if f = 0 then (if s.locked p then 2 ^ 32 - 1 else v) else if s.isPart (f - 1) && p == f - 1 then v else 0

/-- Whether a function's accesses reach the registers of partition `p`. -/
def State.reaches (s : State) (f p : Nat) : Bool := if f = 0 then !s.locked p else s.isPart (f - 1) && p == f - 1

/-- The partition that a function reaches through window `k` (R345); a VF has its own window alone. -/
def State.windowPart (s : State) (f k : Nat) : Option Nat :=
  if f = 0 then (if s.isPart k && !(s.fn (k + 1)).enabled && !s.locked k then some k else none)
  else if s.isPart (f - 1) then some (f - 1) else none

/-- What a function reads of an intake register through window `k`: all ones through PF0 where a VF drives the partition, or it is locked. -/
def State.windowRead (s : State) (f k : Nat) (v : Intake → Nat) : Nat :=
  match s.windowPart f k with
  | some p => v (s.part p).intake
  | none => if f == 0 && s.isPart k then 2 ^ 32 - 1 else 0

/-! ### CORE registers (Table 10 of chapter 3, Table 7 of chapter 6, Table 10 of chapter 7) -/

/-- The site that a `CORE.SELECT` value selects, and the logical position that sits there; none for a place that does not exist. -/
def State.selected (s : State) (sel : Nat) : Option (Nat × Option Nat) :=
  let col := bits sel 5 6
  if bit sel 11 then
    if col < 50 then let x := bits sel 0 5 * 50 + col; some (x, s.coreAt x) else none
  else if col < 48 then let c := bits sel 0 5 * 48 + col; some (s.siteOf c, some c) else none

/-- CORE.STATE.POWER as a code. -/
def powerCode : CorePower → Nat
  | .running => 0 | .clockStop => 1 | .gated => 2 | .fenced => 3

/-- The core that a selection shows: that of its logical position, or an empty one that is fenced or gated. -/
def State.shownCore (s : State) (x : Nat × Option Nat) : Core :=
  match x.2 with
  | some c => if (s.site x.1).fenced then { s.core c with power := .fenced } else s.core c
  | none => if (s.site x.1).fenced then { power := .fenced } else {}

/-- `CORE.STATE`. -/
def Core.stateWord (core : Core) (epoch : Nat) : Nat :=
  powerCode core.power + core.seated.toNat * 2 ^ 2 + core.valid.toNat * 2 ^ 3 + core.gen % 256 * 2 ^ 4 + epoch % 64 * 2 ^ 12
    + core.priority % 8 * 2 ^ 18 + core.openCount % 128 * 2 ^ 21

/-- `CORE.ATTN` of a site. -/
def Site.attnWord (t : Site) : Nat := t.pipeOk.toNat + t.fused.toNat * 2 + t.checkGen % 256 * 4 + t.cacheOk.toNat * 2 ^ 10

/-- The offset of a vertical link (R215): physical columns between a position and the one `dr` cores on, in three bits of two's complement. -/
def State.steer (s : State) (c c' : Nat) : Nat := (s.siteOf c' % 50 + 8 - s.siteOf c % 50) % 8

/-- `CORE.ROUTER` (R207, R214 to R216). -/
def State.routerWord (s : State) (x : Nat × Option Nat) : Nat :=
  let row := x.1 / 50
  let mode := if (s.site x.1).bypassed then 2 else if x.2.isNone then 1 else 0
  let wallN := decide (0 < row) && s.lowest ((row - 1) / 4) != s.lowest (row / 4)
  let wallS := decide (row < 31) && s.lowest ((row + 1) / 4) != s.lowest (row / 4)
  let n := match x.2 with | some c => if 48 ≤ c then s.steer c (c - 48) else 0 | none => 0
  let so := match x.2 with | some c => if c < 1488 then s.steer c (c + 48) else 0 | none => 0
  mode + wallN.toNat * 4 + wallS.toNat * 8 + n * 2 ^ 4 + so * 2 ^ 7

/-- `CORE.PERIOD` of a partition: zero while no timetable runs. -/
def State.periodWord (s : State) (p : Nat) : Nat :=
  let part := s.part p
  if part.timetableRuns s.slot then part.entry % 1024 + part.config * 2 ^ 10 + (s.slot - part.entryAt) % 65536 * 2 ^ 16 else 0

/-- A CORE register's value. -/
def State.coreReg (s : State) (reg : Reg) (unit : Nat) (x : Nat × Option Nat) : Nat :=
  let core := s.shownCore x
  let p := s.partOfSite x.1
  match reg with
  | .coreState => core.stateWord (s.part p).epoch
  | .coreDraftLines => core.reservedLines % 8192 + core.drafts.length % 8192 * 2 ^ 16
  | .coreStall n => if n < 7 then tget 0 core.stalls (unit * 8 + n) else 0
  | .coreDropGen => core.dropGen
  | .coreDropDraft => core.dropDraft
  | .coreDropGroup => core.dropGroup
  | .coreAttn => (s.site x.1).attnWord
  | .coreAttnFused => (s.site x.1).fusedRuns
  | .coreRouter => s.routerWord x
  | .corePeriod => s.periodWord p
  | .coreRound => (s.part p).round
  | .coreWallDrops => core.wallDrops
  | _ => 0

/-- A CORE register as a function reads it: zero for a selection outside its view (R90). -/
def State.readCore (s : State) (f : Nat) (reg : Reg) : Nat :=
  match s.selected (s.fn f).coreSel with
  | none => 0
  | some x => s.viewOf f (s.partOfSite x.1) (s.coreReg reg (bits (s.fn f).coreSel 12 4) x)

/-! ### Sensors (Table 5 and Table 9 of chapter 15) -/

/-- The smallest partition to which a sensor belongs; none for the rails. -/
def sensorPart (k : Nat) : Option Nat :=
  if k < 160 then some (k / 20)
  else if k < 192 then some ((k - 160) % 16 / 2)
  else if k < 224 then some ((k - 192) % 16 / 2)
  else if k < 288 then some ((k - 224) % 32 / 4)
  else if k < 304 then some ((k - 288) % 8)
  else none

/-- What a function reads of a sensor's register. -/
def State.sensorView (s : State) (f k v : Nat) : Nat :=
  match sensorPart k with
  | some q => s.viewOf f (s.lowest q) v
  | none => if f = 0 then v else 0

/-! ### The value of every register -/

/-- `AON.SIDE` (Table 8 of chapter 16). -/
def Power.sideWord (w : Power) : Nat :=
  w.straps.toNat + w.strapValid.toNat * 2 ^ 18 + w.pwrEn.toNat * 2 ^ 19 + w.perst.toNat * 2 ^ 20 + w.seatIn.toNat * 2 ^ 21 + w.seatOut.toNat * 2 ^ 22
    + w.emergLatched.toNat * 2 ^ 23 + w.senseLost.toNat * 2 ^ 24

/-- `MBX.STATUS` (Table 1 of chapter 13). -/
def State.statusWord (s : State) : Nat :=
  s.power.fwReady.toNat + s.power.computeReady.toNat * 2 + (s.power.phase == .fault).toNat * 4 + (s.i3c.st == 1).toNat * 8 + s.power.stage % 16 * 2 ^ 4
    + s.power.restarts % 256 * 2 ^ 8 + s.sec.bank % 2 * 2 ^ 16

/-- `LNK.PORT_STATUS` (Table 12 of chapter 10). -/
def Port.statusWord (l : Port) : Nat :=
  l.st % 4 + l.lanes % 16 * 2 ^ 2 + l.jobKey.toNat * 2 ^ 6 + l.peer % 16384 * 2 ^ 7 + l.peerPort % 64 * 2 ^ 21 + l.node.toNat * 2 ^ 27

/-- `LNK.BEAT_STATUS` (Table 12 of chapter 10). -/
def Beat.statusWord (b : Beat) : Nat :=
  b.locked.toNat + b.epochValid.toNat * 2 + b.root.toNat * 4 + b.holdover.toNat * 8 + b.alarm.toNat * 16 + b.lockPort % 64 * 2 ^ 5
    + (b.edgeError % 256).toNat * 2 ^ 11

/-- `SEC.STATE` (Table 10 of chapter 14). -/
def State.secWord (s : State) : Nat :=
  let n := s.sec.creds.length
  (decide (n ≠ 0)).toNat + n % 8 * 2 + s.sec.diag.isSome.toNat * 2 ^ 4 + s.sec.recovery.toNat * 2 ^ 5 + s.runningBank.keySet % 4 * 2 ^ 6
    + s.sec.revoked.toNat * 2 ^ 8

/-- `SEC.PART_KEYS` of a partition. -/
def Part.keysWord (part : Part) : Nat :=
  part.keyGen % 32 + part.prevHeld.toNat * 2 ^ 5 + part.rekey.toNat * 2 ^ 6 + part.tdi % 4 * 2 ^ 7 + part.jobKey.toNat * 2 ^ 9

/-- `SLC.CONFIG` of a slice (Table 3 of chapter 8). -/
def State.slcConfig (s : State) (k : Nat) : Nat :=
  let sl := s.slice k
  (s.cacheBays k).length % 64 + s.partOfSlice k * 2 ^ 6 + sl.shadows % 1024 * 2 ^ 9 + sl.missSlots % 128 * 2 ^ 19

/-- `HBM.STATUS` of a stack (Table 6 of chapter 8). -/
def Stack.statusWord (st : Stack) : Nat :=
  (match st.st with | .normal => 0 | .sparing => 1 | .spare => 2 | .fenced => 3) + st.spareFor % 32 * 2 ^ 2 + st.cursor % 2 ^ 24 * 2 ^ 7

/-- `MBX.INTAKE_CURSOR_HI` of an intake. -/
def Intake.cursorHi (it : Intake) : Nat := it.index / 2 ^ 32 % 16 + it.shard % 4096 * 2 ^ 4 + it.epoch % 4096 * 2 ^ 16

/-- The ring that a function has selected, its fields read by `v`; zero where the code names none (R361). -/
def State.ringReg (s : State) (f : Nat) (v : Nat → Ring → Nat) : Nat :=
  match s.ringOf f (s.fn f).ringSel with
  | some r => v r (s.ring r)
  | none => 0

/-- SEQ of the newest audit entry. -/
def State.newestSeq (s : State) : Nat := s.sec.auditSeq - 1

/-- The partition that `SEC.PART_SELECT` describes (R410). -/
def State.secPart (s : State) (f : Nat) : Nat := if f = 0 then (s.fn f).secSel else f - 1

/-- The value of a register as a function reads it. High halves read as their low half latched them (R15), and write-only fields as zero. -/
def State.regValue (s : State) (f : Nat) (reg : Reg) : Nat :=
  let fn := s.fn f
  let port := s.port fn.portSel
  let lnk (v : Nat) : Nat := s.viewOf f (s.partOfPort fn.portSel) v
  let slc (k : Nat) : Nat := s.viewOf f (s.partOfSlice fn.slcSel) (tget 0 (s.slice fn.slcSel).counts k)
  let clk (k : Nat) : Nat := s.viewOf f (s.lowest (fn.cloakSel / 4)) (tget 0 (s.cloak fn.cloakSel).counts k)
  let stack := s.stack (fn.hbmSel % 32)
  let hbm (v : Nat) : Nat := s.viewOf f (s.partOfStack (fn.hbmSel % 32)) v
  let pc := fn.hbmSel / 32
  let edge := s.edge fn.edgeSel
  let edg (v : Nat) : Nat := s.viewOf f (s.partOfEdge fn.edgeSel) v
  match reg with
  | .aonTickLo => s.tick
  | .aonTickHi => (tget 0 fn.latch 0).toNat
  | .aonSide => s.power.sideWord
  | .mbxStatus => s.statusWord
  | .mbxHeartbeat => s.power.heartbeat
  | .mbxRingSelect => fn.ringSel
  | .mbxSqBaseLo => s.ringReg f fun _ g => g.sqBase.toNat
  | .mbxSqBaseHi => s.ringReg f fun _ _ => (tget 0 fn.latch 7).toNat
  | .mbxCqBaseLo => s.ringReg f fun _ g => g.cqBase.toNat
  | .mbxCqBaseHi => s.ringReg f fun _ _ => (tget 0 fn.latch 8).toNat
  | .mbxRingConfig => s.ringReg f fun r g => g.sizeLog2 % 16 + g.enable.toNat * 2 ^ 4 + s.roleOf r % 4 * 2 ^ 8
  | .mbxRingStatus => s.ringReg f fun _ g => g.sqHead % 4096 + g.cqTail % 4096 * 2 ^ 12 + g.phase.toNat * 2 ^ 24 + g.error.toNat * 2 ^ 25
  | .mbxRingInflight => s.ringReg f fun _ g => (g.inflight.filter fun c => c.started).length
  | .mbxDoorbell => 0
  | .mbxPartDoorbell _ => 0
  | .mbxApertureBaseLo => fn.apBase
  | .mbxApertureBaseHi => (tget 0 fn.latch 6).toNat
  | .mbxAperturePart => if f = 0 then fn.apPart else 0
  | .mbxIntakeStatus k => s.windowRead f k fun it => it.st % 4 + it.ringFull.toNat * 4 + it.stopStatus % 256 * 8
  | .mbxIntakeCursorLo k => s.windowRead f k fun it => it.index
  | .mbxIntakeCursorHi k => s.windowRead f k fun _ => (tget 0 fn.latch (if f = 0 then 16 + k else 4)).toNat
  | .mbxIntakeAppendLo k => s.windowRead f k fun _ => 0
  | .mbxIntakeAppendHi k => s.windowRead f k fun _ => 0
  | .mbxIntakeSamples k => s.windowRead f k fun it => tget 0 it.counts 0
  | .mbxIntakeRange k => s.windowRead f k fun it => tget 0 it.counts 1
  | .mbxIntakeWaitHost k => s.windowRead f k fun it => tget 0 it.counts 2
  | .mbxIntakeWaitRing k => s.windowRead f k fun it => tget 0 it.counts 3
  | .mbxIntakeIgnored k => s.windowRead f k fun it => tget 0 it.counts 4
  | .intCause => fn.cause.toNat
  | .intMask => fn.mask.toNat
  | .intHoldoff => fn.holdoff
  | .intApertureErrLo => fn.errAddr
  | .intApertureErrHi => (tget 0 fn.latch 5).toNat
  | .intApertureErrStatus => fn.errStatus % 256 + fn.errWrite.toNat * 2 ^ 8 + fn.errOverrun.toNat * 2 ^ 9
  | .coreSelect => fn.coreSel
  | .coreState => s.readCore f .coreState
  | .coreDraftLines => s.readCore f .coreDraftLines
  | .coreStall n => s.readCore f (.coreStall n)
  | .coreDropGen => s.readCore f .coreDropGen
  | .coreDropDraft => s.readCore f .coreDropDraft
  | .coreDropGroup => s.readCore f .coreDropGroup
  | .coreAttn => s.readCore f .coreAttn
  | .coreAttnFused => s.readCore f .coreAttnFused
  | .coreRouter => s.readCore f .coreRouter
  | .corePeriod => s.readCore f .corePeriod
  | .coreRound => s.readCore f .coreRound
  | .coreWallDrops => s.readCore f .coreWallDrops
  | .slcSelect => fn.slcSel
  | .slcConfig => s.viewOf f (s.partOfSlice fn.slcSel) (s.slcConfig fn.slcSel)
  | .slcHits => slc 0
  | .slcFills => slc 1
  | .slcWritebacks => slc 2
  | .slcBankCap => slc 3
  | .slcOwnerDrops => slc 4
  | .slcSramCe => slc 5
  | .slcSramRefill => slc 6
  | .slcCloakSelect => fn.cloakSel
  | .slcCloakSpilled => clk 0
  | .slcCloakReinjected => clk 1
  | .slcCloakDiscarded => clk 2
  | .slcCloakOverflow => clk 3
  | .slcCloakLate => clk 4
  | .hbmSelect => fn.hbmSel
  | .hbmStatus => hbm stack.statusWord
  | .hbmCe => hbm (tget 0 stack.ce pc)
  | .hbmUe => hbm (tget 0 stack.ue pc)
  | .hbmTagFail => hbm (tget 0 stack.tagFail pc)
  | .hbmRowsRepaired => hbm (tget 0 stack.rowsRepaired pc % 65536)
  | .hbmScrub => hbm (stack.passes % 65536 + stack.progress % 65536 * 2 ^ 16)
  | .telEdgeSelect => fn.edgeSel
  | .telEdgeVecIn => edg (tget 0 edge.counts 0)
  | .telEdgeVecOut => edg (tget 0 edge.counts 1)
  | .telEdgeXbarIn => edg (tget 0 edge.counts 2)
  | .telEdgeXbarOut => edg (tget 0 edge.counts 3)
  | .telEdgeXbarHbm => edg (tget 0 edge.counts 4)
  | .telEdgeSlots => edg (edge.slots s.slot)
  | .telWindowLo => s.care.windows - 1
  | .telWindowHi => (tget 0 fn.latch 1).toNat
  | .telSensorSelect => fn.sensorSel
  | .telSensor => s.sensorView f fn.sensorSel (int16 (tget 0 s.care.latest fn.sensorSel) + int16 (tget 0 s.care.maximum fn.sensorSel) * 2 ^ 16)
  | .telPowerSelect => fn.powerSel
  | .telPower => if f = 0 then tget 0 s.care.power fn.powerSel else 0
  | .telThrottle => if fn.sensorSel < 160 then s.sensorView f fn.sensorSel (tget 0 s.care.throttle fn.sensorSel) else 0
  | .telDuty => if fn.sensorSel < 160 then s.sensorView f fn.sensorSel (s.dutyOf fn.sensorSel + s.ceiling * 2 ^ 4) else 0
  | .lnkPortSelect => fn.portSel
  | .lnkPortStatus => lnk port.statusWord
  | .lnkLatency => lnk (port.compiled % 65536 + port.measured % 65536 * 2 ^ 16)
  | .lnkFecCorrected => lnk (tget 0 port.counts 0)
  | .lnkFrameFail => lnk (tget 0 port.counts 1)
  | .lnkBellResent => lnk (tget 0 port.counts 2)
  | .lnkBellHeld => lnk (tget 0 port.counts 3)
  | .lnkLate => lnk (tget 0 port.counts 4)
  | .lnkUnused => lnk (tget 0 port.counts 5)
  | .lnkInboundDrops => lnk (tget 0 port.counts 6)
  | .lnkBeatStatus => s.beat.statusWord
  | .lnkBeatEpochLo => s.slot / 2 ^ 20
  | .lnkBeatEpochHi => (tget 0 fn.latch 2).toNat
  | .lnkBeatErrors => if f = 0 then s.beat.errors else 0
  | .secState => s.secWord
  | .secSvnMin => s.sec.svnMin
  | .secBoots => s.sec.boots
  | .secPartSelect => if f = 0 then fn.secSel else 0
  | .secPartKeys => s.viewOf f (s.secPart f) (s.part (s.secPart f)).keysWord
  | .secAuditSeqLo => s.newestSeq
  | .secAuditSeqHi => (tget 0 fn.latch 3).toNat

/-- A register's 32 bits as a function reads them. -/
def State.readReg (s : State) (f : Nat) (reg : Reg) : W32 := BitVec.ofNat 32 (s.regValue f reg)

/-! ### Reads (R13, R15) -/

/-- Whether a register's fields are cleared by a read (RC, R12). -/
def Reg.rc : Reg → Bool
  | .mbxIntakeSamples _ | .mbxIntakeRange _ | .mbxIntakeWaitHost _ | .mbxIntakeWaitRing _ | .mbxIntakeIgnored _ => true
  | .intApertureErrStatus | .coreStall _ | .coreDropGen | .coreDropDraft | .coreDropGroup | .coreAttnFused | .coreWallDrops => true
  | .slcHits | .slcFills | .slcWritebacks | .slcBankCap | .slcOwnerDrops | .slcSramCe | .slcSramRefill => true
  | .slcCloakSpilled | .slcCloakReinjected | .slcCloakDiscarded | .slcCloakOverflow | .slcCloakLate => true
  | .hbmCe | .hbmUe | .hbmTagFail => true
  | .telEdgeVecIn | .telEdgeVecOut | .telEdgeXbarIn | .telEdgeXbarOut | .telEdgeXbarHbm | .telEdgeSlots | .telThrottle => true
  | .lnkFecCorrected | .lnkFrameFail | .lnkBellResent | .lnkBellHeld | .lnkLate | .lnkUnused | .lnkInboundDrops | .lnkBeatErrors => true
  | _ => false

/-- A count held to 32 bits (R90). -/
def sat32 (n : Nat) : Nat := if n < 2 ^ 32 then n else 2 ^ 32 - 1

/-- A counter of the selected core set, where the function reaches it. -/
def State.putCore (s : State) (f : Nat) (g : Core → Core) : State :=
  match s.selected (s.fn f).coreSel with
  | some (x, some c) => if s.reaches f (s.partOfSite x) then s.modCore c g else s
  | _ => s

/-- A counter of the intake in a function's window set. -/
def State.putIntake (s : State) (f k i n : Nat) : State :=
  match s.windowPart f k with
  | some p => s.modPart p fun part => { part with intake := { part.intake with counts := tset 0 part.intake.counts i n } }
  | none => s

/-- A counter that a read clears set to the events of the same cycle (R13), where the function's access reaches it. -/
def State.putCounter (s : State) (f : Nat) (reg : Reg) (n : Nat) : State :=
  let fn := s.fn f
  let slc (k : Nat) : State :=
    if s.reaches f (s.partOfSlice fn.slcSel) then s.modSlice fn.slcSel fun sl => { sl with counts := tset 0 sl.counts k n } else s
  let clk (k : Nat) : State :=
    if s.reaches f (s.lowest (fn.cloakSel / 4)) then s.modCloak fn.cloakSel fun x => { x with counts := tset 0 x.counts k n } else s
  let hbm (g : Stack → Stack) : State := if s.reaches f (s.partOfStack (fn.hbmSel % 32)) then s.modStack (fn.hbmSel % 32) g else s
  let edg (g : Edge → Edge) : State := if s.reaches f (s.partOfEdge fn.edgeSel) then s.modEdge fn.edgeSel g else s
  let lnk (k : Nat) : State :=
    if s.reaches f (s.partOfPort fn.portSel) then s.modPort fn.portSel fun l => { l with counts := tset 0 l.counts k n } else s
  match reg with
  | .mbxIntakeSamples k => s.putIntake f k 0 n
  | .mbxIntakeRange k => s.putIntake f k 1 n
  | .mbxIntakeWaitHost k => s.putIntake f k 2 n
  | .mbxIntakeWaitRing k => s.putIntake f k 3 n
  | .mbxIntakeIgnored k => s.putIntake f k 4 n
  | .intApertureErrStatus => s.modFn f fun fn => { fn with errStatus := n % 256, errWrite := bit n 8, errOverrun := bit n 9 }
  | .coreStall i => if i < 7 then s.putCore f fun core => { core with stalls := tset 0 core.stalls (bits fn.coreSel 12 4 * 8 + i) n } else s
  | .coreDropGen => s.putCore f fun core => { core with dropGen := n }
  | .coreDropDraft => s.putCore f fun core => { core with dropDraft := n }
  | .coreDropGroup => s.putCore f fun core => { core with dropGroup := n }
  | .coreWallDrops => s.putCore f fun core => { core with wallDrops := n }
  | .coreAttnFused =>
    match s.selected fn.coreSel with
    | some (x, _) => if s.reaches f (s.partOfSite x) then s.modSite x fun t => { t with fusedRuns := n } else s
    | none => s
  | .slcHits => slc 0
  | .slcFills => slc 1
  | .slcWritebacks => slc 2
  | .slcBankCap => slc 3
  | .slcOwnerDrops => slc 4
  | .slcSramCe => slc 5
  | .slcSramRefill => slc 6
  | .slcCloakSpilled => clk 0
  | .slcCloakReinjected => clk 1
  | .slcCloakDiscarded => clk 2
  | .slcCloakOverflow => clk 3
  | .slcCloakLate => clk 4
  | .hbmCe => hbm fun st => { st with ce := tset 0 st.ce (fn.hbmSel / 32) n }
  | .hbmUe => hbm fun st => { st with ue := tset 0 st.ue (fn.hbmSel / 32) n }
  | .hbmTagFail => hbm fun st => { st with tagFail := tset 0 st.tagFail (fn.hbmSel / 32) n }
  | .telEdgeVecIn => edg fun e => { e with counts := tset 0 e.counts 0 n }
  | .telEdgeVecOut => edg fun e => { e with counts := tset 0 e.counts 1 n }
  | .telEdgeXbarIn => edg fun e => { e with counts := tset 0 e.counts 2 n }
  | .telEdgeXbarOut => edg fun e => { e with counts := tset 0 e.counts 3 n }
  | .telEdgeXbarHbm => edg fun e => { e with counts := tset 0 e.counts 4 n }
  | .telEdgeSlots => edg fun e => { e with counts := tset 0 e.counts 5 (s.slot - n) }
  | .telThrottle =>
    if decide (fn.sensorSel < 160) && s.reaches f (s.lowest (fn.sensorSel / 20)) then
      { s with care := { s.care with throttle := tset 0 s.care.throttle fn.sensorSel n } }
    else s
  | .lnkFecCorrected => lnk 0
  | .lnkFrameFail => lnk 1
  | .lnkBellResent => lnk 2
  | .lnkBellHeld => lnk 3
  | .lnkLate => lnk 4
  | .lnkUnused => lnk 5
  | .lnkInboundDrops => lnk 6
  | .lnkBeatErrors => if f = 0 then { s with beat := { s.beat with errors := n } } else s
  | _ => s

/-- Traffic on the host link noted (R413). -/
def State.touchLink (s : State) : State := { s with power := { s.power with pcieTouched := true } }

/-- COUNTER_READ_CLEAR (R12, R13): the value before the events of the same cycle is returned, and they appear at the next read. A read that is not
of the whole register, aligned, returns all ones and clears nothing (R15). -/
def execCounterReadClear (f : Nat) (reg : Reg) (same : Nat) (whole : Bool) (s : State) : Host.Outcome State Fault Refusal :=
  .next (if s.fnLive f && (Reg.rc reg) then
      (if whole then (s.put (.read f (s.readReg f reg))).putCounter f reg (sat32 same) else s.put (.read f 0xFFFFFFFF)).touchLink
    else s)

/-- The latch and the value of the high half that a read of a low half latches (R15). -/
def State.latchOf (s : State) (f : Nat) (reg : Reg) : Option (Nat × Nat) :=
  match reg with
  | .aonTickLo => some (0, s.tick / 2 ^ 32)
  | .telWindowLo => some (1, (s.care.windows - 1) / 2 ^ 32)
  | .lnkBeatEpochLo => some (2, s.slot / 2 ^ 20 / 2 ^ 32)
  | .secAuditSeqLo => some (3, s.newestSeq / 2 ^ 32)
  | .mbxIntakeCursorLo k => some (if f = 0 then 16 + k else 4, s.windowRead f k Intake.cursorHi)
  | .intApertureErrLo => some (5, (s.fn f).errAddr / 2 ^ 32)
  | .mbxApertureBaseLo => some (6, (s.fn f).apBase / 2 ^ 32)
  | .mbxSqBaseLo => some (7, s.ringReg f fun _ g => g.sqBase.toNat / 2 ^ 32)
  | .mbxCqBaseLo => some (8, s.ringReg f fun _ g => g.cqBase.toNat / 2 ^ 32)
  | _ => none

/-- LOW_HALF_READ (R15): a read of a register that clears nothing; a low half latches its high half. A read that is not of the whole register, aligned,
returns all ones and latches nothing. -/
def execLowHalfRead (f : Nat) (reg : Reg) (whole : Bool) (s : State) : Host.Outcome State Fault Refusal :=
  .next (if !s.fnLive f || (Reg.rc reg) then s
    else if !whole then (s.put (.read f 0xFFFFFFFF)).touchLink
    else
      let s0 := (s.put (.read f (s.readReg f reg))).touchLink
      match s.latchOf f reg with
      | some x => s0.modFn f fun fn => { fn with latch := tset 0 fn.latch x.1 (BitVec.ofNat 32 x.2) }
      | none => s0)

/-! ### Parts of a write (R15, R363) -/

/-- A base of a ring's arrays as its two halves give it, aligned to 4 KiB. -/
def baseOf (hi lo : W32) : W64 := BitVec.ofNat 64 (hi.toNat * 2 ^ 32 + lo.toNat / 4096 * 4096)

/-- A change of the ring that a function has selected. -/
def State.modSelRing (s : State) (f : Nat) (g : Ring → Ring) : State :=
  match s.ringOf f (s.fn f).ringSel with
  | some r => s.modRing r g
  | none => s

/-! ### Interrupts (R13, R349) -/

/-- The messages of a list of vectors asked for. -/
def State.notifyAll (s : State) (f : Nat) (vs : List Nat) : State := vs.foldl (fun s v => s.notify f v) s

/-- A write of `INT.CAUSE` (R13, R349): each 1 written clears its bit; a bit that an event sets in the same cycle ends set, and asks for a message where
it was 0. -/
def State.clearCause (s : State) (f : Nat) (w : W32) (same : BitVec 16) : State :=
  let fn := s.fn f
  let new := same &&& ~~~fn.cause &&& ~~~fn.mask
  (s.setFn f { fn with cause := (fn.cause &&& ~~~(w.setWidth 16)) ||| same }).notifyAll f (maskList 16 new.toNat)

/-- A write of `INT.MASK` (R349): a cause that was set while masked sends its message on unmasking. -/
def State.writeMask (s : State) (f : Nat) (w : W32) : State :=
  let fn := s.fn f
  let mask : BitVec 16 := w.setWidth 16
  let open' := fn.cause &&& fn.mask &&& ~~~mask
  (s.setFn f { fn with mask := mask }).notifyAll f (maskList 16 open'.toNat)

/-- INT_CAUSE_CLEAR (R13, R349). -/
def execIntCauseClear (f : Nat) (w : W32) (same : BitVec 16) (s : State) : Host.Outcome State Fault Refusal :=
  .next (if !s.fnLive f then s else (s.clearCause f w same).touchLink)

/-- INT_MASK_WRITE (R349). -/
def execIntMaskWrite (f : Nat) (w : W32) (s : State) : Host.Outcome State Fault Refusal :=
  .next (if !s.fnLive f then s else (s.writeMask f w).touchLink)

/-- HOLDOFF_EXPIRY (R349): a vector's holdoff has elapsed, and the causes held in it are sent in one message; a vector masked since sends on unmasking. -/
def execHoldoffExpiry (f : Nat) (v : Nat) (s : State) : Host.Outcome State Fault Refusal :=
  let fn := s.fn f
  .next (match tget none fn.inHoldoff v with
    | none => s
    | some t0 =>
      if s.tick < t0 + fn.holdTicks then s
      else
        let held := fn.heldCauses.getLsbD v
        let s := s.setFn f { fn with inHoldoff := tset none fn.inHoldoff v none, heldCauses := fn.heldCauses &&& ~~~(BitVec.ofNat 16 (2 ^ v)) }
        if held && !fn.mask.getLsbD v then s.message f v else s)

/-! ### INTAKE_APPEND (R358) -/

/-- A shard's LENGTH raised by host software; what R358 does not allow is ignored and counted. -/
def Intake.append (it : Intake) (lo : W32) : Intake :=
  let len := lo.toNat + bits it.appendHi.toNat 0 5 * 2 ^ 32
  let j := bits it.appendHi.toNat 5 12
  let bad := { it with counts := tmod 0 it.counts 4 satInc32 }
  match it.shards[j]? with
  | none => bad
  | some sh =>
    if sh.shuffle || len < sh.len || 2 ^ 36 < len then bad else { it with shards := it.shards.set j { sh with len := len } }

/-- A write of the low half of `MBX.INTAKE_APPEND` through window `k` (R15, R358): it applies the pair. -/
def State.intakeAppend (s : State) (f k : Nat) (w : W32) : State :=
  match s.windowPart f k with
  | none => s
  | some p => (s.modPart p fun part => { part with intake := part.intake.append w }).settleIntake p

/-- INTAKE_APPEND (R15, R358). -/
def execIntakeAppend (f : Nat) (k : Nat) (w : W32) (s : State) : Host.Outcome State Fault Refusal :=
  .next (if !s.fnLive f then s else (s.intakeAppend f k w).touchLink)

/-! ### Register writes (R12, R15, R346, R362, R363) -/

/-- A partition's ring by the code of its doorbell (R361, R362): 0 to 3 its command rings, 4 its event ring. -/
def partRing (p code : Nat) : Option Nat := if code < 4 then some (8 + 4 * p + code) else if code = 4 then some (41 + p) else none

/-- The write of a register; `descs` is what the module reads from host memory when the write raises an SQ tail. -/
def State.writeReg (s : State) (f : Nat) (reg : Reg) (w : W32) (descs : List (Option (BitVec 512) × Dma)) : State :=
  let n := w.toNat
  match reg with
  | .mbxRingSelect => s.modFn f fun fn => { fn with ringSel := n % 64 }
  | .mbxSqBaseHi => s.modSelRing f fun g => { g with sqHi := w }
  | .mbxSqBaseLo => s.modSelRing f fun g => if g.enable then g else { g with sqBase := baseOf g.sqHi w }
  | .mbxCqBaseHi => s.modSelRing f fun g => { g with cqHi := w }
  | .mbxCqBaseLo => s.modSelRing f fun g => if g.enable then g else { g with cqBase := baseOf g.cqHi w }
  | .mbxRingConfig => s.ringConfig f w
  | .mbxApertureBaseHi => s.modFn f fun fn => { fn with apHi := w }
  | .mbxApertureBaseLo => s.modFn f fun fn =>
      let a := fn.apHi.toNat % 4096 * 2 ^ 32 + n
      if a % 2 ^ fn.bar4Log2 = 0 then { fn with apBase := a } else fn
  | .mbxAperturePart => if f = 0 then s.modFn f fun fn => { fn with apPart := n % 8 } else s
  | .mbxDoorbell => s.doorbell f (s.ringOf f) n descs
  | .mbxPartDoorbell k =>
    match s.windowPart f k with
    | some p => s.doorbell f (partRing p) n descs
    | none => s
  | .intCause => s.clearCause f w 0
  | .intMask => s.writeMask f w
  | .mbxIntakeAppendLo k => s.intakeAppend f k w
  | .mbxIntakeAppendHi k =>
    match s.windowPart f k with
    | some p => s.modPart p fun part => { part with intake := { part.intake with appendHi := w } }
    | none => s
  | .intHoldoff => s.modFn f fun fn => { fn with holdoff := n % 65536 }
  | .coreSelect => s.modFn f fun fn => { fn with coreSel := n % 65536 }
  | .slcSelect => s.modFn f fun fn => { fn with slcSel := n % 256 }
  | .slcCloakSelect => s.modFn f fun fn => { fn with cloakSel := n % 32 }
  | .hbmSelect => s.modFn f fun fn => { fn with hbmSel := n % 1024 }
  | .telEdgeSelect => s.modFn f fun fn => { fn with edgeSel := n % 32 }
  | .telSensorSelect => s.modFn f fun fn => { fn with sensorSel := n % 512 }
  | .telPowerSelect => s.modFn f fun fn => { fn with powerSel := n % 8 }
  | .lnkPortSelect => s.modFn f fun fn => { fn with portSel := n % 64 }
  | .secPartSelect => if f = 0 then s.modFn f fun fn => { fn with secSel := n % 8 } else s
  | _ => s

/-- REGISTER_WRITE (R12, R15): a write that is not a whole, aligned register completes without effect, as does one to fields that are not writable. -/
def execRegisterWrite (f : Nat) (reg : Reg) (w : W32) (whole : Bool) (descs : List ((Option (BitVec 512)) × Dma)) (s : State) :
    Host.Outcome State Fault Refusal :=
  .next (if s.fnLive f && whole then (s.writeReg f reg w descs).touchLink else s)

/-! ### The HBM aperture (R346, R347) -/

/-- A failed access recorded (R347, Table 4 of chapter 12). -/
def State.apFail (s : State) (f a : Nat) (write : Bool) (status : Nat) : State :=
  let s := s.modFn f fun fn =>
    if fn.errStatus = 0 then { fn with errAddr := a % 2 ^ 44, errStatus := status, errWrite := write } else { fn with errOverrun := true }
  ((s.put (if write then .apWrite f false else .apRead f none)).put (.aer f)).raise f (if f = 0 then 10 else 6)

/-- What a function's aperture reaches: all ones, nothing for a partition that is none, or a partition's memory (R345). -/
inductive ApTarget
  | ones
  | stranger (slice : Nat)
  | part (p : Nat)

/-- The target of an access at address `a` through a function's aperture. -/
def State.apTarget (s : State) (f a : Nat) : ApTarget :=
  let k := if f = 0 then (s.fn 0).apPart else f - 1
  if !s.isPart k then .stranger (s.homeOfPage (s.lowest k) (a / pageBytes))
  else if f = 0 && ((s.fn (k + 1)).enabled || s.locked k) then .ones
  else .part k

/-- An access dropped by the slice that it reaches, since it names a partition that does not own it (R226). -/
def State.ownerDrop (s : State) (k : Nat) : State := s.modSlice k fun sl => { sl with counts := tmod 0 sl.counts 4 satInc32 }

/-- APERTURE_READ (R346, R347). -/
def execApertureRead (f : Nat) (off : Nat) (len : Nat) (s : State) : Host.Outcome State Fault Refusal :=
  let a := ((s.fn f).apBase + off) % 2 ^ 44
  .next (if !s.fnLive f || decide (2 ^ (s.fn f).bar4Log2 < off + len) || len == 0 then s
    else
      let s := s.touchLink
      match s.apTarget f a with
      | .ones => s.put (.apRead f (some (List.replicate len 0xFF)))
      | .stranger k => (s.ownerDrop k).apFail f a false stNotPermitted
      | .part p =>
        if pageBytes < a % pageBytes + len then s.apFail f a false stBadArg
        else
          match s.readMem p a len with
          | .ok s b => s.put (.apRead f (some b))
          | .fail s c => s.apFail f a false c)

/-- APERTURE_WRITE (R346, R347): a write that fails is dropped, with no line or page altered. -/
def execApertureWrite (f : Nat) (off : Nat) (bytes : List Byte) (s : State) : Host.Outcome State Fault Refusal :=
  let a := ((s.fn f).apBase + off) % 2 ^ 44
  .next (if !s.fnLive f || decide (2 ^ (s.fn f).bar4Log2 < off + bytes.length) || bytes.isEmpty then s
    else
      let s := s.touchLink
      match s.apTarget f a with
      | .ones => s
      | .stranger k => (s.ownerDrop k).apFail f a true stNotPermitted
      | .part p =>
        if pageBytes < a % pageBytes + bytes.length then s.apFail f a true stBadArg
        else if (s.part p).job == .running then s.apFail f a true stNotPermitted
        else
          match s.readMem p a bytes.length with
          | .fail s c => s.apFail f a true c
          | .ok s _ =>
            match s.writeMem p a bytes with
            | (s', c) => if c = stOK then s'.put (.apWrite f true) else s.apFail f a true c)

end Sys2Proof.Machine
end

