-- ==== Sys2Proof/Machine/Report.lean ====
section
/-! DEFINITION. The attestation report (R401, Table 8 of chapter 14) and the signatures that the module's alias keys make. -/

namespace Sys2Proof.Machine

open Sys2Proof

/-- `n` bytes of zero. -/
def zeros (n : Nat) : List Byte := List.replicate n 0

/-- A key as its bytes. -/
def keyBytes (k : Nat × Nat) : List Byte := leBytes 32 k.1 ++ leBytes 1952 k.2

/-- The enrolled installer public keys in index order (R401). -/
def State.credBytes (s : State) : List Byte := s.sec.creds.flatMap fun e => match e.2 with | some k => keyBytes k | none => []

/-- A repair record as bytes of 16, in the order of its fields; the manual gives no layout (DESIGN CHOICE, entry 30). -/
def repairBytes (r : Repair) : List Byte := leBytes 1 r.kind ++ leBytes 1 r.a ++ leBytes 2 r.b ++ leBytes 4 r.c ++ zeros 8

/-- All repair records as bytes. -/
def State.repairBytes (s : State) : List Byte := s.sec.repairs.flatMap Sys2Proof.Machine.repairBytes

/-- What the report says of each partition slot: `v` of a partition that the view covers, 0 of every other entry. -/
def State.slots (s : State) (view : Option Nat) (v : Part → Nat) : List Nat :=
  (upFrom 0 8).map fun k => if s.isPart k && (view.isNone || view == some k) then v (s.part k) else 0

/-- The digest of the newest audit entry. -/
def State.newestDigest (s : State) : BitVec 512 := match s.sec.audit with | e :: _ => Config.sha512 (auditBytes e) | [] => 0

/-- The report's bytes [0, 896) for a view: every partition, or a VF's own (R401). -/
def State.reportBody (s : State) (view : Option Nat) (nonce : List Byte) : List Byte :=
  leBytes 4 1 ++ zeros 4 ++ padTo 32 nonce ++ leBytes 16 Config.serial.toNat ++ leBytes 2 Config.stepping ++ leBytes 1 s.sec.level ++ leBytes 1 s.count
    ++ leBytes 4 s.runningBank.svn ++ leBytes 64 s.runningBank.digest.toNat ++ leBytes 1 s.runningBank.keySet ++ leBytes 1 s.sec.diag.isSome.toNat
    ++ (s.slots view Part.tdi).flatMap (leBytes 1) ++ zeros 6 ++ leBytes 8 s.newestSeq ++ leBytes 64 s.newestDigest.toNat
    ++ leBytes 64 (Config.sha512 s.repairBytes).toNat ++ leBytes 64 (Config.sha512 s.credBytes).toNat
    ++ (s.slots view fun part => if part.job == .none then 0 else part.digest.toNat).flatMap (leBytes 64)
    ++ (s.slots view Part.keyGen).flatMap (leBytes 1) ++ zeros 32

/-- The report with its two signatures. -/
def State.report8 (s : State) (view : Option Nat) (nonce : List Byte) : List Byte :=
  let b := s.reportBody view nonce
  b ++ padTo 3373 (Config.sign b)

/-- The view of a function (R401, R402): PF0 sees every partition. -/
def fnView (f : Nat) : Option Nat := if f = 0 then none else some (f - 1)

end Sys2Proof.Machine
end

