-- ==== Sys2Proof/Machine/Endpoint.lean ====
section
/-! DEFINITION. The endpoint: resets of its functions (R344), its data link, virtual functions (R343), BARs (R345), IDE and TDISP (R409), and SPDM over
DOE (R402). -/

namespace Sys2Proof.Machine

open Sys2Proof

/-! ### Function level resets (R344) -/

/-- A ring emptied: no command outstanding in it is ever completed. -/
def Ring.emptied (g : Ring) : Ring := { g with inflight := [], waiting := [], sqHead := g.sqTail }

/-- Rings emptied. -/
def State.emptyRings (s : State) (rs : List Nat) : State := rs.foldl (fun s r => s.modRing r Ring.emptied) s

/-- A status that the manual does not give (log entry 5). -/
def State.openStatus (s : State) : Nat × State := ((Config.freeValue 8 s.fresh).toNat, { s with fresh := s.fresh + 1 })

/-- A partition's running step ended by an FLR (R344); the manual states no status for it, so that it is a free value. -/
def State.endByReset (s : State) (p : Nat) : State :=
  if (s.part p).job != .running then s
  else match s.openStatus with | (c, s) => s.endStep p c

/-- What an FLR does to the partition that a function drives. -/
def State.resetPart (s : State) (p : Nat) : State :=
  let s := (s.endByReset p).stopIntake p 0
  s.emptyRings ((upFrom (8 + 4 * p) 4) ++ [41 + p])

/-- A locked or running TDISP interface moved to ERROR, with the step of its partition ended (R409). -/
def State.tdiError (s : State) (p : Nat) : State :=
  if s.locked p then (s.modPart p fun part => { part with tdi := 3 }).endStep p stFenced else s

/-- A management ring whose role binding has ended (R364). -/
def Ring.unbound (g : Ring) : Ring := { g with role := 0, cred := 0xFF, challenge := none }

/-- An FLR of a function (R344, R364, R409). -/
def State.flr (s : State) (f : Nat) : State :=
  if f = 0 then
    let s := (s.emptyRings (upFrom 0 8 ++ [40]))
    let s := (upFrom 0 8).foldl (fun s r => s.modRing r Ring.unbound) s
    s.partList.foldl (fun s p => if (s.fn (p + 1)).enabled then s else s.resetPart p) s
  else if (s.fn f).enabled && s.isPart (f - 1) then (s.tdiError (f - 1)).resetPart (f - 1)
  else if (s.fn f).enabled then s.emptyRings (upFrom (8 + 4 * (f - 1)) 4 ++ [40 + f])
  else s

/-- An FLR of every function. -/
def State.flrAll (s : State) : State := (upFrom 0 9).foldl (fun s f => s.flr f) s

/-- FUNCTION_LEVEL_RESET (R344). -/
def execFunctionLevelReset (f : Nat) (s : State) : Host.Outcome State Fault Refusal := .next ((s.flr f).settleRings)

/-- HOT_RESET (R344). -/
def execHotReset (s : State) : Host.Outcome State Fault Refusal := .next (s.flrAll.settleRings)

/-- DL_DOWN (R344): interrupts raised from now on are held as pending. -/
def execDlDown (s : State) : Host.Outcome State Fault Refusal :=
  .next ({ s.flrAll with power := { s.flrAll.power with linkUp := false, l0p := false } }.settleRings)

/-- NUMVFS_CLEAR (R344): the VFs are gone. -/
def execNumvfsClear (s : State) : Host.Outcome State Fault Refusal :=
  let s := s.flrAll
  let s := (upFrom 1 8).foldl (fun s f => if (s.fn f).enabled then s.modFn f fun fn => { fn with enabled := false } else s) s
  .next ({ s with power := { s.power with numVfs := 0 } }.settleRings)

/-- A function's held messages sent (R344). -/
def State.sendHeld (s : State) (f : Nat) : State :=
  let l := (s.fn f).linkHeld
  if l = [] then s else l.foldl (fun s v => s.put (.msix f v)) (s.modFn f fun fn => { fn with linkHeld := [] })

/-- DL_UP (R344, R443): the link comes up once PERST# is released and the endpoint's rail is up. -/
def execDlUp (s : State) : Host.Outcome State Fault Refusal :=
  .next (if s.power.linkUp || !s.power.perst || !s.power.pwrOk then s
    else (upFrom 0 9).foldl (fun s f => s.sendHeld f) { s with power := { s.power with linkUp := true } })

/-! ### Virtual functions and BARs (R343, R345, R409) -/

/-- VF_ENABLE (R343): the partition that the VF serves is driven through it from now on. -/
def execVfEnable (f : Nat) (s : State) : Host.Outcome State Fault Refusal :=
  .next (if f = 0 || 8 < f || (s.fn f).enabled then s
    else { s.modFn f fun fn => { fn with enabled := true } with power := { s.power with numVfs := max s.power.numVfs f } })

/-- BAR_CHANGE (R345, R409): BAR4 is resizable in powers of two from 64 GiB to 2 TiB. -/
def execBarChange (f : Nat) (bar4 : Nat) (s : State) : Host.Outcome State Fault Refusal :=
  .next (if !s.fnLive f then s
    else
      let s := if f = 0 then s else s.tdiError (f - 1)
      if 36 ≤ bar4 && bar4 ≤ 41 then s.modFn f fun fn => { fn with bar4Log2 := bar4 } else s)

/-! ### IDE and TDISP (R409) -/

/-- IDE_FAILURE (R409): the function's streams are lost. -/
def execIdeFailure (f : Nat) (s : State) : Host.Outcome State Fault Refusal :=
  .next (if !s.fnLive f then s
    else
      let s := s.modFn f fun fn => { fn with ide := [] }
      if f = 0 then s else s.tdiError (f - 1))

/-- Requests that move a TDISP interface (TDISP's codes, PRESUMED, entry 31): lock, start, stop. -/
def tdiNext (st req : Nat) : Option Nat :=
  if req = 0x83 && st = 0 then some 1
  else if req = 0x86 && st = 1 then some 2
  else if req = 0x87 then some 0
  else none

/-- TDISP_REQUEST (R409), inside an SPDM secured session of the VF or of PF0. -/
def execTdispRequest (f : Nat) (req : Nat) (s : State) : Host.Outcome State Fault Refusal :=
  .next (if f = 0 || !s.fnLive f || !s.isPart (f - 1) || ((s.fn f).spdm != 5 && (s.fn 0).spdm != 5) then s
    else
      match tdiNext (s.part (f - 1)).tdi req with
      | some st => s.modPart (f - 1) fun part => { part with tdi := st }
      | none => s)

/-- IDE_KM_REQUEST (R409): stream 0 is the link stream, 1 to 8 the selective ones. -/
def execIdeKmRequest (f : Nat) (sid : Nat) (s : State) : Host.Outcome State Fault Refusal :=
  .next (if !s.fnLive f || (s.fn f).spdm != 5 || 8 < sid then s else s.modFn f fun fn => { fn with ide := addOnce fn.ide sid })

/-! ### SPDM (R402); codes and the order of messages are those of SPDM 1.3 (PRESUMED, entry 31) -/

/-- An answer of a function's responder, its session state then `st`. -/
def State.spdmAnswer (s : State) (f st code : Nat) (bytes : List Byte) : State :=
  (s.modFn f fun fn => { fn with spdm := st }).put (.spdm f code bytes)

/-- A request answered where the session has reached state `need`, and with an ERROR otherwise. -/
def State.spdm (s : State) (f need : Nat) (next : Nat → Nat) (code : Nat) (bytes : List Byte) : State :=
  if !s.fnLive f || !s.power.fwReady then s
  else
    let st := (s.fn f).spdm
    if st < need then s.put (.spdm f 0x7F []) else s.spdmAnswer f (next st) code bytes

/-- The measurements through a function: firmware digest, repair-record digest, partition configuration, and the report (R402). -/
def State.measurements (s : State) (f : Nat) (nonce : List Byte) : List Byte :=
  leBytes 64 s.runningBank.digest.toNat ++ leBytes 64 (Config.sha512 s.repairBytes).toNat ++ leBytes 1 s.count ++ s.report8 (fnView f) nonce

/-- GET_VERSION: a session in negotiation starts over. -/
def execGetVersion (f : Nat) (s : State) : Host.Outcome State Fault Refusal := .next (s.spdm f 0 (fun _ => 1) 0x04 [0x13])

/-- GET_CAPABILITIES. -/
def execGetCapabilities (f : Nat) (s : State) : Host.Outcome State Fault Refusal := .next (s.spdm f 1 (fun st => max st 2) 0x61 [])

/-- NEGOTIATE_ALGORITHMS: the algorithms of R402. -/
def execNegotiateAlgorithms (f : Nat) (s : State) : Host.Outcome State Fault Refusal := .next (s.spdm f 2 (fun st => max st 3) 0x63 [])

/-- GET_DIGESTS: the digest of slot 0's chain. -/
def execGetDigests (f : Nat) (s : State) : Host.Outcome State Fault Refusal :=
  .next (s.spdm f 3 id 0x01 (leBytes 64 (Config.sha512 Config.certificates).toNat))

/-- GET_CERTIFICATE: slot 0 holds the alias chain. -/
def execGetCertificate (f : Nat) (s : State) : Host.Outcome State Fault Refusal := .next (s.spdm f 3 id 0x02 Config.certificates)

/-- CHALLENGE: the nonce, with the measurements' digest, signed. -/
def execChallenge (f : Nat) (nonce : List Byte) (s : State) : Host.Outcome State Fault Refusal :=
  .next (s.spdm f 3 id 0x03 (Config.sign (nonce ++ s.measurements f nonce)))

/-- GET_MEASUREMENTS. -/
def execGetMeasurements (f : Nat) (nonce : List Byte) (s : State) : Host.Outcome State Fault Refusal :=
  .next (s.spdm f 3 id 0x60 (s.measurements f nonce))

/-- KEY_EXCHANGE. -/
def execKeyExchange (f : Nat) (s : State) : Host.Outcome State Fault Refusal := .next (s.spdm f 3 (fun _ => 4) 0x64 [])

/-- FINISH: the secured session is established, with fresh keys. -/
def execFinish (f : Nat) (s : State) : Host.Outcome State Fault Refusal :=
  .next (if (s.fn f).spdm = 4 then (s.spdm f 4 (fun _ => 5) 0x65 []).modFn f fun fn => if fn.spdm = 5 then { fn with spdmKeys := 0 } else fn
    else s.spdm f 6 id 0x65 [])

/-- HEARTBEAT. -/
def execSpdmHeartbeat (f : Nat) (s : State) : Host.Outcome State Fault Refusal := .next (s.spdm f 5 id 0x68 [])

/-- KEY_UPDATE: the session's keys are replaced. -/
def execKeyUpdate (f : Nat) (s : State) : Host.Outcome State Fault Refusal :=
  .next (if (s.fn f).spdm = 5 && s.fnLive f && s.power.fwReady then
      (s.spdm f 5 id 0x69 []).modFn f fun fn => { fn with spdmKeys := fn.spdmKeys + 1 }
    else s.spdm f 5 id 0x69 [])

/-- END_SESSION: the session is over, what was negotiated stays. -/
def execEndSession (f : Nat) (s : State) : Host.Outcome State Fault Refusal := .next (s.spdm f 5 (fun _ => 3) 0x6C [])

end Sys2Proof.Machine
end

