-- ==== Sys2Proof/Machine/ImageProg.lean ====
section
/-! DEFINITION. The rules that `JOB_LOAD` enforces on the programs of an image (R24): their form (R451), their operations (R43, R61, R65, R67, R100 to
R103, R112, R115, R118, R121, R125, R126, R128, R146, R157, R259, R262, R453), and what a static reading of a program tells (R82, R119, R273, R319). -/

namespace Sys2Proof.Machine

open Sys2Proof

/-- An instruction of a program: its sequencer, its index, its word, and the index and word of the TASK_OPEN whose body holds it. -/
structure Ins where
  q : Stream
  idx : Nat
  n : Nat
  body : Option (Nat × Nat)

/-- A program's instructions with the bodies they lie in (R451): a body ends with its TASK_CLOSE, which still belongs to it. -/
def walkProg (q : Stream) : Nat → Option (Nat × Nat) → List (BitVec 128) → List Ins
  | _, _, [] => []
  | i, b, w :: l =>
    let n := w.toNat
    let next := if opcode n = 0xF0 then some (i, n) else if opcode n = 0xF1 then none else b
    { q := q, idx := i, n := n, body := b } :: walkProg q (i + 1) next l

/-- The program of a sequencer in a core's configuration. -/
def CoreCfg.prog (cfg : CoreCfg) : Stream → List (BitVec 128)
  | .F => cfg.progF | .B => cfg.progB | .U => cfg.progU
/-- The tile context table of a sequencer in a core's configuration. -/
def CoreCfg.ctx (cfg : CoreCfg) : Stream → SMap (BitVec 256)
  | .F => cfg.ctxF | .B => cfg.ctxB | .U => cfg.ctxU
/-- The instructions of one program. -/
def insOf (cfg : CoreCfg) (q : Stream) : List Ins := walkProg q 0 none (CoreCfg.prog cfg q)
/-- The instructions of a core's three programs. -/
def allIns (cfg : CoreCfg) : List Ins := insOf cfg .F ++ insOf cfg .B ++ insOf cfg .U
/-- The context entry that an operation names, as a number. -/
def Ins.ctx (cfg : CoreCfg) (i : Ins) : Nat := (tget 0 (CoreCfg.ctx cfg i.q) (opCtx i.n)).toNat

/-! ### Classes of opcodes (R101, R126, R156, R67) -/

/-- MMA, MMA_ACC, MMA_WG, MMA_ACC_WG. -/
def isCube (o : Nat) : Bool := decide (0x10 ≤ o) && decide (o ≤ 0x13)
/-- ACC_LOAD, DRAIN, DRAIN_ADD. -/
def isPort (o : Nat) : Bool := o == 0x14 || o == 0x18 || o == 0x19
/-- MMA_WG and MMA_ACC_WG. -/
def isWg (o : Nat) : Bool := o == 0x12 || o == 0x13
/-- Attention commands. -/
def isAttn (o : Nat) : Bool := (decide (0x20 ≤ o) && decide (o ≤ 0x25)) || (decide (0x28 ≤ o) && decide (o ≤ 0x2B))
/-- Row-unit operations. -/
def isRow (o : Nat) : Bool := decide (0x40 ≤ o) && decide (o ≤ 0x47)
/-- Vector-unit operations. -/
def isVec (o : Nat) : Bool := (decide (0x60 ≤ o) && decide (o ≤ 0x68)) || (decide (0x6A ≤ o) && decide (o ≤ 0x6C)) || (decide (0x70 ≤ o) && decide (o ≤ 0x72))
/-- Control operations. -/
def isCtl (o : Nat) : Bool := decide (0xF0 ≤ o) && decide (o ≤ 0xF7)
/-- Operations that issue from a body. -/
def isWork (o : Nat) : Bool := isCube o || isPort o || isAttn o || isRow o || isVec o

/-- Whether a word is zero outside the fields given by their lowest bit and width. -/
def fieldsOnly (n : Nat) (fields : List (Nat × Nat)) : Bool := n == (fields.map fun f => bits n f.1 f.2 * 2 ^ f.1).sum

/-- The fields of a control operation (Table 4 of chapter 3), the opcode and the stream among them. -/
def ctlFields (o : Nat) : List (Nat × Nat) :=
  (0, 10) :: match o with
    | 0xF0 => [(10, 1), (12, 12), (24, 16), (40, 8), (48, 13), (64, 11)]
    | 0xF1 => [(12, 12), (24, 16), (40, 16)]
    | 0xF2 => [(10, 11), (21, 16), (37, 1), (38, 2)]
    | 0xF3 => [(10, 12)]
    | 0xF4 => [(10, 14), (24, 32)]
    | 0xF5 => [(10, 14), (24, 32)]
    | 0xF6 => [(10, 14)]
    | _ => []

/-! ### The form of a program (R451) -/

/-- What stands at an index of a program. -/
def insAt (l : List Ins) (k : Nat) : Option Ins := l.find? fun i => i.idx == k

/-- The rules of R451 on one instruction of a program. -/
def Ins.formOk (l : List Ins) (i : Ins) : Bool :=
  let o := opcode i.n
  let inBody := i.body.isSome
  let target := bits i.n 10 11
  if o = 0xF0 then
    let r := ctlRepeat i.n
    !inBody && l.any (fun c => opcode c.n == 0xF1 && c.body == some (i.idx, i.n))
      && (r == 0 || l.any fun c => c.idx == r && c.body == some (i.idx, i.n))
  else if o = 0xF1 then (match i.body with | some b => ctlLayer i.n == ctlLayer b.2 | none => false)
  else if o = 0xF2 then
    decide (target < i.idx) && (match insAt l target with
      | some t => if inBody then t.body == i.body && !bit i.n 37 else t.body.isNone
      | none => false)
  else if o = 0xF3 then !inBody
  else if o = 0xF6 then l.any fun c => decide (c.idx < i.idx) && opcode c.n == 0xF5 && ctlBell c.n == ctlBell i.n
  else if o = 0xF7 then !inBody && i.idx + 1 == l.length
  else if isWork o then inBody
  else true

/-- R451 on a program, with its stream and reserved fields (R60, R65, R67): its last instruction is SECTION_END. -/
def progForm (cfg : CoreCfg) (q : Stream) : Bool :=
  let l := insOf cfg q
  decide (l.length ≤ 2048) && (match l.getLast? with | some i => opcode i.n == 0xF7 | none => false)
    && l.all fun i =>
      let o := opcode i.n
      (isWork o || isCtl o) && opStream i.n == streamPass q && i.formOk l && (!isCtl o || fieldsOnly i.n (ctlFields o))

/-! ### Passes and addresses (R103) -/

/-- The greatest pass number of a loop level at an instruction: COUNT − 1 of the loops of that level that hold it. -/
def maxPass (l : List Ins) (idx level : Nat) : Nat :=
  (l.filter fun j => opcode j.n == 0xF2 && bits j.n 38 2 == level && decide (bits j.n 10 11 ≤ idx) && decide (idx ≤ j.idx)).foldl
    (fun m j => max m (bits j.n 21 16)) 0

/-- The pass numbers that an operation meets at the level by which its context entry steps it. -/
def Ins.passes (cfg : CoreCfg) (i : Ins) : List (SMap Nat) :=
  let x := i.ctx cfg
  let lv := bits x 43 2
  if bit x 45 then (upFrom 0 (maxPass (insOf cfg i.q) i.idx lv + 1)).map fun p => [(lv, p)] else [[]]

/-- The stepped address of operand `k` at some pass numbers. -/
def Ins.addr (cfg : CoreCfg) (i : Ins) (k : Nat) (ps : SMap Nat) : Nat :=
  ctxStep (i.ctx cfg) ps k (if k = 0 then opA i.n else if k = 1 then opB i.n else opC i.n)

/-- Words of scratchpad (R61). -/
def spadWords : Nat := 0x18000

/-- Words that `rows` × `cols` elements reach from their address: those up to the last element. -/
def extent (linear : Bool) (t rows cols : Nat) : Nat :=
  ceilDiv (if linear then rows * cols * typeBits t else blockBit 0 t cols (rows - 1) (cols - 1) + typeBits t) 128

/-- Whether an operand that an operation has lies in scratchpad at every pass, aligned to a line where it is in block layout. An address field that the
opcode does not use is not looked at (DESIGN CHOICE, entry 82). -/
def Ins.addrOk (cfg : CoreCfg) (i : Ins) (k words : Nat) (lines : Bool) : Bool :=
  (i.passes cfg).all fun ps => let a := i.addr cfg k ps; decide (a + words ≤ spadWords) && decide (a < spadWords) && (!lines || a % 4 == 0)

/-- The context entry's own rules: a valid record address (R61), and reserved fields zero (R102). A valid extent of 0 is accepted, and no row, column or step is
then valid (DESIGN CHOICE, entry 83). -/
def Ins.ctxOk (cfg : CoreCfg) (i : Ins) : Bool :=
  let x := i.ctx cfg
  decide (ctxScale x < spadWords) && bits x 60 4 == 0 && bits x 228 28 == 0

/-- DRAFT and LAYER equal to the task's (R100). -/
def Ins.taskOk (i : Ins) : Bool :=
  match i.body with
  | some b => opDraft i.n == bit b.2 10 && opLayer i.n == ctlLayer b.2
  | none => false

/-! ### Engine operations (R43, R100, R112, R115, R118, R121, R125) -/

/-- Whether two types form an operand pair of Table 7 of chapter 2 (R43). -/
def isPair (a b : Nat) : Bool :=
  match a with
  | 0 => b == 0 | 1 => b == 1 || b == 2 | 2 => b == 1 || b == 2 | 3 => b == 3 | 4 => b == 4 | 8 => b == 8 | _ => false

/-- The blocks of a region: engine, and block number in its virtual accumulator (R106, R112). -/
def regionOf (n : Nat) : List (Nat × Nat) :=
  let es := opEngines n
  let nb := opN n / 8
  (upFrom 0 (opM n / 8)).flatMap fun br => (upFrom 0 nb).map fun bc =>
    (es.getD (br % es.length) 0, opAcc n * 8 + br / es.length * nb + bc)

/-- Whether two regions share a block. -/
def regionsMeet (a b : Nat) : Bool := (regionOf a).any fun x => decide (x ∈ regionOf b)

/-- Whether a pad value is exactly representable in a type (R118). -/
def padFits (v : Val) (t : Nat) : Bool :=
  match v with
  | .fin .. =>
    if t == 8 then true
    else if t == 4 then (upFrom 0 256).any fun k => (v.sub (ofGrid ((k : Int) - 128) 0)).isZero
    else (v.sub (decodeFloat t (convert t v).bits)).isZero
  | _ => t != 8 && t != 4 && decodeFloat t (convert t v).bits == v

/-- The fields that Table 3 of chapter 4 leaves unused are zero. -/
def unusedZero (n : Nat) : Bool :=
  if isCube (opcode n) then opC n == 0
  else bits n 18 8 == 0 && bits n 36 10 == 0 && opA n == 0 && opB n == 0

/-- Earlier operations of the same body. -/
def Ins.before (l : List Ins) (i : Ins) : List Ins := l.filter fun j => j.body == i.body && decide (j.idx < i.idx)
/-- All operations of the same body. -/
def Ins.mates (l : List Ins) (i : Ins) : List Ins := l.filter fun j => j.body == i.body

/-- Whether an engine configuration gives a valid SPILL_ADDR (R115). -/
def spillOk (eng : Nat) : Bool := decide (bits eng 128 20 + 0x4000 ≤ spadWords)

/-- An engine operation's rules. Of the operands that the opcode uses the start address is checked, as R100 says, and not where the tile ends (DESIGN CHOICE,
entry 82). -/
def Ins.engineOk (cfg : CoreCfg) (l : List Ins) (i : Ins) : Bool :=
  let n := i.n
  let o := opcode n
  let cube := isCube o
  let eng := cfg.engine.toNat
  let reg := regionOf n
  let pad := decodeFloat 5 (bits eng (32 * opPad n) 32)
  let mates := i.mates l
  i.taskOk && i.ctxOk cfg && !(opEngines n).isEmpty && unusedZero n
    && (!cube || isPair (opAType n) (opBType n))
    && decide (opCType n ≤ 5) && !(opCType n == 3 && opN n % 16 != 0)
    && (!(o == 0x14 || o == 0x19) || opCType n == 5)
    && (if cube then i.addrOk cfg 0 0 true && i.addrOk cfg 1 0 true else i.addrOk cfg 2 0 true)
    && reg.all (fun x => x.2 / 64 == opAcc n / 8 && bits eng (160 + 2 * (x.2 / 8)) 2 == streamPass i.q)
    && (!reg.any (fun x => decide (128 ≤ x.2)) || spillOk eng)
    && (!cube || (padFits pad (opAType n) && padFits pad (opBType n)))
    && (!((o == 0x11 || o == 0x13) && opDraft n) || reg.all fun x =>
          (i.before l).any fun j => (opcode j.n == 0x10 || opcode j.n == 0x12 || opcode j.n == 0x14) && decide (x ∈ regionOf j.n))
    && (!isWg o || i.q == .U)
    && (!cube || mates.all fun j => !isCube (opcode j.n) || isWg (opcode j.n) == isWg o || !regionsMeet n j.n)
    && (!(o == 0x19) || mates.all fun j => !isWg (opcode j.n) || !regionsMeet n j.n)
    && (!(o == 0x18) || mates.all fun j => !isWg (opcode j.n) || !regionsMeet n j.n || opCType n == 5)

/-! ### Row, vector and attention operations (R126, R128, R146, R157, R453) -/

/-- Whether a type code is defined (R16). -/
def codeDefined (t : Nat) : Bool := decide (t ≤ 6) || t == 8

/-- The types that an opcode allows for operand `k`: X, Y or Z (Tables 4, 6 and 8 of chapter 5). In a field that the opcode does not use, any defined code
(R16). -/
def typeAllowed (o k t : Nat) : Bool :=
  let f := t == 0 || t == 5
  if isRow o then f
  else match o, k with
    | 0x60, _ => f || t == 6 | 0x61, _ => f || t == 6
    | 0x62, _ => f
    | 0x63, 2 => f || t == 6 | 0x63, _ => f
    | 0x64, _ => f | 0x65, _ => f
    | 0x66, 1 => codeDefined t | 0x66, _ => decide (t ≤ 6)
    | 0x67, 1 => codeDefined t | 0x67, _ => f
    | 0x68, 0 => f | 0x68, 2 => t == 5 | 0x68, _ => codeDefined t
    | 0x6A, 2 => f | 0x6A, _ => codeDefined t
    | 0x6B, 1 => codeDefined t | 0x6B, _ => f
    | 0x70, 0 => f | 0x70, 1 => t == 5 | 0x70, _ => t == 6
    | 0x71, 0 => f | 0x71, 1 => t == 5 | 0x71, _ => t == 6
    | _, _ => codeDefined t

/-- The operands that a row or vector operation has, as operand number and whether it is an input. -/
def operandsOf (o : Nat) : List (Nat × Bool) :=
  let x := (0, true)
  let y := (1, true)
  let z := (2, false)
  if o == 0x45 || o == 0x47 || o == 0x60 || o == 0x61 || o == 0x62 || o == 0x64 || o == 0x65 then [x, y, z]
  else if o == 0x63 then [x, y, (2, true), z]
  else if o == 0x68 then [x, (2, true), z]
  else if o == 0x6A then [z]
  else if o == 0x70 || o == 0x71 then [x, y, (2, true), z]
  else if o == 0x6C || o == 0x72 then []
  else [x, z]

/-- The words that an operand of a row or vector operation takes from its address, and whether it lies in block layout. The row results of ROW_SUM, ROW_MAX and
ROW_SUMSQ are consecutive words and need no line of their own (DESIGN CHOICE, entry 84). -/
def operandWords (n k : Nat) : Nat × Bool :=
  let o := opcode n
  let t := if k = 0 then opXType n else if k = 1 then opYType n else opZType n
  if k == 2 && decide (0x40 ≤ o) && decide (o ≤ 0x42) then (extent true t 1 (opRows n), false)
  else if k == 1 && o == 0x70 then (extent true 5 1 (2 * opRows n * opLen n), false)
  else (extent (opLinear n) t (opRows n) (opLen n), !opLinear n)

/-- The rules of R453 on a VPUT; its queue is one of its task's or the clip queue of its task's group. -/
def Ins.vputOk (sec : Section) (i : Ins) : Bool :=
  let n := i.n
  let len := opLen n
  let q := bits n 84 4
  let clip := match i.body with
    | some b => bit b.2 10 && (tget {} sec.groups (ctlGroup b.2)).clip && (tget {} sec.groups (ctlGroup b.2)).clipQueue == some q
    | none => false
  let inMask := match i.body with | some b => bit (ctlInMask b.2) q | none => false
  (len == 4 || len == 8) && bits n 68 16 == 0 && bits n 64 4 % len == 0 && bits n 38 8 == 0 && bits n 10 12 == 0 && !opLinear n && opTap n == 0
    && (inMask || clip)

/-- A row or vector operation's rules. -/
def Ins.rowVecOk (cfg : CoreCfg) (sec : Section) (twin : Nat → Bool) (i : Ins) : Bool :=
  let n := i.n
  let o := opcode n
  i.taskOk && i.ctxOk cfg
    && (!isRow o || (opTap n == 0 && (!opLinear n || o == 0x43)))
    && (!(twin (opLayer n)) || opTap n == 0)
    && typeAllowed o 0 (opXType n) && typeAllowed o 1 (opYType n) && typeAllowed o 2 (opZType n)
    && (!(o == 0x70 || o == 0x71) || (opLinear n && opRows n * opLen n % 64 == 0))
    && (operandsOf o).all (fun e => let w := operandWords n e.1; i.addrOk cfg e.1 w.1 w.2)
    && (!(o == 0x6C) || (i.vputOk sec && i.addrOk cfg 2 1 false))

/-- Words of `rows` × `cols` elements in block layout. -/
def blockWords (t rows cols : Nat) : Nat := extent false t rows cols

/-- The operands of an attention command: operand number, the words it takes with the natural extents of its blocks, and whether it lies in block layout
(R157; a frame image's size is that of its type, and of a KV_LOAD, whose pool decides it, none). -/
def attnOperands (n : Nat) : List (Nat × Nat × Bool) :=
  let o := opcode n
  let d := atDim n
  let rows := atRows n
  let nb := atBlocks n
  let image := ({ type := atKv n, hdim := d } : KvPool).frameSize / 16
  let keys : List (Nat × Nat × Bool) := if atKv n = 0 then [(1, nb * blockWords 0 64 d, true)] else [(1, nb * image, true)]
  if o == 0x20 || o == 0x28 then (0, blockWords 0 rows d, true) :: keys ++ (if atKv n = 0 then [(2, nb * blockWords 0 64 d, true)] else [])
  else if o == 0x21 || o == 0x29 then (0, blockWords 0 rows d, true) :: keys
  else if o == 0x22 || o == 0x2A then
    [(0, nb * blockWords 5 rows 64, true), (1, nb * blockWords 0 rows 64, true), (2, extent true 5 1 rows, false)]
  else if o == 0x23 || o == 0x2B then [(0, blockWords (atKv n) rows d, true), (2, blockWords (atO n) rows d, true)]
  else if o == 0x24 then [(0, blockWords (atKv n) rows d, true), (1, blockWords (atKv n) rows d, true)]
  else [(2, 0, true)]

/-- Types of an attention command (Table 3 of chapter 6), with defined codes in ignored fields (R16). -/
def attnTypes (n : Nat) : Bool :=
  let o := opcode n
  let kv := atKv n
  let f (t : Nat) : Bool := t == 0 || t == 5
  let cache := kv == 1 || kv == 3 || kv == 4
  codeDefined kv && codeDefined (atO n) &&
    (if o == 0x20 || o == 0x28 then (kv == 0 || cache) && f (atO n) && !(cache && atRopeK n)
    else if o == 0x21 || o == 0x29 then (kv == 0 || cache) && !(cache && atRopeK n)
    else if o == 0x23 || o == 0x2B then f kv && f (atO n)
    else if o == 0x24 then f kv
    else true)

/-- An attention command's rules (R157, R170). WINDOW and the addresses of the record lie in scratchpad, which an image does not hold (log entry 53). -/
def Ins.attnOk (cfg : CoreCfg) (i : Ins) : Bool :=
  let n := i.n
  i.taskOk && i.ctxOk cfg && spillOk cfg.engine.toNat && bits n 44 7 == 0 && decide (atRows n * atDim n ≤ 16384) && attnTypes n
    && (attnOperands n).all fun e => i.addrOk cfg e.1 e.2.1 e.2.2

/-- The rules of one instruction. -/
def Ins.ok (cfg : CoreCfg) (sec : Section) (twin : Nat → Bool) (l : List Ins) (i : Ins) : Bool :=
  let o := opcode i.n
  if isCube o || isPort o then i.engineOk cfg l
  else if isRow o || isVec o then i.rowVecOk cfg sec twin
  else if isAttn o then i.attnOk cfg
  else if o == 0xF0 then !bit i.n 10 || (sec.groups.map Prod.fst).contains (ctlGroup i.n)
  else true

/-! ### What a program posts -/

/-- A task as a program posts it: the index and word of its TASK_OPEN, its micro-batch, and the pass numbers of the loops it lies in. -/
structure Posting where
  q : Stream
  idx : Nat
  n : Nat
  mb : Nat
  ps : SMap Nat

/-- The tasks that a program posts, in order, read as its sequencer reads it (R67, R68, R451), `fuel` instructions at most. -/
def postRun (q : Stream) (l : List Ins) : Nat → Nat → Nat → SMap Nat → List Posting
  | 0, _, _, _ => []
  | fuel + 1, pc, mb, ps =>
    match insAt l pc with
    | none => []
    | some i =>
      let o := opcode i.n
      if o = 0xF7 then []
      else if o = 0xF0 then
        let close := match l.find? fun c => opcode c.n == 0xF1 && c.body == some (i.idx, i.n) with | some c => c.idx | none => pc
        { q := q, idx := i.idx, n := i.n, mb := mb, ps := ps } :: postRun q l fuel (close + 1) mb ps
      else if o = 0xF2 then
        let x := loopStep i.n pc ps
        postRun q l fuel x.1 (if x.2.2 && bit i.n 37 then (mb + 1) % 4096 else mb) x.2.1
      else if o = 0xF3 then postRun q l fuel (pc + 1) (bits i.n 10 12) ps
      else postRun q l fuel (pc + 1) mb ps

/-- More instructions than a program can read between bodies: its length times the counts of all its loops. -/
def postFuel (l : List Ins) : Nat :=
  l.length * ((l.filter fun i => opcode i.n == 0xF2).map fun i => bits i.n 21 16 + 1).foldl (· * ·) 1

/-- The tasks that a core's sequencer posts in a section. -/
def postings (cfg : CoreCfg) (q : Stream) : List Posting :=
  let l := insOf cfg q
  postRun q l (postFuel l) 0 0 []

/-- The tasks that a core's three sequencers post in a section. -/
def allPostings (cfg : CoreCfg) : List Posting := postings cfg .F ++ postings cfg .B ++ postings cfg .U

/-- The TASK_CLOSE of a posted task. -/
def Posting.close (cfg : CoreCfg) (t : Posting) : Nat :=
  match (insOf cfg t.q).find? fun c => opcode c.n == 0xF1 && c.body == some (t.idx, t.n) with | some c => c.n | none => 0

/-! ### Long sums (R119, R139, R262) -/

/-- The pass numbers with which a posted task's body begins: 0 at a level on which the body has a loop of its own (R103). -/
def Posting.bodyPasses (l : List Ins) (t : Posting) : SMap Nat :=
  ((l.filter fun i => i.body == some (t.idx, t.n) && opcode i.n == 0xF2).foldl (fun m i => tset 0 m (bits i.n 38 2) 0) t.ps)

/-- The operations of a body in the order in which they issue, with their pass numbers, `fuel` instructions at most (R67, R70). -/
def bodyRun (l : List Ins) : Nat → Nat → SMap Nat → List (Ins × SMap Nat)
  | 0, _, _ => []
  | fuel + 1, pc, ps =>
    match insAt l pc with
    | none => []
    | some i =>
      let o := opcode i.n
      if o = 0xF1 then []
      else if o = 0xF2 then
        let x := loopStep i.n pc ps
        bodyRun l fuel x.1 x.2.1
      else (i, ps) :: bodyRun l fuel (pc + 1) ps

/-- A contribution to a long sum: the target, the addend index, and whether it opens the sum, unrounded. A target is a scratchpad address together with the
layer and the logical element it stands for, since buffers are used again (DEDUCED, entry 53). -/
structure SumEvent where
  target : Nat × Nat × Nat
  addend : Nat
  first : Bool
deriving DecidableEq, Repr

/-- The contributions of a sequencer's program, in program order over every pass (R50, R119, R139). -/
def sumEvents (cfg : CoreCfg) (q : Stream) : List SumEvent :=
  let l := insOf cfg q
  (postings cfg q).flatMap fun t =>
    ((bodyRun l (postFuel l) (t.idx + 1) (t.bodyPasses l)).filter fun x => isSumAdd x.1.n || isSumFirst x.1.n).map fun x =>
      let c := x.1.ctx cfg
      { target := (x.1.addr cfg 2 x.2, opLayer x.1.n, ctxElem c x.2), addend := ctxAddend c x.2, first := isSumFirst x.1.n }

/-- Whether the contributions to each target, between one that opens a sum and the next, come in ascending addend index; `last` holds the last addend index of
each target. -/
def ascending : List ((Nat × Nat × Nat) × Nat) → List SumEvent → Bool
  | _, [] => true
  | last, e :: l =>
    let rest := last.filter fun x => x.1 != e.target
    if e.first then ascending rest l
    else (match last.find? fun x => x.1 == e.target with | some x => decide (x.2 < e.addend) | none => true) && ascending ((e.target, e.addend) :: rest) l

/-- Contributions to one target come from one sequencer, in ascending addend index (R119, R139). -/
def sumsOk (cfg : CoreCfg) : Bool :=
  let all := [Stream.F, .B, .U].map fun q => (q, sumEvents cfg q)
  all.all fun a => ascending [] a.2 && all.all fun b => a.1 == b.1 ||
    a.2.all fun e => e.first || b.2.all fun f => f.target != e.target

/-- Whether a body's gradient sum follows R262: a staging tile that a weight-gradient region drains into is copied by VCVT for micro-batch 0, and added by
VADD_LS with the micro-batch as addend index for every later one. -/
def gradientOk (cfg : CoreCfg) : Bool :=
  [Stream.F, .B, .U].all fun q =>
    let l := insOf cfg q
    (postings cfg q).all fun t =>
      let run := bodyRun l (postFuel l) (t.idx + 1) (t.bodyPasses l)
      let staged := (run.filter fun x => opcode x.1.n == 0x18 && run.any fun y => isWg (opcode y.1.n) && regionsMeet y.1.n x.1.n).map
        fun x => x.1.addr cfg 2 x.2
      run.all fun x =>
        !staged.contains (x.1.addr cfg 0 x.2) ||
          (if opcode x.1.n = 0x66 && opZType x.1.n == 5 then t.mb == 0
          else if opcode x.1.n = 0x68 then decide (1 ≤ t.mb) && ctxAddend (x.1.ctx cfg) x.2 == t.mb
          else true)

/-! ### What is read before it is written (R319) -/

/-- The lines that an operation reads, or writes, at every pass, as ranges. -/
def Ins.touched (cfg : CoreCfg) (i : Ins) (reads : Bool) : List (Nat × Nat) :=
  let n := i.n
  let o := opcode n
  let span (k words : Nat) : List (Nat × Nat) :=
    (i.passes cfg).map fun ps => let a := i.addr cfg k ps; (a / 4, (a + max words 1 - 1) / 4)
  let m := opM n
  let nn := opN n
  let kk := opK n
  if isCube o then
    if reads then
      span 0 (if opTransA n then blockWords (opAType n) kk m else blockWords (opAType n) m kk)
        ++ span 1 (if opTransB n then blockWords (opBType n) nn kk else blockWords (opBType n) kk nn)
    else []
  else if isPort o then
    if reads then (if o = 0x18 then [] else span 2 (blockWords 5 m nn)) else (if o = 0x14 then [] else span 2 (blockWords (opCType n) m nn))
  else if o = 0x6C then (if reads then [] else span 2 1)
  else if isRow o || isVec o then
    ((operandsOf o).filter fun e => e.2 == reads).flatMap fun e => span e.1 (operandWords n e.1).1
  else if isAttn o then
    let out (k : Nat) : Bool := k == 2 && (o == 0x23 || o == 0x2B || o == 0x25)
    ((attnOperands n).filter fun e => out e.1 != reads).flatMap fun e => span e.1 e.2.1
  else []

end Sys2Proof.Machine
end

