-- ==== Sys2Proof/Machine/ImageCheck.lean ====
section
/-! DEFINITION. The rules that `JOB_LOAD` enforces on an image as a whole and on its sections (R24 and the rules it gathers): timetables (R64, R185 to R193,
R198, R206, R207, R209 to R211, R218, R222, R229), queues, edges and groups (R71, R73, R74, R82, R83, R271, R273), pin windows (R223, R224), streaming
windows (R251), twins (R277), and the rest. -/

namespace Sys2Proof.Machine

open Sys2Proof

/-- Whether a list holds no number twice. -/
def noRepeat : List Nat → Bool
  | [] => true
  | a :: l => !l.contains a && noRepeat l

/-! ### Periods, configurations and settings (R185 to R188, R218) -/

/-- The configurations that a section defines (R187). -/
def secConfigs (sec : Section) : List Nat := sec.phases.map Prod.fst
/-- The configurations that its period entries use. -/
def usedConfigs (sec : Section) : List Nat := (sec.entries.map fun e => periodConfig e.toNat).foldl addOnce []
/-- PHASES of a configuration. -/
def secPhases (sec : Section) (cfg : Nat) : Nat := tget 1 sec.phases cfg

/-- The timetable's header, period entries, configurations and settings. -/
def timetableOk (sec : Section) : Bool :=
  decide (1 ≤ sec.entries.length) && decide (sec.entries.length ≤ 1024) && decide (sec.loopStart < sec.entries.length)
    && sec.load % 16 == 0 && decide (512 ≤ sec.load)
    && sec.entries.all (fun e =>
        let n := e.toNat
        periodLen n % 2 == 0 && decide (16 ≤ periodLen n) && bits n 23 9 == 0 && (secConfigs sec).contains (periodConfig n))
    && sec.phases.all (fun c => decide (c.1 < 64) && decide (1 ≤ c.2) && decide (c.2 ≤ 16)) && noRepeat (secConfigs sec)
    && sec.settings.all fun r =>
        (secConfigs sec).contains r.config && decide (r.phase < secPhases sec r.config) && noRepeat (r.vec.map Prod.fst) && noRepeat (r.scal.map Prod.fst)
          && (r.vec ++ r.scal).all fun e => decide (e.1 < 5) && decide (e.2 < 5)

/-! ### Routes (R189, R218) -/

/-- The route entries of a core's configuration with their indices. -/
def routesOf (cfg : CoreCfg) : List (Nat × Nat) := cfg.routes.map fun e => (e.1, e.2.toNat)

/-- A route entry's fields. -/
def routeFieldsOk (sec : Section) (r : Nat × Nat) : Bool :=
  decide (r.1 < 64) && bits r.2 35 29 == 0 && decide (1 ≤ routeHops r.2) && decide (1 ≤ routeCreditHops r.2)
    && (match routeLaunch r.2 with | some st => decide (st < 0x1000) | none => true)
    && (secConfigs sec).all fun c => !routeActive r.2 c || decide (routePhase r.2 + 1 < secPhases sec c)

/-- Whether the settings join an edge's producer to its consumer in both phases of its route with exactly HOPS hops, in every configuration in which the
route is active (R218). -/
def edgePathOk (sec : Section) (c : Nat) (cfg : CoreCfg) (e : Nat) : Bool :=
  let r := cfgRoute cfg e
  ((secConfigs sec).filter (routeActive r)).all fun g =>
    [routePhase r, routePhase r + 1].all fun ph =>
      (secPaths sec false g ph c).any fun x => x.1 == routeEnd cfg e && x.2.length == routeHops r

/-- A core's output edges: their fields (R74), their paths, and DEPTH equal to the depth of the queue they name. -/
def edgesOk (sec : Section) (c : Nat) (cfg : CoreCfg) : Bool :=
  decide (cfg.edges.length ≤ 16) && cfg.edges.all fun x =>
    let e := x.2.toNat
    let d := if edgeLocal e then c else cfgDest cfg x.1
    decide (x.1 < 16) && bits e 32 32 == 0 && decide (1 ≤ edgeDepth e) && decide (edgeDepth e ≤ 32)
      && (edgeLocal e || edgePathOk sec c cfg x.1)
      && (decide (4096 ≤ d) || match sec.cores.find? fun k => k.1 == d with
          | some k => k.2.depths.getD (edgeQueue e) 0 == edgeDepth e
          | none => true)

/-! ### Streams (R190, R191, R207, R218, R222) -/

/-- The streams of a section with their indices. -/
def streamsOf (sec : Section) : List (Nat × Nat) := sec.streams.map fun e => (e.1, e.2.toNat)

/-- Streams that belong to some core's key-value route (R193). -/
def kvStreams (sec : Section) : List Nat := sec.cores.flatMap fun k => k.2.kvRoute.flatMap fun e => [e.1, e.2]

/-- The pin window of an image that holds an address. -/
def pinAt (im : Image) (a : Nat) : Option PinWindow := im.pins.find? fun w => decide (w.base ≤ a) && decide (a < w.base + w.bays * 65536)

/-- A stream's place in memory (R222, R223). -/
def State.streamMemOk (s : State) (p : Nat) (im : Image) (x : Nat) : Bool :=
  let a := stMem x
  a % 128 == 0 && match pinAt im a with
    | some w => w.slice == stSlice x
    | none =>
      let last := a + (stUnits x - 1) * 128
      a / 2 ^ 21 == last / 2 ^ 21 && s.homeOfPage p (a / 2 ^ 21) == stSlice x && stMemStep x % (32 * s.span * 2 ^ 21) == 0

/-- The rectangle, or the one core, that a stream entry names lies in the grid of logical positions (R190, R207): columns 48 to 63 name no core, and a kind
0b01 entry names one core. -/
def stRectOk (x : Nat) : Bool :=
  decide (bits x 33 5 ≤ bits x 38 5) && decide (bits x 43 6 ≤ bits x 49 6) && decide (bits x 49 6 < 48) && decide (bits x 60 6 < 48)
    && (stKind x != 1 || (bits x 33 5 == bits x 38 5 && bits x 43 6 == bits x 49 6))

/-- One stream entry. -/
def State.streamOk (s : State) (p : Nat) (im : Image) (sec : Section) (e : Nat × Nat) : Bool :=
  let x := e.2
  let kind := stKind x
  let kv := (kvStreams sec).contains e.1
  let inPart (c : Nat) : Bool := (s.coresOf p).contains c
  let lastWord (a : Nat) : Bool := decide (a + stUnitBytes x / 16 ≤ spadWords)
  decide (e.1 < 4096) && bits x 231 25 == 0 && (secConfigs sec).contains (stConfig x) && (kind == 2 || stRectOk x)
    && (kind == 3 || (s.slicesOf p).contains (stSlice x))
    && (match kind with
        | 0 => (stRect x).all inPart
        | 1 => inPart (stSource x)
        | 2 => (s.edgesOf p).contains (stEdge x)
        | _ => (stRect x).all inPart && inPart (stSource x) && !(stRect x).contains (stSource x))
    && (kind == 2 || kv || lastWord (stUnitSpad x (stRing x - 1) (stUnits x - 1)))
    && (!(kind == 3) || lastWord (stUnitSource x (stRing x - 1) (stUnits x - 1)))
    && (!(kind == 0 || kind == 1) || kv || s.streamMemOk p im x)
    && (!(kind == 3) || ((upFrom 0 16).filter fun ph => stPhase x ph && decide (ph < secPhases sec (stConfig x))).all fun ph =>
          let paths := secPaths sec true (stConfig x) ph (stSource x)
          (stRect x).all fun d => paths.any fun y => y.1 == d && decide (y.2.length ≤ stHops x))

/-! ### Ports in a slot (R198, R206) -/

/-- The phases of a configuration in which a stream occurs. -/
def phasesOn (sec : Section) (x : Nat) : List Nat := (upFrom 0 (secPhases sec (stConfig x))).filter (stPhase x)

/-- How many of a list of uses, given by stream and delay, fall in a phase of a configuration. -/
def usesIn (sec : Section) (cfg ph : Nat) (uses : List (Nat × Nat)) : Nat :=
  let n := max 1 (secPhases sec cfg)
  (uses.filter fun u => stConfig u.1 == cfg && (phasesOn sec u.1).any fun k => (k + u.2) % n == ph).length

/-- The edge routers that a vector stream's flits reach, as phase of the arrival and 1,536 + G (R188, R206). -/
def vecEnds (sec : Section) (x : Nat) : List (Nat × Nat) :=
  (phasesOn sec x).flatMap fun ph =>
    ((secPaths sec true (stConfig x) ph (stSource x)).filter fun y => decide (1536 ≤ y.1)).map fun y =>
      ((ph + y.2.length) % max 1 (secPhases sec (stConfig x)), y.1)

/-- Each edge router takes at most one vector flit in a slot (R206). -/
def edgeVecOk (sec : Section) : Bool :=
  let ends := ((streamsOf sec).filter fun e => stKind e.2 == 3).flatMap fun e => (vecEnds sec e.2).map fun y => (stConfig e.2, y.1, y.2)
  ends.all fun a => decide ((ends.filter fun b => b == a).length ≤ 1)

/-- Occurrences of link data on an edge router's interior port in a phase of a configuration, in one direction (R206). -/
def linkUses (sec : Section) (g port : Nat) (inward : Bool) (cfg ph : Nat) : Nat :=
  (sec.linkOcc.filter fun o => o.edge == g && o.port == port && o.inward == inward && o.config == cfg && bit o.phases ph).length

/-- The edge routers and ports that link data names (R206, R207). -/
def State.linkOccOk (s : State) (p : Nat) (sec : Section) : Bool :=
  sec.linkOcc.all fun o => (s.edgesOf p).contains o.edge && decide (o.port ≤ 4)

/-- The links of the credit lane that an edge's credits take, as configuration, phase, the core whose router a link is joined to on the producer's side, and its
port: the token's path backwards from the consumer, one hop a slot (R195, R198, R201). -/
def creditLinks (sec : Section) (c : Nat) (cfg : CoreCfg) (e : Nat) : List (Nat × Nat × Nat × Nat) :=
  let r := cfgRoute cfg e
  if edgeLocal (tget 0 cfg.edges e).toNat then []
  else ((secConfigs sec).filter (routeActive r)).flatMap fun g =>
    match (secPaths sec false g (routePhase r) c).find? fun x => x.1 == routeEnd cfg e && x.2.length == routeHops r with
    | none => []
    | some x =>
      let back := x.2.reverse
      (back.zip (upFrom 0 back.length)).map fun h => (g, (routeCreditPhase r + h.2) % max 1 (secPhases sec g), h.1.1, h.1.2)

/-- No two credit messages of different routes take one link of the credit lane in one slot (R198, R218). Edges of one route share its messages. -/
def creditLanesOk (sec : Section) : Bool :=
  let uses := sec.cores.flatMap fun k => (k.2.edges.map Prod.fst).flatMap fun e =>
    (creditLinks sec k.1 k.2 e).map fun l => ((k.1, edgeRoute (tget 0 k.2.edges e).toNat), l)
  uses.all fun a => uses.all fun b => a.1 == b.1 || a.2 != b.2

/-- The port limits of one slot: cores' and slices' crossbar ports, the edge routers' crossbar and vector ports, the credit lanes, and what a core puts on the
vector and scalar networks (R188: past the source, settings let no two words meet). -/
def State.portsOk (s : State) (p : Nat) (sec : Section) : Bool :=
  let st := (streamsOf sec).map Prod.snd
  let all0 := st.filter fun x => stKind x == 0
  let all1 := st.filter fun x => stKind x == 1
  let all2 := st.filter fun x => stKind x == 2
  let all3 := st.filter fun x => stKind x == 3
  edgeVecOk sec && s.linkOccOk p sec && creditLanesOk sec && (secConfigs sec).all fun cfg => (upFrom 0 (secPhases sec cfg)).all fun ph =>
    let use (l : List (Nat × Nat)) : Nat := usesIn sec cfg ph l
    ((s.coresOf p).all fun c =>
      decide (use ((all0.filter fun x => (stRect x).contains c).map fun x => (x, stDelay x)) ≤ 1)
        && decide (use ((all1.filter fun x => stSource x == c).map fun x => (x, 0)) ≤ 1)
        && decide (use ((all3.filter fun x => stSource x == c).map fun x => (x, 0)) ≤ 1))
    && ((s.slicesOf p).all fun k => [false, true].all fun port =>
      let here (l : List Nat) : List Nat := l.filter fun x => stSlice x == k && bit x 10 == port
      let cache := 2 * use ((here all2).map fun x => (x, 0))
      decide (use ((here all0).map fun x => (x, 0)) + cache ≤ 2) && decide (use ((here all1).map fun x => (x, stDelay x)) + cache ≤ 2))
    && (s.edgesOf p).all fun g => [false, true].all fun way =>
      decide (linkUses sec g 4 way cfg ph ≤ 1) && (upFrom 0 4).all fun q =>
        decide (use ((all2.filter fun x => stEdge x == g && bits x 71 2 == q).map fun x => (x, 0)) + linkUses sec g q way cfg ph ≤ 1)

/-- No two routes of one core have words in one slot (R198). -/
def routeSlotsOk (cfg : CoreCfg) (sec : Section) : Bool :=
  (routesOf cfg).all fun a => (routesOf cfg).all fun b =>
    a.1 == b.1 || (secConfigs sec).all fun g =>
      !(routeActive a.2 g && routeActive b.2 g) || decide (routePhase a.2 + 1 < routePhase b.2) || decide (routePhase b.2 + 1 < routePhase a.2)

/-- The cores at which a stream touches scratchpad, with the slots after its occurrence, and the banks of each unit that an occurrence may move there
(R62, R64). -/
def streamBanks (x : Nat) : List (Nat × Nat × List (List Nat)) :=
  let banks (a : Nat) : List Nat := (upFrom (a / 4) (stUnitBytes x / 64)).map (· % 32)
  let units (at' : Nat → Nat → Nat) : List (List Nat) :=
    ((upFrom 0 (stRing x)).flatMap fun b => (upFrom 0 (stUnits x)).map fun u => banks (at' b u)).dedup
  let dest (c : Nat) : Nat × Nat × List (List Nat) := (c, stDelay x, units (stUnitSpad x))
  match stKind x with
  | 0 => (stRect x).map dest
  | 1 => [(stSource x, 0, units (stUnitSpad x))]
  | 3 => (stSource x, 0, units (stUnitSource x)) :: (stRect x).map dest
  | _ => []

/-- The arithmetic cycles, within twice a configuration's phases, in which a stream's access with a given delay falls: an odd number of phases puts a
phase into the first slot of a cycle and the second in turn. -/
def accessCycles (sec : Section) (x delay : Nat) : List Nat :=
  let n := max 1 (secPhases sec (stConfig x))
  (phasesOn sec x).flatMap fun k => [(k + delay) % (2 * n) / 2, (k + delay + n) % (2 * n) / 2]

/-- No two accesses of a core's router in one arithmetic cycle fall in one bank (R64). Which unit of a block an occurrence moves depends on launches
(R191), which an image does not fix: a pair of streams is rejected where every pair of their units collides (DEDUCED, entry 53). -/
def banksOk (sec : Section) : Bool :=
  let uses := (streamsOf sec).flatMap fun e => if (kvStreams sec).contains e.1 then [] else (streamBanks e.2).map fun f => (e.1, e.2, f)
  uses.all fun a => uses.all fun b =>
    let (sa, xa, ca, da, ua) := a
    let (sb, xb, cb, db, ub) := b
    (sa == sb && da == db) || stConfig xa != stConfig xb || ca != cb
      || !((accessCycles sec xa da).any fun k => (accessCycles sec xb db).contains k)
      || ua.any fun l => ub.any fun m => l.all fun k => !m.contains k

/-! ### Cores of a section -/

/-- Depths and reserves of a core's queues (R73, R211). -/
def queuesOk (cfg : CoreCfg) : Bool :=
  cfg.depths.length == 16 && cfg.depths.all (fun d => decide (1 ≤ d) && decide (d ≤ 32)) && decide (cfg.reserves.length ≤ 16)
    && cfg.reserves.all (fun d => decide (d ≤ 32)) && decide (cfg.depths.sum + cfg.reserves.sum ≤ 128)

/-- The declared size and place of a core's configuration (R209). -/
def configPlaceOk (im : Image) (cfg : CoreCfg) : Bool :=
  cfg.cfgSize % 128 == 0 && decide (cfg.cfgSize ≤ 65536) && match im.pins[cfg.cfgWindow]? with
    | some w => decide (cfg.cfgOffset + cfg.cfgSize ≤ w.bays * 65536)
    | none => false

/-- A core that issues key-value commands has a complete route (R193). -/
def State.kvRouteOk (s : State) (p : Nat) (sec : Section) (c : Nat) (cfg : CoreCfg) : Bool :=
  let issues := (allIns cfg).any fun i => opcode i.n == 0x24 || opcode i.n == 0x25
  let st (k : Nat) : Nat := (tget 0 sec.streams k).toNat
  (!issues && cfg.kvRoute.isEmpty) || (cfg.kvRoute.length == (s.slicesOf p).length && (cfg.kvRoute.zip (s.slicesOf p)).all fun e =>
    let ld := st e.1.1
    let sr := st e.1.2
    decide (e.1.1 < 4096) && decide (e.1.2 < 4096) && (sec.streams.map Prod.fst).contains e.1.1 && (sec.streams.map Prod.fst).contains e.1.2
      && stKind ld == 0 && stSlice ld == e.2 && stRect ld == [c] && stKind sr == 1 && stSlice sr == e.2 && stRect sr == [c])

/-- Layers that a core taps in a section: at most 32 (R153). TAP_EN lies in an optimiser record, which the image does not hold. -/
def tapsOk (cfg : CoreCfg) : Bool :=
  let layers := ((allIns cfg).filter fun i => isVec (opcode i.n) && opTap i.n != 0).map fun i => opLayer i.n
  decide ((layers.foldl addOnce []).length ≤ 32)

/-- One seated core's part of a section. -/
def State.coreOk (s : State) (p : Nat) (im : Image) (sec : Section) (c : Nat) (cfg : CoreCfg) : Bool :=
  let twin (l : Nat) : Bool := (im.twins.map Prod.fst).contains l
  (s.coresOf p).contains c && queuesOk cfg && (routesOf cfg).all (routeFieldsOk sec) && edgesOk sec c cfg && routeSlotsOk cfg sec
    && cfg.consumers.all (fun d => d.2.2 != 0 || (s.coresOf p).contains d.2.1)
    && cfg.consumers.all (fun d => d.2.2 == 0 || (s.portsOf p).contains d.2.1)
    && bits cfg.engine.toNat 148 12 == 0 && bits cfg.engine.toNat 224 32 == 0
    && [Stream.F, .B, .U].all (fun q => progForm cfg q && (insOf cfg q).all fun i => i.ok cfg sec twin (insOf cfg q))
    && sumsOk cfg && gradientOk cfg && tapsOk cfg && configPlaceOk im cfg && s.kvRouteOk p sec c cfg

/-! ### Groups, tokens and drafts (R82, R83, R271, R273) -/

/-- The tasks of a section, with their cores. -/
def secPostings (sec : Section) : List (Nat × CoreCfg × Posting) := sec.cores.flatMap fun k => (allPostings k.2).map fun t => (k.1, k.2, t)

/-- Whether a posted task is a draft of a CLIP group. -/
def Posting.isClip (sec : Section) (t : Posting) : Bool := bit t.n 10 && (tget {} sec.groups (ctlGroup t.n)).clip

/-- No draft token can fire a task other than a draft of its group or of one that descends from it (R82): for every token that a draft task sends at its
close, every task that its tag and queue match. -/
def pairingOk (sec : Section) : Bool :=
  let all := secPostings sec
  all.all fun a =>
    let (c, cfg, t) := a
    !bit t.n 10 || (maskList 16 (bits (t.close cfg) 24 16)).all fun e =>
      let ed := (tget 0 cfg.edges e).toNat
      let d := if edgeLocal ed then c else cfgDest cfg e
      let layer := if edgeKeep ed then ctlLayer t.n else edgeLayer ed
      all.all fun b =>
        let (c', _, u) := b
        c' != d || streamPass u.q != edgePass ed || ctlLayer u.n != layer || u.mb != t.mb || !bit (ctlInMask u.n) (edgeQueue ed)
          || (bit u.n 10 && (secView sec (ctlGroup u.n)).contains (ctlGroup t.n))

/-- The group table and the clip queues. -/
def groupsOk (im : Image) (sec : Section) : Bool :=
  sec.groups.all fun g =>
    decide (g.1 < 256) && decide (g.2.parents.length ≤ 2) && (!g.2.clip || (im.tau.isSome && g.2.clipQueue.isSome)) && match g.2.clipQueue with
      | none => true
      | some q => !g.2.clip || (decide (q < 16) && sec.cores.all fun k =>
          (tget 0 k.2.shares g.1 == 0 || (decide (tget 0 k.2.shares g.1 ≤ k.2.depths.getD q 0)
            && sec.cores.all fun j => j.2.edges.all fun e =>
                let ed := e.2.toNat
                edgeQueue ed != q || (if edgeLocal ed then j.1 else cfgDest j.2 e.1) != k.1)))

/-- A CLIP task launches no memory write before it commits (R273). -/
def clipWritesOk (sec : Section) : Bool :=
  sec.cores.all fun k => (allIns k.2).all fun i =>
    let clip := match i.body with | some b => bit b.2 10 && (tget {} sec.groups (ctlGroup b.2)).clip | none => false
    !clip || (opcode i.n != 0x24 && (opcode i.n != 0xF1 || (maskList 16 (bits i.n 24 16)).all fun e =>
      match routeLaunch (cfgRoute k.2 e) with
      | some st => edgeLocal (tget 0 k.2.edges e).toNat || stKind (tget 0 sec.streams st).toNat != 1
      | none => true))

/-- An image's sections cut into those of one step each (R22): a section that states another step than the one before it begins the next. -/
def stepRuns : List Section → List (List Section)
  | [] => []
  | sec :: l =>
    match stepRuns l with
    | [] => [[sec]]
    | r :: rs => if (r.head?.map Section.step) == some sec.step then (sec :: r) :: rs else [sec] :: r :: rs

/-- Draft lines of a core's CLIP tasks in the sections of one step, with its inbound reservation, fit the draft space (R273). -/
def clipLinesOk (secs : List Section) : Bool :=
  ((secs.flatMap fun sec => sec.cores.map Prod.fst).foldl addOnce []).all fun c =>
    let mine (sec : Section) : CoreCfg := tget {} sec.cores c
    let lines := (secs.map fun sec => (((allPostings (mine sec)).filter (Posting.isClip sec)).map fun t => ctlDraftLines t.n).sum).sum
    lines == 0 || decide (lines + (secs.map fun sec => (mine sec).draftReserve).foldl max 0 ≤ 4096)

/-! ### A section as a whole -/

/-- LOAD covers the slowest loader (R209). -/
def loadOk (im : Image) (sec : Section) : Bool :=
  let slice (k : Nat) : Nat := ((sec.cores.filter fun c => match im.pins[c.2.cfgWindow]? with | some w => w.slice == k | none => false).map
    fun c => c.2.cfgSize).sum
  sec.cores.all (fun c => decide (c.2.cfgSize ≤ sec.load * 128)) && (upFrom 0 256).all fun k => decide (slice k ≤ sec.load * 512)

/-- The cloakroom map (R211). -/
def State.cloakMapOk (s : State) (p : Nat) (sec : Section) : Bool :=
  sec.cloak.all fun r => (s.rowsOf p).contains r.1 && decide (r.2.length ≤ 256) && r.2.all fun w =>
    let n := w.toNat
    bits n 39 25 == 0 && (s.rowsOf p).contains (bits n 24 5) && decide (bits n 29 6 < 48)

/-- Every configuration gives every slice of the partition a cache slot (R229). -/
def State.cacheSlotsOk (s : State) (p : Nat) (sec : Section) : Bool :=
  (secConfigs sec).all fun cfg => (s.slicesOf p).all fun k =>
    (streamsOf sec).any fun e => stKind e.2 == 2 && stConfig e.2 == cfg && stSlice e.2 == k && !(phasesOn sec e.2).isEmpty

/-- The first section of a step loads what it reads (R319): every line that an operation of a core reads is written by one of the core's operations or
delivered to it by a stream. -/
def loadsBeforeReads (sec : Section) : Bool :=
  sec.cores.all fun k =>
    let ins := allIns k.2
    let written := ins.flatMap (Ins.touched k.2 · false)
    let inbound := (streamsOf sec).flatMap fun e =>
      let x := e.2
      if (stKind x == 0 || stKind x == 3) && (stRect x).contains k.1 then
        (upFrom 0 (stRing x)).map fun b => (stUnitSpad x b 0 / 4, (stUnitSpad x b (stUnits x - 1) + stUnitBytes x / 16 - 1) / 4)
      else []
    let ranges := written ++ inbound
    (ins.flatMap (Ins.touched k.2 · true)).all fun r => (upFrom r.1 (r.2 + 1 - r.1)).all fun l =>
      ranges.any fun w => decide (w.1 ≤ l) && decide (l ≤ w.2)

/-- One section. -/
def State.sectionOk (s : State) (p : Nat) (im : Image) (sec : Section) : Bool :=
  decide (sec.priority ≤ 5) && timetableOk sec && noRepeat (sec.cores.map Prod.fst) && noRepeat (sec.streams.map Prod.fst)
    && sec.settings.all (fun r => (s.coresOf p).contains r.core)
    && sec.cores.all (fun k => s.coreOk p im sec k.1 k.2)
    && (streamsOf sec).all (s.streamOk p im sec) && s.portsOk p sec && banksOk sec
    && groupsOk im sec && pairingOk sec && clipWritesOk sec && loadOk im sec && s.cloakMapOk p sec && s.cacheSlotsOk p sec
    && decide (sec.prefetch.length ≤ 8) && decide (sec.needs.length ≤ 8) && (sec.prefetch ++ sec.needs).all (fun w => decide (w < im.windows.length))
    && sec.links.all fun l => (s.portsOf p).contains l.1

/-! ### The image as a whole -/

/-- The bays that pin windows name (R223, R224): within the slice, none reserved, none twice, and eight cache bays left in every slice; no window over an
allocated page. -/
def State.pinsOk (s : State) (p : Nat) (im : Image) : Bool :=
  let bays (k : Nat) : List Nat := (im.pins.filter fun w => w.slice == k).flatMap fun w => upFrom w.firstBay w.bays
  let pages (w : PinWindow) : List Nat := upFrom (w.base / 2 ^ 21) ((w.base + w.bays * 65536 - 1) / 2 ^ 21 + 1 - w.base / 2 ^ 21)
  decide (im.pins.length ≤ 64)
    && im.pins.all (fun w => (s.slicesOf p).contains w.slice && decide (1 ≤ w.bays) && decide (w.bays ≤ 40) && w.base % 65536 == 0
        && decide (w.base + w.bays * 65536 ≤ 2 ^ 44) && (pages w).all fun pg => (s.part p).allocs.all fun a => !a.has pg)
    && (s.slicesOf p).all fun k =>
        let b := bays k
        noRepeat b && b.all (fun x => decide (x < 48) && !s.reservedBay k x)
          && decide (8 ≤ ((upFrom 0 48).filter fun x => !s.reservedBay k x && !b.contains x).length)

/-- The window table (R251). -/
def windowsOk (im : Image) : Bool :=
  decide (im.windows.length ≤ 4096) && noRepeat (im.windows.flatMap fun w => upFrom w.firstPage w.pages)

/-- The twin table (R277). -/
def twinsOk (im : Image) : Bool :=
  im.twins.all fun t => !(im.twins.map Prod.fst).contains t.2 && im.layers.contains t.2

/-- Every static rule that the manual enforces on an image with BAD_ARG (R24). The third condition of R258 always holds, since each section belongs to one
step and the next step's tasks lie in a later section (R22), so R258 adds none (DEDUCED, entry 53). -/
def State.imageOk (s : State) (p : Nat) (im : Image) : Bool :=
  im.layers.all (fun l => decide (l < 4096)) && decide (1 ≤ im.microBatches) && decide (im.microBatches ≤ 4096) && decide (im.stepBell < 1024) && !im.sections.isEmpty
    && s.pinsOk p im && windowsOk im && twinsOk im && im.sections.all (s.sectionOk p im)
    && (stepRuns im.sections).all (fun secs => clipLinesOk secs && match secs with | sec :: _ => loadsBeforeReads sec | [] => true)
    && match im.tau with
      | some t => (match decodeFloat 5 t.toNat with | .fin neg m _ => !neg && decide (m ≠ 0) | _ => false)
      | none => true

end Sys2Proof.Machine
end

