-- ==== Sys2Proof/Machine/JobCmds.lean ====
section
/-! DEFINITION. Device, partition, image and run commands (Table 8 of chapter 13): `DEVICE_INFO` (R383), `BEHAVIOUR_PIN` (R338), `PARTITION_SET` (R387),
`JOB_LOAD` (R24, R223, R249, R275, R295, R318), `JOB_UNLOAD` (R380, R388), `JOB_RANKS` (R297), `JOB_RUN` and `JOB_STOP` (R379), `FROZEN_SET` (R124), and
the queries. -/

namespace Sys2Proof.Machine

open Sys2Proof

/-- The bytes of a text. -/
def asciiBytes (t : String) : List Byte := t.toList.map fun c => BitVec.ofNat 8 c.toNat

/-- A result with a given length: what the manual lists, and zeros in its reserved bytes. -/
def okBytes (n : Nat) (b : List Byte) : Answer := { result := padTo n b }

/-! ### DEVICE_INFO (R383) and BEHAVIOUR_PIN (R338) -/

/-- Behaviour levels that firmware supports, bit n − 1 for BLn; BL1 is one of them on every module (R340). -/
def levelMask : Nat := (Config.levels ||| 1).toNat

/-- The 256 bytes of DEVICE_INFO. -/
def State.deviceInfo (s : State) : List Byte :=
  padTo 16 (asciiBytes "CW-LS5216") ++ padTo 16 (leBytes 2 Config.stepping) ++ leBytes 16 Config.serial.toNat ++ leBytes 4 s.sec.bank0.version
    ++ leBytes 4 s.sec.bank1.version ++ padTo 4 (leBytes 1 s.sec.bank) ++ leBytes 4 levelMask ++ leBytes 1 s.sec.level ++ padTo 3 (leBytes 1 s.count)
    ++ leBytes 4 s.power.straps.toNat

/-- DEVICE_INFO (0x0101). -/
def execDeviceInfo (r : Nat) (t : Nat) (s : State) : Host.Outcome State Fault Refusal :=
  .next (s.runCmd r t 0x0101 {} fun s _ => .done s (okBytes 256 s.deviceInfo))

/-- BEHAVIOUR_PIN (0x0108): a level that the firmware supports is pinned. -/
def execBehaviourPin (r : Nat) (t : Nat) (s : State) : Host.Outcome State Fault Refusal :=
  .next (s.runCmd r t 0x0108
    { inline := fun _ j => if j.arg 0 ≠ 0 ∧ bit levelMask (j.arg 0 - 1) then none else some 32 }
    fun s j => .done { s with sec := { s.sec with level := j.arg 0 } } {})

/-! ### PARTITION_SET (R387) and PARTITION_QUERY -/

/-- What stays of a core, a slice and a stack when the partition configuration changes: scratchpad, accumulators and slices are zeroed, tags included
(R226, R387). -/
def Core.wiped (core : Core) : Core := { core with spad := [], stored := [], engines := [], drafts := [], openDrafts := [], tapDrafts := [], queues := [] }
/-- The same of a slice. -/
def Slice.wiped (sl : Slice) : Slice := { ({} : Slice) with counts := sl.counts, asleep := sl.asleep, touched := sl.touched }
/-- The same of a stack: no frame is in use. -/
def Stack.wiped (st : Stack) : Stack := { st with used := [], lines := [] }

/-- The seating plans of all partitions. -/
def State.allPlans (s : State) (f : Part → SMap (List Nat)) : SMap (List Nat) := s.parts.foldl (fun m e => tsetAll [] m (f e.2)) []

/-- The partitions of a new configuration: fresh memory keys at generation 0, quotas of zero, and the plans of their rows (R387). -/
def State.newParts (s : State) (n : Nat) : SMap Part :=
  let now := s.allPlans Part.failed
  let next := s.allPlans Part.failedNext
  (upFrom 0 8).foldl (fun m k =>
    let tdi := if s.isPart k then 3 else (s.part k).tdi
    let span := 8 / n
    let rows (x : SMap (List Nat)) : SMap (List Nat) := x.filter fun e => e.1 / 4 / span * span == k
    let left := (upFrom k span).any fun q => (s.part (s.lowest q)).left
    let part : Part := if k % span = 0 then
        { tdi := tdi, memKeys := s.power.computeReady, failed := rows now, failedNext := rows next, left := left, lastStatus := (s.part k).lastStatus }
      else { tdi := tdi }
    tset {} m k part) []

/-- A new partition configuration (R387), with memory keys drawn afresh where the module is compute-ready (R403). -/
def State.partitionSet (s : State) (n : Nat) : State :=
  let draw (s : State) : State := if s.power.computeReady then s.partList.foldl (fun s p => s.drawKeys p []) s else s
  draw { s with
    parts := s.newParts n, count := n
    cores := s.cores.foldl (fun m e => tset {} m e.1 e.2.wiped) s.cores
    slices := s.slices.foldl (fun m e => tset {} m e.1 e.2.wiped) s.slices
    cloaks := s.cloaks.foldl (fun m e => tset {} m e.1 { e.2 with toks := [], late := [] }) s.cloaks
    hbm := s.hbm.foldl (fun m e => tset {} m e.1 e.2.wiped) s.hbm }

/-- PARTITION_SET (0x0201): WRONG_STATE while an interface is CONFIG_LOCKED or RUN (R409). -/
def execPartitionSet (r : Nat) (t : Nat) (s : State) : Host.Outcome State Fault Refusal :=
  .next (s.runCmd r t 0x0201
    { inline := fun _ j => if j.arg 0 ∈ [1, 2, 4, 8] then none else some 32 }
    fun s j => if s.partList.any fun p => s.locked p then .fail { status := stWrongState } else .done (s.partitionSet (j.arg 0)) {})

/-- PARTITION_QUERY (0x0202): the partition count, then the job state of each partition. -/
def execPartitionQuery (r : Nat) (t : Nat) (s : State) : Host.Outcome State Fault Refusal :=
  .next (s.runCmd r t 0x0202 {} fun s _ =>
    .done s (okBytes 64 (packList ((1, s.count) :: s.partList.map fun p => (1, jobCode (s.part p).job)))))

/-! ### JOB_LOAD (R24, R223, R249, R275) -/

/-- Words of scratchpad from 0 upward that an image addresses: what its operations and its streams reach, and its spill frames. -/
def Image.reach (im : Image) : Nat :=
  (im.sections.map fun sec =>
    let ops := sec.cores.flatMap fun k => (allIns k.2).flatMap fun i =>
      (if isWork (opcode i.n) then [ctxScale (i.ctx k.2) + 1] else [])
        ++ ((i.touched k.2 true ++ i.touched k.2 false).map fun w => (w.2 + 1) * 4)
        ++ (if (isCube (opcode i.n) || isPort (opcode i.n)) && (regionOf i.n).any (fun x => decide (128 ≤ x.2)) then
              [bits k.2.engine.toNat 128 20 + 0x4000] else [])
    let strs := (streamsOf sec).flatMap fun e =>
      if stKind e.2 == 2 || (kvStreams sec).contains e.1 then []
      else (stUnitSpad e.2 (stRing e.2 - 1) (stUnits e.2 - 1) + stUnitBytes e.2 / 16) ::
        (if stKind e.2 == 3 then [stUnitSource e.2 (stRing e.2 - 1) (stUnits e.2 - 1) + 4] else [])
    (ops ++ strs).foldl max 0).foldl max 0

/-- Bays that an image's pin windows take (R249). -/
def Image.bays (im : Image) : Nat := (im.pins.map PinWindow.bays).sum

/-- Whether an image exceeds a quota of its partition: scratchpad, slice bays, or HBM with its declared demand and the telemetry store (R249, R275, R430). -/
def State.overQuota (s : State) (p : Nat) (im : Image) : Bool :=
  let part := s.part p
  decide (part.quotaOf 0 * 4096 < Image.reach im) || decide (part.quotaOf 1 < part.useOf 1 + Image.bays im)
    || decide (part.quotaOf 2 < part.useOf 2 + s.span + im.demand)

/-- Whether the image was made for another behaviour level or other link latencies than this device's (R295, R338). -/
def State.formMismatch (s : State) (im : Image) : Bool :=
  (s.sec.level != 0 && s.sec.level != im.level) || im.latencies.any fun e => (s.port e.1).compiled != e.2

/-- Whether a stack of a partition is fenced (R243). -/
def State.stackFenced (s : State) (p : Nat) : Bool := (s.stacksOf p).any fun h => (s.stack h).st == .fenced

/-- Bays of a slice given to pin windows: the cache lines in them are evicted, the dirty ones to be written back (R224, R225). -/
def Slice.giveBays (sl : Slice) (bays : List Nat) : Slice :=
  let gone (e : Nat × SliceLine) : Bool := bays.contains (e.1 / 256)
  { sl with lines := sl.lines.filter (fun e => !gone e), wbQueue := sl.wbQueue ++ ((sl.lines.filter fun e => gone e && e.2.anyDirty).map Prod.snd)
            pin := [], pinBad := [], pinWritten := [], pinBays := bays }

/-- An image's pin windows in place: their bays taken and zero, their pages PIN (R223). -/
def State.placePins (s : State) (p : Nat) (im : Image) : State :=
  let s := ((im.pins.map PinWindow.slice).foldl addOnce []).foldl (fun s k =>
    s.modSlice k fun sl => sl.giveBays ((im.pins.filter fun w => w.slice == k).flatMap fun w => upFrom w.firstBay w.bays)) s
  let pages := im.pins.flatMap fun w => upFrom (w.base / 2 ^ 21) ((w.base + w.bays * 65536 - 1) / 2 ^ 21 + 1 - w.base / 2 ^ 21)
  s.modPart p fun part => pages.foldl (fun (pt : Part) pg => pt.setPage pg { st := .pin }) part

/-- What a partition keeps of its present state where no job is loaded: allocations, quotas, far-tier attachments, the key-value pool (R380), and what
belongs to the partition itself. -/
def Part.unloaded (part : Part) : Part :=
  { ({} : Part) with
    quota := part.quota, use := part.use, pages := part.pages.filter (fun e => e.2.st != .pin), tables := part.tables, allocs := part.allocs
    backends := part.backends, exports := part.exports, transfers := part.transfers, prefetchDropped := part.prefetchDropped, pool := part.pool
    tdi := part.tdi, keyGen := part.keyGen, prevHeld := part.prevHeld, rekey := part.rekey, rekeyFar := part.rekeyFar, memKeys := part.memKeys
    failed := part.failed, failedNext := part.failedNext, left := part.left, lastStatus := part.lastStatus, epoch := part.epoch
    keys := part.keys, prevKeys := part.prevKeys, failLog := part.failLog
    treeStopped := part.treeStopped }

/-- A job created on a partition: LOADED, at step 0 (R256), with its first window versions (R252). -/
def State.loadJob (s : State) (p : Nat) (im : Image) (digest : BitVec 512) (roundKey randomKey : Nat) : State :=
  let s := (s.placePins p im).dropClip p
  s.modPart p fun part =>
    let part := (part.unloaded.charge 1 (Image.bays im)).charge 2 s.span
    { part with
      pages := (s.part p).pages, job := .loaded, image := some im, loadUse := part.useOf 2, digest := digest, roundKey := BitVec.ofNat 64 roundKey
      randomKey := BitVec.ofNat 64 randomKey, use := part.use.set 0 (ceilDiv (Image.reach im) 4096)
      versions := tsetAll 0 [] ((upFrom 0 im.windows.length).map fun k => (k, (im.windows.getD k {}).version)) }

/-- The DETAIL of an image that breaks a rule: the place of the offending unit is that of the container's bytes, whose layout the manual does not give, so
it is a free value (log entry 5). -/
def imageDetail (fresh : Nat) : Nat := 2 ^ 30 + (Config.freeValue 30 fresh).toNat

/-- JOB_LOAD (0x0301): `data` is what the reads of the image's extents bring, and `im` the image that a Dalic reader finds in them. -/
def execJobLoad (r : Nat) (t : Nat) (data : Dma) (im : Option Image) (s : State) : Host.Outcome State Fault Refusal :=
  .next (s.runCmd r t 0x0301 { need := fun j => 16 * j.arg 2 }
    (fun s j =>
      match data with
      | .error => .fail { status := stDataError }
      | .timeout => .fail { status := stTimeout }
      | .ok b =>
        let bad : CmdRes := .done { s with fresh := s.fresh + 1 } { status := stBadArg, detail := imageDetail s.fresh }
        match im with
        | none => bad
        | some im =>
          if !s.imageOk j.p im then bad
          else if s.overQuota j.p im then .fail { status := stNoMemory }
          else if s.formMismatch im then .fail { status := stFormMismatch }
          else
            let digest := Config.sha512 b
            let s' := s.loadJob j.p im digest (j.arg 0) (j.arg 1)
            if (s.part j.p).left || s.stackFenced j.p || s'.crossesTwo j.p (fun k => (s'.part j.p).plan k) then .fail { status := stHwFault }
            else .done s' { result := leBytes 64 digest.toNat })
    (digest := match data with | .ok b => some (Config.sha512 b) | _ => none))

/-! ### JOB_UNLOAD (R380, R388) -/

/-- Frames that a satchel configuration holds against the HBM quota: one for each page of its set, and a buddy store's pages, twice over (R321, R326). -/
def Part.satReserve (part : Part) : Nat :=
  if part.satchel.configured then part.setPages.length * (if part.satchel.buddyEn then 3 else 1) else 0

/-- JOB_UNLOAD's effect: dirty lines are written back, scratchpads, accumulators and every bay that is no cache bay are zeroed, the job's keys are
destroyed, and what the job held is released (R380, R388). -/
def State.unloadJob (s : State) (p : Nat) : State :=
  let s := ((s.part p).satPages).foldl (fun s pg => s.releaseKeep p pg) s
  let s := s.flushAll p
  let s := (s.coresOf p).foldl (fun s c => if tget {} s.cores c == {} then s else s.modCore c Core.wiped) s
  let s := (s.slicesOf p).foldl (fun s k => if tget {} s.slices k == {} then s else s.modSlice k fun sl =>
    { sl with pin := [], pinBad := [], pinWritten := [], pinBays := [] }) s
  let s := (s.rowsOf p).foldl (fun s k => if tget {} s.cloaks k == {} then s else s.modCloak k fun x => { x with toks := [], late := [] }) s
  let s := (s.portsOf p).foldl (fun s l => if (s.port l).keyPart == some p then
    s.modPort l fun x => { x with jobKey := false, keyPart := none, peerReady := false } else s) s
  s.modPart p fun part =>
    let bays := match part.image with | some im => Image.bays im | none => 0
    let x := ((part.unloaded.release 2 (s.span + part.satReserve)).release 1 bays)
    { x with use := x.use.set 0 0 }

/-- JOB_UNLOAD (0x0302). -/
def execJobUnload (r : Nat) (t : Nat) (s : State) : Host.Outcome State Fault Refusal :=
  let digest := match s.startable r with | some c => some (s.part (s.cmdPart r c)).digest | none => none
  .next (s.runCmd r t 0x0302 {} (fun s j => .done (s.unloadJob j.p) {}) (digest := digest))

/-! ### Queries and settings of a job -/

/-- JOB_INFO (0x0303). -/
def execJobInfo (r : Nat) (t : Nat) (s : State) : Host.Outcome State Fault Refusal :=
  .next (s.runCmd r t 0x0303 {} fun s j =>
    let part := s.part j.p
    let level := match part.image with | some im => im.level | none => 0
    .done s (okBytes 96 (leBytes 64 part.digest.toNat ++ packList [(8, part.step), (4, part.layoutEpoch), (1, jobCode part.job), (1, level)])))

/-- JOB_RANKS (0x0304): the rank map, whose identities are of 14 bits (R278, R297). -/
def execJobRanks (r : Nat) (t : Nat) (s : State) : Host.Outcome State Fault Refusal :=
  .next (s.runCmd r t 0x0304
    { need := fun j => 2 * j.arg 0
      pay := fun _ j => ((upFrom 0 (j.arg 0)).find? fun k => decide (2 ^ 14 ≤ leNat ((j.pay.drop (2 * k)).take 2))).map fun k => 2 * k }
    fun s j =>
      let ranks := readList j.pay (List.replicate (j.arg 0) 2)
      .done ((s.modPart j.p fun part => { part with ranks := ranks }).placeBuddy j.p) {})

/-- Whether a partition's job needs job keys (R408). -/
def State.needsKeys (s : State) (p : Nat) : Bool :=
  let part := s.part p
  match part.image with
  | none => false
  | some im => im.devices.any (fun d => d != s.self) || !im.ports.isEmpty || !im.peers.isEmpty || part.satchel.farEvery != 0

/-- A run begun: the partition is RUNNING, its clock tree is woken (R413) and its first section's change begins (R379). A frozen map set at the boundary holds for the step that starts
there, but not for one that is replayed (R124, R322). -/
def State.startRun (s : State) (p r t steps : Nat) : State :=
  let s := s.modPart p fun part =>
    { part with
      job := .running, runSteps := steps, stepsDone := 0, runTag := t, runRing := r, stopAsked := false, endNote := none, openStep := part.step, treeStopped := false
      frozen := if part.replay then part.frozen else part.frozenNext }
  let s := if (s.part p).record.isNone then s.modPart p fun part => { part with record := some (s.schedRecord p []) } else s
  s.beginStep p (s.part p).step

/-- Whether a partition's job names another device (R280, R293). -/
def State.namesOthers (s : State) (p : Nat) : Bool := (s.part p).jobDevices.any fun d => d != s.self

/-- JOB_RUN (0x0501): refused without a satchel configuration (R323), without job keys that the job needs (R408), while a diagnostic session is open
(R393), and, for a job that names another device, before `FORM_SETUP` has completed and fabric time is set (R280, R293); HW_FAULT with a fenced stack (R243).
A replay begins with the pages that `refill` brings from the first available source (R322). Its completion comes with the end of the run. -/
def execJobRun (r : Nat) (t : Nat) (refill : SMap (SMap HbmLine)) (s : State) : Host.Outcome State Fault Refusal :=
  .next (s.runCmd r t 0x0501 {} fun s j =>
    let part := s.part j.p
    if s.namesOthers j.p && !(s.form.set && s.beat.epochValid) then .fail { status := stWrongState }
    else if !part.satchel.configured || (s.needsKeys j.p && !part.jobKeysDone) || s.sec.diag.isSome then .fail { status := stWrongState }
    else if part.left || s.stackFenced j.p then .fail { status := stHwFault }
    else .later ((s.refillSet j.p refill).startRun j.p r t (j.arg 0)))

/-- JOB_STOP (0x0502): a run ends at its next step boundary. -/
def execJobStop (r : Nat) (t : Nat) (s : State) : Host.Outcome State Fault Refusal :=
  .next (s.runCmd r t 0x0502 {} fun s j =>
    .done (if (s.part j.p).job == .running then s.modPart j.p fun part => { part with stopAsked := true } else s) {})

/-- JOB_QUERY (0x0503). -/
def execJobQuery (r : Nat) (t : Nat) (s : State) : Host.Outcome State Fault Refusal :=
  .next (s.runCmd r t 0x0503 {} fun s j =>
    let part := s.part j.p
    let left := if part.job == .running then part.runSteps - part.stepsDone else 0
    .done s (okBytes 32 (packList [(1, jobCode part.job), (1, part.lastStatus), (8, part.step), (4, left), (8, part.dataPos)])))

/-- FROZEN_SET (0x0504): the frozen map of the next step (R124). -/
def execFrozenSet (r : Nat) (t : Nat) (s : State) : Host.Outcome State Fault Refusal :=
  .next (s.runCmd r t 0x0504 { need := fun _ => 512 } fun s j =>
    .done (s.modPart j.p fun part => { part with frozenNext := BitVec.ofNat 4096 (leNat (j.pay.take 512)) }) {})

end Sys2Proof.Machine
end

