-- ==== Sys2Proof/Machine/IntakeCmds.lean ====
section
/-! DEFINITION. The intake commands (R350, R353, R355, R358, R359, Table 7 of chapter 12). -/

namespace Sys2Proof.Machine

open Sys2Proof

/-- The head of an INTAKE_CONFIG payload: RING_BASE, SHUFFLE_KEY, RECORD_BYTES, SLOT_BYTES, SLOTS, FILL, FREE, EPOCHS, FIELDS (R368). -/
def intakeSizes : List Nat := [8, 8, 4, 4, 4, 2, 2, 2, 1]

/-- Field entry `k` of an INTAKE_CONFIG payload. -/
def fieldAt (pay : List Byte) (k : Nat) : Nat := leNat ((pay.drop (64 + 32 * k)).take 32)

/-- Bytes that a field takes from the record, and of the slot. -/
def fldSrcSpan (x : Nat) : Nat := fldCount x * fldSrcBytes x
/-- Bytes of the slot. -/
def fldDstSpan (x : Nat) : Nat := fldCount x * fldDstBytes x

/-- The rules of one field entry (R353, Table 5 of chapter 12). -/
def fieldOk (record slot x : Nat) : Bool :=
  let copy := fldKind x == 3
  bits x 56 8 == 0 && bits x 90 38 == 0 && decide (1 ≤ fldCount x)
    && (if copy then fldCount x % 8 == 0 && fldDst x % 8 == 0
        else fldSrc x % fldSrcBytes x == 0 && (fldType x == 0 || fldType x == 5) && fldDst x % fldDstBytes x == 0)
    && decide (fldSrc x + fldSrcSpan x ≤ record) && decide (fldDst x + fldDstSpan x ≤ slot)

/-- Whether two fields overlap in the slot. -/
def fieldsMeet (x y : Nat) : Bool := decide (fldDst x < fldDst y + fldDstSpan y) && decide (fldDst y < fldDst x + fldDstSpan x)

/-- Whether a range of memory lies in one HELD allocation outside the satchel set (R355). -/
def Part.heldRange (part : Part) (base len : Nat) : Bool :=
  part.allocs.any fun a => a.policy == 1 && !part.satchel.set.contains a.base && decide (a.base ≤ base) && decide (base + len ≤ a.base + a.len)

/-- The payload offset of the first breach in an INTAKE_CONFIG (R353, R355). -/
def State.intakeConfigBad (s : State) (j : Job) : Option Nat :=
  let a := readList j.pay intakeSizes
  let v (k : Nat) : Nat := a.getD k 0
  let n := v 8
  if !(s.part j.p).heldRange (v 0) (v 4 * v 3) then some 0
  else if v 2 = 0 then some 16
  else if v 3 = 0 ∨ v 3 % 256 ≠ 0 ∨ 2 ^ 26 < v 3 then some 20
  else if v 4 < 2 ∨ 65536 < v 4 then some 24
  else if v 5 < 1024 ∨ 16383 < v 5 then some 28
  else if v 6 < 1024 ∨ 16383 < v 6 then some 30
  else if v 7 < 1 ∨ 4096 < v 7 then some 32
  else if 16 < n then some 34
  else
    ((upFrom 0 n).find? fun k =>
      let x := fieldAt j.pay k
      !fieldOk (v 2) (v 3) x || (upFrom 0 k).any fun i => fieldsMeet (fieldAt j.pay i) x).map fun k => 64 + 32 * k

/-- INTAKE_CONFIG (0x0510). -/
def execIntakeConfig (r : Nat) (t : Nat) (s : State) : Host.Outcome State Fault Refusal :=
  .next (s.runCmd r t 0x0510
    { need := fun j => 64 + 32 * min 16 (leNat ((j.c.bytes.drop 34).take 1)), pay := fun s j => s.intakeConfigBad j }
    fun s j =>
      let a := readList j.pay intakeSizes
      let v (k : Nat) : Nat := a.getD k 0
      .done (s.modPart j.p fun part => { part with intake := { part.intake with
        configured := true, ringBase := v 0, key := BitVec.ofNat 64 (v 1), recordBytes := v 2, slotBytes := v 3, slots := v 4, fill := v 5, free := v 6
        epochs := v 7, fields := (upFrom 0 (v 8)).map fun k => BitVec.ofNat 256 (fieldAt j.pay k) } }) {})

/-- A shard of an INTAKE_SHARDS payload: BASE 8, STRIDE 8, LENGTH 8 with bit 63 as SHUFFLE. -/
def shardAt (pay : List Byte) (k : Nat) : Shard :=
  let w (i : Nat) : Nat := leNat ((pay.drop (24 * k + 8 * i)).take 8)
  { base := w 0, stride := w 1, len := w 2 % 2 ^ 63, shuffle := bit (w 2) 63 }

/-- INTAKE_SHARDS (0x0511): the shard list set before the job's first run, or appended to (R350, R358). -/
def execIntakeShards (r : Nat) (t : Nat) (s : State) : Host.Outcome State Fault Refusal :=
  .next (s.runCmd r t 0x0511
    { inline := fun s j =>
        let have' := if j.arg 0 = 1 then (s.part j.p).intake.shards.length else 0
        if 1 < j.arg 0 then some 32 else if 4096 < have' + j.arg 1 then some 34 else none
      need := fun j => 24 * j.arg 1
      pay := fun s j => (upFrom 0 (j.arg 1)).findSome? fun k =>
        let sh := shardAt j.pay k
        if sh.stride < (s.part j.p).intake.recordBytes then some (24 * k + 8) else if 2 ^ 36 < sh.len then some (24 * k + 16) else none }
    fun s j =>
      if j.arg 0 = 0 && (s.part j.p).job != .loaded then .fail { status := stWrongState }
      else
        let l := (upFrom 0 (j.arg 1)).map (shardAt j.pay)
        .done ((s.modPart j.p fun part => { part with intake := { part.intake with
          shards := if j.arg 0 = 0 then l else part.intake.shards ++ l } }).settleIntake j.p) {})

/-- INTAKE_START (0x0512). -/
def execIntakeStart (r : Nat) (t : Nat) (s : State) : Host.Outcome State Fault Refusal :=
  .next (s.runCmd r t 0x0512 {} fun s j =>
    let it := (s.part j.p).intake
    if !it.configured then .fail { status := stWrongState }
    else if it.st = 1 ∨ it.st = 2 then .done s {}
    else .done ((s.modPart j.p fun part => { part with intake := { part.intake with st := 1, stopStatus := 0 } }).settleIntake j.p) {})

/-- INTAKE_STOP (0x0513). -/
def execIntakeStop (r : Nat) (t : Nat) (s : State) : Host.Outcome State Fault Refusal :=
  .next (s.runCmd r t 0x0513 {} fun s j => .done (s.stopIntake j.p stOK) {})

/-- INTAKE_QUERY (0x0514). -/
def execIntakeQuery (r : Nat) (t : Nat) (s : State) : Host.Outcome State Fault Refusal :=
  .next (s.runCmd r t 0x0514 {} fun s j =>
    let it := (s.part j.p).intake
    .done s (okBytes 48 (packList ([(8, it.cursor), (2, it.shards.length), (1, it.st)] ++ (upFrom 0 5).map fun k => (4, tget 0 it.counts k)))))

end Sys2Proof.Machine
end

