-- ==== Sys2Proof/Machine/MemCmds.lean ====
section
/-! DEFINITION. The memory commands (R244 to R253, Tables 9 and 10 of chapter 8, Table 9 of chapter 13). -/

namespace Sys2Proof.Machine

open Sys2Proof

/-- The started command of tag `t` and opcode `op` that waits on ring `r` looked at again: it ends, or it goes on waiting (log entry 2). -/
def State.goOn (s : State) (r t op : Nat) (f : State → Job → CmdRes) : State :=
  match (s.ring r).find t with
  | none => s
  | some c =>
    if c.opcode != op || !c.running then s
    else
      let sp := (cmdSpec op).getD {}
      let j : Job := { r := r, c := c, p := s.cmdPart r c, args := readList c.argBytes sp.args, pay := c.bytes }
      match f s j with
      | .later s => s
      | .fail a => ((s.auditCmd r c a.status none).finish r t a).settleRings
      | .done s a => ((s.auditCmd r c a.status none).finish r t a).settleRings

/-- A command that may wait: started by its row when it stands at its ring's front, and looked at again by the same row while it waits. -/
def State.runOrGoOn (s : State) (r t op : Nat) (rules : CmdRules) (f g : State → Job → CmdRes) : State :=
  match (s.ring r).find t with
  | some c => if c.running && c.opcode == op then s.goOn r t op g else s.runCmd r t op rules f
  | none => s

/-! ### Quotas -/

/-- MEM_QUOTA_SET (0x0401, R249): scratchpad from 8 to 24 pieces of 64 KiB; WRONG_STATE while the partition's interface is CONFIG_LOCKED or RUN (R409). -/
def execMemQuotaSet (r : Nat) (t : Nat) (s : State) : Host.Outcome State Fault Refusal :=
  .next (s.runCmd r t 0x0401 { inline := fun _ j => if 8 ≤ j.arg 0 ∧ j.arg 0 ≤ 24 then none else some 32 }
    fun s j => if s.locked j.p then .fail { status := stWrongState }
      else .done (s.modPart j.p fun part => { part with quota := [j.arg 0, j.arg 1, j.arg 2, j.arg 3] }) {})

/-- MEM_QUOTA_QUERY (0x0402): the quotas, then the uses. -/
def execMemQuotaQuery (r : Nat) (t : Nat) (s : State) : Host.Outcome State Fault Refusal :=
  .next (s.runCmd r t 0x0402 {} fun s j =>
    let part := s.part j.p
    .done s (okBytes 32 (packList (((upFrom 0 4).zip [1, 2, 4, 4]).map (fun e => (e.2, part.quotaOf e.1))
      ++ ((upFrom 0 4).zip [1, 2, 4, 4]).map fun e => (e.2, part.useOf e.1)))))

/-! ### Allocations (R245, R248) -/

/-- The first breach of a range of BASE and LENGTH in whole pages, by its descriptor offset. -/
def rangeBad (base len : Nat) : Option Nat :=
  if base % pageBytes ≠ 0 then some 32 else if len = 0 ∨ len % pageBytes ≠ 0 then some 40 else none

/-- The pages of a range. -/
def rangeOf (base len : Nat) : List Nat := upFrom (base / pageBytes) (len / pageBytes)

/-- An allocation added, the frames of a HELD one charged (R248). -/
def Part.addAlloc (part : Part) (a : Alloc) : Part :=
  { part.charge 2 (if a.policy = 1 then a.len / pageBytes else 0) with allocs := part.allocs ++ [a] }

/-- MEM_ALLOC (0x0403): NO_MEMORY past the range of 16 TiB (R24) or over the quota, WRONG_STATE over an allocation or a PIN page. An allocation that may
leave HBM names an attached backend (R246). -/
def execMemAlloc (r : Nat) (t : Nat) (s : State) : Host.Outcome State Fault Refusal :=
  .next (s.runCmd r t 0x0403
    { inline := fun s j =>
        match rangeBad (j.arg 0) (j.arg 1) with
        | some o => some o
        | none => if 2 < j.arg 2 then some 48
          else if 3 < j.arg 3 ∨ (j.arg 2 ≠ 1 ∧ (tget none (s.part j.p).backends (j.arg 3)).isNone) then some 49 else none }
    fun s j =>
      let part := s.part j.p
      let base := j.arg 0
      let len := j.arg 1
      if 2 ^ 44 < base + len then .fail { status := stNoMemory }
      else if part.allocs.any (fun a => decide (a.base < base + len) && decide (base < a.base + a.len))
          || part.pages.any (fun e => e.2.st == .pin && decide (base / pageBytes ≤ e.1) && decide (e.1 < (base + len) / pageBytes)) then
        .fail { status := stWrongState }
      else
        let tables := part.newTables (base / pageBytes) (len / pageBytes)
        let held := if j.arg 2 = 1 then len / pageBytes else 0
        if part.quotaOf 2 < part.useOf 2 + tables.length + held && tables.length + held != 0 then .fail { status := stNoMemory }
        else
          match s.takeTables j.p tables with
          | none => .fail { status := stNoMemory }
          | some s => .done (s.modPart j.p fun part => part.addAlloc { base := base, len := len, policy := j.arg 2, backend := j.arg 3 }) {})

/-- What an allocation keeps when a range is freed. -/
def Alloc.without (a : Alloc) (base len : Nat) : List Alloc :=
  if a.base + a.len ≤ base ∨ base + len ≤ a.base then [a]
  else
    (if a.base < base then [{ a with len := base - a.base }] else [])
      ++ (if base + len < a.base + a.len then [{ a with base := base + len, len := a.base + a.len - (base + len) }] else [])

/-- Pages that a job names: those of its streams outside pin windows, of its windows, of its state and satchel set, and of its sample ring (R250). -/
def Part.namedPage (part : Part) (pg : Nat) : Bool :=
  match part.image with
  | none => false
  | some im =>
    (match part.allocOf pg with | some a => im.state.contains a.base || part.satchel.set.contains a.base | none => false)
      || (part.windowOf pg).isSome || part.poolPage pg
      || (part.intake.configured && decide (part.intake.ringBase / pageBytes ≤ pg)
            && decide (pg * pageBytes < part.intake.ringBase + part.intake.slots * part.intake.slotBytes))
      || im.sections.any fun sec => (streamsOf sec).any fun e =>
          (stKind e.2 == 0 || stKind e.2 == 1) && !(kvStreams sec).contains e.1 && (pinAt im (stMem e.2)).isNone && stMem e.2 / pageBytes == pg

/-- Whether a request to a page has still to end: in its slice, parked, or a transfer (R250). -/
def State.pageWaits (s : State) (p pg : Nat) : Bool :=
  s.pageBusy p pg || (s.part p).inTransfer pg true || (s.part p).inTransfer pg false

/-- A page freed: its lines and its frame are gone, and it is UNMAPPED (R245). -/
def State.freePage (s : State) (p pg : Nat) : State :=
  let e := (s.part p).page pg
  let h := s.stackOfPage p pg
  let held := (s.part p).heldPage pg
  let s := s.dropPage p pg true
  let s := if e.st == .hbm then s.freeFrame h e.frame else s
  let s := match e.boundary with | some b => if b == zeroBoundary then s else s.freeFrame h b | none => s
  s.modPart p fun part =>
    let part := if held || e.st == .hbm then part.release 2 1 else part
    let part := if hasFar (pg, e) then part.release 3 1 else part
    part.setPage pg {}

/-- MEM_FREE's effect once no request to the range is left; it waits until then. -/
def State.memFree (s : State) (j : Job) : CmdRes :=
  let pages := rangeOf (j.arg 0) (j.arg 1)
  let mine := pages.filter fun pg => ((s.part j.p).allocOf pg).isSome
  if mine.any fun pg => s.pageWaits j.p pg then .later s
  else
    let s := mine.foldl (fun s pg => s.freePage j.p pg) s
    .done (s.modPart j.p fun part => { part with allocs := part.allocs.flatMap fun a => a.without (j.arg 0) (j.arg 1) }) {}

/-- MEM_FREE (0x0404): WRONG_STATE if a running job names the range. -/
def execMemFree (r : Nat) (t : Nat) (s : State) : Host.Outcome State Fault Refusal :=
  .next (s.runOrGoOn r t 0x0404 { inline := fun _ j => rangeBad (j.arg 0) (j.arg 1) }
    (fun s j =>
      let part := s.part j.p
      if part.job == .running && (rangeOf (j.arg 0) (j.arg 1)).any part.namedPage then .fail { status := stWrongState } else s.memFree j)
    State.memFree)

/-! ### MEM_FLUSH (R250) -/

/-- Pages of a partition that a running MEM_FLUSH has still to see to. -/
def Part.flushing (part : Part) : List Nat := (part.pages.filter fun e => e.2.flushing).map Prod.fst

/-- A running MEM_FLUSH ended with a status: pages on their way out go on as they are. -/
def State.stopFlush (s : State) (p status : Nat) : State :=
  (s.modPart p fun part => { part with pages := part.pages.map fun x => (x.1, { x.2 with flushing := x.2.flushing && x.2.st == .out }) }).endFlush p status

/-- A page of a running MEM_FLUSH looked at again (R250): once its dirty lines have been written back, and with FAR_VALID 0, it takes a far page and goes
out, as the sixteen transfers of a partition leave room (R247). -/
def State.flushOne (s : State) (p pg : Nat) : State :=
  let part := s.part p
  let e := part.page pg
  if !e.flushing || e.st == .out then s
  else if s.pageBad p pg then s.stopFlush p stDataError
  else if s.pageDirty p pg then s.flushPage p pg
  else if e.st != .hbm || e.farValid || part.heldPage pg || part.poolPage pg then s.setPage p pg { e with flushing := false }
  else if 16 ≤ part.transfers.length then s
  else if !part.farRoom pg then s.stopFlush p stNoMemory
  else (s.modPart p fun part => part.takeFar pg).beginSend p pg

/-- A running MEM_FLUSH taken further; it ends once no page is left. -/
def State.flushMore (s : State) (p : Nat) : State :=
  match (s.part p).flushing with
  | [] => s
  | l => (l.foldl (fun s pg => s.flushOne p pg) s).checkFlush p

/-- MEM_FLUSH (0x0405): the range's dirty lines are written back, and its HBM pages with FAR_VALID 0 go to their backends. -/
def State.memFlush (s : State) (j : Job) : CmdRes :=
  let out := (rangeOf (j.arg 0) (j.arg 1)).filter fun pg =>
    let e := (s.part j.p).page pg
    ((s.part j.p).allocOf pg).isSome && (s.pageDirty j.p pg
      || (e.st == .hbm && !e.farValid && !(s.part j.p).heldPage pg && !(s.part j.p).poolPage pg))
  if out.isEmpty then .done s {}
  else .later (s.modPart j.p fun part => out.foldl (fun (pt : Part) pg => pt.setPage pg { pt.page pg with flushing := true }) part)

/-- MEM_FLUSH (0x0405). -/
def execMemFlush (r : Nat) (t : Nat) (s : State) : Host.Outcome State Fault Refusal :=
  let s' := s.runOrGoOn r t 0x0405 { inline := fun _ j => rangeBad (j.arg 0) (j.arg 1) } State.memFlush fun s _ => .later s
  .next (s'.partList.foldl (fun s p => s.flushMore p) s')

/-! ### Backends (R246, R250) -/

/-- FAR_ATTACH (0x0406): BUSY with four attached, LINK_DOWN where no link leads to the device or node. A TIMEOUT_MS of 0 is the default of 250 ms. -/
def execFarAttach (r : Nat) (t : Nat) (s : State) : Host.Outcome State Fault Refusal :=
  .next (s.runCmd r t 0x0406
    { inline := fun _ j => if 3 < j.arg 0 then some 32 else if 3 < j.arg 1 ∧ j.arg 0 ≠ 3 then some 33 else if 10000 < j.arg 4 then some 40 else none }
    fun s j =>
      let part := s.part j.p
      if j.arg 0 = 3 then
        .done (s.modPart j.p fun part =>
          { part with exports := (part.exports.filter fun e => e.1 != j.arg 3) ++ [(j.arg 3, j.arg 5, j.arg 6)] }) {}
      else if (tget none part.backends (j.arg 1)).isSome then .fail { status := stBusy }
      else if (j.arg 0 = 1 ∧ (s.portTo (j.arg 2)).isNone) ∨ (j.arg 0 = 2 ∧ (s.portToNode (j.arg 2)).isNone) then .fail { status := stLinkDown }
      else
        let b : Backend := { kind := j.arg 0, target := j.arg 2, region := j.arg 3, timeoutMs := if j.arg 4 = 0 then 250 else j.arg 4
                             base := j.arg 5, len := j.arg 6 }
        .done (s.modPart j.p fun part => { part with backends := tset none part.backends (j.arg 1) (some b) }) {})

/-- FAR_DETACH (0x0407): WRONG_STATE while any page is stored on the backend. -/
def execFarDetach (r : Nat) (t : Nat) (s : State) : Host.Outcome State Fault Refusal :=
  .next (s.runCmd r t 0x0407
    { inline := fun s j => if 3 < j.arg 0 ∨ (tget none (s.part j.p).backends (j.arg 0)).isNone then some 32 else none }
    fun s j =>
      let part := s.part j.p
      let stored := part.pages.any fun e =>
        (e.2.farValid || e.2.st == .far || e.2.st == .out || e.2.st == .inn) && match part.allocOf e.1 with | some a => a.backend == j.arg 0 | none => false
      if stored then .fail { status := stWrongState }
      else .done (s.modPart j.p fun part => { part with backends := tset none part.backends (j.arg 0) none }) {})

/-! ### Windows and page states (R252, R250) -/

/-- WINDOW_SET_VERSION (0x0408): WRONG_STATE with an HBM page at FAR_VALID 0 or a dirty line in the window. -/
def execWindowSetVersion (r : Nat) (t : Nat) (s : State) : Host.Outcome State Fault Refusal :=
  let windows (s : State) (p : Nat) : List WindowCfg := match (s.part p).image with | some im => im.windows | none => []
  .next (s.runCmd r t 0x0408
    { inline := fun s j => if (windows s j.p).length ≤ j.arg 0 ∧ (s.part j.p).job ≠ .none then some 32 else none }
    fun s j =>
      let w := (windows s j.p).getD (j.arg 0) {}
      let dirty := (upFrom w.firstPage w.pages).any fun pg =>
        let e := (s.part j.p).page pg
        (e.st == .hbm && !e.farValid) || s.pageDirty j.p pg
      if dirty then .fail { status := stWrongState }
      else .done (s.modPart j.p fun part => { part with versions := tset 0 part.versions (j.arg 0) (j.arg 1) }) {})

/-- The code of a page state (Table 7 of chapter 8). -/
def pageCode : PageSt → Nat
  | .unmapped => 0 | .zero => 1 | .hbm => 2 | .far => 3 | .inn => 4 | .out => 5 | .pin => 6

/-- MEM_PAGE_QUERY (0x0409): state, FAR_VALID and SAT_DIRTY of up to 512 pages. -/
def execMemPageQuery (r : Nat) (t : Nat) (s : State) : Host.Outcome State Fault Refusal :=
  .next (s.runCmd r t 0x0409
    { inline := fun _ j => if j.arg 1 < 1 ∨ 512 < j.arg 1 then some 36 else if rangePages < j.arg 0 + j.arg 1 then some 32 else none }
    fun s j =>
      .done s { result := (upFrom (j.arg 0) (j.arg 1)).map fun pg =>
        let e := (s.part j.p).page pg
        BitVec.ofNat 8 (pageCode e.st + 8 * e.farValid.toNat + 16 * e.satDirty.toNat) })

end Sys2Proof.Machine
end

