-- ==== Sys2Proof/Machine/KvCmds.lean ====
section
/-! DEFINITION. The key-value commands of host software (R173, R176, R183, Table 11 of chapter 6, Table 9 of chapter 13). -/

namespace Sys2Proof.Machine

open Sys2Proof

/-- Slots of the pools of every partition but `p`; their sum is at most 1,024 with the new pool's (Table 8). -/
def State.otherSlots (s : State) (p : Nat) : Nat :=
  ((s.partList.filter fun q => q != p).map fun q => match (s.part q).pool with | some k => k.slots | none => 0).sum

/-- `n` pool pages added to a partition's pool, where frames are left for them. -/
def State.addPoolPages (s : State) (p : Nat) : Nat → KvPool → Option (State × KvPool)
  | 0, k => some (s, k)
  | n + 1, k => match s.addPoolPage p k with
    | some (s, k) => s.addPoolPages p n k
    | none => none

/-- A payload entry of KV_POOL_CREATE: LAYER 2, reserved 2, K_COARSE 4, V_COARSE 4. -/
def kvLayerEntry (b : List Byte) (l : Nat) : List Nat := readList (b.drop (12 * l)) [2, 2, 4, 4]

/-- KV_POOL_CREATE (0x0410): the pool's parameters by Table 8, its pages charged in full to the HBM quota, every slot FREE. -/
def execKvPoolCreate (r : Nat) (t : Nat) (s : State) : Host.Outcome State Fault Refusal :=
  .next (s.runCmd r t 0x0410
    { inline := fun _ j =>
        if j.arg 0 ∉ [1, 3, 4] then some 32 else if 15 < j.arg 1 then some 33 else if 63 < j.arg 3 then some 35 else if 4095 < j.arg 4 then some 36
        else if 1023 < j.arg 5 then some 38 else if j.arg 6 = 0 then some 40 else if 1 < j.arg 7 then some 44 else none
      need := fun j => 12 * (j.arg 2 + 1)
      pay := fun _ j => (upFrom 0 (j.arg 2 + 1)).findSome? fun l =>
        if 4096 ≤ (kvLayerEntry j.pay l).getD 0 0 then some (12 * l)
        else if (kvLayerEntry j.pay l).getD 1 0 ≠ 0 then some (12 * l + 2) else none }
    fun s j =>
      let part := s.part j.p
      if part.pool.isSome then .fail { status := stWrongState }
      else if 1024 < s.otherSlots j.p + (j.arg 5 + 1) ∨ part.quotaOf 2 < part.useOf 2 + j.arg 6 then .fail { status := stNoMemory }
      else
        let entry (l : Nat) : Nat × W32 × W32 :=
          let e := kvLayerEntry j.pay l
          (e.getD 0 0, BitVec.ofNat 32 (e.getD 2 0), BitVec.ofNat 32 (e.getD 3 0))
        let k : KvPool := { type := j.arg 0, hdim := 16 * (j.arg 1 + 1), layers := j.arg 2 + 1, heads := j.arg 3 + 1, maxp := j.arg 4 + 1
                            slots := j.arg 5 + 1, grow := j.arg 7 == 1, table := (upFrom 0 (j.arg 2 + 1)).map entry }
        match s.addPoolPages j.p (j.arg 6) k with
        | none => .fail { status := stNoMemory }
        | some (s, k) => .done (s.setPool j.p k) {})

/-- A command on a slot of the partition's pool: WRONG_STATE without a pool or with a slot that is not in a state of `ok`; a slot beyond SLOTS ends with
`beyond`. -/
def State.slotCmd (s : State) (j : Job) (beyond : Nat) (ok : SeqDesc → Bool) (f : KvPool → CmdRes) : CmdRes :=
  match (s.part j.p).pool with
  | none => .fail { status := stWrongState }
  | some k =>
    if k.slots ≤ j.arg 0 then .fail { status := beyond }
    else if !ok (k.slot (j.arg 0)) then .fail { status := stWrongState } else f k

/-- KV_SEQ_OPEN (0x0411): a FREE slot becomes OPEN with LENGTH 0; one beyond SLOTS ends with NO_MEMORY (R176). -/
def execKvSeqOpen (r : Nat) (t : Nat) (s : State) : Host.Outcome State Fault Refusal :=
  .next (s.runCmd r t 0x0411 {} fun s j => s.slotCmd j stNoMemory (fun d => d.st == 0) fun k =>
    .done (s.setPool j.p (k.modSlot (j.arg 0) fun _ => { st := 1, tag := j.arg 1 })) {})

/-- KV_SEQ_PARK (0x0412): OPEN to PARKED, with the low 32 bits of the beat epoch. -/
def execKvSeqPark (r : Nat) (t : Nat) (s : State) : Host.Outcome State Fault Refusal :=
  .next (s.runCmd r t 0x0412 {} fun s j => s.slotCmd j stWrongState (fun d => d.st == 1) fun k =>
    .done ((s.setPool j.p (k.modSlot (j.arg 0) fun d => { d with st := 2, parkBeat := s.slot / 2 ^ 20 % 2 ^ 32 })).kvPump j.p) {})

/-- KV_SEQ_RESUME (0x0413): PARKED and not EVICTED to OPEN. -/
def execKvSeqResume (r : Nat) (t : Nat) (s : State) : Host.Outcome State Fault Refusal :=
  .next (s.runCmd r t 0x0413 {} fun s j => s.slotCmd j stWrongState (fun d => d.st == 2 && !d.evicted) fun k =>
    .done (s.setPool j.p (k.modSlot (j.arg 0) fun d => { d with st := 1 })) {})

/-- A slot closed once no request of it is in flight: its frames are free, and it is FREE. -/
def State.seqClose (s : State) (j : Job) : CmdRes :=
  s.slotCmd j stWrongState (fun d => d.st != 0) fun k =>
    let n := j.arg 0
    if k.reqs.any fun x => x.slot == n then .later s
    else .done (s.setPool j.p ((k.freeSlot n).modSlot n fun _ => {})) {}

/-- KV_SEQ_CLOSE (0x0414): any live slot to FREE. -/
def execKvSeqClose (r : Nat) (t : Nat) (s : State) : Host.Outcome State Fault Refusal :=
  .next (s.runOrGoOn r t 0x0414 {} State.seqClose State.seqClose)

/-- The 32 bytes of a slot's descriptor (Table 10 of chapter 6). -/
def KvPool.descBytes (k : KvPool) (n : Nat) : List Byte :=
  let d := k.slot n
  leBytes 4 (d.st + 4 * d.endStatus + 1024 * d.evicted.toNat) ++ leBytes 4 d.length ++ leBytes 4 d.parkBeat ++ leBytes 4 (k.framesOf n).length
    ++ leBytes 4 d.tag ++ leBytes 12 0

/-- KV_POOL_QUERY (0x0415): free frames, pool pages, and the descriptors of the slots named. -/
def execKvPoolQuery (r : Nat) (t : Nat) (s : State) : Host.Outcome State Fault Refusal :=
  .next (s.runCmd r t 0x0415
    { need := fun j => 2 * j.arg 0
      pay := fun s j => match (s.part j.p).pool with
        | none => none
        | some k => ((upFrom 0 (j.arg 0)).find? fun i => decide (k.slots ≤ leNat ((j.pay.drop (2 * i)).take 2))).map (2 * ·) }
    fun s j => match (s.part j.p).pool with
      | none => .fail { status := stWrongState }
      | some k =>
        let slots := readList j.pay (List.replicate (j.arg 0) 2)
        .done s { result := leBytes 4 k.free.length ++ leBytes 4 k.pages.length ++ leBytes 8 0 ++ slots.flatMap k.descBytes })

/-- KV_POOL_DESTROY (0x0416): the pool's pages and their quota are free. -/
def execKvPoolDestroy (r : Nat) (t : Nat) (s : State) : Host.Outcome State Fault Refusal :=
  .next (s.runCmd r t 0x0416 {} fun s j => match (s.part j.p).pool with
    | none => .fail { status := stWrongState }
    | some k =>
      let s := k.pages.foldl (fun s pg => s.freePage j.p pg) s
      .done (s.modPart j.p fun part => { part with pool := none }) {})

end Sys2Proof.Machine
end

