-- ==== Sys2Proof/Machine/SatchelCmds.lean ====
section
/-! DEFINITION. Satchel commands (R323, R341), restore (R331, R332), the fill of a spare (R333, R334) and re-sharding (R335, R336). -/

namespace Sys2Proof.Machine

open Sys2Proof

/-! ### Configuration and queries (R321, R323, R326, R341) -/

/-- The first payload base of SATCHEL_CONFIG that is no HELD allocation, that the image does not declare as state, or that is named twice. -/
def Part.badSetBase (part : Part) (bases : List Nat) : Option Nat :=
  let state := match part.image with | some im => im.state | none => []
  (upFrom 0 bases.length).find? fun k =>
    let b := bases.getD k 0
    !state.contains b || !(part.allocs.any fun a => a.base == b && a.policy == 1) || (bases.take k).contains b

/-- The bases that SATCHEL_CONFIG's payload names. -/
def setBases (j : Job) : List Nat := readList j.pay (List.replicate (j.arg 6) 8)

/-- SATCHEL_CONFIG (0x0601): the settings of Table 4 of chapter 11, with the step keep and the buddy store reserved against the HBM quota. -/
def execSatchelConfig (r : Nat) (t : Nat) (s : State) : Host.Outcome State Fault Refusal :=
  .next (s.runCmd r t 0x0601
    { inline := fun s j =>
        let part := s.part j.p
        let state := match part.image with | some im => im.state | none => []
        if j.arg 0 = 0 then some 32 else if 1023 < j.arg 2 then some 36
        else if 1 < j.arg 3 ∨ (j.arg 3 = 0 ∧ 1 < part.deviceCount) then some 38
        else if 3 < j.arg 4 ∨ (j.arg 1 ≠ 0 ∧ (tget none part.backends (j.arg 4)).isNone) then some 39
        else if 16 < j.arg 5 then some 40 else if j.arg 6 = 0 ∨ 64 < j.arg 6 ∨ j.arg 6 ≠ state.length then some 41 else none
      need := fun j => 8 * j.arg 6
      pay := fun s j => ((s.part j.p).badSetBase (setBases j)).map (8 * ·) }
    fun s j =>
      let part := s.part j.p
      let free := part.release 2 part.satReserve
      let sat : Satchel := { free.satchel with
        configured := true, set := setBases j, interval := j.arg 0, farEvery := j.arg 1, satBell := j.arg 2, buddyEn := j.arg 3 == 1
        farBackend := j.arg 4, spares := j.arg 5, baseNext := true }
      let new : Part := { free with satchel := sat }
      if new.quotaOf 2 < new.useOf 2 + new.satReserve then .fail { status := stNoMemory }
      else .done ((s.setPart j.p (new.charge 2 new.satReserve)).placeBuddy j.p) {})

/-- A value that the manual does not state: none of its kind exists (log entry 5). -/
def State.noValue (s : State) (w : Nat) : State × Nat := ({ s with fresh := s.fresh + 1 }, (Config.freeValue w s.fresh).toNat)

/-- A value, or a free one where there is none. -/
def State.orFree (s : State) (w : Nat) (v : Option Nat) : State × Nat := match v with | some n => (s, n) | none => s.noValue w

/-- SATCHEL_QUERY (0x0602): the buddy, the last committed and the last far satchel, and the progress of the one in hand. -/
def execSatchelQuery (r : Nat) (t : Nat) (s : State) : Host.Outcome State Fault Refusal :=
  .next (s.runCmd r t 0x0602 {} fun s j =>
    let sat := (s.part j.p).satchel
    let a := s.orFree 16 sat.buddy
    let b := a.1.orFree 64 sat.committed
    let c := b.1.orFree 64 sat.far
    .done c.1 (okBytes 32 (packList [(2, a.2), (8, b.2), (8, c.2), (4, sat.sent), (4, sat.inSet)])))

/-- SATCHEL_TAKE (0x0603): the next step boundary is due. -/
def execSatchelTake (r : Nat) (t : Nat) (s : State) : Host.Outcome State Fault Refusal :=
  .next (s.runCmd r t 0x0603 {} fun s j =>
    .done (s.modPart j.p fun part => { part with satchel := { part.satchel with dueNext := true } }) {})

/-! ### Restore (R331, R332) -/

/-- Allocations that a schedule record names put in place of those that stand: every page of theirs is empty. -/
def State.recreateAllocs (s : State) (p : Nat) (allocs : List (Nat × Nat × Nat × Nat)) : State :=
  let s := ((s.part p).allocs.flatMap fun a => rangeOf a.base a.len).foldl (fun s pg => s.freePage p pg) s
  let s := s.modPart p fun part => { part with allocs := [] }
  allocs.foldl (fun s a =>
    let s := (s.takeTables p ((s.part p).newTables (a.1 / pageBytes) (a.2.1 / pageBytes))).getD s
    s.modPart p fun part => part.addAlloc { base := a.1, len := a.2.1, policy := a.2.2.1, backend := a.2.2.2 }) s

/-- The edges of a partition's cores that feed a queue of core `c`: producer and edge. -/
def State.feeders (s : State) (p c q : Nat) : List (Nat × Nat) :=
  (s.coresOf p).flatMap fun k =>
    let cfg := (tget {} s.cores k).cfg
    (cfg.edges.filter fun e => cfgDest cfg e.1 == c && edgeQueue e.2.toNat == q).map fun e => (k, e.1)

/-- A saved token placed in its queue with its core's present generation; it earns its credit back for the edge that feeds the queue (R332). -/
def State.placeToken (s : State) (p : Nat) (x : Nat × Tok) : State :=
  s.modCore x.1 fun core =>
    { core with queues := tmod [] core.queues x.2.queue (· ++ [{ tok := { x.2 with gen := core.gen }, src := (s.feeders p x.1 x.2.queue).head? }]) }

/-- Every producer's credit for an edge: DEPTH less the tokens restored in that edge's queue (R332). -/
def State.restoreCredits (s : State) (p : Nat) : State :=
  (s.coresOf p).foldl (fun s k =>
    let core := tget {} s.cores k
    if core.cfg.edges = [] then s
    else s.setCore k { core with credits := tsetAll 0 [] (core.cfg.edges.map fun e =>
      (e.1, s.edgeCredit k e.1 - ((s.core (cfgDest core.cfg e.1)).queue (edgeQueue e.2.toNat)).length)) }) s

/-- An intake cursor set (R332). -/
def Intake.seek (it : Intake) (cursor k : Nat) : Intake :=
  { it with
    index := bits cursor 0 36, shard := bits cursor 36 12, epoch := bits cursor 48 12, k := k, firsts := [], retried := false, finished := false
    st := if it.finished && it.st == 3 then 1 else it.st }

/-- A schedule record applied to what is not memory (R332): sequencers, bells, tokens and credits, round counter, keys, frozen map, versions, epoch, step,
and the data position, of which the intake cursor wins. -/
def State.applyRecord (s : State) (p : Nat) (x : SchedRec) : State :=
  let s := (s.coresOf p).foldl (fun s c => if tget {} s.cores c == {} then s else s.modCore c fun core => { core with queues := [] }) s
  let s := x.seqs.foldl (fun s q => s.modCore q.core fun core =>
    core.setSeq q.seq { core.seq q.seq with pc := q.pc, passes := q.loops, mb := q.mb }) s
  let s := s.restoreCredits p
  let s := x.toks.foldl (fun s k => s.placeToken p k) s
  let s := s.restoreCredits p
  let s := s.modPart p fun part =>
    let bell := match part.image with | some im => im.stepBell | none => 0
    { part with
      bells := x.bells, rootBells := if s.isRoot p then x.bells.filter fun e => decide (e.1 < 1024) else part.rootBells
      round := x.round, roundKey := x.roundKey, randomKey := x.randomKey, frozen := x.frozen, frozenNext := x.frozen, versions := x.versions
      layoutEpoch := x.epoch, step := x.step, openStep := x.step, stepClosed := false, stepBase := tget 0 x.bells bell, dataPos := x.cursor
      intake := { part.intake.seek x.cursor (x.step * part.sps) with key := x.intakeKey }
      replay := false, record := some x, norms := [], escalated := [], rungs := [], memTypes := [], widened := [], rungWait := [], clip := none }
  if x.dataPos = x.cursor then s else s.report 0 0 0x71 p

/-- A source applied (R332): its pages and its schedule record. -/
def State.restoreFrom (s : State) (p : Nat) (src : RestoreSrc) : State :=
  let s := (s.dropClip p).recreateAllocs p src.record.allocs
  let s := (s.part p).setPages.foldl (fun s pg => s.fillPage p pg (tget [] src.pages pg)) s
  s.applyRecord p src.record

/-- A job on which a restore or a fill has committed is HELD (R379). -/
def Part.hold (part : Part) : Part := { part with job := .held }

/-- What the sources of a restore come to, tried in order: the first that holds every page and the record of the target's step. `want` is that step where
this device knows it. -/
def State.tryRestore (s : State) (p : Nat) (want : Option Nat) : List (Option RestoreSrc) → CmdRes
  | [] => .fail { status := stIntegrity }
  | none :: l => s.tryRestore p want l
  | some src :: l =>
    let part := s.part p
    let x := src.record
    let level := match part.image with | some im => im.level | none => 0
    let whole := x.pages.all fun pg => src.pages.any fun e => e.1 == pg
    if !whole || want.any (· != x.step) then s.tryRestore p want l
    else if x.digest != part.digest || x.level != level then .fail { status := stFormMismatch }
    else if (upFrom 0 4).any fun k => decide (part.quotaOf k < x.use.getD k 0) then .fail { status := stNoMemory }
    else .done ((s.restoreFrom p src).modPart p Part.hold) {}

/-- SATCHEL_RESTORE (0x0604): the job brought to a target from the sources of Table 6 of chapter 11. The device's own state is the first source of the
current boundary; `sources` are what the others hold, in the table's order. A far satchel that no source brings ends the command with FAR_TIER_ERROR. -/
def execSatchelRestore (r : Nat) (t : Nat) (sources : List (Option RestoreSrc)) (s : State) : Host.Outcome State Fault Refusal :=
  .next (s.runCmd r t 0x0604 { inline := fun _ j => if 2 < j.arg 0 then some 32 else none } fun s j =>
    let part := s.part j.p
    if j.arg 0 = 0 then (if s.ownStateHolds j.p then .done (s.modPart j.p Part.hold) {} else s.tryRestore j.p none sources)
    else if j.arg 0 = 2 && sources.all Option.isNone then .fail { status := stFarTier }
    else s.tryRestore j.p (if j.arg 0 = 1 then part.satchel.committed else part.satchel.far) sources)

/-! ### Filling a spare (R333, R334) -/

/-- The job's device of a rank that leaves is replaced (R333): the boundary after the fill is due for every device whose buddy store was lost, and where a
satchel is in progress its base satchel goes to the new buddy at once (R329). -/
def State.joinRank (s : State) (p rank dev : Nat) : State :=
  let lost := (s.part p).satchel.buddy == some ((s.part p).ranks.getD rank 0)
  let s := (s.modPart p fun part => { part with
    job := if dev = s.self then .held else part.job
    ranks := part.ranks.set rank dev, spareFill := none, fillDev := none, fillAuto := false, fillRec := false }).placeBuddy p
  if lost then (s.modPart p fun part => { part with satchel := { part.satchel with dueNext := true, baseNext := true } }).baseAgain p else s

/-- The schedule state of a fill in place: where this device is the destination, its allocations are made as the record has them and the record is
applied. -/
def State.takeFillRecord (s : State) (p : Nat) (rec : Option SchedRec) : State :=
  match rec with
  | none => s
  | some x =>
    if (s.part p).spareFill.isNone || (s.part p).fillRec then s
    else
      let s := if (s.part p).fillDev == some s.self then ((s.dropClip p).recreateAllocs p x.allocs).applyRecord p x else s
      s.modPart p fun part => { part with fillRec := true }

/-- Pages of a fill that have come, once its schedule state is in place (DESIGN CHOICE, log entry 96): written where this device is the destination, and
filled in any case. -/
def State.takeArrived (s : State) (p : Nat) (arrived : SMap (SMap HbmLine)) : State :=
  match (s.part p).spareFill with
  | none => s
  | some (rank, order, left) =>
    if !(s.part p).fillRec then s
    else
      let mine := (s.part p).fillDev == some s.self
      let s := arrived.foldl (fun s e => if mine && left.contains e.1 then s.fillPage p e.1 e.2 else s) s
      s.modPart p fun part => { part with spareFill := some (rank, order, left.filter fun pg => !arrived.any fun e => e.1 == pg) }

/-- What has come of a partition's fill taken; with every page and the schedule state in place the rank joins the job, and a destination that has left gives
way to the next spare (R334). -/
def State.fillStep (s : State) (p : Nat) (rec : Option SchedRec) (arrived : SMap (SMap HbmLine)) : State :=
  let s := (s.takeFillRecord p rec).takeArrived p arrived
  match (s.part p).spareFill, (s.part p).fillDev with
  | some (rank, _, left), some d =>
    if s.form.absent.contains d then
      (match s.nextSpare p with
      | some _ => s.spareInto p rank
      | none => s.modPart p fun part => { part with spareFill := none, fillDev := none, fillAuto := false, fillRec := false })
    else if (s.part p).fillRec && left.isEmpty then s.joinRank p rank d else s
  | _, _ => s

/-- A fill looked at for the command that started it: it ends when the rank has joined, or, FENCED, when its destination has left and no spare is to be
had. -/
def State.fillOn (s : State) (rec : Option SchedRec) (arrived : SMap (SMap HbmLine)) (j : Job) : CmdRes :=
  let s := s.fillStep j.p rec arrived
  if (s.part j.p).spareFill.isSome then .later s
  else if s.form.absent.contains ((s.part j.p).ranks.getD (j.arg 0) 0) then .done s { status := stFenced }
  else .done s {}

/-- Fills that the Prefect has started itself go on with what has come (R333). -/
def State.fillsOn (s : State) (rec : Option SchedRec) (arrived : SMap (SMap HbmLine)) : State :=
  s.partList.foldl (fun s p => if (s.part p).spareFill.isSome && (s.part p).fillAuto then s.fillStep p rec arrived else s) s

/-- SPARE_FILL (0x0605): on the Prefect, an absent device's rank goes to a named device, page by page; `rec` is the schedule state and `arrived` are the
pages that the destination has got since the command was last looked at, and `fits` says that the destination has completed FORM_SETUP with the same
behaviour level and has loaded the job's image. The first source is a replica at the current boundary (order 2 of Table 6). The command that names the fill
in progress goes on with it. Without a command to run or go on with, the fills go on that the Prefect has started itself. -/
def execSpareFill (r : Nat) (t : Nat) (fits : Bool) (rec : Option SchedRec) (arrived : SMap (SMap HbmLine)) (s : State) :
    Host.Outcome State Fault Refusal :=
  .next (match (s.ring r).find t with
  | none => s.fillsOn rec arrived
  | some _ => s.runOrGoOn r t 0x0605
    { inline := fun s j => if (s.part j.p).ranks.length ≤ j.arg 0 then some 32
        else if 2 ^ 14 ≤ j.arg 1 ∨ s.form.absent.contains (j.arg 1) then some 34 else none }
    (fun s j =>
      let part := s.part j.p
      let going := match part.spareFill with | some (rank, _, _) => rank == j.arg 0 && part.fillDev == some (j.arg 1) | none => false
      if !s.isPrefect || (part.spareFill.isSome && !going) || !s.form.absent.contains (part.ranks.getD (j.arg 0) 0) then .fail { status := stWrongState }
      else if !fits then .fail { status := stFormMismatch }
      else if j.arg 1 != s.self && (s.portTo (j.arg 1)).isNone then .fail { status := stLinkDown }
      else if going then (s.modPart j.p fun part => { part with fillAuto := false }).fillOn rec arrived j
      else (s.modPart j.p fun part => part.startFill (j.arg 0) (j.arg 1) false).fillOn rec arrived j)
    (fun s j => s.fillOn rec arrived j))

/-- SPARE_FILL_SOURCE_FAILURE (R334): the fill goes on from the next source of Table 6; where that one holds an earlier target, no page is filled yet. -/
def execSpareFillSourceFailure (p : Nat) (s : State) : Host.Outcome State Fault Refusal :=
  .next (match (s.part p).spareFill with
    | none => s
    | some (rank, order, left) =>
      let next := min 5 (order + 1)
      let earlier := order = 2 || order = 4
      s.modPart p fun part => { part with spareFill := some (rank, next, if earlier then part.setPages else left) })

/-! ### Re-sharding (R335, R336) -/

/-- A move of a RESHARD_RUN payload: SRC_RANK 2, DST_RANK 2, reserved 4, BASE 8, LENGTH 8. -/
def planMove (b : List Byte) (o : Nat) : List Nat := readList (b.drop o) [2, 2, 4, 8, 8]

/-- The offset of a plan's moves, past the digest and the identities padded to 8 bytes. -/
def movesAt (ranks : Nat) : Nat := 64 + (2 * ranks + 7) / 8 * 8

/-- The moves of a plan. -/
def planMoves (j : Job) : List ShardMove :=
  (upFrom 0 (j.arg 2)).map fun k =>
    let m := planMove j.pay (movesAt (j.arg 1) + 24 * k)
    { src := m.getD 0 0, dst := m.getD 1 0, base := m.getD 3 0, len := m.getD 4 0 }

/-- The first breach of a plan's payload. -/
def Part.badPlan (part : Part) (j : Job) : Option Nat :=
  match (upFrom 0 (j.arg 1)).find? fun k => decide (2 ^ 14 ≤ leNat ((j.pay.drop (64 + 2 * k)).take 2)) with
  | some k => some (64 + 2 * k)
  | none => (upFrom 0 (j.arg 2)).findSome? fun k =>
      let o := movesAt (j.arg 1) + 24 * k
      let m := planMove j.pay o
      if part.ranks.length ≤ m.getD 0 0 then some o else if j.arg 1 ≤ m.getD 1 0 then some (o + 2) else if m.getD 2 0 ≠ 0 then some (o + 4)
      else if m.getD 3 0 % pageBytes ≠ 0 then some (o + 8) else if m.getD 4 0 % pageBytes ≠ 0 then some (o + 16) else none

/-- The pages of moves into this device written: of each, the lines that have come (R335). -/
def State.takeMoves (s : State) (p : Nat) (mine : List ShardMove) (data : SMap (SMap HbmLine)) : State :=
  (mine.flatMap fun m => rangeOf m.base m.len).foldl (fun s pg => s.fillPage p pg (tget [] data pg)) s

/-- RESHARD_RUN (0x0606): the plan's epoch, its moves, its rank map, and a due boundary with base satchels. `ok` says that every source and destination
held out, and `data` is what the moves into this device brought. -/
def execReshardRun (r : Nat) (t : Nat) (ok : Bool) (data : SMap (SMap HbmLine)) (s : State) : Host.Outcome State Fault Refusal :=
  .next (s.runCmd r t 0x0606
    { need := fun j => movesAt (j.arg 1) + 24 * j.arg 2
      pay := fun s j => (s.part j.p).badPlan j }
    fun s j =>
      let part := s.part j.p
      let ranks := readList (j.pay.drop 64) (List.replicate (j.arg 1) 2)
      let mine := (planMoves j).filter fun m => ranks.getD m.dst 0 == s.self
      let frames := ((mine.flatMap fun m => rangeOf m.base m.len).filter fun pg => (part.allocOf pg).isNone).length
      if !s.isPrefect then .fail { status := stWrongState }
      else if j.arg 0 ≠ part.layoutEpoch then .fail { status := stLayoutStale }
      else if leNat (j.pay.take 64) ≠ part.digest.toNat then .fail (badArg (inPayload 0))
      else if 0 < frames then .fail { status := stNoMemory }
      else
        let s := s.modPart j.p fun part => { part with layoutEpoch := (part.layoutEpoch + 1) % 2 ^ 32 }
        if !ok then .done s { status := stFenced }
        else
          let s := s.takeMoves j.p mine data
          let s := (s.modPart j.p fun part => { part with
            ranks := ranks, movesDone := planMoves j
            satchel := { part.satchel with dueNext := true, baseNext := true } }).placeBuddy j.p
          .done s {})

end Sys2Proof.Machine
end

