-- ==== Sys2Proof/Machine/FormCmds.lean ====
section
/-! DEFINITION. Form and link commands (R280, R291, R293, R295, R304, R306, R309, R315, Table 10 of chapter 13). -/

namespace Sys2Proof.Machine

open Sys2Proof

/-! ### Links (R281, R295, R421, R445) -/

/-- Whether a port can train: it is calibrated, and its laser cartridge is in and lit. -/
def State.canTrain (s : State) (l : Nat) : Bool :=
  s.power.mainOn && (s.port l).cal && !s.power.lasersOff && !s.power.cartsOut.contains (l / 4) && !s.care.lasersOff.contains (l / 4)

/-- The compiled latency of a link whose M₄ is `m` quarters of a nanosecond: ceil(1.2 × (M₄ + 0.853)) + 2 slots (R295). -/
def compiledLatency (m : Nat) : Nat := (3000 * m + 10236 + 9999) / 10000 + 2

/-- A port's latency fixed from a measurement. -/
def State.measurePort (s : State) (l m : Nat) : State := s.modPort l fun x => { x with measured := m % 65536, compiled := compiledLatency m % 65536 }

/-- A link of the link map established (R280, R287): the port starts afresh with its peer, its latency is fixed, and it is up on four lanes. -/
def State.setupLink (s : State) (l m : Nat) (e : LinkEntry) : State :=
  let s := s.modPort l fun x =>
    { ({} : Port) with
      cal := x.cal, counts := x.counts, sched := x.sched, peer := e.peer, peerPort := e.peerPort, node := e.node, unconverged := x.unconverged
      owed := tsetAll 0 [] ((upFrom 0 8).map fun k => (k, Config.packetBuffer k)) }
  (s.measurePort l m).portUp l 15

/-! ### FORM_SETUP (R280) -/

/-- An entry of a link map: peer identity [13:0], memory node [14], valid [15], peer port [21:16]. -/
def linkOfWord (w : Nat) : LinkEntry := { peer := bits w 0 14, node := bit w 14, valid := bit w 15, peerPort := bits w 16 6 }

/-- The word of a payload's link map for a port. -/
def linkWord (b : List Byte) (l : Nat) : Nat := leNat ((b.drop (4 * l)).take 4)

/-- The link map of a payload. -/
def linkMap (b : List Byte) : SMap LinkEntry := tsetAll {} [] ((upFrom 0 64).map fun l => (l, linkOfWord (linkWord b l)))

/-- A bell route of a payload: DEST 2, PORT 1, RELAY_PORT 1, RELAY 2, reserved 2. -/
def routeFields (b : List Byte) (k : Nat) : List Nat := readList (b.drop (256 + 8 * k)) [2, 1, 1, 2, 2]

/-- The bell routes of a payload. -/
def bellRoutes (b : List Byte) (n : Nat) : List BellRoute :=
  (upFrom 0 n).map fun k =>
    let f := routeFields b k
    { dest := f.getD 0 0, port := f.getD 1 0, relayPort := f.getD 2 0, relay := f.getD 3 0 }

/-- The first breach of a FORM_SETUP payload. -/
def badSetup (b : List Byte) (routes : Nat) : Option Nat :=
  match (upFrom 0 64).find? fun l => linkWord b l / 2 ^ 22 != 0 with
  | some l => some (4 * l)
  | none => (upFrom 0 routes).findSome? fun k =>
      let f := routeFields b k
      let o := 256 + 8 * k
      if 2 ^ 14 ≤ f.getD 0 0 then some o else if 63 < f.getD 1 0 then some (o + 2)
      else if 63 < f.getD 2 0 ∧ f.getD 2 0 ≠ 0xFF then some (o + 3) else if 2 ^ 14 ≤ f.getD 3 0 then some (o + 4)
      else if f.getD 4 0 ≠ 0 then some (o + 6) else none

/-- Whether a Form number and position differ from the strapped ones of a valid strap word (R280, R438). -/
def State.strapsDiffer (s : State) (form pos : Nat) : Bool :=
  s.power.strapValid && (bits s.power.straps.toNat 0 6 != pos || bits s.power.straps.toNat 6 8 != form)

/-- The peer of a port, where the link map leads to a device. -/
def peerOf (m : SMap LinkEntry) (l : Nat) : Option Nat :=
  let e := tget {} m l
  if e.valid && !e.node then some e.peer else none

/-- The device's place in its Form by the role given to it (R279, R291; who is Prefect, Deputy and Head is read from the lock ports, entry 23). -/
def formOf (form pos role lock alt : Nat) (links : SMap LinkEntry) (routes : List BellRoute) : Form :=
  let self := form * 64 + pos
  let far (l : Nat) : Option Nat := match peerOf links l with | some d => if d / 64 != form then some d else none | none => none
  { set := true, form := form, pos := pos, role := role, links := links, routes := routes
    prefect := if role = 1 ∨ role = 3 then self else (peerOf links lock).getD 0
    deputy := if role = 2 then some self else if role = 0 then peerOf links alt else none
    head := if role = 3 then some self else if role = 1 then far lock else if role = 2 then far alt else none }

/-- FORM_SETUP's effect: the links up, the Form's record, and the clocks locked and waiting for BEAT (R291, R293). -/
def State.formSetup (s : State) (f : Form) (lock alt : Nat) (links : SMap Nat) : State :=
  let s := f.links.foldl (fun s e => if e.2.valid then s.setupLink e.1 (tget 0 links e.1) e.2 else s) s
  let root := f.prefect == f.form * 64 + f.pos && (f.head.isNone || f.head == some (f.form * 64 + f.pos))
  { s with
    form := { f with noteWindow := s.form.noteWindow }
    beat := { root := root, lockPort := lock, altPort := alt, locked := true, aligning := true, errors := s.beat.errors } }

/-- FORM_SETUP (0x0701): `links` are the ports whose links came up, each with its M₄ in quarters of a nanosecond, and `hops` says whether every bell hop
kept its bound (R304). -/
def execFormSetup (r : Nat) (t : Nat) (links : SMap Nat) (hops : Bool) (s : State) : Host.Outcome State Fault Refusal :=
  .next (s.runCmd r t 0x0701
    { inline := fun _ j => if 63 < j.arg 1 then some 33 else if 3 < j.arg 2 then some 34 else if 63 < j.arg 3 then some 35
        else if 63 < j.arg 4 then some 36 else none
      need := fun j => 256 + 8 * j.arg 5
      pay := fun _ j => match badSetup j.pay (j.arg 5) with
        | some o => some o
        | none => if (j.arg 2 = 0 ∨ j.arg 2 = 2) ∧ (peerOf (linkMap j.pay) (j.arg 3)).isNone then some (4 * j.arg 3) else none }
    fun s j =>
      let map := linkMap j.pay
      let f := formOf (j.arg 0) (j.arg 1) (j.arg 2) (j.arg 3) (j.arg 4) map (bellRoutes j.pay (j.arg 5))
      if s.strapsDiffer (j.arg 0) (j.arg 1) then .fail { status := stFormMismatch }
      else if map.any fun e => e.2.valid && !(s.canTrain e.1 && links.any fun x => x.1 == e.1) then .fail { status := stLinkDown }
      else if !hops then .fail { status := stFormMismatch }
      else .done (s.formSetup f (j.arg 3) (j.arg 4) links) {})

/-! ### Queries (R309, R310) -/

/-- The number of a device, or 0xFFFF for none (entry 32). -/
def devCode (d : Option Nat) : Nat := d.getD 0xFFFF

/-- FORM_QUERY (0x0702): roles in 8 bytes (DESIGN CHOICE, entry 32), live members, compiled latencies, and the BEAT status. -/
def execFormQuery (r : Nat) (t : Nat) (s : State) : Host.Outcome State Fault Refusal :=
  .next (s.runCmd r t 0x0702 {} fun s _ =>
    let f := s.form
    let live := if f.set then (s.self :: s.members).foldl (fun n d => n ||| 2 ^ (d % 64)) 0 else 0
    .done s (okBytes 1024
      (leBytes 1 f.role ++ leBytes 1 s.isDeputyHead.toNat ++ leBytes 2 (devCode (if f.set then some f.prefect else none)) ++ leBytes 2 (devCode f.deputy)
        ++ leBytes 2 (devCode f.head) ++ leBytes 8 live ++ ((upFrom 0 64).flatMap fun l => leBytes 2 (s.port l).compiled)
        ++ leBytes 4 s.beat.statusWord)))

/-- The port registers in Table 12 order, padded to 64 bytes; of a port outside the partition every one reads as zero (R310). -/
def State.portRecord (s : State) (p l : Nat) : List Byte :=
  let x := s.port l
  if s.partOfPort l = p then
    padTo 64 (leBytes 4 x.statusWord ++ leBytes 4 (x.compiled % 65536 + x.measured % 65536 * 2 ^ 16)
      ++ (upFrom 0 7).flatMap fun k => leBytes 4 (tget 0 x.counts k))
  else zeros 64

/-- LINK_STATUS (0x0704). -/
def execLinkStatus (r : Nat) (t : Nat) (s : State) : Host.Outcome State Fault Refusal :=
  .next (s.runCmd r t 0x0704 {} fun s j =>
    .done s { result := ((upFrom 0 64).filter fun l => bit (j.arg 0) l).flatMap fun l => s.portRecord j.p l })

/-- LINK_MEASURE (0x0703): named ports are measured again and come up on four lanes where they can; `links` are the ports that trained, each with its M₄ and
its lanes. A cartridge that heat had turned off is lit again once its sensor reads below 75 °C (entry 33). -/
def execLinkMeasure (r : Nat) (t : Nat) (links : List (Nat × Nat × Nat)) (s : State) : Host.Outcome State Fault Refusal :=
  .next (s.runCmd r t 0x0703 {} fun s j =>
    let named := (upFrom 0 64).filter fun l => bit (j.arg 0) l
    if named.any fun l => (s.part (s.partOfPort l)).usesPort l && (s.part (s.partOfPort l)).job == .running then .fail { status := stWrongState }
    else
      let s := { s with care := { s.care with lasersOff := s.care.lasersOff.filter fun c =>
        !(named.any fun l => l / 4 == c) || decide (600 ≤ tget 0 s.care.latest (288 + c)) } }
      if named.any fun l => !(s.canTrain l && links.any fun x => x.1 == l) then .done s { status := stLinkDown }
      else
        .done (named.foldl (fun s l =>
          match links.find? fun x => x.1 == l with
          | some (_, m, lanes) => (s.measurePort l m).portUp l (lanes % 16)
          | none => s) s) {})

/-! ### Roles and leaving (R309, R315) -/

/-- ROLE_SET (0x0705): ROLE 1 hands the Prefect role to DEVICE at the next step boundary, 2 appoints it Deputy and 3 Deputy Head (entry 34). A device that
is in no Form, or a DEVICE of another Form for ROLE 1 and 2, ends with FORM_MISMATCH. -/
def execRoleSet (r : Nat) (t : Nat) (s : State) : Host.Outcome State Fault Refusal :=
  .next (s.runCmd r t 0x0705
    { inline := fun _ j => if 2 ^ 14 ≤ j.arg 0 then some 32 else if j.arg 1 = 0 ∨ 3 < j.arg 1 then some 34 else none }
    fun s j =>
      let d := j.arg 0
      let f := s.form
      if !f.set || (j.arg 1 != 3 && d / 64 != f.form) then .fail { status := stFormMismatch }
      else if j.arg 1 = 1 then .done { s with form := { f with handover := some d } } {}
      else if j.arg 1 = 2 then
        .done { s with form := { f with deputy := some d, role := if d = s.self then 2 else if f.role = 2 then 0 else f.role } } {}
      else .done { s with form := { f with deputyHead := some d } } {})

/-- FORM_LEAVE (0x0706): this device leaves its Form and its ports go down; on the Prefect, a member named is declared absent. -/
def execFormLeave (r : Nat) (t : Nat) (s : State) : Host.Outcome State Fault Refusal :=
  .next (s.runCmd r t 0x0706
    { inline := fun s j => if s.form.set ∧ (j.arg 0 = s.self ∨ j.arg 0 ∈ s.members) then none else some 32 }
    fun s j =>
      if j.arg 0 = s.self then
        let s := (upFrom 0 64).foldl (fun s l => s.portDown l) s
        .done { s with form := { noteWindow := s.form.noteWindow }, beat := { errors := s.beat.errors } } {}
      else if s.isPrefect then .done (s.declareAbsent (j.arg 0)) {}
      else .fail { status := stWrongState })

/-- NORM_READ (0x0707): the norm records of one of the last four steps. -/
def execNormRead (r : Nat) (t : Nat) (s : State) : Host.Outcome State Fault Refusal :=
  .next (s.runCmd r t 0x0707
    { inline := fun s j => if s.form.norms.any (fun e => e.1 == j.arg 0 * 8 + j.p) ∨ !(s.isPrefect || s.isDeputy) then none else some 32 }
    fun s j =>
      if !(s.isPrefect || s.isDeputy) then .fail { status := stWrongState }
      else .done s { result := (tget [] s.form.norms (j.arg 0 * 8 + j.p)).flatMap normBytes })

end Sys2Proof.Machine
end

