-- ==== Sys2Proof/Machine/TelCmds.lean ====
section
/-! DEFINITION. Telemetry commands (R430, R431, Table 11 of chapter 13). -/

namespace Sys2Proof.Machine

open Sys2Proof

/-- Bytes of a window record (Table 8 of chapter 15). -/
def recordSize : Nat := 87328

/-- Whether byte `o` of a window record reads as zero through a function: through a VF the power entries do, and those of sensors outside the partition. -/
def State.hiddenByte (s : State) (f o : Nat) : Bool :=
  f != 0 && ((decide (32 ≤ o) && decide (o < 64)) || (decide (64 ≤ o) && decide (o < 1408) && s.sensorView f ((o - 64) / 4) 1 == 0))

/-- A window record's bytes as a function's commands return them. -/
def State.recordView (s : State) (f : Nat) (m : SMap Byte) : List Byte :=
  (upFrom 0 recordSize).map fun o => if s.hiddenByte f o then 0 else tget 0 m o

/-- TEL_READ (0x0801): the record BACK windows before the latest, of every smallest member in ascending order. -/
def execTelRead (r : Nat) (t : Nat) (s : State) : Host.Outcome State Fault Refusal :=
  .next (s.runCmd r t 0x0801
    { inline := fun s j => if (s.part j.p).tel.windows.length ≤ j.arg 0 then some 32 else none }
    fun s j =>
      let w := (s.part j.p).tel.windows
      let f := (s.ringVector j.r).1
      match w[w.length - 1 - j.arg 0]? with
      | none => .fail (badArg 32)
      | some x => .done s { result := (upFrom j.p s.span).flatMap fun q => s.recordView f (tget [] x.2 q) })

/-- TEL_STREAM (0x0802): new records go to a host ring of ENTRIES slots. -/
def execTelStream (r : Nat) (t : Nat) (s : State) : Host.Outcome State Fault Refusal :=
  .next (s.runCmd r t 0x0802
    { inline := fun _ j => if j.arg 2 = 1 ∧ (j.arg 1 < 2 ∨ 65536 < j.arg 1) then some 40 else if 1 < j.arg 2 then some 44 else none }
    fun s j =>
      .done (s.modPart j.p fun part =>
        { part with tel := { part.tel with streamBase := j.arg 0, streamEntries := j.arg 1, streaming := j.arg 2 == 1 } }) {})

/-- The 16 bytes of an overflow record (Table 11 of chapter 2). -/
def ovfBytes (o : OvfRec) : List Byte :=
  leBytes 16 (o.step % 2 ^ 32 + o.layer % 4096 * 2 ^ 32 + o.cause % 16 * 2 ^ 44 + o.fromType % 16 * 2 ^ 48 + o.toType % 16 * 2 ^ 52
    + o.rung % 4 * 2 ^ 56 + o.mb % 4096 * 2 ^ 64 + o.row % 32 * 2 ^ 76 + o.col % 64 * 2 ^ 81 + o.beat % 2 ^ 32 * 2 ^ 96)

/-- OVERFLOW_READ (0x0803): the overflow records of a step; a step of which none is kept has none. -/
def execOverflowRead (r : Nat) (t : Nat) (s : State) : Host.Outcome State Fault Refusal :=
  .next (s.runCmd r t 0x0803 {} fun s j =>
    .done s { result := (tget [] (s.part j.p).tel.overflow (j.arg 0)).flatMap ovfBytes })

end Sys2Proof.Machine
end

