-- ==== Sys2Proof/Machine/SecCmds.lean ====
section
/-! DEFINITION. Roles (R389 to R391), consent and diagnostics (R392, R393), the audit log's commands (R395), firmware (R396 to R399), attestation (R401),
memory keys (R404) and job keys (R406 to R408). -/

namespace Sys2Proof.Machine

open Sys2Proof

/-- Payload bytes `o` to `o + n` of a command as a number. -/
def Job.num (j : Job) (o n : Nat) : Nat := leNat ((j.pay.drop o).take n)

/-! ### ROLE_AUTH (R391) -/

/-- Whether a ROLE_AUTH message of a type stands at the front of a ring with tag `t`. -/
def State.authDue (s : State) (r t type : Nat) : Bool :=
  match s.startable r with
  | some c => c.tag == t && c.opcode == 0x0901 && (c.bytes.getD 0 0).toNat == type
  | none => false

/-- ROLE_AUTH binds installer or maker (R389). -/
def authRole (j : Job) : Option Nat := if j.arg 0 = 2 ∨ j.arg 0 = 3 then none else some 32

/-- The challenge of a ring gone with its next ROLE_AUTH. -/
def State.dropChallenge (s : State) (r : Nat) : State := s.modRing r fun g => { g with challenge := none }

/-- A ROLE_AUTH message of one type run, where it is due; on a partition ring it binds nothing (R364, R389). -/
def State.roleAuth (s : State) (r t type : Nat) (rules : CmdRules) (f : State → Job → CmdRes) : State :=
  if !s.authDue r t type then s
  else
    (s.dropChallenge r).runCmd r t 0x0901 { rules with inline := fun _ j => authRole j }
      fun s j => if (ringPart r).isSome then .fail { status := stNotPermitted } else f s j

/-- ROLE_AUTH CHALLENGE: 32 random bytes. -/
def execRoleAuthChallenge (r : Nat) (t : Nat) (s : State) : Host.Outcome State Fault Refusal :=
  .next (s.roleAuth r t 1 { need := fun _ => 1 } fun s _ =>
    let c := (Config.random s.fresh).toNat
    .done (({ s with fresh := s.fresh + 1 }).modRing r fun g => { g with challenge := some (c, s.tick) }) { result := leBytes 32 c })

/-- Ticks for which a challenge is valid: 60 s. -/
def challengeTicks : Nat := 1500000000

/-- The 54 bytes that a RESPONSE signs. -/
def authMessage (challenge ring role : Nat) : List Byte :=
  leBytes 32 challenge ++ leBytes 16 Config.serial.toNat ++ leBytes 1 ring ++ leBytes 1 role ++ leBytes 4 0x4E524341

/-- Both signatures of a credential over a message (R390). -/
def bothVerify (key : Nat × Nat) (msg : List Byte) (sigE sigM : Nat) : Bool := Config.verify key.1 msg sigE && Config.verify key.2 msg sigM

/-- The digest of a key set's two public keys. -/
def keySetDigest (key : Nat × Nat) : BitVec 512 := Config.sha512 (keyBytes key)

/-- The key pair that a RESPONSE answers for: an enrolled credential, or the maker's keys sent with it where their digest is that of a maker diagnostic
set that is not revoked (R391, R396). -/
def State.authKey (s : State) (j : Job) : Option (Nat × Nat) :=
  let idx := j.num 1 1
  if j.arg 0 = 2 then tget none s.sec.creds idx
  else
    let key := (j.num 3375 32, j.num 3407 1952)
    if keySetDigest key = Config.romKeys idx && !Config.romFirmware idx && !s.sec.revoked.getLsbD idx then some key else none

/-- The minute of the module's telemetry windows (R391). -/
def State.minute (s : State) : Nat := s.care.windows / 60000

/-- ROLE_AUTH RESPONSE: with both signatures good the ring is bound; a failure is counted, and after 16 in a minute the ring is BUSY. -/
def execRoleAuthResponse (r : Nat) (t : Nat) (s : State) : Host.Outcome State Fault Refusal :=
  let given := (s.ring r).challenge
  .next (s.roleAuth r t 2
    { need := fun j => if j.arg 0 = 3 then 5359 else 3375
      pay := fun _ j => if 3 < j.num 1 1 then some 1 else none }
    fun s j =>
      let g := s.ring r
      let fails := if g.failMinute = s.minute then g.failures else 0
      if 16 ≤ fails then .fail { status := stBusy }
      else
        let good := match given, s.authKey j with
          | some (c, t0), some key => decide (s.tick < t0 + challengeTicks) && bothVerify key (authMessage c r (j.arg 0)) (j.num 2 64) (j.num 66 3309)
          | _, _ => false
        if good then .done (s.modRing r fun g => { g with role := j.arg 0, cred := j.num 1 1 }) {}
        else .done (s.modRing r fun g => { g with failures := fails + 1, failMinute := s.minute }) { status := stSignature })

/-- Whether the module is unowned (R390). -/
def State.unowned (s : State) : Bool := s.sec.creds.all fun e => e.2.isNone

/-- ROLE_AUTH ENROL: on an installer-bound ring, or on any management ring or I3C of an unowned module, which it binds as installer. -/
def execRoleAuthEnrol (r : Nat) (t : Nat) (s : State) : Host.Outcome State Fault Refusal :=
  .next (s.roleAuth r t 3 { need := fun _ => 1986, pay := fun _ j => if 3 < j.num 1 1 then some 1 else none } fun s j =>
    let free := s.unowned
    if !free && s.roleOf r != 2 then .fail { status := stNotPermitted }
    else
      let s := { s with sec := { s.sec with creds := tset none s.sec.creds (j.num 1 1) (some (j.num 2 32, j.num 34 1952)) } }
      .done (if free then s.modRing r fun g => { g with role := 2, cred := j.num 1 1 } else s) {})

/-- ROLE_AUTH REVOKE: WRONG_STATE for the last credential. -/
def execRoleAuthRevoke (r : Nat) (t : Nat) (s : State) : Host.Outcome State Fault Refusal :=
  .next (s.roleAuth r t 4
    { need := fun _ => 2, pay := fun s j => if 3 < j.num 1 1 ∨ (tget none s.sec.creds (j.num 1 1)).isNone then some 1 else none }
    fun s j =>
      if s.roleOf r != 2 then .fail { status := stNotPermitted }
      else if (s.sec.creds.filter fun e => e.2.isSome).length ≤ 1 then .fail { status := stWrongState }
      else .done { s with sec := { s.sec with creds := tset none s.sec.creds (j.num 1 1) none } } {})

/-- CHALLENGE_EXPIRY (R391): 60 s after it was given. -/
def execChallengeExpiry (r : Nat) (s : State) : Host.Outcome State Fault Refusal :=
  .next (match (s.ring r).challenge with
    | some (_, t0) => if t0 + challengeTicks ≤ s.tick then s.dropChallenge r else s
    | none => s)

/-! ### Job keys (R406 to R408) -/

/-- Ports that a partition's image names. -/
def Part.jobPorts (part : Part) : List Nat := match part.image with | some im => im.ports.dedup | none => []

/-- Whether every named port is under the job key in both directions. -/
def State.portsKeyed (s : State) (p : Nat) : Bool := (s.part p).jobPorts.all fun l => (s.port l).jobKey && (s.port l).up

/-- The 64 bytes by which the operator checks the secret: HMAC-SHA-512, keyed by the "confirm" key, over the image's digest and the device identity. -/
def State.confirmation (s : State) (p : Nat) : List Byte :=
  let part := s.part p
  let key := Config.hkdf part.jobSecret.toNat part.jobId "confirm" 32
  leBytes 64 (Config.hmac key (leBytes 64 part.digest.toNat ++ leBytes 2 s.self)).toNat

/-- The JOB_KEYS command of a partition that is at work: its ring and itself. -/
def State.keysCmd (s : State) (p : Nat) : Option (Nat × Cmd) :=
  s.rings.findSome? fun g => (g.2.inflight.find? fun c => c.running && !c.done && c.opcode == 0x0902 && s.cmdPart g.1 c == p).map fun c => (g.1, c)

/-- JOB_KEYS of a partition ended with an answer. -/
def State.endKeys (s : State) (p : Nat) (a : Answer) : State :=
  match s.keysCmd p with
  | none => s
  | some (r, c) => ((s.auditCmd r c a.status (some (s.part p).digest)).finish r c.tag a).settleRings

/-- JOB_KEYS ended with its confirmation once every named port is keyed. -/
def State.tryKeys (s : State) (p : Nat) : State :=
  if (s.keysCmd p).isSome && s.portsKeyed p then
    (s.modPart p fun part => { part with jobKeysDone := true }).endKeys p { result := s.confirmation p }
  else s

/-- A port's keys installed: READY goes to the peer under the link key, and the port sends under the job key where the peer's READY has come. -/
def State.keyPort (s : State) (p l : Nat) : State :=
  let s := s.modPort l fun x => { x with keyPart := some p, jobKey := x.jobKey || x.peerReady }
  if (s.port l).up then s.queuePacket l { cls := 0x20, dest := (s.port l).peer, part := p, ctl := some .ready } else s

/-- The first reserved byte of a JOB_KEYS message that is not zero, or a wrong VERSION. -/
def badKeyMessage (j : Job) : Option Nat :=
  if j.num 0 1 ≠ 1 then some 0 else if j.num 1 7 ≠ 0 then some 1 else if j.num 1212 4 ≠ 0 then some 1212 else none

/-- JOB_KEYS (0x0902). -/
def execJobKeys (r : Nat) (t : Nat) (s : State) : Host.Outcome State Fault Refusal :=
  let digest := match s.startable r with | some c => some (s.part (s.cmdPart r c)).digest | none => none
  .next (s.runCmd r t 0x0902 { need := fun _ => 1264, pay := fun _ j => badKeyMessage j } (digest := digest) fun s j =>
    match Config.openJobSecret (j.pay.take 1264) with
    | none => .fail { status := stIntegrity }
    | some key =>
      if j.num 16 64 ≠ (s.part j.p).digest.toNat then .fail { status := stFormMismatch }
      else
        let s := s.modPart j.p fun part => { part with jobKey := true, jobSecret := key, jobId := j.num 8 8 }
        let s := (s.part j.p).jobPorts.foldl (fun s l => s.keyPort j.p l) s
        if s.portsKeyed j.p then .done (s.modPart j.p fun part => { part with jobKeysDone := true }) { result := s.confirmation j.p }
        else .later s)

/-- READY (R408): the peer's READY has come to a port, which sends under the job key from the next frame on where the key is installed. -/
def execReady (l : Nat) (s : State) : Host.Outcome State Fault Refusal :=
  .next (match takeFirst (fun (x : Nat × Packet) => x.1 == l && x.2.cls == 0x20 && x.2.ctl == some FormCtl.ready) s.pktIn with
    | none => s
    | some (_, rest) =>
      let s := ({ s with pktIn := rest }).modPort l fun x => { x with peerReady := true, jobKey := x.jobKey || x.keyPart.isSome }
      match (s.port l).keyPart with
      | some p => s.tryKeys p
      | none => s)

/-- JOB_KEYS_TIMEOUT (R408): 10 s after its start the command ends with LINK_DOWN for a port that is down, and TIMEOUT otherwise. -/
def execJobKeysTimeout (p : Nat) (s : State) : Host.Outcome State Fault Refusal :=
  .next (match s.keysCmd p with
    | none => s
    | some (_, c) =>
      if s.tick < c.startTick + 250000000 then s
      else s.endKeys p { status := if (s.part p).jobPorts.any fun l => !(s.port l).up then stLinkDown else stTimeout })

/-! ### Memory keys (R404) -/

/-- Stored lines of a partition's stacks that still carry an earlier generation. -/
def State.oldLines (s : State) (p : Nat) : Bool :=
  (s.stacksOf p).any fun h => (s.stack h).lines.any fun e => e.2.keyId.toNat != (s.part p).keyGen % 32

/-- A re-key pass that has reached every line and every far page is complete, and is logged (R394, R404). -/
def State.settleRekey (s : State) (p : Nat) : State :=
  let part := s.part p
  if part.rekey && part.rekeyFar.isEmpty && !s.oldLines p then
    (s.modPart p fun part => { part with rekey := false }).audit 0xFF02 0 0 p 0 0xFF 0
  else s

/-- MEM_KEY_ROTATE (0x0903): WRONG_STATE while the pass before it is unfinished, or the interface is CONFIG_LOCKED or RUN (R409). -/
def execMemKeyRotate (r : Nat) (t : Nat) (s : State) : Host.Outcome State Fault Refusal :=
  .next (s.runCmd r t 0x0903 { need := fun j => if j.c.payLen = 0 then 0 else 32 } fun s j =>
    let part := s.part j.p
    if part.rekey || s.locked j.p then .fail { status := stWrongState }
    else
      let far := (part.pages.filter fun e => e.2.st == .far || e.2.st == .inn || e.2.farValid).map Prod.fst
      let mix := if j.pay.all (· == 0) then [] else j.pay.take 32
      let s := s.modPart j.p fun part =>
        { part with keyGen := (part.keyGen + 1) % 32, prevHeld := true, prevKeys := part.keys, rekey := true, rekeyFar := far }
      .done (s.drawKeys j.p mix) {})

/-- RE_KEY_RETRY (R404): `ok` are the far pages that the pass has brought in, rewritten and sent back out; those it could not reach stay. -/
def execReKeyRetry (p : Nat) (ok : List Nat) (s : State) : Host.Outcome State Fault Refusal :=
  .next (if (s.part p).rekey then
      (s.modPart p fun part => { part with rekeyFar := part.rekeyFar.filter fun pg => !ok.contains pg }).settleRekey p
    else s)

/-! ### Consent and diagnostics (R392, R393) -/

/-- The signed part of a consent token (Table 4 of chapter 14). -/
def tokenBody (seq scope boots expires : Nat) (nonce : List Byte) : List Byte :=
  leBytes 16 Config.serial.toNat ++ leBytes 8 seq ++ leBytes 4 scope ++ leBytes 4 boots ++ leBytes 8 expires ++ padTo 32 nonce

/-- CONSENT_ISSUE (0x0904). -/
def execConsentIssue (r : Nat) (t : Nat) (s : State) : Host.Outcome State Fault Refusal :=
  .next (s.runCmd r t 0x0904
    { need := fun _ => 40
      pay := fun _ j => if 15 < j.num 0 4 then some 0 else if j.num 4 4 = 0 ∨ 86400 < j.num 4 4 then some 4 else none }
    fun s j =>
      let b := tokenBody (s.sec.tokenSeq + 1) (j.num 0 4) s.sec.boots (s.tick + 25000000 * j.num 4 4) ((j.pay.drop 8).take 32)
      .done { s with sec := { s.sec with tokenSeq := s.sec.tokenSeq + 1 } } { result := b ++ padTo 3373 (Config.sign b) })

/-- What RAW_TEST does as its session opens: every memory key destroyed, all on-chip memory zero. -/
def State.rawTest (s : State) : State :=
  { s with
    parts := s.parts.map fun (e : Nat × Part) => (e.1, { e.2 with memKeys := false, keys := {}, prevKeys := {} })
    cores := s.cores.foldl (fun m e => tset {} m e.1 e.2.wiped) s.cores
    slices := s.slices.foldl (fun m e => tset {} m e.1 e.2.wiped) s.slices
    cloaks := s.cloaks.foldl (fun m e => tset {} m e.1 { e.2 with toks := [], late := [] }) s.cloaks }

/-- DIAG_OPEN (0x0B01): the token must be one of this module, this start-up and this firmware, unexpired, and used for the first time. -/
def execDiagOpen (r : Nat) (t : Nat) (s : State) : Host.Outcome State Fault Refusal :=
  .next (s.runCmd r t 0x0B01 { need := fun _ => 3445 } fun s j =>
    let b := j.pay.take 72
    let scope := j.num 24 4
    if !(Config.verify (Config.aliasKey 0) b (j.num 72 64) && Config.verify (Config.aliasKey 1) b (j.num 136 3309)) then .fail { status := stSignature }
    else if j.num 0 16 ≠ Config.serial.toNat ∨ j.num 28 4 ≠ s.sec.boots ∨ j.num 32 8 ≤ s.tick ∨ j.num 16 8 ≤ s.sec.tokenUsed then
      .fail { status := stNotPermitted }
    else if bit scope 1 && s.partList.any fun p => (s.part p).job != .none then .fail { status := stWrongState }
    else
      let s := { s with sec := { s.sec with tokenUsed := j.num 16 8, diag := some (scope, j.num 32 8) } }
      .done (if bit scope 1 then s.rawTest else s) {})

/-- DIAG_CLOSE (0x0B02). -/
def execDiagClose (r : Nat) (t : Nat) (s : State) : Host.Outcome State Fault Refusal :=
  .next (s.runCmd r t 0x0B02 {} fun s _ => .done { s with sec := { s.sec with diag := none } } {})

/-- DIAG_EXPIRY (R393): a session closes at EXPIRES. -/
def execDiagExpiry (s : State) : Host.Outcome State Fault Refusal :=
  .next (match s.sec.diag with
    | some (_, e) => if e ≤ s.tick then { s with sec := { s.sec with diag := none } } else s
    | none => s)

/-! ### The audit log and attestation (R395, R401) -/

/-- AUDIT_READ (0x0905): the entries kept from FIRST on, COUNT at most, then the head record and its two signatures. -/
def execAuditRead (r : Nat) (t : Nat) (s : State) : Host.Outcome State Fault Refusal :=
  .next (s.runCmd r t 0x0905 {} fun s j =>
    let l := (s.sec.audit.filter fun e => decide (j.arg 0 ≤ e.seq) && decide (e.seq < j.arg 0 + j.arg 1)).reverse
    let head := leBytes 8 s.newestSeq ++ leBytes 64 s.newestDigest.toNat
    .done s { result := l.flatMap auditBytes ++ head ++ padTo 3373 (Config.sign head) })

/-- ATTEST (0x0906): the report of Table 8, with certificate chains where FLAGS asks for them. -/
def execAttest (r : Nat) (t : Nat) (s : State) : Host.Outcome State Fault Refusal :=
  .next (s.runCmd r t 0x0906 { need := fun _ => 33, pay := fun _ j => if 1 < j.num 32 1 then some 32 else none } fun s j =>
    .done s { result := s.report8 (fnView (s.ringVector j.r).1) (j.pay.take 32) ++ if bit (j.num 32 1) 0 then Config.certificates else [] })

/-! ### Firmware (R396 to R399) -/

/-- A firmware image as its bytes show it (Table 6 of chapter 14). -/
def imageOfBytes (b : List Byte) : FwImage :=
  let num (o n : Nat) : Nat := leNat ((b.drop o).take n)
  let keys := (num 128 32, num 160 1952)
  let signed := b.take 2112
  let body := (b.drop 8192).take (num 16 8)
  { magic := b.take 4 == asciiBytes "CWFW" && num 4 2 == 1
    keySet := num 6 1
    keysMatch := decide (num 6 1 < 4) && keySetDigest keys == Config.romKeys (num 6 1) && Config.romFirmware (num 6 1)
    sigs := bothVerify keys signed (num 2112 64) (num 2176 3309)
    svn := num 12 4, body := body.length == num 16 8 && (Config.sha512 body).toNat == num 64 64
    version := num 8 4, revoke := num 24 4, digest := BitVec.ofNat 512 (num 64 64) }

/-- The first check of R397 that a bank fails. -/
def Sec.bankFails (sec : Sec) (im : FwImage) : Option Nat :=
  if !im.present || !im.magic then some 1
  else if !im.keysMatch || sec.revoked.getLsbD im.keySet then some 2
  else if !im.sigs then some 3
  else if im.svn < sec.svnMin then some 4
  else if !im.body then some 5 else none

/-- The status with which FW_ACTIVATE ends for a failed check (R399). -/
def bankStatus (k : Nat) : Nat := if k ≤ 3 then stSignature else if k = 4 then stRollback else stIntegrity

/-- The bank not in use. -/
def Sec.otherBank (sec : Sec) : FwImage := if sec.bank = 0 then sec.bank1 else sec.bank0

/-- FW_STAGE (0x0A01): chunks with ascending OFFSET and no gap; OFFSET 0 begins an image anew. -/
def execFwStage (r : Nat) (t : Nat) (s : State) : Host.Outcome State Fault Refusal :=
  .next (s.runCmd r t 0x0A01
    { inline := fun s j =>
        if j.arg 0 ≠ 0 ∧ j.arg 0 ≠ s.sec.staged.length then some 32
        else if (j.arg 0 ≠ 0 ∧ j.arg 1 ≠ s.sec.stageTotal) ∨ j.arg 1 < j.arg 0 + j.c.payLen then some 40 else none }
    fun s j =>
      let b := if j.arg 0 = 0 then j.pay else s.sec.staged ++ j.pay
      let sec := { s.sec with staged := b, stageTotal := j.arg 1 }
      .done { s with sec := if sec.bank = 0 then { sec with bank1 := imageOfBytes b } else { sec with bank0 := imageOfBytes b } } {})

/-- The oldest waiting completions of a ring written where entries are free. -/
def State.postAll (s : State) (r : Nat) : State :=
  ((s.ring r).waiting).foldl (fun s _ => match execCompletionPost r false s with | .next s => s | _ => s) s

/-- The restart into the other bank: sessions close; from recovery the start-up goes on from step 3 (entry 35). -/
def State.intoBank (s : State) : State :=
  let wasRecovery := s.sec.recovery
  let s := { s with sec := { s.sec with bank := 1 - s.sec.bank, staged := [], stageTotal := 0, diag := none, recovery := false } }
  let s := s.fwDown 2
  if wasRecovery then { s with power := { s.power with phase := .run, faultClass := 0, stage := 3, restartCause := 0 } } else s

/-- FW_ACTIVATE (0x0A02): the staged bank is checked; then PENDING is posted and the module restarts into it. -/
def execFwActivate (r : Nat) (t : Nat) (s : State) : Host.Outcome State Fault Refusal :=
  let digest := some s.sec.otherBank.digest
  .next (s.runCmd r t 0x0A02 {} (digest := digest) fun s j =>
    match s.sec.bankFails s.sec.otherBank with
    | some k => .fail { status := bankStatus k }
    | none =>
      let s := s.auditCmd j.r { j.c with role := s.roleOf j.r } stOK digest
      let s := if j.r = i3cRing then s else (s.queueCompletion j.r j.c { status := stPending }).postAll j.r
      .later s.intoBank)

/-- FW_QUERY (0x0A03): versions of both banks, the active bank, and the bytes staged. -/
def execFwQuery (r : Nat) (t : Nat) (s : State) : Host.Outcome State Fault Refusal :=
  .next (s.runCmd r t 0x0A03 {} fun s _ =>
    .done s (okBytes 32 (packList [(4, s.sec.bank0.version), (4, s.sec.bank1.version), (1, s.sec.bank), (8, s.sec.staged.length)])))

end Sys2Proof.Machine
end

