-- ==== Sys2Proof/Machine/DiagCmds.lean ====
section
/-! DEFINITION. Repair, note, self-test and Caretaker commands (R242, R317, R320, R341, R382, R429). -/

namespace Sys2Proof.Machine

open Sys2Proof

/-- SELFTEST_RUN (0x0B03): the array self-test. The manual gives its 64-byte result no layout, and 64 bytes cannot hold a bit for each site of each row, so
they are a free value (entry 36). -/
def execSelftestRun (r : Nat) (t : Nat) (s : State) : Host.Outcome State Fault Refusal :=
  .next (s.runCmd r t 0x0B03 {} fun s _ =>
    .done { s with fresh := s.fresh + 1 } { result := leBytes 64 (Config.freeValue 512 s.fresh).toNat })

/-- HBM_SPARE (0x0B10): the installer asks for a logical pseudo-channel to be spared; a stack has 31 of them (R234). -/
def execHbmSpare (r : Nat) (t : Nat) (s : State) : Host.Outcome State Fault Refusal :=
  .next (s.runCmd r t 0x0B10 { inline := fun _ j => if 31 < j.arg 0 then some 32 else if 30 < j.arg 1 then some 33 else none }
    fun s j => .done (if (s.stack (j.arg 0)).st == .spare && (s.stack (j.arg 0)).spareFor == j.arg 1 then s else s.spareChannel (j.arg 0) (j.arg 1)) {})

/-- SITE_FENCE (0x0B11): a core site by row and physical column. -/
def execSiteFence (r : Nat) (t : Nat) (s : State) : Host.Outcome State Fault Refusal :=
  .next (s.runCmd r t 0x0B11 { inline := fun _ j => if 31 < j.arg 0 then some 32 else if 49 < j.arg 1 then some 33 else none }
    fun s j => .done (s.fenceSite (50 * j.arg 0 + j.arg 1)) {})

/-- REPAIR_QUERY (0x0B12): every repair record, 16 bytes each. -/
def execRepairQuery (r : Nat) (t : Nat) (s : State) : Host.Outcome State Fault Refusal :=
  .next (s.runCmd r t 0x0B12 {} fun s _ => .done s { result := s.repairBytes })

/-- NOTE_QUERY (0x0B13): the note table of a Prefect or Deputy, 32 bytes each. -/
def execNoteQuery (r : Nat) (t : Nat) (s : State) : Host.Outcome State Fault Refusal :=
  .next (s.runCmd r t 0x0B13 {} fun s _ =>
    if s.isPrefect || s.isDeputy then .done s { result := s.form.notes.flatMap fun e => noteBytes e.1 } else .fail { status := stWrongState })

/-! ### Duties (R429) -/

/-- A duty record (Table 7 of chapter 15). -/
def dutyBytes (code : Nat) (d : Duty) : List Byte :=
  leBytes 32 (code + d.period % 2 ^ 32 * 2 ^ 32 + d.lastDone % 2 ^ 64 * 2 ^ 64 + d.progress % 65536 * 2 ^ 128 + d.missed % 2 ^ 32 * 2 ^ 144
    + d.events % 2 ^ 32 * 2 ^ 176)

/-- CARETAKER_QUERY (0x0C01): a record for each of the twelve duties, in code order. -/
def execCaretakerQuery (r : Nat) (t : Nat) (s : State) : Host.Outcome State Fault Refusal :=
  .next (s.runCmd r t 0x0C01 {} fun s _ => .done s { result := (upFrom 1 12).flatMap fun k => dutyBytes k (s.duty k) })

/-- The range in which a duty's period may be set, in the unit of its record (Table 6 of chapter 15); none for a fixed duty. -/
def periodRange (code : Nat) : Option (Nat × Nat) :=
  match code with
  | 3 => some (100, 10000) | 4 => some (40, 160) | 5 => some (500, 10000) | 9 => some (3600000, 86400000) | 10 => some (10000, 600000)
  | 11 => some (600000, 86400000) | 12 => some (3600000, 604800000) | _ => none

/-- Entry `k` of a CARETAKER_SET payload: DUTY 1, reserved 3, PERIOD 4. -/
def dutyEntry (j : Job) (k : Nat) : Nat × Nat × Nat := (j.num (8 * k) 1, j.num (8 * k + 1) 3, j.num (8 * k + 4) 4)

/-- The first breach of an entry of a CARETAKER_SET payload. -/
def badDuty (j : Job) (k : Nat) : Option Nat :=
  let e := dutyEntry j k
  if e.2.1 ≠ 0 then some (8 * k + 1)
  else match periodRange e.1 with
    | none => some (8 * k)
    | some (lo, hi) => if lo ≤ e.2.2 ∧ e.2.2 ≤ hi then none else some (8 * k + 4)

/-- CARETAKER_SET (0x0C02). -/
def execCaretakerSet (r : Nat) (t : Nat) (s : State) : Host.Outcome State Fault Refusal :=
  .next (s.runCmd r t 0x0C02
    { inline := fun _ j => if j.c.payLen % 8 ≠ 0 then some 16 else none
      pay := fun _ j => (upFrom 0 (j.pay.length / 8)).findSome? (badDuty j) }
    fun s j =>
      .done ((upFrom 0 (j.pay.length / 8)).foldl (fun s k =>
        let e := dutyEntry j k
        s.modDuty e.1 fun d => { d with period := e.2.2 }) s) {})

end Sys2Proof.Machine
end

