-- ==== Sys2Proof/Machine/I3cBus.lean ====
section
/-! DEFINITION. The I3C target of the SIDE connector (R384, R385). -/

namespace Sys2Proof.Machine

open Sys2Proof

/-- One bit of CRC-32, least significant bit first. -/
def crcBit (c : Nat) : Nat := if c % 2 = 1 then (c / 2) ^^^ 0xEDB88320 else c / 2

/-- `n` bits of CRC-32. -/
def crcBits : Nat → Nat → Nat
  | 0, c => c
  | n + 1, c => crcBits n (crcBit c)

/-- The CRC-32 of IEEE 802.3 over bytes (its polynomial and complements are PRESUMED, entry 4). -/
def crc32 (b : List Byte) : Nat := (b.foldl (fun c x => crcBits 8 (c ^^^ x.toNat)) 0xFFFFFFFF) ^^^ 0xFFFFFFFF

/-- Whether the bus reaches the target: in the run and fault phases (R384, R441). -/
def State.i3cOn (s : State) : Bool := s.power.phase == .run || s.power.phase == .fault

/-- Whether the target answers to a dynamic address. -/
def State.i3cHears (s : State) : Bool := s.i3cOn && s.i3c.addr.isSome

/-- ALERT# released. -/
def State.releaseAlert (s : State) : State :=
  if s.power.alert then
    let s := { s with power := { s.power with alert := false } }
    if s.power.phase == .run then s.drive "ALERT#" true else s
  else s

/-- PAYLOAD_LEN of the descriptor in a frame. -/
def frameLen (b : List Byte) : Nat := leNat ((b.drop 18).take 4)

/-- Whether a command frame is whole: its frame byte, a length that agrees with PAYLOAD_LEN, and its CRC. -/
def frameGood (b : List Byte) : Bool :=
  decide (70 ≤ b.length) && b.getD 0 0 == 0xA1 && b.length == 70 + frameLen b && leNat (b.drop (b.length - 4)) == crc32 (b.take (b.length - 4))

/-- The command that a frame carries. -/
def frameCmd (b : List Byte) (tick : Nat) : Cmd :=
  { desc := BitVec.ofNat 512 (leNat ((b.drop 2).take 64)), payload := .ok ((b.drop 66).take (frameLen b)), since := tick }

/-- I3C_PRIVATE_WRITE (R385): a command frame is NACKed while a command is working, dropped where it is not whole, and otherwise put on the channel's ring
of depth 1. -/
def execI3cPrivateWrite (bytes : List Byte) (s : State) : Host.Outcome State Fault Refusal :=
  .next (if !s.i3cHears || s.i3c.st == 1 then s.put .nack
    else
      let s := s.releaseAlert
      let seq := (bytes.getD 1 0).toNat
      if frameGood bytes then
        let s := { s with i3c := { s.i3c with st := 1, seq := seq, answer := [] } }
        (s.modRing i3cRing fun g => { g with enable := true, inflight := [frameCmd bytes s.tick], waiting := [] }).settleRings
      else { s with i3c := { s.i3c with st := 3, seq := seq, answer := [] } })

/-- The bytes of a private read: state, sequence byte, the answer of a complete command, and the CRC-32. -/
def I3c.readBytes (x : I3c) : List Byte :=
  let b := leBytes 1 x.st ++ leBytes 1 x.seq ++ (if x.st = 2 then x.answer else [])
  b ++ leBytes 4 (crc32 b)

/-- I3C_PRIVATE_READ (R385): the answer stays readable; reading it releases ALERT#. -/
def execI3cPrivateRead (s : State) : Host.Outcome State Fault Refusal :=
  .next (if !s.i3cHears then s.put .nack
    else
      let s := s.put (.i3c s.i3c.readBytes)
      if s.i3c.st = 2 then s.releaseAlert else s)

/-- ENTDAA (R384): a target without a dynamic address takes one. -/
def execEntdaa (addr : Nat) (s : State) : Host.Outcome State Fault Refusal :=
  .next (if s.i3cOn && s.i3c.addr.isNone then { s with i3c := { s.i3c with addr := some addr } } else s)

/-- SETDASA (R384), from the static address 0x5A. -/
def execSetdasa (addr : Nat) (s : State) : Host.Outcome State Fault Refusal :=
  .next (if s.i3cOn && s.i3c.addr.isNone then { s with i3c := { s.i3c with addr := some addr } } else s)

/-- The channel's role binding ended (R385). -/
def State.unbindI3c (s : State) : State := s.modRing i3cRing fun g => { g with role := 0, cred := 0xFF }

/-- RSTDAA (R384, R385): the dynamic address and the role binding end. -/
def execRstdaa (s : State) : Host.Outcome State Fault Refusal :=
  .next (if s.i3cOn then ({ s with i3c := { s.i3c with addr := none } }).unbindI3c else s)

/-- An answer of the target, or a NACK from one without a dynamic address. -/
def State.i3cAnswer (s : State) (b : List Byte) : State := if s.i3cHears then s.put (.i3c b) else s.put .nack

/-- The provisional ID, most significant byte first: bits [5:0] of its low byte carry the strapped Form position (R384). -/
def State.pid (s : State) : List Byte :=
  let b := padTo 6 (Config.i3cAnswer 0)
  b.take 5 ++ [BitVec.ofNat 8 ((b.getD 5 0).toNat / 64 * 64 + bits s.power.straps.toNat 0 6)]

/-- GETPID (R384). -/
def execGetpid (s : State) : Host.Outcome State Fault Refusal := .next (s.i3cAnswer s.pid)

/-- GETBCR (R384). -/
def execGetbcr (s : State) : Host.Outcome State Fault Refusal := .next (s.i3cAnswer (padTo 1 (Config.i3cAnswer 1)))

/-- GETDCR (R384). -/
def execGetdcr (s : State) : Host.Outcome State Fault Refusal := .next (s.i3cAnswer (padTo 1 (Config.i3cAnswer 2)))

/-- GETSTATUS (R384). -/
def execGetstatus (s : State) : Host.Outcome State Fault Refusal := .next (s.i3cAnswer (padTo 2 (Config.i3cAnswer 3)))

/-- ENEC (R384): accepted, with no effect. -/
def execEnec (s : State) : Host.Outcome State Fault Refusal := .next s

/-- DISEC (R384): accepted, with no effect. -/
def execDisec (s : State) : Host.Outcome State Fault Refusal := .next s

end Sys2Proof.Machine
end

