-- ==== Sys2Proof/Machine/PowerPins.lean ====
section
/-! DEFINITION. Power entry and the SIDE connector's pins (R433 to R445), and start-up (R397, R398, R447, R448). -/

namespace Sys2Proof.Machine

open Sys2Proof

/-! ### What outlasts a loss of power -/

/-- Roles, credentials, counters, banks, the audit log and the repair records, which flash and the replay-protected area hold (R320, R390, R395 to R397). -/
def Sec.kept (x : Sec) : Sec := { x with staged := [], stageTotal := 0, recovery := false, fallback := false, diag := none }

/-- Duties with the periods that management flash keeps (R429). -/
def keptDuties (m : SMap Duty) : SMap Duty :=
  m.foldl (fun a e => tset { period := defaultPeriod e.1 } a e.1 { period := e.2.period }) []

/-- The Caretaker's values that flash keeps: periods, sensor offsets (R428) and laser currents of first use (R427). -/
def Care.kept (x : Care) : Care := { duties := keptDuties x.duties, offsets := x.offsets, biasFirst := x.biasFirst }

/-- Levels and latches that the always-on domain and the pins themselves hold. -/
def Power.kept (w : Power) : Power :=
  { pwrEn := w.pwrEn, perst := w.perst, seatIn := w.seatIn, input := w.input, overVolt := w.overVolt, emergLatched := w.emergLatched
    emergOff := w.emergOff, lasersOff := w.emergOff, senseLost := w.senseLost, senseNow := w.senseNow, cartsOut := w.cartsOut }

/-- Quotas of the partitions, which firmware records (entry 28). -/
def keptParts (m : SMap Part) : SMap Part := m.foldl (fun a e => tset {} a e.1 { quota := e.2.quota }) []

/-- The state with every regulator but the always-on domain's off (R434, R442): PWR_OK and SEAT_OUT fall, and all but what flash, the always-on domain and
the stacks' repaired rows hold is gone. -/
def State.powerLoss (s : State) : State :=
  let s := if s.power.pwrOk then s.drive "PWR_OK" false else s
  let s := if s.power.seatOut then s.drive "SEAT_OUT" false else s
  { ({} : State) with
    slot := s.slot, tick := s.tick, sub := s.sub, power := s.power.kept, count := s.count, parts := keptParts s.parts
    hbm := s.hbm.foldl (fun m e => tset {} m e.1 e.2.powerOff) s.hbm, sec := s.sec.kept, care := s.care.kept
    fresh := s.fresh, out := s.out, pending := s.pending }

/-- Start-up begun (R435, R447): the always-on domain comes up with AON.TICK from 0, and the strap phase begins. -/
def State.beginStart (s : State) (senseLost emerg : Bool) : State :=
  let s := s.powerLoss
  { s with
    tick := 0, sub := 0
    power := { s.power with phase := .strap, stage := 1, input := true, overVolt := false, emergOff := false, lasersOff := false
                            emergLatched := emerg, senseLost := senseLost, senseNow := false } }

/-! ### The input (R433, R434) -/

/-- INPUT_GOOD: `second` says that the input had been removed for at least 1 s, which ends an EMERG_OFF# latch (R442). -/
def execInputGood (second : Bool) (s : State) : Host.Outcome State Fault Refusal :=
  .next (if s.power.input then s
    else if s.power.emergOff && !second then { s with power := { s.power with input := true } }
    else s.beginStart s.power.senseNow s.power.emergOff)

/-- INPUT_LOSS (R434). -/
def execInputLoss (s : State) : Host.Outcome State Fault Refusal :=
  .next (if !s.power.input then s
    else
      let s := s.powerLoss
      { s with power := { s.power with input := false, overVolt := false, senseNow := true } })

/-- OVER_VOLTAGE (R433): the module turns off at 62 V. -/
def execOverVoltage (s : State) : Host.Outcome State Fault Refusal :=
  .next (if !s.power.input || s.power.overVolt then s
    else
      let s := s.powerLoss
      { s with power := { s.power with overVolt := true } })

/-- OVER_VOLTAGE_CLEAR (R433): below 61.0 V it turns on again, unless EMERG_OFF# is latched. -/
def execOverVoltageClear (s : State) : Host.Outcome State Fault Refusal :=
  .next (if !s.power.overVolt then s
    else if s.power.emergOff then { s with power := { s.power with overVolt := false } }
    else s.beginStart false false)

/-! ### Straps (R437, R438) -/

/-- Upper bounds of the strap bands in mV, in the order of their codes (Table 5 of chapter 16). -/
def strapBands : List Nat := [180, 540, 850, 1110, 1340, 1540, 1720, 1900]

/-- The code of a sample in mV; none where it is ambiguous, within 30 mV of a band boundary, or in no band. -/
def strapCode (mv : Nat) : Option Nat :=
  if 1900 ≤ mv ∨ strapBands.any (fun b => decide (b < mv + 30) && decide (mv < b + 30)) then none
  else (upFrom 0 8).find? fun k => decide (mv < strapBands.getD k 0)

/-- The code of a pin's 64 samples; none where they are not all of one code. -/
def pinCode (mv : List Nat) (pin : Nat) : Option Nat :=
  let codes := (upFrom 0 64).map fun k => strapCode (mv.getD (64 * pin + k) 1900)
  match codes with
  | some c :: l => if l.all (· == some c) then some c else none
  | _ => none

/-- The strap word of 384 samples, where it is valid. -/
def strapWord (mv : List Nat) : Option Nat :=
  let codes := (upFrom 0 6).map (pinCode mv)
  if codes.all Option.isSome then some (((upFrom 0 6).map fun k => (codes.getD k none).getD 0 * 8 ^ k).sum) else none

/-- The strap bits of samples of which some decode to no code: 0 for such a pin (entry 37). -/
def strapBits (mv : List Nat) : Nat := ((upFrom 0 6).map fun k => (pinCode mv k).getD 0 * 8 ^ k).sum

/-- STRAP_PHASE_END (R438): 20 ms after input good the straps are decoded and PWR_OK rises; sample `i` of MP`n` is number 64 n + i, in mV. -/
def execStrapPhaseEnd (mv : List Nat) (s : State) : Host.Outcome State Fault Refusal :=
  .next (if s.power.phase != .strap then s
    else
      let s := { s with
        tick := max s.tick 500000
        power := { s.power with straps := BitVec.ofNat 18 (strapBits mv), strapValid := (strapWord mv).isSome, phase := .run, stage := 3, pwrOk := true } }
      s.drive "PWR_OK" true)

/-! ### Start-up (R397, R398, R447) -/

/-- Whether start-up is at a step (R447). -/
def State.atStep (s : State) (k : Nat) : Bool := s.power.phase == .run && s.power.stage == k

/-- Start-up moved on to its next step. -/
def State.toStep (s : State) (k : Nat) : State := ({ s with power := { s.power with stage := k } }).settleSeat

/-- BOOT_ROM_CHECK (R397, R400): without an identity seed, or with both banks rejected, the module enters the fault phase; in the second case boot ROM's
recovery service runs. -/
def execBootRomCheck (seedOk : Bool) (s : State) : Host.Outcome State Fault Refusal :=
  let inUse := s.runningBank
  .next (if !s.atStep 3 then s
    else if !seedOk then s.enterFault 0x61
    else if (s.sec.bankFails inUse).isNone then s.toStep 4
    else if (s.sec.bankFails s.sec.otherBank).isNone then
      ({ s with sec := { s.sec with bank := 1 - s.sec.bank, fallback := true } }).toStep 4
    else
      let s := s.enterFault 0x61
      { s with sec := { s.sec with recovery := true } })

/-- The entries that firmware logs as it starts: a fallback (R397), and an EMERG_OFF# latch (R442). -/
def State.logStart (s : State) : State :=
  let s := if s.sec.fallback then s.audit 0xFF01 0 0 0 0 0xFF (digest32 s.runningBank.digest) else s
  if s.power.emergLatched then s.audit 0xFF03 0 0 0 0 0xFF 0 else s

/-- REPAIR_RECORD_CHECK (R447): with every record verified FW_READY is set, and, with PWR_EN high, the main regulators follow. -/
def execRepairRecordCheck (ok : Bool) (s : State) : Host.Outcome State Fault Refusal :=
  .next (if !s.atStep 4 || s.power.fwReady || s.power.restartCause != 0 then s
    else if !ok then s.enterFault 0x61
    else
      let s := { s with sec := { s.sec with boots := (s.sec.boots + 1) % 2 ^ 32 }, power := { s.power with fwReady := true } }
      let s := s.logStart
      (s.toStep (if s.power.pwrEn then 5 else 4)).settleRings)

/-- PWR_EN_RISE (R442). -/
def execPwrEnRise (s : State) : Host.Outcome State Fault Refusal :=
  let s := { s with power := { s.power with pwrEn := true } }
  .next (if s.atStep 4 && s.power.pastStep4 then s.toStep 5 else s)

/-- PWR_EN_FALL (R442): the main rails off, and BOOT_STAGE 4. -/
def execPwrEnFall (s : State) : Host.Outcome State Fault Refusal :=
  let s := { s with power := { s.power with pwrEn := false } }
  .next (if s.power.phase == .run && decide (5 ≤ s.power.stage) then
      let s := s.mainOff
      let s := { s with power := { s.power with stage := 4 } }
      s.settleSeat
    else s)

/-- MAIN_REGULATORS_UP (R447). -/
def execMainRegulatorsUp (ok : Bool) (s : State) : Host.Outcome State Fault Refusal :=
  .next (if !s.atStep 5 then s
    else if !ok then s.enterFault 0x61
    else ({ s with power := { s.power with mainOn := true } }).toStep 6)

/-- HBM_TRAINING_DONE (R447, R243): stacks that have not trained are fenced; the partitions have fresh memory keys at generation 0 (R403). -/
def execHbmTrainingDone (failed : List Nat) (s : State) : Host.Outcome State Fault Refusal :=
  .next (if !s.atStep 6 then s
    else
      let s := (upFrom 0 32).foldl (fun s h => s.modStack h fun st => { st with trainedAt := tget 0 s.care.latest (192 + h) }) s
      let s := (failed.filter fun h => decide (h < 32)).foldl (fun s h => s.fenceStack h) s
      let s := s.partList.foldl (fun s p =>
        (s.modPart p fun part => { part with memKeys := true, keyGen := 0, prevHeld := false, prevKeys := {} }).drawKeys p []) s
      s.toStep 7)

/-- A repair record applied (R320, R447): a fenced site and a bypassed router are out of their row's plan, a spared pseudo-channel is in the spare, and a
held FUSED stays set (R171). Rows are repaired in the stack itself. -/
def State.applyRepair (s : State) (r : Repair) : State :=
  let x := 50 * r.a + r.b
  match r.kind with
  | 0 => (s.modSite x fun t => { t with fenced := true }).failSite x
  | 1 => (s.modSite x fun t => { t with bypassed := true }).failSite x
  | 3 => if (s.stack r.a).st == .normal then s.modStack r.a fun st => { st with st := .spare, spareFor := r.b, cursor := 6291456 } else s
  | 4 => s.modSite x fun t => { t with fused := true, fusedHeld := true }
  | _ => s

/-- The seating plans in effect before any job runs. -/
def State.seatPlans (s : State) : State :=
  s.partList.foldl (fun s p => s.modPart p fun part => { part with failed := tsetAll [] part.failed part.failedNext, failedNext := [] }) s

/-- SELF_TEST_DONE (R447): the repair records are applied; then sites that fail the array self-test are fenced and recorded, and each other site's attention
pipe is checked: `attn` are those that differ (R171). -/
def execSelfTestDone (fails attn cache : List Nat) (s : State) : Host.Outcome State Fault Refusal :=
  .next (if !s.atStep 7 then s
    else
      let s := s.sec.repairs.foldl (fun s r => s.applyRepair r) s
      let s := (fails.filter fun x => decide (x < 1600)).foldl (fun s x => s.fenceSite x) s
      let s := (upFrom 0 1600).foldl (fun s x => if (s.site x).fenced then s else s.attnCheck x (!attn.contains x) (!cache.contains x)) s
      s.seatPlans.toStep 8)

/-- What firmware that reaches compute-ready does (R398): SVN_MIN rises to its own SVN, and its REVOKE bits are set. -/
def Sec.ready (x : Sec) (im : FwImage) : Sec := { x with svnMin := max x.svnMin im.svn, revoked := x.revoked ||| BitVec.ofNat 4 im.revoke }

/-- OPTICAL_CALIBRATION_DONE (R447): ports with a cartridge that calibrated may train, and the module is compute-ready. -/
def execOpticalCalibrationDone (failed : List Nat) (s : State) : Host.Outcome State Fault Refusal :=
  .next (if !s.atStep 8 then s
    else
      let s := (upFrom 0 64).foldl (fun s l =>
        if s.power.cartsOut.contains (l / 4) || failed.contains l then s else s.modPort l fun x => { x with cal := true }) s
      let s := { s with sec := s.sec.ready s.runningBank, power := { s.power with computeReady := true } }
      (s.toStep 9).settleRings)

/-! ### Control pins, seats and cartridges (R440, R442, R443, R445) -/

/-- EMERG_OFF# (R442): lasers and every regulator but the always-on domain's off, latched until the input has been removed for at least 1 s. -/
def execEmergOff (s : State) : Host.Outcome State Fault Refusal :=
  .next (if !s.power.input || s.power.emergOff then s
    else
      let s := s.powerLoss
      { s with power := { s.power with emergOff := true, lasersOff := true } })

/-- PERST_RELEASE (R443): the endpoint trains; its link comes up with DL_UP. -/
def execPerstRelease (s : State) : Host.Outcome State Fault Refusal := .next { s with power := { s.power with perst := true } }

/-- PERST_ASSERT (R442, R344): the endpoint alone is reset, as every function is. -/
def execPerstAssert (s : State) : Host.Outcome State Fault Refusal :=
  let s := if s.power.perst then s.flrAll else s
  .next ({ s with power := { s.power with perst := false, linkUp := false, l0p := false } }.settleRings)

/-- SEAT_IN_CHANGE (R440). -/
def execSeatInChange (level : Bool) (s : State) : Host.Outcome State Fault Refusal := .next { s with power := { s.power with seatIn := level } }

/-- CARTRIDGE_LATCH_OPEN (R445): the cartridge's lasers turn off and its four ports go down. -/
def execCartridgeLatchOpen (cart : Nat) (s : State) : Host.Outcome State Fault Refusal :=
  .next (if 15 < cart then s
    else
      let s := { s with power := { s.power with cartsOut := addOnce s.power.cartsOut cart } }
      (upFrom (4 * cart) 4).foldl (fun s l => if (s.port l).cal then s.modPort l fun x => { x with cal := false } else s) (s.cartridgeDark cart))

/-- CARTRIDGE_LATCH_CLOSE (R445): the cartridge takes power, and its ports wait for calibration and LINK_MEASURE. -/
def execCartridgeLatchClose (cart : Nat) (s : State) : Host.Outcome State Fault Refusal :=
  .next { s with
    power := { s.power with cartsOut := s.power.cartsOut.filter (· != cart) }
    care := { s.care with lasersOff := s.care.lasersOff.filter (· != cart) } }

end Sys2Proof.Machine
end

