-- ==== Sys2Proof/Machine/Stalls.lean ====
section
/-! DEFINITION. The waiting cycles of a core's units (R63, R88, R89): what each unit waits for in an arithmetic cycle, or the router in a slot, and the
one cause under which it is counted. -/

namespace Sys2Proof.Machine

open Sys2Proof

/-- Whether only the copies of lines to the new frames keep the step boundary from falling (R321). -/
def State.copyWait (s : State) (p : Nat) : Bool :=
  let part := s.part p
  part.job == .running && part.stepClosed && part.satchel.inProgress.isNone && !part.linesCopied

/-- What a U sequencer with no section open waits for at a step boundary: a satchel that is not committed as for an operand (R327), line copies as for a
slice (R321). -/
def State.boundaryWaits (s : State) (p : Nat) : List (Nat × Nat) :=
  let part := s.part p
  if part.job != .running || !part.stepClosed then []
  else if part.satchel.inProgress.isSome then [(seqUnit .U, 1)]
  else if s.copyWait p then [(seqUnit .U, 4)]
  else []

/-- What a sequencer's posting waits for: a bell or the next step as for an operand, a place in a full window (R24) or room for an ARM message (R203) as for
credit. -/
def State.postWaits (s : State) (c : Nat) (q : Stream) : List (Nat × Nat) :=
  let sq := (s.core c).seq q
  let n := sq.instr sq.pc
  if sq.waitsBell then [(seqUnit q, 1)]
  else if sq.ended then []
  else if opcode n = 0xF0 then
    if !sq.room then [(seqUnit q, 0)]
    else if (s.part (s.partOfCore c)).holdsOpen q (bit n 10) then
      [(seqUnit q, if q == .U && s.copyWait (s.partOfCore c) then 4 else 1)]
    else []
  else if opcode n = 0xF5 && s.upRoom c == 0 then [(seqUnit q, 0)]
  else []

/-- What a sequencer with posted tasks and none running waits for, where none is ready or the core's clocks stand: draft space, if a task that has its
operands is held by R79 or R265, and otherwise an operand (Tables 9 and 12 of chapter 3). -/
def State.fireWaits (s : State) (c : Nat) (q : Stream) : List (Nat × Nat) :=
  let core := s.core c
  let part := s.part (s.partOfCore c)
  let sq := core.seq q
  if sq.window = [] then []
  else if sq.window.any (core.mayFire part q) then (if core.runs then [] else [(seqUnit q, 1)])
  else if sq.window.any fun t => core.operandsReady part t && core.sumsInOrder q t (part.taskView t) then [(seqUnit q, 5)]
  else [(seqUnit q, 1)]

/-- What the running task of a sequencer waits for: credit, launch room or room for a message at its close or its ARM; or what keeps its next operation
from issuing. -/
def State.taskWaits (s : State) (c : Nat) (q : Stream) (t : Task) : List (Nat × Nat) :=
  let core := s.core c
  let n := (core.seq q).instr t.pc
  if opcode n = 0xF1 then (if core.unfinished q t || s.mayClose c t n then [] else [(seqUnit q, 0)])
  else if opcode n = 0xF5 then (if s.upRoom c = 0 then [(seqUnit q, 0)] else [])
  else if opcode n < 0xF0 && !s.hasIssued c q then
    match s.nextIssue c q with
    | none => []
    | some i =>
      let x := tryOf s i
      match i.blocked x with
      | some w => [w]
      | none => if s.outranked c q x.names then [(seqUnit q, 1)] else []
  else []

/-- A ring that may leave but finds no room in the router's buffer is held, and its sequencer waits for credit (R203). -/
def State.ringWaits (s : State) (c : Nat) (q : Stream) : List (Nat × Nat) :=
  if s.upRoom c = 0 && ((s.core c).seq q).held.any (s.ringReady c q) then [(seqUnit q, 0)] else []

/-- What the key-value command on which a core's pipe works waits for: admission as for an operand (R178), draft lines for its padding, or the slices that
its blocks wait for (R168, R180). -/
def State.pipeWaits (s : State) (c : Nat) : List (Nat × Nat) :=
  match (s.core c).attn, (s.part (s.partOfCore c)).pool with
  | u :: _, some k =>
    match k.reqs.find? fun r => u.port && r.id == u.base with
    | none => []
    | some r =>
      if r.admitted then (if r.why = 0 then [] else [(13, r.why - 1)])
      else if r.load && k.applies r && s.kvTurn k r then [(13, 5)]
      else [(13, 1)]
  | _, _ => []

/-- What every unit of a core but its router waits for in an arithmetic cycle. -/
def State.coreWaits (s : State) (c : Nat) : List (Nat × Nat) :=
  let core := s.core c
  let part := s.part (s.partOfCore c)
  if !(core.valid && (core.power == .running || core.power == .clockStop)) then []
  else if part.sect != .open then s.boundaryWaits (s.partOfCore c)
  else
    [Stream.F, .B, .U].flatMap (fun q =>
      s.postWaits c q ++ s.ringWaits c q ++ match (core.seq q).running with
        | none => s.fireWaits c q
        | some t => s.taskWaits c q t)
    ++ (((upFrom 0 8).filter core.engineWaits).map fun e => (3 + e, 1))
    ++ s.pipeWaits c

/-- One arithmetic cycle of a core: its banks serve one line each, and every unit that waits, or is refused a bank, counts the cycle under one cause
(R63, R88). -/
def State.countCycle (s : State) (c : Nat) : State :=
  let r := (s.core c).bankCycle
  let ws := s.coreWaits c ++ (r.2.filterMap orderUnit).map fun u => (u, 3)
  if ws = [] && r.1.bankReqs == (s.core c).bankReqs then s else s.setCore c (r.1.countWaits ws)

/-- The slot that has passed counted for a core's router under the first cause that applies: a kept token waits for credit (R85), or what its occurrences
in the slot have noted. -/
def State.countRouter (s : State) (c : Nat) : State :=
  let core := s.core c
  let ws := ((core.routerWaits.filter fun w => w.1 + 1 == s.slot).map fun w => (14, w.2)) ++ (if core.kept.isEmpty then [] else [(14, 0)])
  if ws = [] then s
  else s.setCore c ({ core with routerWaits := core.routerWaits.filter fun w => decide (s.slot ≤ w.1) }.countWaits ws)

end Sys2Proof.Machine
end

