-- ==== Sys2Proof/Machine/Clock.lean ====
section
/-! DEFINITION. One fabric slot of time: fabric time (R184), the always-on tick (R412), and what counts slots, cycles and ticks of
itself. The step takes it on an empty queue (DESIGN CHOICE, log entry 1). -/

namespace Sys2Proof.Machine

open Sys2Proof

/-- Fabric time raised by one slot, and the always-on tick by one in every 48 slots (R8, R184, R412). -/
def State.countSlot (s : State) : State :=
  if s.sub = 47 then { s with slot := s.slot + 1, tick := s.tick + 1, sub := 0 } else { s with slot := s.slot + 1, sub := s.sub + 1 }

/-- Whether an always-on tick begins in this slot. -/
def State.atTick (s : State) : Bool := s.sub == 0

/-- MBX.HEARTBEAT raised each millisecond while FW_READY is 1 (Table 1 of chapter 13). -/
def State.beatFirmware (s : State) : State :=
  if s.atTick && s.power.fwReady && s.tick % 25000 == 0 then
    { s with power := { s.power with heartbeat := (s.power.heartbeat + 1) % 2 ^ 32 } }
  else s

/-- Start-up step 2 begins 10 ms after the input is good, as the always-on clock counts it (R447). -/
def State.strapTime (s : State) : State :=
  if s.power.phase == .strap && s.power.stage == 1 && decide (250000 ≤ s.tick) then { s with power := { s.power with stage := 2 } } else s

/-! ### The section watchdog (R92) -/

/-- Whether a sequencer of a core waits in BELL_WAIT. -/
def Core.waitsBell (core : Core) : Bool := [core.seqF, core.seqB, core.seqU].any Seq.waitsBell

/-- Whether a request to a slice, HBM or the far tier is outstanding in a partition (R92). -/
def State.awaitsMemory (s : State) (p : Nat) : Bool :=
  let part := s.part p
  (s.slicesOf p).any (fun k => let sl := tget {} s.slices k
    sl.fills.any (fun f => !f.host) || !sl.held.isEmpty || !sl.wbQueue.isEmpty || !sl.wbSent.isEmpty)
  || !part.transfers.isEmpty
  || (match part.pool with
      | some k => k.reqs.any fun r => r.noFrame
      | none => false)

/-- Whether a commit group awaits REMOTE flags (R53, R92): its closures are in, and the flag of a peer is not. -/
def Part.awaitsFlags (part : Part) : Bool :=
  part.groups.any fun e => e.2.flagSent && (part.groupCfg e.1).remote.any fun d => !e.2.flags.any fun f => f.1 == d && f.2.1 == e.2.round

/-- The watchdog counted: frozen while a sequencer waits in BELL_WAIT, a memory request is outstanding or a group awaits REMOTE flags. -/
def State.watchSection (s : State) (p : Nat) : State :=
  let part := s.part p
  if part.sect != .open || (s.coresOf p).any (fun c => (tget {} s.cores c).waitsBell) || s.awaitsMemory p || part.awaitsFlags then s
  else s.setPart p { part with watchdog := min (part.watchdog + 1) (2 ^ 20) }

/-! ### Cores (R93) -/

/-- Idle arithmetic cycles in a row of a running core, one arithmetic cycle in every two slots. -/
def State.idleCore (s : State) (c : Nat) : State :=
  let core := tget {} s.cores c
  if core.power != .running then s
  else s.setCore c { core with idle := if s.quiet c then core.idle + 1 else 0 }

/-- Kept tokens, held rings and the END of a core leave where they may. -/
def State.idleSettle (s : State) (c : Nat) : State :=
  let core := tget {} s.cores c
  if core.kept.isEmpty && core.seqF.held.isEmpty && core.seqB.held.isEmpty && core.seqU.held.isEmpty && !core.owesEnd then s else s.settleCore c

/-- Every listed core in the slot: its router's wait is counted, and with each arithmetic cycle, of two slots, its banks serve, and its other units' waits
and its idleness are counted. -/
def State.slotCores (s : State) : State :=
  let cs := s.cores.map Prod.fst
  let s := cs.foldl State.countRouter s
  let s := if s.slot % 2 = 0 then cs.foldl (fun s c => (s.countCycle c).idleCore c) s else s
  cs.foldl State.idleSettle s

/-! ### The intake (R355) -/

/-- Slots spent waiting counted, and what it waits on looked at again. -/
def State.slotIntake (s : State) (p : Nat) : State :=
  let it := (s.part p).intake
  if !(it.st = 1 || it.st = 2) then s
  else
    let s := if it.st = 2 then s.modPart p fun part => { part with intake := part.intake.count 2 1 }
      else if it.ringFull then s.modPart p fun part => { part with intake := part.intake.count 3 1 }
      else s
    s.settleIntake p

/-! ### The slot -/

/-- The copy to the spare of a stack at its greatest rate (R242): one unit of 256 B in every 128 slots (DESIGN CHOICE, entry 61). -/
def State.slotStack (s : State) (h : Nat) : State :=
  let st := tget {} s.hbm h
  if st.st == .sparing && s.slot % 128 == 0 && decide (st.cursor < 6291456) then s.setStack h { st with cursor := st.cursor + 1 } else s

/-- A partition in the slot. -/
def State.slotPart (s : State) (p : Nat) : State :=
  let s := (s.watchSection p).deliverFlits p
  let s := (s.slices.map Prod.fst).foldl (fun s k => if s.partOfSlice k = p then s.countCap k else s) s
  let s := s.kvPump p
  let s := (s.flushMore p).settleOuts p
  let s := if (s.part p).rekey then s.settleRekey p else s
  s.slotIntake p

/-- Arithmetic cycles withheld from the engines of each sensor group (R420): of each eight, counted from fabric time 0, those from the
group's duty on. -/
def State.countThrottle (s : State) : State :=
  if s.slot % 2 = 0 && s.power.mainOn && (s.ceiling != 8 || !s.care.lowered.isEmpty) then
    let k := s.slot / 2 % 8
    { s with care := { s.care with
        throttle := (upFrom 0 160).foldl (fun m g => if s.dutyOf g ≤ k then tmod 0 m g satInc32 else m) s.care.throttle } }
  else s

/-- One fabric slot passes. Without a good input no clock runs. -/
def State.passSlot (s : State) : State :=
  if !s.power.input then s
  else
    let s := s.countSlot.strapTime.beatFirmware
    let s := (s.hbm.map Prod.fst).foldl State.slotStack s
    let s := (s.parts.map Prod.fst).foldl State.slotPart s
    s.slotCores.countThrottle

end Sys2Proof.Machine
end

