-- ==== Sys2Proof/Machine/Dispatch.lean ====
section
/-! DEFINITION. The one match from a command to its meaning. -/

namespace Sys2Proof.Machine

open Sys2Proof

/-- A command's effect on everything but the queue. -/
def exec (i : Instr) (s : State) : Host.Outcome State Fault Refusal :=
  match i with
  | .taskOpen c q => Sys2Proof.Machine.execTaskOpen c q s
  | .taskClose c q => Sys2Proof.Machine.execTaskClose c q s
  | .loop c q body => Sys2Proof.Machine.execLoop c q body s
  | .setMb c q => Sys2Proof.Machine.execSetMb c q s
  | .bellRing c q body => Sys2Proof.Machine.execBellRing c q body s
  | .bellArm c q body => Sys2Proof.Machine.execBellArm c q body s
  | .bellWait c q body => Sys2Proof.Machine.execBellWait c q body s
  | .sectionEnd c q => Sys2Proof.Machine.execSectionEnd c q s
  | .taskFire c q => Sys2Proof.Machine.execTaskFire c q s
  | .mma c q => Sys2Proof.Machine.execMma c q s
  | .mmaAcc c q => Sys2Proof.Machine.execMmaAcc c q s
  | .mmaWg c q => Sys2Proof.Machine.execMmaWg c q s
  | .mmaAccWg c q => Sys2Proof.Machine.execMmaAccWg c q s
  | .accLoad c q => Sys2Proof.Machine.execAccLoad c q s
  | .drain c q => Sys2Proof.Machine.execDrain c q s
  | .drainAdd c q => Sys2Proof.Machine.execDrainAdd c q s
  | .engineOperationDone c e port => Sys2Proof.Machine.execEngineOperationDone c e port s
  | .rowSum c q => Sys2Proof.Machine.execRowSum c q s
  | .rowMax c q => Sys2Proof.Machine.execRowMax c q s
  | .rowSumsq c q => Sys2Proof.Machine.execRowSumsq c q s
  | .rowFn c q => Sys2Proof.Machine.execRowFn c q s
  | .softmax c q => Sys2Proof.Machine.execSoftmax c q s
  | .softmaxBwd c q => Sys2Proof.Machine.execSoftmaxBwd c q s
  | .norm c q => Sys2Proof.Machine.execNorm c q s
  | .normBwd c q => Sys2Proof.Machine.execNormBwd c q s
  | .vadd c q => Sys2Proof.Machine.execVadd c q s
  | .vsub c q => Sys2Proof.Machine.execVsub c q s
  | .vmul c q => Sys2Proof.Machine.execVmul c q s
  | .vmad c q => Sys2Proof.Machine.execVmad c q s
  | .vmax c q => Sys2Proof.Machine.execVmax c q s
  | .vmin c q => Sys2Proof.Machine.execVmin c q s
  | .vcvt c q => Sys2Proof.Machine.execVcvt c q s
  | .vaffine c q => Sys2Proof.Machine.execVaffine c q s
  | .vaddLs c q => Sys2Proof.Machine.execVaddLs c q s
  | .vrand c q => Sys2Proof.Machine.execVrand c q s
  | .vdrop c q => Sys2Proof.Machine.execVdrop c q s
  | .vput c q => Sys2Proof.Machine.execVput c q s
  | .optAdamw c q => Sys2Proof.Machine.execOptAdamw c q s
  | .optSgdm c q => Sys2Proof.Machine.execOptSgdm c q s
  | .optStep c q => Sys2Proof.Machine.execOptStep c q s
  | .attnFwd c q => Sys2Proof.Machine.execAttnFwd c q s
  | .attnRecomp c q => Sys2Proof.Machine.execAttnRecomp c q s
  | .attnDs c q => Sys2Proof.Machine.execAttnDs c q s
  | .rope c q => Sys2Proof.Machine.execRope c q s
  | .attnFwdFused c q => Sys2Proof.Machine.execAttnFwdFused c q s
  | .attnRecompFused c q => Sys2Proof.Machine.execAttnRecompFused c q s
  | .attnDsFused c q => Sys2Proof.Machine.execAttnDsFused c q s
  | .ropeFused c q => Sys2Proof.Machine.execRopeFused c q s
  | .kvAppend c q => Sys2Proof.Machine.execKvAppend c q s
  | .kvAppendAdmit p n => Sys2Proof.Machine.execKvAppendAdmit p n s
  | .kvLoad c q => Sys2Proof.Machine.execKvLoad c q s
  | .kvAllocatorTimeout p n => Sys2Proof.Machine.execKvAllocatorTimeout p n s
  | .tokenArrive p n => Sys2Proof.Machine.execTokenArrive p n s
  | .tokenOccurrence c e => Sys2Proof.Machine.execTokenOccurrence c e s
  | .creditOccurrence c e => Sys2Proof.Machine.execCreditOccurrence c e s
  | .creditArrive p n => Sys2Proof.Machine.execCreditArrive p n s
  | .closureMessage p => Sys2Proof.Machine.execClosureMessage p s
  | .commitVerdict c g => Sys2Proof.Machine.execCommitVerdict c g s
  | .discardVerdict c g => Sys2Proof.Machine.execDiscardVerdict c g s
  | .sliceVerdict sl g => Sys2Proof.Machine.execSliceVerdict sl g s
  | .ringMessage p => Sys2Proof.Machine.execRingMessage p s
  | .armMessage p => Sys2Proof.Machine.execArmMessage p s
  | .countMessage c => Sys2Proof.Machine.execCountMessage c s
  | .endMessage p => Sys2Proof.Machine.execEndMessage p s
  | .closeMessage c => Sys2Proof.Machine.execCloseMessage c s
  | .genMessage p c => Sys2Proof.Machine.execGenMessage p c s
  | .switchSlot p => Sys2Proof.Machine.execSwitchSlot p s
  | .windowBStart p => Sys2Proof.Machine.execWindowBStart p s
  | .windowCStart p => Sys2Proof.Machine.execWindowCStart p s
  | .sectionStart p => Sys2Proof.Machine.execSectionStart p s
  | .sectionStuck p => Sys2Proof.Machine.execSectionStuck p s
  | .periodBoundary p => Sys2Proof.Machine.execPeriodBoundary p s
  | .streamOccurrence p st err => Sys2Proof.Machine.execStreamOccurrence p st err s
  | .blockDelivered p st => Sys2Proof.Machine.execBlockDelivered p st s
  | .clockStop c => Sys2Proof.Machine.execClockStop c s
  | .coreWake c => Sys2Proof.Machine.execCoreWake c s
  | .coreGate c => Sys2Proof.Machine.execCoreGate c s
  | .corePowerUp c => Sys2Proof.Machine.execCorePowerUp c s
  | .rollCall c => Sys2Proof.Machine.execRollCall c s
  | .rollCallTimeout c => Sys2Proof.Machine.execRollCallTimeout c s
  | .cacheSlotOccurrence sl => Sys2Proof.Machine.execCacheSlotOccurrence sl s
  | .fillReady sl a ev => Sys2Proof.Machine.execFillReady sl a ev s
  | .fillInstall sl => Sys2Proof.Machine.execFillInstall sl s
  | .writeBack sl => Sys2Proof.Machine.execWriteBack sl s
  | .lineCopyDone p pg => Sys2Proof.Machine.execLineCopyDone p pg s
  | .migrationInDone p pg lines => Sys2Proof.Machine.execMigrationInDone p pg lines s
  | .migrationOutDone p pg ok => Sys2Proof.Machine.execMigrationOutDone p pg ok s
  | .farTransferTimeout p pg => Sys2Proof.Machine.execFarTransferTimeout p pg s
  | .prefetch p => Sys2Proof.Machine.execPrefetch p s
  | .stepBoundary p => Sys2Proof.Machine.execStepBoundary p s
  | .sampleWrite p rec => Sys2Proof.Machine.execSampleWrite p rec s
  | .intakeDmaFailure p timeout => Sys2Proof.Machine.execIntakeDmaFailure p timeout s
  | .flitTime l => Sys2Proof.Machine.execFlitTime l s
  | .frameSeal l fr => Sys2Proof.Machine.execFrameSeal l fr s
  | .timedFlitHandOn l fl => Sys2Proof.Machine.execTimedFlitHandOn l fl s
  | .edgeRouterAddition g fl => Sys2Proof.Machine.execEdgeRouterAddition g fl s
  | .bellFlit l fl => Sys2Proof.Machine.execBellFlit l fl s
  | .bellResend l => Sys2Proof.Machine.execBellResend l s
  | .packetResend l => Sys2Proof.Machine.execPacketResend l s
  | .laneFailure l lane => Sys2Proof.Machine.execLaneFailure l lane s
  | .ring => Sys2Proof.Machine.execRing s
  | .count => Sys2Proof.Machine.execCount s
  | .flag => Sys2Proof.Machine.execFlag s
  | .rung => Sys2Proof.Machine.execRung s
  | .rungAck => Sys2Proof.Machine.execRungAck s
  | .clip => Sys2Proof.Machine.execClip s
  | .heartbeat => Sys2Proof.Machine.execHeartbeat s
  | .missing => Sys2Proof.Machine.execMissing s
  | .takeover => Sys2Proof.Machine.execTakeover s
  | .heartbeatLost => Sys2Proof.Machine.execHeartbeatLost s
  | .beatBoundary => Sys2Proof.Machine.execBeatBoundary s
  | .lockPortDown => Sys2Proof.Machine.execLockPortDown s
  | .holdoverExpiry => Sys2Proof.Machine.execHoldoverExpiry s
  | .farRead => Sys2Proof.Machine.execFarRead s
  | .farData => Sys2Proof.Machine.execFarData s
  | .farWrite => Sys2Proof.Machine.execFarWrite s
  | .farAck => Sys2Proof.Machine.execFarAck s
  | .satchel => Sys2Proof.Machine.execSatchel s
  | .satchelAck => Sys2Proof.Machine.execSatchelAck s
  | .satchelCommit p => Sys2Proof.Machine.execSatchelCommit p s
  | .satchelCopyFailure p => Sys2Proof.Machine.execSatchelCopyFailure p s
  | .farSatchelCommit p => Sys2Proof.Machine.execFarSatchelCommit p s
  | .absenceNote => Sys2Proof.Machine.execAbsenceNote s
  | .noteWindowBoundary => Sys2Proof.Machine.execNoteWindowBoundary s
  | .memberAbsent dev => Sys2Proof.Machine.execMemberAbsent dev s
  | .hold => Sys2Proof.Machine.execHold s
  | .ready l => Sys2Proof.Machine.execReady l s
  | .spareFillSourceFailure p => Sys2Proof.Machine.execSpareFillSourceFailure p s
  | .coreSiteFence x cause => Sys2Proof.Machine.execCoreSiteFence x cause s
  | .routerProbe x answered => Sys2Proof.Machine.execRouterProbe x answered s
  | .routerParityFailure x => Sys2Proof.Machine.execRouterParityFailure x s
  | .rowRepair h pc bank row => Sys2Proof.Machine.execRowRepair h pc bank row s
  | .pseudoChannelSparing h pc => Sys2Proof.Machine.execPseudoChannelSparing h pc s
  | .spareCopyComplete h => Sys2Proof.Machine.execSpareCopyComplete h s
  | .hbmScrub h line ev => Sys2Proof.Machine.execHbmScrub h line ev s
  | .sramScrub target err => Sys2Proof.Machine.execSramScrub target err s
  | .scrubWindowEnd hbm => Sys2Proof.Machine.execScrubWindowEnd hbm s
  | .attentionPipeCheck x same cache => Sys2Proof.Machine.execAttentionPipeCheck x same cache s
  | .siteRetest x pass => Sys2Proof.Machine.execSiteRetest x pass s
  | .hbmInterfaceRetraining h pc ok => Sys2Proof.Machine.execHbmInterfaceRetraining h pc ok s
  | .opticalRecalibration l lane converged => Sys2Proof.Machine.execOpticalRecalibration l lane converged s
  | .laserAgeing cart bias => Sys2Proof.Machine.execLaserAgeing cart bias s
  | .thermalSensorCalibration sensor offset => Sys2Proof.Machine.execThermalSensorCalibration sensor offset s
  | .flashWearLevelling => Sys2Proof.Machine.execFlashWearLevelling s
  | .telemetryWindowEnd temps powers => Sys2Proof.Machine.execTelemetryWindowEnd temps powers s
  | .engineCurrentLimit grp hot => Sys2Proof.Machine.execEngineCurrentLimit grp hot s
  | .phaseShed rail => Sys2Proof.Machine.execPhaseShed rail s
  | .blockWake b => Sys2Proof.Machine.execBlockWake b s
  | .portPark l => Sys2Proof.Machine.execPortPark l s
  | .reKeyRetry p ok => Sys2Proof.Machine.execReKeyRetry p ok s
  | .fwWatchdogRestart => Sys2Proof.Machine.execFwWatchdogRestart s
  | .fwRestart => Sys2Proof.Machine.execFwRestart s
  | .sqTailDoorbell f r idx descs => Sys2Proof.Machine.execSqTailDoorbell f r idx descs s
  | .cqHeadDoorbell f r idx => Sys2Proof.Machine.execCqHeadDoorbell f r idx s
  | .eventHeadDoorbell f r idx => Sys2Proof.Machine.execEventHeadDoorbell f r idx s
  | .ringEnable f v => Sys2Proof.Machine.execRingEnable f v s
  | .ringDisable f v => Sys2Proof.Machine.execRingDisable f v s
  | .pendingTimeout r t => Sys2Proof.Machine.execPendingTimeout r t s
  | .completionPost r resultFails => Sys2Proof.Machine.execCompletionPost r resultFails s
  | .holdoffExpiry f v => Sys2Proof.Machine.execHoldoffExpiry f v s
  | .intCauseClear f w same => Sys2Proof.Machine.execIntCauseClear f w same s
  | .intMaskWrite f w => Sys2Proof.Machine.execIntMaskWrite f w s
  | .intakeAppend f k w => Sys2Proof.Machine.execIntakeAppend f k w s
  | .counterReadClear f reg same whole => Sys2Proof.Machine.execCounterReadClear f reg same whole s
  | .lowHalfRead f reg whole => Sys2Proof.Machine.execLowHalfRead f reg whole s
  | .registerWrite f reg w whole descs => Sys2Proof.Machine.execRegisterWrite f reg w whole descs s
  | .apertureRead f off len => Sys2Proof.Machine.execApertureRead f off len s
  | .apertureWrite f off bytes => Sys2Proof.Machine.execApertureWrite f off bytes s
  | .functionLevelReset f => Sys2Proof.Machine.execFunctionLevelReset f s
  | .hotReset => Sys2Proof.Machine.execHotReset s
  | .dlDown => Sys2Proof.Machine.execDlDown s
  | .numvfsClear => Sys2Proof.Machine.execNumvfsClear s
  | .ideFailure f => Sys2Proof.Machine.execIdeFailure f s
  | .getVersion f => Sys2Proof.Machine.execGetVersion f s
  | .getCapabilities f => Sys2Proof.Machine.execGetCapabilities f s
  | .negotiateAlgorithms f => Sys2Proof.Machine.execNegotiateAlgorithms f s
  | .getDigests f => Sys2Proof.Machine.execGetDigests f s
  | .getCertificate f => Sys2Proof.Machine.execGetCertificate f s
  | .challenge f nonce => Sys2Proof.Machine.execChallenge f nonce s
  | .getMeasurements f nonce => Sys2Proof.Machine.execGetMeasurements f nonce s
  | .keyExchange f => Sys2Proof.Machine.execKeyExchange f s
  | .finish f => Sys2Proof.Machine.execFinish f s
  | .spdmHeartbeat f => Sys2Proof.Machine.execSpdmHeartbeat f s
  | .keyUpdate f => Sys2Proof.Machine.execKeyUpdate f s
  | .endSession f => Sys2Proof.Machine.execEndSession f s
  | .deviceInfo r t => Sys2Proof.Machine.execDeviceInfo r t s
  | .behaviourPin r t => Sys2Proof.Machine.execBehaviourPin r t s
  | .partitionSet r t => Sys2Proof.Machine.execPartitionSet r t s
  | .partitionQuery r t => Sys2Proof.Machine.execPartitionQuery r t s
  | .jobLoad r t data im => Sys2Proof.Machine.execJobLoad r t data im s
  | .jobUnload r t => Sys2Proof.Machine.execJobUnload r t s
  | .jobInfo r t => Sys2Proof.Machine.execJobInfo r t s
  | .jobRanks r t => Sys2Proof.Machine.execJobRanks r t s
  | .jobRun r t refill => Sys2Proof.Machine.execJobRun r t refill s
  | .jobStop r t => Sys2Proof.Machine.execJobStop r t s
  | .jobQuery r t => Sys2Proof.Machine.execJobQuery r t s
  | .frozenSet r t => Sys2Proof.Machine.execFrozenSet r t s
  | .intakeConfig r t => Sys2Proof.Machine.execIntakeConfig r t s
  | .intakeShards r t => Sys2Proof.Machine.execIntakeShards r t s
  | .intakeStart r t => Sys2Proof.Machine.execIntakeStart r t s
  | .intakeStop r t => Sys2Proof.Machine.execIntakeStop r t s
  | .intakeQuery r t => Sys2Proof.Machine.execIntakeQuery r t s
  | .memQuotaSet r t => Sys2Proof.Machine.execMemQuotaSet r t s
  | .memQuotaQuery r t => Sys2Proof.Machine.execMemQuotaQuery r t s
  | .memAlloc r t => Sys2Proof.Machine.execMemAlloc r t s
  | .memFree r t => Sys2Proof.Machine.execMemFree r t s
  | .memFlush r t => Sys2Proof.Machine.execMemFlush r t s
  | .farAttach r t => Sys2Proof.Machine.execFarAttach r t s
  | .farDetach r t => Sys2Proof.Machine.execFarDetach r t s
  | .windowSetVersion r t => Sys2Proof.Machine.execWindowSetVersion r t s
  | .memPageQuery r t => Sys2Proof.Machine.execMemPageQuery r t s
  | .kvPoolCreate r t => Sys2Proof.Machine.execKvPoolCreate r t s
  | .kvSeqOpen r t => Sys2Proof.Machine.execKvSeqOpen r t s
  | .kvSeqPark r t => Sys2Proof.Machine.execKvSeqPark r t s
  | .kvSeqResume r t => Sys2Proof.Machine.execKvSeqResume r t s
  | .kvSeqClose r t => Sys2Proof.Machine.execKvSeqClose r t s
  | .kvPoolQuery r t => Sys2Proof.Machine.execKvPoolQuery r t s
  | .kvPoolDestroy r t => Sys2Proof.Machine.execKvPoolDestroy r t s
  | .satchelConfig r t => Sys2Proof.Machine.execSatchelConfig r t s
  | .satchelQuery r t => Sys2Proof.Machine.execSatchelQuery r t s
  | .satchelTake r t => Sys2Proof.Machine.execSatchelTake r t s
  | .satchelRestore r t sources => Sys2Proof.Machine.execSatchelRestore r t sources s
  | .spareFill r t fits rec arrived => Sys2Proof.Machine.execSpareFill r t fits rec arrived s
  | .reshardRun r t ok data => Sys2Proof.Machine.execReshardRun r t ok data s
  | .formSetup r t links hops => Sys2Proof.Machine.execFormSetup r t links hops s
  | .formQuery r t => Sys2Proof.Machine.execFormQuery r t s
  | .linkMeasure r t links => Sys2Proof.Machine.execLinkMeasure r t links s
  | .linkStatus r t => Sys2Proof.Machine.execLinkStatus r t s
  | .roleSet r t => Sys2Proof.Machine.execRoleSet r t s
  | .formLeave r t => Sys2Proof.Machine.execFormLeave r t s
  | .normRead r t => Sys2Proof.Machine.execNormRead r t s
  | .telRead r t => Sys2Proof.Machine.execTelRead r t s
  | .telStream r t => Sys2Proof.Machine.execTelStream r t s
  | .overflowRead r t => Sys2Proof.Machine.execOverflowRead r t s
  | .roleAuthChallenge r t => Sys2Proof.Machine.execRoleAuthChallenge r t s
  | .roleAuthResponse r t => Sys2Proof.Machine.execRoleAuthResponse r t s
  | .roleAuthEnrol r t => Sys2Proof.Machine.execRoleAuthEnrol r t s
  | .roleAuthRevoke r t => Sys2Proof.Machine.execRoleAuthRevoke r t s
  | .challengeExpiry r => Sys2Proof.Machine.execChallengeExpiry r s
  | .jobKeys r t => Sys2Proof.Machine.execJobKeys r t s
  | .jobKeysTimeout p => Sys2Proof.Machine.execJobKeysTimeout p s
  | .memKeyRotate r t => Sys2Proof.Machine.execMemKeyRotate r t s
  | .consentIssue r t => Sys2Proof.Machine.execConsentIssue r t s
  | .auditRead r t => Sys2Proof.Machine.execAuditRead r t s
  | .attest r t => Sys2Proof.Machine.execAttest r t s
  | .fwStage r t => Sys2Proof.Machine.execFwStage r t s
  | .fwActivate r t => Sys2Proof.Machine.execFwActivate r t s
  | .fwQuery r t => Sys2Proof.Machine.execFwQuery r t s
  | .diagOpen r t => Sys2Proof.Machine.execDiagOpen r t s
  | .diagClose r t => Sys2Proof.Machine.execDiagClose r t s
  | .diagExpiry => Sys2Proof.Machine.execDiagExpiry s
  | .selftestRun r t => Sys2Proof.Machine.execSelftestRun r t s
  | .hbmSpare r t => Sys2Proof.Machine.execHbmSpare r t s
  | .siteFence r t => Sys2Proof.Machine.execSiteFence r t s
  | .repairQuery r t => Sys2Proof.Machine.execRepairQuery r t s
  | .noteQuery r t => Sys2Proof.Machine.execNoteQuery r t s
  | .caretakerQuery r t => Sys2Proof.Machine.execCaretakerQuery r t s
  | .caretakerSet r t => Sys2Proof.Machine.execCaretakerSet r t s
  | .i3cPrivateWrite bytes => Sys2Proof.Machine.execI3cPrivateWrite bytes s
  | .i3cPrivateRead => Sys2Proof.Machine.execI3cPrivateRead s
  | .entdaa addr => Sys2Proof.Machine.execEntdaa addr s
  | .setdasa addr => Sys2Proof.Machine.execSetdasa addr s
  | .rstdaa => Sys2Proof.Machine.execRstdaa s
  | .getpid => Sys2Proof.Machine.execGetpid s
  | .getbcr => Sys2Proof.Machine.execGetbcr s
  | .getdcr => Sys2Proof.Machine.execGetdcr s
  | .getstatus => Sys2Proof.Machine.execGetstatus s
  | .enec => Sys2Proof.Machine.execEnec s
  | .disec => Sys2Proof.Machine.execDisec s
  | .inputGood second => Sys2Proof.Machine.execInputGood second s
  | .inputLoss => Sys2Proof.Machine.execInputLoss s
  | .overVoltage => Sys2Proof.Machine.execOverVoltage s
  | .strapPhaseEnd mv => Sys2Proof.Machine.execStrapPhaseEnd mv s
  | .bootRomCheck seedOk => Sys2Proof.Machine.execBootRomCheck seedOk s
  | .repairRecordCheck ok => Sys2Proof.Machine.execRepairRecordCheck ok s
  | .pwrEnRise => Sys2Proof.Machine.execPwrEnRise s
  | .pwrEnFall => Sys2Proof.Machine.execPwrEnFall s
  | .mainRegulatorsUp ok => Sys2Proof.Machine.execMainRegulatorsUp ok s
  | .hbmTrainingDone failed => Sys2Proof.Machine.execHbmTrainingDone failed s
  | .selfTestDone fails attn cache => Sys2Proof.Machine.execSelfTestDone fails attn cache s
  | .opticalCalibrationDone failed => Sys2Proof.Machine.execOpticalCalibrationDone failed s
  | .emergOff => Sys2Proof.Machine.execEmergOff s
  | .perstRelease => Sys2Proof.Machine.execPerstRelease s
  | .perstAssert => Sys2Proof.Machine.execPerstAssert s
  | .seatInChange level => Sys2Proof.Machine.execSeatInChange level s
  | .cartridgeLatchOpen cart => Sys2Proof.Machine.execCartridgeLatchOpen cart s
  | .cartridgeLatchClose cart => Sys2Proof.Machine.execCartridgeLatchClose cart s
  | .normPacket => Sys2Proof.Machine.execNormPacket s
  | .formControlProbe => Sys2Proof.Machine.execFormControlProbe s
  | .dataPositionReport => Sys2Proof.Machine.execDataPositionReport s
  | .lockPortReturn => Sys2Proof.Machine.execLockPortReturn s
  | .laneRetrainDone l ok => Sys2Proof.Machine.execLaneRetrainDone l ok s
  | .beatEdge width => Sys2Proof.Machine.execBeatEdge width s
  | .overVoltageClear => Sys2Proof.Machine.execOverVoltageClear s
  | .pseudoChannelUnresponsive h pc => Sys2Proof.Machine.execPseudoChannelUnresponsive h pc s
  | .kvAllocatorAnswer p n => Sys2Proof.Machine.execKvAllocatorAnswer p n s
  | .computeUnitOperationDone c unit => Sys2Proof.Machine.execComputeUnitOperationDone c unit s
  | .dlUp => Sys2Proof.Machine.execDlUp s
  | .vfEnable f => Sys2Proof.Machine.execVfEnable f s
  | .barChange f bar4 => Sys2Proof.Machine.execBarChange f bar4 s
  | .tdispRequest f req => Sys2Proof.Machine.execTdispRequest f req s
  | .ideKmRequest f sid => Sys2Proof.Machine.execIdeKmRequest f sid s

end Sys2Proof.Machine
end

