-- ==== Sys2Proof/WellFormed.lean ====
section
/-! DEFINITION. When a command names things that the module has: each operand that is a number of a unit lies in that unit's
range. -/

namespace Sys2Proof

/-- Whether a number names a core of the array (R60). -/
def isCore (n : Nat) : Bool := decide (n < 1536)

/-- Whether a number names a core site of the 32 rows of 50 (R11). -/
def isSite (n : Nat) : Bool := decide (n < 1600)

/-- Whether a number names a partition (R23). -/
def isPart (n : Nat) : Bool := decide (n < 8)

/-- Whether a number names a row of the array, and with it an edge router (R60, R206). -/
def isRow (n : Nat) : Bool := decide (n < 32)

/-- Whether a number names an engine of a core (R97). -/
def isEngine (n : Nat) : Bool := decide (n < 8)

/-- Whether a number names an output edge (R74). -/
def isEdge (n : Nat) : Bool := decide (n < 16)

/-- Whether a number names a commit group (R83). -/
def isGroup (n : Nat) : Bool := decide (n < 256)

/-- Whether a number names a stream (R190). -/
def isStream (n : Nat) : Bool := decide (n < 4096)

/-- Whether a number names a shared slice (R224). -/
def isSlice (n : Nat) : Bool := decide (n < 256)

/-- Whether a number names a memory address (R219). -/
def isLine (n : Nat) : Bool := decide (n < 2 ^ 44)

/-- Whether a number names a page (R219). -/
def isPage (n : Nat) : Bool := decide (n < 2 ^ 23)

/-- Whether a number names an HBM stack (R233). -/
def isStack (n : Nat) : Bool := decide (n < 32)

/-- Whether a number names a pseudo-channel of a stack (R233). -/
def isChannel (n : Nat) : Bool := decide (n < 32)

/-- Whether a number names a bank of a pseudo-channel (R221). -/
def isBank (n : Nat) : Bool := decide (n < 64)

/-- Whether a number names a row of a bank (R221). -/
def isDramRow (n : Nat) : Bool := decide (n < 24576)

/-- Whether a number names a line of a stack (R240). -/
def isStackLine (n : Nat) : Bool := decide (n < 805306368)

/-- Whether a number names a light port (R281). -/
def isPort (n : Nat) : Bool := decide (n < 64)

/-- Whether a number names a lane of a port (R282). -/
def isLane (n : Nat) : Bool := decide (n < 4)

/-- Whether a number names an optical cartridge (R444). -/
def isCart (n : Nat) : Bool := decide (n < 16)

/-- Whether a number names a device of a Form or the CrownWorks set, 14 bits (R278). -/
def isDevice (n : Nat) : Bool := decide (n < 2 ^ 14)

/-- Whether a number names a sensor (R421, Table 5 of chapter 15). -/
def isSensor (n : Nat) : Bool := decide (n < 336)

/-- Whether a number names a sensor group of engines (R420). -/
def isSensorGroup (n : Nat) : Bool := decide (n < 160)

/-- Whether a number names a point-of-load rail (R418). -/
def isRail (n : Nat) : Bool := decide (n < 32)

/-- Whether a number names a function: PF0 or VF1 to VF8 (R343). -/
def isFn (n : Nat) : Bool := decide (n < 9)

/-- Whether a number names a ring code (R361). -/
def isRing (n : Nat) : Bool := decide (n < 64)

/-- Whether a number names a tag of a command (R367). -/
def isTag (n : Nat) : Bool := decide (n < 65536)

/-- Whether a number names a ring index (R362). -/
def isIndex (n : Nat) : Bool := decide (n < 4096)

/-- Whether a number names an interrupt vector (R349). -/
def isVector (n : Nat) : Bool := decide (n < 16)

/-- Whether a number names a seven-bit I3C address (R384). -/
def isBusAddr (n : Nat) : Bool := decide (n < 128)

/-- Whether a number names an IDE stream (R409). -/
def isIde (n : Nat) : Bool := decide (n < 9)

/-- Whether a number names a virtual function (R343). -/
def isVf (n : Nat) : Bool := decide (1 ≤ n) && decide (n < 9)

/-- Whether a code names a compute unit: row unit 11, vector unit 12 or attention pipe 13 (R88, Table 8 of chapter 3). -/
def isUnit (n : Nat) : Bool := decide (11 ≤ n) && decide (n < 14)

/-- Whether a block that sleeps exists (R413). -/
def blockWf : Block → Bool
  | .clockTree p => isPart p
  | .slice k => isSlice k
  | .stack h => isStack h
  | .port l => isPort l
  | .pcie => true

/-- Whether an SRAM place exists (R423). -/
def sramWf : Sram → Bool
  | .site x _ => isSite x
  | .sliceLine k _ sub => isSlice k && decide (sub < 4)
  | .pinLine k _ => isSlice k

/-- Whether every unit that a command names exists. -/
def Instr.wf : Instr → Bool
  | .taskOpen c _ => isCore c
  | .taskClose c _ => isCore c
  | .loop c _ _ => isCore c
  | .setMb c _ => isCore c
  | .bellRing c _ _ => isCore c
  | .bellArm c _ _ => isCore c
  | .bellWait c _ _ => isCore c
  | .sectionEnd c _ => isCore c
  | .taskFire c _ => isCore c
  | .mma c _ => isCore c
  | .mmaAcc c _ => isCore c
  | .mmaWg c _ => isCore c
  | .mmaAccWg c _ => isCore c
  | .accLoad c _ => isCore c
  | .drain c _ => isCore c
  | .drainAdd c _ => isCore c
  | .engineOperationDone c e _ => isCore c && isEngine e
  | .rowSum c _ => isCore c
  | .rowMax c _ => isCore c
  | .rowSumsq c _ => isCore c
  | .rowFn c _ => isCore c
  | .softmax c _ => isCore c
  | .softmaxBwd c _ => isCore c
  | .norm c _ => isCore c
  | .normBwd c _ => isCore c
  | .vadd c _ => isCore c
  | .vsub c _ => isCore c
  | .vmul c _ => isCore c
  | .vmad c _ => isCore c
  | .vmax c _ => isCore c
  | .vmin c _ => isCore c
  | .vcvt c _ => isCore c
  | .vaffine c _ => isCore c
  | .vaddLs c _ => isCore c
  | .vrand c _ => isCore c
  | .vdrop c _ => isCore c
  | .vput c _ => isCore c
  | .optAdamw c _ => isCore c
  | .optSgdm c _ => isCore c
  | .optStep c _ => isCore c
  | .attnFwd c _ => isCore c
  | .attnRecomp c _ => isCore c
  | .attnDs c _ => isCore c
  | .rope c _ => isCore c
  | .attnFwdFused c _ => isCore c
  | .attnRecompFused c _ => isCore c
  | .attnDsFused c _ => isCore c
  | .ropeFused c _ => isCore c
  | .kvAppend c _ => isCore c
  | .kvAppendAdmit p _ => isPart p
  | .kvLoad c _ => isCore c
  | .kvAllocatorTimeout p _ => isPart p
  | .tokenArrive p _ => isPart p
  | .tokenOccurrence c e => isCore c && isEdge e
  | .creditOccurrence c e => isCore c && isEdge e
  | .creditArrive p _ => isPart p
  | .closureMessage p => isPart p
  | .commitVerdict c g => isCore c && isGroup g
  | .discardVerdict c g => isCore c && isGroup g
  | .sliceVerdict sl g => isSlice sl && isGroup g
  | .ringMessage p => isPart p
  | .armMessage p => isPart p
  | .countMessage c => isCore c
  | .endMessage p => isPart p
  | .closeMessage c => isCore c
  | .genMessage p c => isPart p && isCore c
  | .switchSlot p => isPart p
  | .windowBStart p => isPart p
  | .windowCStart p => isPart p
  | .sectionStart p => isPart p
  | .sectionStuck p => isPart p
  | .periodBoundary p => isPart p
  | .streamOccurrence p st _ => isPart p && isStream st
  | .blockDelivered p st => isPart p && isStream st
  | .clockStop c => isCore c
  | .coreWake c => isCore c
  | .coreGate c => isCore c
  | .corePowerUp c => isCore c
  | .rollCall c => isCore c
  | .rollCallTimeout c => isCore c
  | .cacheSlotOccurrence sl => isSlice sl
  | .fillReady sl a _ => isSlice sl && isLine a
  | .fillInstall sl => isSlice sl
  | .writeBack sl => isSlice sl
  | .lineCopyDone p pg => isPart p && isPage pg
  | .migrationInDone p pg _ => isPart p && isPage pg
  | .migrationOutDone p pg _ => isPart p && isPage pg
  | .farTransferTimeout p pg => isPart p && isPage pg
  | .prefetch p => isPart p
  | .stepBoundary p => isPart p
  | .sampleWrite p _ => isPart p
  | .intakeDmaFailure p _ => isPart p
  | .flitTime l => isPort l
  | .frameSeal l _ => isPort l
  | .timedFlitHandOn l _ => isPort l
  | .edgeRouterAddition g _ => isRow g
  | .bellFlit l _ => isPort l
  | .bellResend l => isPort l
  | .packetResend l => isPort l
  | .laneFailure l lane => isPort l && isLane lane
  | .ring => true
  | .count => true
  | .flag => true
  | .rung => true
  | .rungAck => true
  | .clip => true
  | .heartbeat => true
  | .missing => true
  | .takeover => true
  | .heartbeatLost => true
  | .beatBoundary => true
  | .lockPortDown => true
  | .holdoverExpiry => true
  | .farRead => true
  | .farData => true
  | .farWrite => true
  | .farAck => true
  | .satchel => true
  | .satchelAck => true
  | .satchelCommit p => isPart p
  | .satchelCopyFailure p => isPart p
  | .farSatchelCommit p => isPart p
  | .absenceNote => true
  | .noteWindowBoundary => true
  | .memberAbsent dev => isDevice dev
  | .hold => true
  | .ready l => isPort l
  | .spareFillSourceFailure p => isPart p
  | .coreSiteFence x _ => isSite x
  | .routerProbe x _ => isSite x
  | .routerParityFailure x => isSite x
  | .rowRepair h pc bank row => isStack h && isChannel pc && isBank bank && isDramRow row
  | .pseudoChannelSparing h pc => isStack h && isChannel pc
  | .spareCopyComplete h => isStack h
  | .hbmScrub h line _ => isStack h && isStackLine line
  | .sramScrub target _ => sramWf target
  | .scrubWindowEnd _ => true
  | .attentionPipeCheck x _ _ => isSite x
  | .siteRetest x _ => isSite x
  | .hbmInterfaceRetraining h pc _ => isStack h && isChannel pc
  | .opticalRecalibration l lane _ => isPort l && isLane lane
  | .laserAgeing cart _ => isCart cart
  | .thermalSensorCalibration sensor _ => isSensor sensor
  | .flashWearLevelling => true
  | .telemetryWindowEnd _ _ => true
  | .engineCurrentLimit grp _ => isSensorGroup grp
  | .phaseShed rail => isRail rail
  | .blockWake b => blockWf b
  | .portPark l => isPort l
  | .reKeyRetry p ok => isPart p && ok.all isPage
  | .fwWatchdogRestart => true
  | .fwRestart => true
  | .sqTailDoorbell f r idx _ => isFn f && isRing r && isIndex idx
  | .cqHeadDoorbell f r idx => isFn f && isRing r && isIndex idx
  | .eventHeadDoorbell f r idx => isFn f && isRing r && isIndex idx
  | .ringEnable f _ => isFn f
  | .ringDisable f _ => isFn f
  | .pendingTimeout r t => isRing r && isTag t
  | .completionPost r _ => isRing r
  | .holdoffExpiry f v => isFn f && isVector v
  | .intCauseClear f _ _ => isFn f
  | .intMaskWrite f _ => isFn f
  | .intakeAppend f k _ => isFn f && isPart k
  | .counterReadClear f _ _ _ => isFn f
  | .lowHalfRead f _ _ => isFn f
  | .registerWrite f _ _ _ _ => isFn f
  | .apertureRead f _ _ => isFn f
  | .apertureWrite f _ _ => isFn f
  | .functionLevelReset f => isFn f
  | .hotReset => true
  | .dlDown => true
  | .numvfsClear => true
  | .ideFailure f => isFn f
  | .getVersion f => isFn f
  | .getCapabilities f => isFn f
  | .negotiateAlgorithms f => isFn f
  | .getDigests f => isFn f
  | .getCertificate f => isFn f
  | .challenge f _ => isFn f
  | .getMeasurements f _ => isFn f
  | .keyExchange f => isFn f
  | .finish f => isFn f
  | .spdmHeartbeat f => isFn f
  | .keyUpdate f => isFn f
  | .endSession f => isFn f
  | .deviceInfo r t => isRing r && isTag t
  | .behaviourPin r t => isRing r && isTag t
  | .partitionSet r t => isRing r && isTag t
  | .partitionQuery r t => isRing r && isTag t
  | .jobLoad r t _ _ => isRing r && isTag t
  | .jobUnload r t => isRing r && isTag t
  | .jobInfo r t => isRing r && isTag t
  | .jobRanks r t => isRing r && isTag t
  | .jobRun r t _ => isRing r && isTag t
  | .jobStop r t => isRing r && isTag t
  | .jobQuery r t => isRing r && isTag t
  | .frozenSet r t => isRing r && isTag t
  | .intakeConfig r t => isRing r && isTag t
  | .intakeShards r t => isRing r && isTag t
  | .intakeStart r t => isRing r && isTag t
  | .intakeStop r t => isRing r && isTag t
  | .intakeQuery r t => isRing r && isTag t
  | .memQuotaSet r t => isRing r && isTag t
  | .memQuotaQuery r t => isRing r && isTag t
  | .memAlloc r t => isRing r && isTag t
  | .memFree r t => isRing r && isTag t
  | .memFlush r t => isRing r && isTag t
  | .farAttach r t => isRing r && isTag t
  | .farDetach r t => isRing r && isTag t
  | .windowSetVersion r t => isRing r && isTag t
  | .memPageQuery r t => isRing r && isTag t
  | .kvPoolCreate r t => isRing r && isTag t
  | .kvSeqOpen r t => isRing r && isTag t
  | .kvSeqPark r t => isRing r && isTag t
  | .kvSeqResume r t => isRing r && isTag t
  | .kvSeqClose r t => isRing r && isTag t
  | .kvPoolQuery r t => isRing r && isTag t
  | .kvPoolDestroy r t => isRing r && isTag t
  | .satchelConfig r t => isRing r && isTag t
  | .satchelQuery r t => isRing r && isTag t
  | .satchelTake r t => isRing r && isTag t
  | .satchelRestore r t _ => isRing r && isTag t
  | .spareFill r t _ _ _ => isRing r && isTag t
  | .reshardRun r t _ _ => isRing r && isTag t
  | .formSetup r t _ _ => isRing r && isTag t
  | .formQuery r t => isRing r && isTag t
  | .linkMeasure r t _ => isRing r && isTag t
  | .linkStatus r t => isRing r && isTag t
  | .roleSet r t => isRing r && isTag t
  | .formLeave r t => isRing r && isTag t
  | .normRead r t => isRing r && isTag t
  | .telRead r t => isRing r && isTag t
  | .telStream r t => isRing r && isTag t
  | .overflowRead r t => isRing r && isTag t
  | .roleAuthChallenge r t => isRing r && isTag t
  | .roleAuthResponse r t => isRing r && isTag t
  | .roleAuthEnrol r t => isRing r && isTag t
  | .roleAuthRevoke r t => isRing r && isTag t
  | .challengeExpiry r => isRing r
  | .jobKeys r t => isRing r && isTag t
  | .jobKeysTimeout p => isPart p
  | .memKeyRotate r t => isRing r && isTag t
  | .consentIssue r t => isRing r && isTag t
  | .auditRead r t => isRing r && isTag t
  | .attest r t => isRing r && isTag t
  | .fwStage r t => isRing r && isTag t
  | .fwActivate r t => isRing r && isTag t
  | .fwQuery r t => isRing r && isTag t
  | .diagOpen r t => isRing r && isTag t
  | .diagClose r t => isRing r && isTag t
  | .diagExpiry => true
  | .selftestRun r t => isRing r && isTag t
  | .hbmSpare r t => isRing r && isTag t
  | .siteFence r t => isRing r && isTag t
  | .repairQuery r t => isRing r && isTag t
  | .noteQuery r t => isRing r && isTag t
  | .caretakerQuery r t => isRing r && isTag t
  | .caretakerSet r t => isRing r && isTag t
  | .i3cPrivateWrite _ => true
  | .i3cPrivateRead => true
  | .entdaa addr => isBusAddr addr
  | .setdasa addr => isBusAddr addr
  | .rstdaa => true
  | .getpid => true
  | .getbcr => true
  | .getdcr => true
  | .getstatus => true
  | .enec => true
  | .disec => true
  | .inputGood _ => true
  | .inputLoss => true
  | .overVoltage => true
  | .strapPhaseEnd _ => true
  | .bootRomCheck _ => true
  | .repairRecordCheck _ => true
  | .pwrEnRise => true
  | .pwrEnFall => true
  | .mainRegulatorsUp _ => true
  | .hbmTrainingDone failed => failed.all isStack
  | .selfTestDone fails attn _ => fails.all isSite && attn.all isSite
  | .opticalCalibrationDone failed => failed.all isPort
  | .emergOff => true
  | .perstRelease => true
  | .perstAssert => true
  | .seatInChange _ => true
  | .cartridgeLatchOpen cart => isCart cart
  | .cartridgeLatchClose cart => isCart cart
  | .normPacket => true
  | .formControlProbe => true
  | .dataPositionReport => true
  | .lockPortReturn => true
  | .laneRetrainDone l _ => isPort l
  | .beatEdge _ => true
  | .overVoltageClear => true
  | .pseudoChannelUnresponsive h pc => isStack h && isChannel pc
  | .kvAllocatorAnswer p _ => isPart p
  | .computeUnitOperationDone c unit => isCore c && isUnit unit
  | .dlUp => true
  | .vfEnable f => isVf f
  | .barChange f _ => isFn f
  | .tdispRequest f _ => isVf f
  | .ideKmRequest f sid => isFn f && isIde sid

end Sys2Proof
end

