-- ==== Sys2Proof/Safety.lean ====
section
/-! DEFINITION. What a safe run of the module is: no step of it stops, and every command that waits names units that exist. -/

namespace Sys2Proof.Machine

open Sys2Proof

/-- Every command that waits is well formed. -/
def State.queueWf (s : State) : Bool := s.pending.all Instr.wf

/-- A run of `n` steps from `s` comes to no fault and no refusal. -/
def State.runsFor (s : State) (n : Nat) : Prop := ∃ t, Host.Core.run Sys2Proof.core n s = .next t

/-- A state from which no run stops. -/
def State.safe (s : State) : Prop := ∀ n, s.runsFor n

/-- What the phases of power and start-up allow in every state (R412, R439, R442, R447, R448): SEAT_OUT is high exactly in the run phase with start-up past step 4;
the main regulators are on exactly in the run phase from start-up step 6 on; the module is compute-ready exactly in the run phase at step 9; boot ROM's
recovery service runs in the fault phase alone; and fewer than 48 slots have passed since the last tick. -/
structure PowerLegal (s : State) : Prop where
  seat : s.power.seatOut = (s.power.phase == .run && s.power.pastStep4)
  main : s.power.mainOn = (s.power.phase == .run && decide (6 ≤ s.power.stage))
  compute : s.power.computeReady = (s.power.phase == .run && s.power.stage == 9)
  stage : s.power.stage ≤ 9
  recovery : s.sec.recovery = true → s.power.phase = .fault
  sub : s.sub < 48

/-! ### The memories -/

/-- A core's scratchpad and its stored types are in canonical form. -/
def Core.storeWf (core : Core) : Bool := twf 0 core.spad && twf none core.stored

/-- Every memory of the module is in canonical form: scratchpads, pin windows of the slices, and HBM (log entry 6). -/
def State.storeWf (s : State) : Bool :=
  s.cores.all (fun e => e.2.storeWf) && s.slices.all (fun e => twf 0 e.2.pin) && s.hbm.all (fun e => twf {} e.2.lines)

/-! ### Operations of a task -/

/-- The unfinished operations of a unit of a core: 0 to 7 the engines, 8 the row unit, 9 the vector unit, 10 the attention pipe. -/
def Core.unfinOf (core : Core) (u : Nat) : List Unfin :=
  if u < 8 then (tget {} core.engines u).unfin else if u = 8 then core.rowUnit else if u = 9 then core.vecUnit else core.attn

/-- The core of an effect with its writes carried out for the task of `i`, and with a work area left at a free value (R78, R170). -/
def Issue.stored (i : Issue) (e : Eff) (fresh : Nat) : Core :=
  let core := e.core.putAll i.draft i.view e.stype e.writes
  match e.work with
  | none => core
  | some (a, n) => core.putNat none a (Config.freeValue (8 * n) fresh).toNat n

/-- The operation `i` has taken the effect `e`: its writes lie in scratchpad, or in draft lines of its task's group, with the type that they are
stored in; its task goes on to the next operation with the flags raised; its units hold it; and nothing outside its core and its partition has
changed. -/
structure Landed (s t : State) (i : Issue) (e : Eff) : Prop where
  spad : (t.core i.c).spad = (i.stored e s.fresh).spad
  drafts : (t.core i.c).drafts = (i.stored e s.fresh).drafts
  types : (t.core i.c).stored = (i.stored e s.fresh).stored
  task : ∃ mapped reserved, ((t.core i.c).seq i.q).running =
    some { i.task with pc := i.task.pc + 1, flags := addFlags i.task.flags e.flags, mapped := mapped, reserved := reserved }
  units : ∀ x ∈ e.units, ∃ u ∈ (t.core i.c).unfinOf x.1, u.stream = i.q ∧ u.task = i.task.tag
  acc : ∀ k, (tget {} (t.core i.c).engines k).acc = (tget {} e.core.engines k).acc ∧ (tget {} (t.core i.c).engines k).live = (tget {} e.core.engines k).live
  taps : (t.core i.c).taps = e.core.taps ∧ (t.core i.c).tapDrafts = e.core.tapDrafts
  tokens : (t.core i.c).queues = e.core.queues ∧ (t.core i.c).credits = e.core.credits ∧ (t.core i.c).outToks = e.core.outToks
  cores : ∀ k, k ≠ i.c → t.core k = s.core k
  parts : ∀ k, k ≠ i.p → t.part k = s.part k
  rest : t = { s with cores := t.cores, parts := t.parts, fresh := t.fresh }

/-- The sequencer of stream `q` of core `c` comes next to the operation `i` of opcode `op`, which tries `f`: it has the effect `e`, and nothing keeps it
from issuing now (R70, R106): its sequencer has issued none in the cycle, no unfinished operation holds it (R129), its lines may be written (R79, R80), and
no stream of higher priority takes a unit that it names. -/
structure Ready (s : State) (c : Nat) (q : Stream) (op : Nat) (f : Issue → Try) (i : Issue) (e : Eff) : Prop where
  next : issueOf s c q op = some i
  effect : f i = .eff e
  issues : s.issues i (.eff e) = true

/-- A core whose scratchpad, draft lines and stored types are those of another. -/
def SameStore (a b : Core) : Prop := a.spad = b.spad ∧ a.drafts = b.drafts ∧ a.stored = b.stored

/-! ### Commands of a Nerca ring -/

/-- A command as the meaning of its row finds it: its ring, its partition, its arguments and its payload (R368, R372). -/
def State.job (s : State) (r : Nat) (c : Cmd) : Job :=
  { r := r, c := c, p := (s.markStarted r c).cmdPart r c, args := readList c.argBytes ((cmdSpec c.opcode).getD {}).args, pay := c.bytes }

/-- The command `c`, of tag `t` and opcode `op`, is the next of ring `r` and may start, and it passes every check that R372 makes of all commands:
its partition, its reserved fields, its role, its payload read, the job state and what start-up has reached (R365, R374, R381, R448). -/
def State.starts (s : State) (r t op : Nat) (c : Cmd) : Bool :=
  let s0 := s.markStarted r c
  let sp := (cmdSpec op).getD {}
  decide (s.startable r = some c) && c.tag == t && c.opcode == op && !undefinedCmd c && (s0.checkStart r c).isNone
    && (c.payLen == 0 || match c.payload with | .ok _ => true | _ => false)
    && s0.inClass (s0.cmdPart r c) sp.cls && (!sp.compute || s0.power.computeReady)

/-- Whether the command takes a result of its answer's length (R370, R385). -/
def fits (r : Nat) (c : Cmd) (a : Answer) : Bool := decide (a.result.length ≤ if r = i3cRing then 4096 else c.resLen)

/-- The state in which a command's final completion has been queued after its effect `s1`, with its audit entry (R370, R394). -/
def State.ended (s : State) (r : Nat) (c : Cmd) (s1 : State) (a : Answer) (digest : Option (BitVec 512) := none) : State :=
  ((s1.auditCmd r { c with started := true, role := s.roleOf r } a.status digest (s.ring r).cred).close r
    { c with started := true, role := s.roleOf r } a).settleRings

/-- The command `cmd` completes as the command `c` of ring `r`, with the effect `s1`, the answer `a` and, in its audit entry, `digest`. -/
def Completes (cmd : Instr) (s : State) (r : Nat) (c : Cmd) (s1 : State) (a : Answer) (digest : Option (BitVec 512) := none) : Prop :=
  fits r c a = true → exec cmd s = .next (s.ended r c s1 a digest)

/-! ### The audit log (R395) -/

/-- Whether a log, newest first, is a chain: sequence numbers fall by one, and each entry holds the SHA-512 of the entry before it. -/
def auditChain : List Audit → Prop
  | a :: b :: l => a.seq = b.seq + 1 ∧ a.prev = Config.sha512 (auditBytes b) ∧ auditChain (b :: l)
  | _ => True

/-- The log is whole: a chain whose newest entry is the one before AUDIT_SEQ, and whose base is what its oldest entry holds of the one before. -/
structure State.AuditWhole (s : State) : Prop where
  chain : auditChain s.sec.audit
  newest : ∀ e l, s.sec.audit = e :: l → e.seq + 1 = s.sec.auditSeq
  base : ∀ e, s.sec.audit.getLast? = some e → s.sec.auditBase = e.prev
  length : s.sec.audit.length ≤ 65536

end Sys2Proof.Machine
end

