-- ==== Sys2Proof/Certificates/Slice0/Obligations.lean ====
section
/-! DEFINITION. The statements for the provers. -/

open Sys2Proof Sys2Proof.Machine

/-- A step of the module runs the command at the front of its queue, with the rest of the queue left for later (log entry 1). -/
def Obligations.StepRunsFrontCommand : Prop :=
  ∀ (c : Instr) (rest : List Instr) (s : State), step { s with pending := c :: rest } = exec c { s with pending := rest }

/-- The step on an empty queue, in place of idling (DESIGN CHOICE, log entry 1). -/
def Obligations.EmptyQueueLetsASlotPass : Prop :=
  ∀ s : State, s.pending = [] →
    step s = .next s.passSlot ∧
    (s.power.input = false → s.passSlot = s) ∧
    (s.power.input = true →
      let t := s.passSlot
      t.slot = s.slot + 1 ∧
      (s.sub = 47 → t.tick = s.tick + 1 ∧ t.sub = 0) ∧
      (s.sub ≠ 47 → t.tick = s.tick ∧ t.sub = s.sub + 1) ∧
      t.power.stage = (if s.power.phase = .strap ∧ s.power.stage = 1 ∧ 250000 ≤ t.tick then 2 else s.power.stage) ∧
      t.power.phase = s.power.phase ∧ t.power.seatOut = s.power.seatOut ∧ t.power.mainOn = s.power.mainOn ∧
      t.power.fwReady = s.power.fwReady ∧ t.power.computeReady = s.power.computeReady ∧ t.power.straps = s.power.straps ∧
      t.sec.svnMin = s.sec.svnMin ∧ t.sec.revoked = s.sec.revoked ∧ t.sec.creds = s.sec.creds ∧ t.count = s.count ∧ t.pending = [])

/-- No command comes to a fault or a refusal. -/
def Obligations.EveryCommandAnswersNext : Prop :=
  (∀ (c : Instr) (s : State), ∃ t, exec c s = .next t) ∧ ∀ s : State, ∃ t, step s = .next t

/-- No command adds to, takes from or reorders the queue of commands that wait. -/
def Obligations.CommandsLeaveTheQueue : Prop :=
  ∀ (c : Instr) (s t : State), exec c s = .next t → t.pending = s.pending

/-- What power entry and start-up allow holds in every state that a step reaches from a state in which it holds. -/
def Obligations.PowerStaysLegal : Prop :=
  ∀ s t : State, PowerLegal s → step s = .next t → PowerLegal t

/-- Reset meets the invariants that the steps keep. -/
def Obligations.ResetIsLegal : Prop :=
  PowerLegal State.reset ∧ State.reset.pending = [] ∧ State.reset.storeWf = true ∧ State.reset.AuditWhole

/-- What module reset leaves; the partition count and the contents of the memories are the model's (log entry 6). -/
def Obligations.ResetValues : Prop :=
  let s := State.reset
  s.slot = 0 ∧ s.tick = 0 ∧ s.power.stage = 0 ∧ s.power.phase = .off ∧ s.power.seatOut = false ∧ s.power.fwReady = false ∧
  s.power.computeReady = false ∧ s.power.restarts = 0 ∧ s.power.heartbeat = 0 ∧ s.power.strapValid = false ∧ s.power.mainOn = false ∧
  s.power.linkUp = false ∧ (∀ p, (s.part p).job = .none) ∧
  (∀ r, (s.ring r).enable = false ∧ (s.ring r).sqTail = 0 ∧ (s.ring r).sqHead = 0 ∧ (s.ring r).cqTail = 0 ∧ (s.ring r).inflight = []) ∧
  (∀ f, (s.fn f).cause = 0 ∧ (s.fn f).mask = 0xFFFF) ∧
  (∀ c q, ((s.core c).seq q).window = [] ∧ ((s.core c).seq q).running = none) ∧ (∀ c, (s.core c).seated = false) ∧
  (∀ l, (s.port l).up = false ∧ (s.port l).counts = []) ∧
  s.sec.svnMin = 0 ∧ s.sec.boots = 0 ∧ s.sec.tokenSeq = 0 ∧ s.sec.auditSeq = 0 ∧ s.sec.creds = [] ∧ s.care.windows = 0 ∧ s.pending = []

/-- The security version floor and the revocation bitmap only rise, at the end of start-up step 8. -/
def Obligations.SecurityFloorsOnlyRise : Prop :=
  (∀ s t : State, step s = .next t → s.sec.svnMin ≤ t.sec.svnMin ∧ ∀ k, k < 4 → s.sec.revoked.getLsbD k = true → t.sec.revoked.getLsbD k = true) ∧
  ∀ (c : Instr) (s t : State), exec c s = .next t → (t.sec.svnMin ≠ s.sec.svnMin ∨ t.sec.revoked ≠ s.sec.revoked) →
    ∃ failed, c = .opticalCalibrationDone failed

/-- Values that only one kind of command may change. -/
def Obligations.ProtectedValuesHaveOneWriter : Prop :=
  ∀ (c : Instr) (s t : State), exec c s = .next t →
    (t.sec.creds ≠ s.sec.creds → ∃ r u, c = .roleAuthEnrol r u ∨ c = .roleAuthRevoke r u) ∧
    (t.sec.level ≠ s.sec.level → ∃ r u, c = .behaviourPin r u) ∧
    (t.count ≠ s.count → ∃ r u, c = .partitionSet r u) ∧
    (t.sec.boots ≠ s.sec.boots → ∃ ok, c = .repairRecordCheck ok) ∧
    (t.power.mainOn ≠ s.power.mainOn ∨ t.power.computeReady ≠ s.power.computeReady ∨ t.power.seatOut ≠ s.power.seatOut →
      (∃ a b, c = .telemetryWindowEnd a b) ∨ (∃ a, c = .phaseShed a) ∨ (∃ a, c = .inputGood a) ∨ c = .inputLoss ∨ c = .overVoltage ∨
      c = .overVoltageClear ∨ (∃ a, c = .strapPhaseEnd a) ∨ (∃ a, c = .bootRomCheck a) ∨ (∃ a, c = .repairRecordCheck a) ∨ c = .pwrEnRise ∨
      c = .pwrEnFall ∨ (∃ a, c = .mainRegulatorsUp a) ∨ (∃ a, c = .hbmTrainingDone a) ∨ (∃ a b d, c = .selfTestDone a b d) ∨
      (∃ a, c = .opticalCalibrationDone a) ∨ c = .emergOff ∨ (∃ r u, c = .fwActivate r u))

/-- Fabric time and the tick move between commands; few commands set them. -/
def Obligations.TimeHasFewWriters : Prop :=
  ∀ (c : Instr) (s t : State), exec c s = .next t →
    (t.slot ≠ s.slot → ∃ w, c = .beatEdge w) ∧
    (t.tick ≠ s.tick → (∃ a, c = .inputGood a) ∨ c = .overVoltageClear ∨ ∃ a, c = .strapPhaseEnd a)

/-- An entry of the audit log extends its chain. -/
def Obligations.AuditEntryExtendsChain : Prop :=
  ∀ (s : State) (op role ring part status cred : Nat) (detail : BitVec 256),
    let t := s.audit op role ring part status cred detail
    (∃ e, t.sec.audit = e :: s.sec.audit.take 65535 ∧ e.seq = s.sec.auditSeq ∧ e.boots = s.sec.boots ∧ e.time = s.tick ∧ e.opcode = op ∧
      e.role = role ∧ e.ring = ring ∧ e.part = part ∧ e.status = status ∧ e.cred = cred ∧ e.detail = detail ∧
      e.prev = (match s.sec.audit with | o :: _ => Config.sha512 (auditBytes o) | [] => s.sec.auditBase)) ∧
    t.sec.auditSeq = s.sec.auditSeq + 1 ∧
    t = { s with sec := { s.sec with audit := t.sec.audit, auditSeq := t.sec.auditSeq, auditBase := t.sec.auditBase } } ∧
    (s.AuditWhole → t.AuditWhole)

/-- The tile operations of an engine complete (R101, R106). -/
def Obligations.MatrixOperationsLand : Prop :=
  ∀ (s : State) (c : Nat) (q : Stream) (i : Issue) (e : Eff),
    let slots (core : Core) : Prop := i.core.needSlots (opAcc i.n / 8) (opEngines i.n) = some core
    let quiet : Prop := e.writes = [] ∧ ∃ core, slots core ∧ e.core.spad = core.spad ∧ e.core.drafts = core.drafts
    let drained (eff : Core → Eff) : Prop := ∃ core, slots core ∧ e = eff core ∧
      (i.allSkipped core = true → e.writes = [] ∧ e.flags = [] ∧ e.units = []) ∧ e.core = i.freeRegion core
    let room (port : Bool) : Prop := i.core.enginesAccept (opEngines i.n) port = true ∧ ∃ core, slots core
    (Ready s c q 0x10 (cubeTry false false) i e → ∃ t, exec (.mma c q) s = .next t ∧ Landed s t i e ∧ quiet) ∧
    (Ready s c q 0x11 (cubeTry true false) i e → ∃ t, exec (.mmaAcc c q) s = .next t ∧ Landed s t i e ∧ quiet) ∧
    (Ready s c q 0x12 (cubeTry false true) i e → ∃ t, exec (.mmaWg c q) s = .next t ∧ Landed s t i e ∧ quiet) ∧
    (Ready s c q 0x13 (cubeTry true true) i e → ∃ t, exec (.mmaAccWg c q) s = .next t ∧ Landed s t i e ∧ quiet) ∧
    (Ready s c q 0x14 accLoadTry i e → ∃ t, exec (.accLoad c q) s = .next t ∧ Landed s t i e ∧ quiet) ∧
    (Ready s c q 0x18 drainTry i e → ∃ t, exec (.drain c q) s = .next t ∧ Landed s t i e ∧ drained (drainEff i)) ∧
    (Ready s c q 0x19 drainAddTry i e → ∃ t, exec (.drainAdd c q) s = .next t ∧ Landed s t i e ∧ drained (drainAddEff i)) ∧
    (room false → ∀ acc wg, ∃ x, cubeTry acc wg i = .eff x) ∧
    (room true → (∃ x, accLoadTry i = .eff x) ∧ (∃ x, drainTry i = .eff x) ∧ ∃ x, drainAddTry i = .eff x)

/-- What a cube-class operation leaves in one block of its region (R44 to R46). -/
def Obligations.MatrixProductIsExactSum : Prop :=
  ∀ (s : State) (c : Nat) (q : Stream) (i : Issue) (core : Core) (e0 : Nat) (acc : Bool),
    issueOf s c q (if acc then 0x11 else 0x10) = some i → opEngines i.n = [e0] → opM i.n = 8 → opN i.n = 8 →
    i.core.enginesAccept [e0] false = true → i.core.needSlots (opAcc i.n / 8) [e0] = some core →
    let blk : Nat × Nat × Nat × Nat := (e0, opAcc i.n * 8, 0, 0)
    let pair := widenPair i.ownPair (core.typeAt i.view i.tileA) (core.typeAt i.view i.tileB)
    let split := pair.1 == 8
    let sum (r k : Nat) : Nat :=
      (accSteps (pairFrac pair.1 pair.2)
        (chunks8 (opK i.n) ((((i.matA split).getD r []).zip ((i.matB split).getD k [])).map fun p => productTerms split p.1 p.2))
        (if acc && (core.block e0 (opAcc i.n * 8)).isSome then core.accAt e0 (blockWord (opAcc i.n * 8) r k) else 0)).1
    ∃ e, cubeTry acc false i = .eff e ∧ i.region = [blk] ∧
      (∀ r k, r < 8 → k < 8 → e.core.accAt e0 (blockWord (opAcc i.n * 8) r k) = sum r k % 2 ^ 32) ∧
      ∃ b, e.core.block e0 (opAcc i.n * 8) = some b ∧ b.aType = opAType i.n ∧ b.bType = opBType i.n ∧ b.k = some (opK i.n) ∧ b.skipped = false

/-- The operations of the row unit complete (R129 to R137). -/
def Obligations.RowOperationsLand : Prop :=
  ∀ (s : State) (c : Nat) (q : Stream) (i : Issue) (e : Eff),
    let x := i.rows i.addrX (opXType i.n)
    let y := i.rows i.addrY (opYType i.n)
    let perRow (f : List FV → FV) : List Wr :=
      let enc := (x.map f).map (FV.store i.zType)
      (enc.zip (upFrom 0 enc.length)).map fun e => (linearBit i.addrZ i.zType e.2, typeBits i.zType, e.1.1)
    let matrix (z : List (List FV)) : List Wr := i.zWrites (z.map fun row => row.map fun a => (FV.store i.zType a).1)
    let writes (ws : List Wr) : Prop := e.writes = ws ∧ e.core = i.core
    let normed := x.map (normRow (bit (i.record 32) 112) (recFp (i.record 32) 0) (i.vec32 (bits (i.record 32) 32 20) (opLen i.n))
      (i.vec32 (bits (i.record 32) 52 20) (opLen i.n)))
    (Ready s c q 0x40 (rowReduce · rowSum) i e → ∃ t, exec (.rowSum c q) s = .next t ∧ Landed s t i e ∧ writes (perRow rowSum)) ∧
    (Ready s c q 0x41 (rowReduce · rowMax) i e → ∃ t, exec (.rowMax c q) s = .next t ∧ Landed s t i e ∧ writes (perRow rowMax)) ∧
    (Ready s c q 0x42 (rowReduce · rowSumSquares) i e → ∃ t, exec (.rowSumsq c q) s = .next t ∧ Landed s t i e ∧
      writes (perRow fun l => rowSum (l.map fun a => a.mul a))) ∧
    (Ready s c q 0x43 rowFn i e → ∃ t, exec (.rowFn c q) s = .next t ∧ Landed s t i e ∧
      writes (matrix (x.map fun r => r.map (FV.fn (bits (i.record 1) 0 4))))) ∧
    (Ready s c q 0x44 softmax i e → ∃ t, exec (.softmax c q) s = .next t ∧ Landed s t i e ∧
      writes (matrix (x.map (softmaxRow (recFp (i.record 4) 0))))) ∧
    (Ready s c q 0x45 softmaxBwd i e → ∃ t, exec (.softmaxBwd c q) s = .next t ∧ Landed s t i e ∧
      writes (matrix ((x.zip y).map fun p => softmaxBwdRow (recFp (i.record 4) 0) p.1 p.2))) ∧
    (Ready s c q 0x46 Sys2Proof.Machine.norm i e → ∃ t, exec (.norm c q) s = .next t ∧ Landed s t i e ∧
      writes (matrix (normed.map Prod.fst) ++
        writes32 (bits (i.record 32) 72 20) (normed.flatMap fun o => [(FV.store 5 o.2.1).1, (FV.store 5 o.2.2).1]))) ∧
    (Ready s c q 0x47 normBwd i e → ∃ t, exec (.normBwd c q) s = .next t ∧ Landed s t i e ∧
      ∃ z side, writes (matrix z ++ writes32 (bits (i.record 32) 92 20) side)) ∧
    (i.core.rowUnit.length < 2 → (∀ f, ∃ u, rowReduce i f = .eff u) ∧ (∃ u, rowFn i = .eff u) ∧ (∃ u, softmax i = .eff u) ∧
      (∃ u, softmaxBwd i = .eff u) ∧ (∃ u, Sys2Proof.Machine.norm i = .eff u) ∧ ∃ u, normBwd i = .eff u)

/-- The element-wise operations of the vector unit complete (R138). -/
def Obligations.VectorOperationsLand : Prop :=
  ∀ (s : State) (c : Nat) (q : Stream) (i : Issue) (e : Eff),
    let x := i.rows i.addrX (opXType i.n)
    let y := i.rows i.addrY (opYType i.n)
    let writes (z : List (List Val)) : Prop := e.writes = i.zWrites (z.map fun r => r.map fun v => (vecStore i.zType v).1) ∧ SameStore e.core i.core
    (Ready s c q 0x60 (vecBinary · Val.add) i e → ∃ t, exec (.vadd c q) s = .next t ∧ Landed s t i e ∧ writes (zipRows Val.add x y)) ∧
    (Ready s c q 0x61 (vecBinary · Val.sub) i e → ∃ t, exec (.vsub c q) s = .next t ∧ Landed s t i e ∧ writes (zipRows Val.sub x y)) ∧
    (Ready s c q 0x62 (vecBinary · Val.mul) i e → ∃ t, exec (.vmul c q) s = .next t ∧ Landed s t i e ∧ writes (zipRows Val.mul x y)) ∧
    (Ready s c q 0x63 vecMad i e → ∃ t, exec (.vmad c q) s = .next t ∧ Landed s t i e ∧
      writes (((zipRows Val.mul x y).zip (i.rows i.addrZ (opZType i.n))).map fun r => (r.1.zip r.2).map fun e => e.1.add e.2.v)) ∧
    (Ready s c q 0x64 (vecBinary · Val.max2) i e → ∃ t, exec (.vmax c q) s = .next t ∧ Landed s t i e ∧ writes (zipRows Val.max2 x y)) ∧
    (Ready s c q 0x65 (vecBinary · Val.min2) i e → ∃ t, exec (.vmin c q) s = .next t ∧ Landed s t i e ∧ writes (zipRows Val.min2 x y)) ∧
    (Ready s c q 0x67 vecAffine i e → ∃ t, exec (.vaffine c q) s = .next t ∧ Landed s t i e ∧
      writes (x.map fun row => row.map fun a => a.v.fma (decodeFloat 5 (bits (i.record 8) 0 32)) (decodeFloat 5 (bits (i.record 8) 32 32)))) ∧
    (i.core.vecUnit.length < 2 → opTap i.n = 0 →
      (∀ f, ∃ u, vecBinary i f = .eff u) ∧ (∃ u, vecMad i = .eff u) ∧ ∃ u, vecAffine i = .eff u)

/-- Conversion, long sums, random draws, dropout and payloads (R138, R139, R145, R453). -/
def Obligations.VectorSpecialsLand : Prop :=
  ∀ (s : State) (c : Nat) (q : Stream) (i : Issue) (e : Eff),
    let writes (ws : List Wr) : Prop := e.writes = ws ∧ SameStore e.core i.core
    let z (enc : List (List Nat)) : List Wr := i.zWrites enc
    let h := i.scaleHead (ctxScale i.ctx)
    let arr := scaleArrays (ctxScale i.ctx) (if scaledType (opXType i.n) then scaleSize (bit h 122) (opRows i.n) (opLen i.n) else 0) 0
    let x := i.rows i.addrX (opXType i.n)
    (Ready s c q 0x66 vecCvt i e → ∃ t, exec (.vcvt c q) s = .next t ∧ Landed s t i e ∧
      writes (if i.frozenU then z ((i.fill (if i.zType == 4 then unsignedOf 8 (headZero h 2) else 0)).map fun r => r.map Prod.fst)
        else if scaledType i.zType then
          z ((cvtScaled i h arr.2.2 (cvtInput i h arr.1)).1.map fun r => r.map Prod.fst) ++ (cvtScaled i h arr.2.2 (cvtInput i h arr.1)).2.1
        else z ((cvtPlain i (cvtInput i h arr.1)).map fun r => r.map Prod.fst))) ∧
    (Ready s c q 0x68 vecAddLs i e → ∃ t, exec (.vaddLs c q) s = .next t ∧ Landed s t i e ∧
      writes (if i.frozenU then z ((i.fill 0).map fun r => r.map Prod.fst)
        else z (((x.zip (i.rows i.addrZ 5)).zip (upFrom 0 x.length)).map fun r => ((r.1.1.zip r.1.2).zip (upFrom 0 r.1.1.length)).map fun e =>
          (stochastic 5 (roundDraw i.part.roundKey.toNat i.part.position (opLayer i.n) (bits (i.record 1) 0 1) 0
            (ctxAddend i.ctx i.task.passes) (i.elemIndex r.2 e.2)) (e.1.2.v.add e.1.1.v)).bits))) ∧
    (Ready s c q 0x6A vecRand i e → ∃ t, exec (.vrand c q) s = .next t ∧ Landed s t i e ∧
      writes (z ((upFrom 0 (opRows i.n)).map fun r => (upFrom 0 (opLen i.n)).map fun k => (vecStore i.zType (.fin false (i.draw r k / 256) (-24))).1))) ∧
    (Ready s c q 0x6B vecDrop i e → ∃ t, exec (.vdrop c q) s = .next t ∧ Landed s t i e ∧
      writes (z ((x.zip (upFrom 0 x.length)).map fun p => (p.1.zip (upFrom 0 p.1.length)).map fun e =>
        (vecStore i.zType (if i.draw p.2 e.2 ≥ bits (i.record 8) 0 32 then e.1.v.mul (decodeFloat 5 (bits (i.record 8) 32 32))
          else dropZero e.1.v)).1))) ∧
    (Ready s c q 0x6C vecPut i e → ∃ t, exec (.vput c q) s = .next t ∧ Landed s t i e ∧
      writes (match i.payload (opB i.n % 16) with
        | none => []
        | some p => [(i.addrZ * 128 + 8 * (opA i.n % 16), 8 * opLen i.n, p.toNat % 2 ^ (8 * opLen i.n))])) ∧
    (i.core.vecUnit.length < 2 → opTap i.n = 0 → (∃ u, vecCvt i = .eff u) ∧ (∃ u, vecAddLs i = .eff u) ∧ (∃ u, vecRand i = .eff u) ∧
      (∃ u, vecDrop i = .eff u) ∧ ∃ u, vecPut i = .eff u)

/-- The optimiser kernels complete (R146 to R150, R261). -/
def Obligations.OptimiserOperationsLand : Prop :=
  ∀ (s : State) (c : Nat) (q : Stream) (i : Issue) (e : Eff),
    let frozen := i.part.frozenLayer (opLayer i.n)
    let kernel (adam : Bool) : Prop := SameStore e.core i.core ∧
      e.writes = (if frozen then [] else optWrites i adam (optOuts i adam)) ∧
      (frozen = false → e.writes.length = (if adam then 4 else 3) * (opRows i.n * opLen i.n)) ∧
      ∀ w ∈ e.writes, w.2.1 = 32 ∨ w.2.1 = 48 ∨ w.2.1 = 16
    (Ready s c q 0x70 (optTry · true) i e → ∃ t, exec (.optAdamw c q) s = .next t ∧ Landed s t i e ∧ kernel true) ∧
    (Ready s c q 0x71 (optTry · false) i e → ∃ t, exec (.optSgdm c q) s = .next t ∧ Landed s t i e ∧ kernel false) ∧
    (Ready s c q 0x72 optStep i e → ∃ t, exec (.optStep c q) s = .next t ∧ Landed s t i e ∧ SameStore e.core i.core ∧
      let r := i.record 64
      let p1 := (recFp r 320).mul (recFp r 32)
      let p2 := (recFp r 352).mul (recFp r 64)
      let one := FV.of (.fin false 1 0)
      let at' := ctxScale i.ctx * 128 + 256
      e.writes = [(at', 32, (FV.fn 3 (one.sub p1)).enc32.1), (at' + 32, 32, (FV.fn 3 (one.sub p2)).enc32.1), (at' + 64, 32, p1.enc32.1),
        (at' + 96, 32, p2.enc32.1)])

/-- The attention commands complete in either form (R156 to R172). -/
def Obligations.AttentionOperationsLand : Prop :=
  ∀ (s : State) (c : Nat) (q : Stream) (i : Issue) (e : Eff),
    let fused := useFused s false i
    let counted (t : State) : State := if fused then t.modSite (s.siteOf c) fun x => { x with fusedRuns := satInc32 x.fusedRuns } else t
    let writes (ws : List (Wr × Bool × Bool)) : Prop := e.writes = ws.map Prod.fst
    (Ready s c q 0x20 (attnFwd · fused) i e → ∃ t, exec (.attnFwd c q) s = .next (counted t) ∧ Landed s t i e ∧ writes (i.fwdWrites i.repeats)) ∧
    (Ready s c q 0x21 (attnRecomp · fused) i e → ∃ t, exec (.attnRecomp c q) s = .next (counted t) ∧ Landed s t i e ∧
      writes (i.recompWrites i.repeats)) ∧
    (Ready s c q 0x22 (attnDs · fused) i e → ∃ t, exec (.attnDs c q) s = .next (counted t) ∧ Landed s t i e ∧ writes i.dsWrites) ∧
    (Ready s c q 0x23 (rope · fused) i e → ∃ t, exec (.rope c q) s = .next (counted t) ∧ Landed s t i e ∧ writes (i.ropeWrites i.repeats)) ∧
    (Ready s c q 0x28 (attnFwd · true) i e → ∃ t, exec (.attnFwdFused c q) s = .next t ∧ Landed s t i e ∧ writes (i.fwdWrites i.repeats)) ∧
    (Ready s c q 0x29 (attnRecomp · true) i e → ∃ t, exec (.attnRecompFused c q) s = .next t ∧ Landed s t i e ∧ writes (i.recompWrites i.repeats)) ∧
    (Ready s c q 0x2A (attnDs · true) i e → ∃ t, exec (.attnDsFused c q) s = .next t ∧ Landed s t i e ∧ writes i.dsWrites) ∧
    (Ready s c q 0x2B (rope · true) i e → ∃ t, exec (.ropeFused c q) s = .next t ∧ Landed s t i e ∧ writes (i.ropeWrites i.repeats)) ∧
    (i.core.attn.length < 2 → (∃ u, attnFwd i false = .eff u) ∧ (∃ u, attnRecomp i false = .eff u) ∧ (∃ u, attnDs i false = .eff u) ∧
      ∃ u, rope i false = .eff u) ∧
    (i.core.enginesAccept (upFrom 0 8) false = true → i.core.rowUnit.length < 2 → (i.core.lendSlots (upFrom 0 8)).isSome = true →
      (∃ u, attnFwd i true = .eff u) ∧ (∃ u, attnRecomp i true = .eff u) ∧ (∃ u, attnDs i true = .eff u) ∧ ∃ u, rope i true = .eff u)

/-- The key-value commands of a core issue (R175, R178, R180). -/
def Obligations.KvOperationsIssue : Prop :=
  ∀ (s : State) (c : Nat) (q : Stream) (i : Issue) (e : Eff),
    let asked (t : State) (load : Bool) : State := match i.part.pool with
      | none => t
      | some k => t.modPart i.p fun part => { part with pool := some { k with reqs := k.reqs ++ [i.kvReq k load], nextReq := k.nextReq + 1 } }
    (Ready s c q 0x24 (kvTry false) i e → ∃ t, exec (.kvAppend c q) s = .next (asked t false) ∧ Landed s t i e) ∧
    (Ready s c q 0x25 (kvTry true) i e → ∃ t, exec (.kvLoad c q) s = .next ((asked t true).kvPump i.p) ∧ Landed s t i e) ∧
    (i.core.attn.length < 2 → ∀ load, ∃ u, kvTry load i = .eff u)

/-- The frame of the operations of a core. -/
def Obligations.OperationsTouchTheirCoreAlone : Prop :=
  ∀ (s t : State) (c : Nat) (q : Stream) (cmd : Instr),
    (cmd ∈ [Instr.mma c q, .mmaAcc c q, .mmaWg c q, .mmaAccWg c q, .accLoad c q, .drain c q, .drainAdd c q, .rowSum c q, .rowMax c q, .rowSumsq c q,
        .rowFn c q, .softmax c q, .softmaxBwd c q, .norm c q, .normBwd c q, .vadd c q, .vsub c q, .vmul c q, .vmad c q, .vmax c q, .vmin c q, .vcvt c q,
        .vaffine c q, .vaddLs c q, .vrand c q, .vdrop c q, .vput c q, .optAdamw c q, .optSgdm c q, .optStep c q] →
      exec cmd s = .next t →
      t = { s with cores := t.cores, parts := t.parts } ∧ (∀ k, k ≠ c → t.core k = s.core k) ∧ ∀ k, k ≠ s.partOfCore c → t.part k = s.part k) ∧
    (cmd ∈ [Instr.attnFwd c q, .attnRecomp c q, .attnDs c q, .rope c q, .attnFwdFused c q, .attnRecompFused c q, .attnDsFused c q, .ropeFused c q] →
      exec cmd s = .next t →
      t = { s with cores := t.cores, parts := t.parts, sites := t.sites, fresh := t.fresh } ∧ (∀ k, k ≠ c → t.core k = s.core k) ∧
        (∀ k, k ≠ s.partOfCore c → t.part k = s.part k) ∧ ∀ x, x ≠ s.siteOf c → t.site x = s.site x)

/-- TASK_OPEN posts, TASK_FIRE starts the oldest ready task, TASK_CLOSE sends what the task has. -/
def Obligations.TasksRunFromOpenToClose : Prop :=
  (
  ∀ (s : State) (c : Nat) (q : Stream),
    let sq := (s.core c).seq q
    let part := s.part (s.partOfCore c)
    (∀ n, s.readAt c q 0xF0 = some n → sq.waitsBell = false → part.holdsOpen q (bit n 10) = false → sq.room = true →
      sq.hasTag (mkTag (streamPass q) part.epoch (ctlLayer n) sq.mb) = false →
      exec (.taskOpen c q) s = .next (s.setSeq c q
        { sq with window := sq.window ++ [openTask part q sq n], pc := sq.closeOf sq.pc + 1, posted := sq.posted + 1 })) ∧
    (s.seqRuns c = true → sq.running = none → sq.window ≠ [] →
      let s1 := sq.window.foldl (fun s t => if t.reposted then s else s.dropMismatches c t (part.taskView t)) s
      ∀ t rest, takeFirst ((s1.core c).mayFire part q) sq.window = some (t, rest) →
        ∃ u, exec (.taskFire c q) s = .next u ∧ u = s1.fireTask c q t rest ∧
          (∃ k, ((u.core c).seq q).running = some k ∧ k.tag = t.tag ∧ k.st = .running ∧ k.flags = [] ∧ k.passes = t.passes0 ∧
            k.pc = (if t.reposted then t.repeatIdx else t.openIdx + 1)) ∧
          (u.part (s1.partOfCore c)).watchdog = 0)) ∧
  (
  ∀ (s : State) (c : Nat) (q : Stream) (t : Task) (n : Nat), s.bodyAt c q 0xF1 = some (t, n) → (s.core c).unfinished q t = false →
    let p := s.partOfCore c
    let free (s : State) : State := s.modSeq c q fun sq =>
      { sq with running := none, window := sq.window ++ sq.reposts.take 1, reposts := sq.reposts.drop 1 }
    let both := maskList 16 (bits n 24 16 ||| bits n 40 16)
    let drafts := maskList 16 (bits n 24 16)
    (t.draft = false → t.flags = [] → s.edgesReady c both [] = true →
      exec (.taskClose c q) s =
        .next (((free (s.sendTokens c both t.tag none q t.order)).modPart p fun part => part.noteU q t.tag).settleCore c)) ∧
    (t.draft = true → s.edgesReady c drafts [] = true → 0 < s.upRoom c →
      let s1 := free (s.sendTokens c drafts t.tag (some t.group) q t.order)
      exec (.taskClose c q) s = .next (((s1.modCore c fun core =>
          { core with openDrafts := core.openDrafts ++ [{ seq := q, task := t, commitEdges := bits n 40 16 }] }).sendUp c
            (.closure t.group c (tagLayer t.tag) (tagMb t.tag) t.flags (tget 0 (s1.core c).atts t.group))).settleCore c)) ∧
    (t.draft = false → t.flags ≠ [] → s.edgesReady c both [] = true →
      exec (.taskClose c q) s =
        .next ((free (s.sendTokens c both t.tag none q t.order)).fairOverflow p c (tagLayer t.tag) (tagMb t.tag) t.flags)))

/-- The loops, the micro-batch register and the end of a sequencer's section (R67, R91). -/
def Obligations.LoopsAndRegistersOfASequencer : Prop :=
  ∀ (s : State) (c : Nat) (q : Stream) (n : Nat),
    let sq := (s.core c).seq q
    let lv := bits n 38 2
    let again (passes : SMap Nat) : Bool := decide (tget 0 passes lv < bits n 21 16)
    let next (passes : SMap Nat) : SMap Nat := tset 0 passes lv (if again passes then tget 0 passes lv + 1 else 0)
    (s.readAt c q 0xF2 = some n → exec (.loop c q false) s = .next (s.setSeq c q { sq with
      pc := if again sq.passes then bits n 10 11 else sq.pc + 1, passes := next sq.passes
      mb := if again sq.passes && bit n 37 then (sq.mb + 1) % 4096 else sq.mb })) ∧
    (∀ t, s.bodyAt c q 0xF2 = some (t, n) → exec (.loop c q true) s = .next (s.setSeq c q { sq with
      running := some { t with pc := if again t.passes then bits n 10 11 else t.pc + 1, passes := next t.passes } })) ∧
    (s.readAt c q 0xF3 = some n → exec (.setMb c q) s = .next (s.setSeq c q { sq with mb := bits n 10 12, pc := sq.pc + 1 })) ∧
    (s.readAt c q 0xF7 = some n → exec (.sectionEnd c q) s = .next ((s.setSeq c q { sq with ended := true }).tryEnd c))

/-- The bell operations of a sequencer (R67, R204, R452). -/
def Obligations.BellOperationsOfASequencer : Prop :=
  ∀ (s : State) (c : Nat) (q : Stream) (n : Nat),
    let sq := (s.core c).seq q
    let ring (before : Nat) (body : Bool) : List HeldRing :=
      sq.held ++ [{ bell := ctlBell n, amount := BitVec.ofNat 32 (ctlAmount n), before := before, body := body }]
    let arms := armBell (ctlBell n) (BitVec.ofNat 32 (ctlAmount n)) sq.arms
    let sent (s : State) : State := s.sendUp c (.arm (ctlBell n) c q)
    (s.readAt c q 0xF4 = some n →
      exec (.bellRing c q false) s = .next ((s.setSeq c q { sq with pc := sq.pc + 1, held := ring sq.posted false }).releaseRings c q)) ∧
    (s.readAt c q 0xF5 = some n → 0 < s.upRoom c → exec (.bellArm c q false) s = .next (sent (s.setSeq c q { sq with pc := sq.pc + 1, arms := arms }))) ∧
    (s.readAt c q 0xF6 = some n → sq.waitOver (ctlBell n) = true →
      exec (.bellWait c q false) s = .next (s.setSeq c q { sq with pc := sq.pc + 1, waiting := none })) ∧
    ∀ t,
      (s.bodyAt c q 0xF4 = some (t, n) → exec (.bellRing c q true) s =
        .next ((s.setSeq c q { sq with running := some { t with pc := t.pc + 1 }, held := ring (t.order + 1) true }).releaseRings c q)) ∧
      (s.bodyAt c q 0xF5 = some (t, n) → 0 < s.upRoom c →
        exec (.bellArm c q true) s = .next (sent (s.setSeq c q { sq with running := some { t with pc := t.pc + 1 }, arms := arms }))) ∧
      (s.bodyAt c q 0xF6 = some (t, n) → sq.waitOver (ctlBell n) = true →
        exec (.bellWait c q true) s = .next (s.setSeq c q { sq with running := some { t with pc := t.pc + 1 }, waitingBody := none }))

/-- The end of an operation in its unit (R109, R129). -/
def Obligations.UnitOperationsEnd : Prop :=
  ∀ (s : State) (c : Nat),
    let core := s.core c
    let requests (idle : Bool) (order : Nat) : List (Nat × List Nat) := if idle then core.bankReqs.filter fun r => r.1 != order else core.bankReqs
    (∀ (e : Nat) (port : Bool) (x : Unfin), core.oldest e port = some x → core.opWaits e x = false →
      ∃ reqs, exec (.engineOperationDone c e port) s = .next (s.setCore c { core with
        engines := tset {} core.engines e { core.engine e with unfin := dropClass port (core.engine e).unfin }, bankReqs := reqs }) ∧
        ∀ r ∈ reqs, r ∈ core.bankReqs) ∧
    (∀ (e : Nat) (port : Bool), (∀ x, core.oldest e port = some x → core.opWaits e x = true) →
      exec (.engineOperationDone c e port) s = .next (s.setCore c core)) ∧
    exec (.computeUnitOperationDone c 11) s = .next (s.setCore c { core with
      rowUnit := core.rowUnit.drop 1, bankReqs := requests (decide (core.rowUnit.length ≤ 1)) 19 }) ∧
    exec (.computeUnitOperationDone c 12) s = .next (s.setCore c { core with
      vecUnit := core.vecUnit.drop 1, bankReqs := requests (decide (core.vecUnit.length ≤ 1)) 20 }) ∧
    (s.kvWaits c = false → exec (.computeUnitOperationDone c 13) s = .next (s.setCore c { core with
      attn := core.attn.drop 1, bankReqs := requests (decide (core.attn.length ≤ 1)) 18 })) ∧
    ∀ (port : Bool) (u : Unfin) (l : List Unfin), u.port = port → dropClass port (u :: l) = l

/-- Tokens and credits on their routes (R72, R76, R77, R196). -/
def Obligations.TokensArriveAndLeave : Prop :=
  ∀ (s : State) (p n c e : Nat),
    (∀ f, (s.part p).toks[n]? = some f → f.due ≤ s.slot →
      let s1 := s.modPart p fun part => { part with toks := dropAt part.toks n }
      let core := s1.core f.dest
      let gone := core.power == .gated || core.power == .fenced || f.tok.gen != core.gen
      let epoch := (s1.part p).epoch
      (gone = true → exec (.tokenArrive p n) s = .next (s1.setCore f.dest { core with dropGen := satInc32 core.dropGen })) ∧
      (gone = false → tagEpoch f.tok.tag = epoch → exec (.tokenArrive p n) s = .next (s1.setCore f.dest
        (({ core with queues := tset [] core.queues f.tok.queue (tget [] core.queues f.tok.queue ++ [{ tok := f.tok, src := f.src }]) } : Core).rouse s1.slot))) ∧
      (gone = false → tagEpoch f.tok.tag ≠ epoch → (tagEpoch f.tok.tag + 1) % 64 = epoch → exec (.tokenArrive p n) s =
        .next (s1.modCloak (f.dest / 48) fun k => if k.room then { k with late := k.late ++ [f.tok], counts := bump k.counts 4 }
          else { k with counts := bump (bump k.counts 3) 4 })) ∧
      (gone = false → tagEpoch f.tok.tag ≠ epoch → (tagEpoch f.tok.tag + 1) % 64 ≠ epoch → exec (.tokenArrive p n) s =
        .next (s1.modCloak (f.dest / 48) fun k => { k with counts := bump k.counts 4 }))) ∧
    (let core := s.core c
     let part := s.part (s.partOfCore c)
     let r := cfgRoute core.cfg e
     let d := cfgDest core.cfg e
     edgeLocal (tget 0 core.cfg.edges e).toNat = false →
      (∀ o rest, tget 0 core.lastTok e ≠ s.slot + 1 → part.routeOccurs r (routePhase r) (s.slot + 3 + routeHops r) s.slot = true →
        takeFirst (fun o : OutTok => o.edge == e) core.outToks = some (o, rest) → part.tokenReady (s.slot + 3 + routeHops r) o = true →
        exec (.tokenOccurrence c e) s = .next
          ((((s.setCore c { core with lastTok := tset 0 core.lastTok e (s.slot + 1) }).setCore c
            { core with lastTok := tset 0 core.lastTok e (s.slot + 1), outToks := rest }).tokenLeaves c e (s.slot + 3 + routeHops r) o).settleCore c)) ∧
      (tget 0 core.lastCredit e ≠ s.slot + 1 → part.routeOccurs r (routeCreditPhase r) (s.slot + 2 + routeCreditHops r) s.slot = true → d < 4096 →
        let s1 := s.setCore c { core with lastCredit := tset 0 core.lastCredit e (s.slot + 1) }
        let owed := tget 0 (s1.core d).owed (c * 16 + e)
        0 < owed → exec (.creditOccurrence c e) s = .next
          ((s1.modCore d fun k => { k with owed := tset 0 k.owed (c * 16 + e) (owed - min 15 owed) }).modPart (s.partOfCore c) fun part =>
            { part with credits := part.credits ++ [{ core := c, edge := e, count := min 15 owed, due := s.slot + 2 + routeCreditHops r + 1 }] }))) ∧
    ∀ f, (s.part p).credits[n]? = some f → f.due ≤ s.slot →
      ∃ u : State, exec (.creditArrive p n) s = .next (u.settleCore f.core) ∧ (u.part p).credits = dropAt (s.part p).credits n ∧
        (u.core f.core).credits = tset 0 (s.core f.core).credits f.edge (tget 0 (s.core f.core).credits f.edge + f.count) ∧
        u = { s with parts := u.parts, cores := u.cores }

/-- Closures and verdicts (R84 to R87, R230). -/
def Obligations.VerdictsReachCoresAndSlices : Prop :=
  ∀ (s : State) (p c g sl : Nat),
    (∀ core layer mb causes att rest, (s.part p).up = .closure g core layer mb causes att :: rest →
      exec (.closureMessage p) s = .next ((s.modPart p fun part => { part with up := rest }).closure p g
        { core := core, layer := layer, mb := mb, causes := causes } att)) ∧
    (∀ clip rest, takeVerdict (s.core c).inbox = some ((g, true, clip), rest) → s.slicesFirst (s.partOfCore c) g = true →
      ((s.core c).power == .clockStop && (s.core c).hasDrafts g) = false → exec (.commitVerdict c g) s = .next (s.commitAt c g rest)) ∧
    (∀ clip rest, takeVerdict (s.core c).inbox = some ((g, false, clip), rest) → s.slicesFirst (s.partOfCore c) g = true →
      ((s.core c).power == .clockStop && (s.core c).hasDrafts g) = false → exec (.discardVerdict c g) s = .next (s.discardAt c g clip rest)) ∧
    (∀ commit rest, (s.slice sl).applied ++ (s.slice sl).inbox = (g, commit) :: rest → exec (.sliceVerdict sl g) s = .next (s.sliceVerdict sl g))

/-- The copy of draft lines at a commit (R85). -/
def Obligations.CommitCopiesDrafts : Prop :=
  ∀ (core : Core) (g : Nat), ((core.drafts.filter fun d => d.group == g).map DraftLine.line).Nodup →
    (∀ d ∈ core.drafts, d.group = g → twf none d.bytes = true ∧ ∀ b ∈ d.bytes, b.1 < 64) →
    let after := core.copyDrafts g
    (∀ d ∈ core.drafts, d.group = g → ∀ k v, tget none d.bytes k = some v → tget 0 after.spad (d.line * 64 + k) = v) ∧
    (∀ a, (∀ d ∈ core.drafts, d.group = g → d.line = a / 64 → tget none d.bytes (a % 64) = none) → tget 0 after.spad a = tget 0 core.spad a) ∧
    after.drafts = core.drafts.filter fun d => d.group != g

/-- The messages of the bell tree and the control network (R96, R203 to R208). -/
def Obligations.BellTreeMessages : Prop :=
  ∀ (s : State) (p c : Nat),
    (∀ b amount k rest, (s.part p).up = .ring b amount k :: rest →
      exec (.ringMessage p) s = .next ((s.modPart p fun part => { part with up := rest }).ringRoot p b amount)) ∧
    (∀ b k q rest, (s.part p).up = .arm b k q :: rest → ∃ u, exec (.armMessage p) s = .next u ∧ (u.part p).up = rest ∧ b ∈ (u.part p).armed ∧
      (u.core k).inbox = (s.core k).inbox ++ [.count b (tget 0 (s.part p).bells b) (some q)] ∧ u = { s with parts := u.parts, cores := u.cores }) ∧
    (∀ b n q rest, takeFirst DownMsg.isCount (s.core c).inbox = some (.count b n (some q), rest) →
      exec (.countMessage c) s =
        .next (s.setCore c (({ s.core c with inbox := rest } : Core).setSeq q (((s.core c).seq q).takeCount b n true)))) ∧
    (∀ b n rest, takeFirst DownMsg.isCount (s.core c).inbox = some (.count b n none, rest) →
      ∃ u, exec (.countMessage c) s = .next u ∧ (u.core c).inbox = rest ∧ (∀ q, (u.core c).seq q = ((s.core c).seq q).takeCount b n false) ∧
        u = { s with cores := u.cores }) ∧
    (∀ k rest, (s.part p).up = .fin k :: rest →
      let s1 := s.modPart p fun part => { part with up := rest, ended := addOnce part.ended k }
      let all := (s1.part p).sect == .open && (s1.seatedOf p).all fun c => decide (c ∈ (s1.part p).ended)
      exec (.endMessage p) s = .next (if all then s1.closeSection p else s1)) ∧
    (∀ m rest, takeFirst DownMsg.isClose (s.core c).inbox = some (m, rest) →
      exec (.closeMessage c) s = .next (s.setCore c { s.core c with inbox := rest })) ∧
    (∀ d g rest, s.partOfCore c = p →
      takeFirst DownMsg.isGen (s.core c).inbox = some (.gen d g, rest) →
      let core := s.core c
      let es := (core.cfg.edges.map Prod.fst).filter fun e => !edgeLocal (tget 0 core.cfg.edges e).toNat && cfgDest core.cfg e == d
      exec (.genMessage p c) s = .next ((s.setCore c { core with inbox := rest, gens := tset 0 core.gens d g
                                                                 credits := es.foldl (fun m e => tset 0 m e (edgeDepth (tget 0 core.cfg.edges e).toNat)) core.credits }).settleCore c))

/-- The change of sections and the section watchdog (R92, R198, R199, R206). -/
def Obligations.SectionsSwitchInOrder : Prop :=
  ∀ (s : State) (p : Nat),
    let part := s.part p
    (part.sect = .closing → part.switchAt ≤ s.slot → exec (.switchSlot p) s = .next ((s.switch p).loadLinks p)) ∧
    (part.sect = .windowA → part.switchAt + 256 ≤ s.slot → s.cfgsGood p = true →
      exec (.windowBStart p) s = .next ((s.loadCores p).modPart p fun part => { part with sect := .windowB })) ∧
    (part.sect = .windowB → part.switchAt + 256 + part.sec.load ≤ s.slot → ∃ u, exec (.windowCStart p) s = .next u ∧ (u.part p).sect = .windowC ∧
      let s1 := (s.rowsOf p).foldl (fun s r => s.reinjectRow p r) s
      u = ((s1.seatedOf p).foldl (fun s c => s.setCredits c) s1).modPart p fun part => { part with sect := .windowC }) ∧
    (part.sect = .windowC → part.startAt ≤ s.slot → exec (.sectionStart p) s =
      .next (if (s.startSection p).seatedOf p = [] then (s.startSection p).closeSection p else s.startSection p)) ∧
    (part.sect = .open → 2 ^ 20 ≤ part.watchdog → (s.coresOf p).any (fun c => (s.core c).holdsWork) = true →
      exec (.sectionStuck p) s = .next (s.endStep p 0x50)) ∧
    (part.timetableRuns s.slot = true → part.entryAt + periodLen part.period ≤ s.slot → exec (.periodBoundary p) s = .next (s.setPart p part.nextPeriod))

/-- Occurrences and delivered blocks of a stream (R190 to R193). -/
def Obligations.StreamsMoveUnits : Prop :=
  ∀ (s : State) (p st : Nat),
    let part := s.part p
    let x := part.stream st
    let ss := tget {} part.streams st
    (∀ l rest err, stKind x ≠ 2 → ss.last ≠ s.slot + 1 → part.streamOccurs x s.slot = true →
      (part.sec.streams.find? fun e => e.1 == st).isSome = true → ss.pending = l :: rest → l.at' < s.slot →
      let s1 := s.modPart p fun part => { part with streams := tset {} part.streams st { ss with last := s.slot + 1 } }
      let r := if stKind x = 0 then s1.unitFromSlice p st l ss.unit err else if stKind x = 1 then s1.unitToSlice p st l ss.unit
        else s1.unitVector p st l ss.unit
      (∀ u, r = .moved u → exec (.streamOccurrence p st err) s =
        .next ((((u.kvWhy p l 0).unitMoved p st l rest).launchRoom l.core).kvPump p)) ∧
      (∀ u k, r = .held u k → exec (.streamOccurrence p st err) s = .next ((u.kvWhy p l (k + 1)).routerWait l.core u.slot k)) ∧
      (∀ u, r = .ended u → exec (.streamOccurrence p st err) s = .next u)) ∧
    (∀ l due rest, ss.moving = (l, due) :: rest → due < s.slot → l.kv = none →
      (part.flits.any fun f => f.stream == st && f.launch.block == l.block) = false →
      (stBellEn x && decide (stBell x < 1024) && s.timedOwed l.core l.seq) = false → (stBellEn x = true → 0 < s.upRoom l.core) →
      exec (.blockDelivered p st) s = .next ((s.modPart p fun part => { part with
        streams := tset {} part.streams st { ss with moving := rest }
        up := if stBellEn x then part.up ++ [.ring (stBell x) 1 l.core] else part.up }).settleCore l.core))

/-- The power states of a core (R93 to R96). -/
def Obligations.CorePowerStates : Prop :=
  ∀ (s : State) (c : Nat),
    let core := s.core c
    (core.power = .running → 64 ≤ core.idle → s.quiet c = true →
      exec (.clockStop c) s = .next (s.setCore c { core with power := .clockStop, wake := none })) ∧
    (∀ t, core.wake = some t → core.power = .clockStop → t + 48 ≤ s.slot →
      exec (.coreWake c) s = .next ((s.setCore c { core with power := .running, wake := none, idle := 0 }).settleCore c)) ∧
    (core.power = .running ∨ core.power = .clockStop → s.mayGate c = true →
      exec (.coreGate c) s = .next ((s.zeroProducers c).setCore c (((s.zeroProducers c).core c).unpowered .gated))) ∧
    (core.power = .gated → s.power.mainOn = true → exec (.corePowerUp c) s = .next (s.setCore c { core with
      power := .running, gen := (core.gen + 1) % 256, valid := false, rollCall := if core.seated then some s.slot else none })) ∧
    (core.power = .running → core.seated = true → core.valid = false → (s.part (s.partOfCore c)).loads = true → (s.cfgRead (s.partOfCore c) c).isSome = true →
      exec (.rollCall c) s = .next (s.rollCallDone c)) ∧
    (∀ t, core.rollCall = some t → core.valid = false → t + 76800 ≤ s.slot → exec (.rollCallTimeout c) s = .next (s.fenceSite (s.siteOf c)))

/-- The requests of a key-value pool (R178, R179, R182). -/
def Obligations.KvRequestsAreServed : Prop :=
  ∀ (s : State) (p n : Nat) (k : KvPool) (r : KvReq), (s.part p).pool = some k → k.reqs[n]? = some r →
    exec (.kvAppendAdmit p n) s = .next ((s.kvAdmit p r).kvPump p) ∧
    (r.noFrame = true → r.since + 250000 ≤ s.tick → exec (.kvAllocatorTimeout p n) s = .next (s.kvNoPage p k r)) ∧
    (r.noFrame = true → s.power.fwReady = true →
      let grows := k.grow && decide ((s.part p).useOf 2 < (s.part p).quotaOf 2)
      (∀ t k', grows = true → s.addPoolPage p k = some (t, k') →
        exec (.kvAllocatorAnswer p n) s = .next (((t.setPool p k').kvAdmit p r).kvPump p)) ∧
      (grows = false ∨ s.addPoolPage p k = none → ∀ v, k.reclaim = some v →
        exec (.kvAllocatorAnswer p n) s = .next (((s.setPool p (k.evict v)).kvAdmit p r).kvPump p)) ∧
      (grows = false ∨ s.addPoolPage p k = none → k.reclaim = none → exec (.kvAllocatorAnswer p n) s = .next ((s.kvNoPage p k r).kvPump p)))

/-- The cache of a slice and its fills (R222 to R231). -/
def Obligations.SliceCacheMovesLines : Prop :=
  ∀ (s : State) (sl a p pg : Nat),
    let k := s.slice sl
    (∀ g, s.cacheSlot sl = some g → exec (.cacheSlotOccurrence sl) s = .next (s.cacheOccurs sl g)) ∧
    (∀ f ev, (k.fills.find? fun f => f.addr == a && f.holds && f.data.isNone) = some f → f.due ≤ s.slot →
      ((k.wbSent ++ k.wbQueue).any fun l => l.addr == a) = false → exec (.fillReady sl a ev) s = .next (s.fillReady sl a ev)) ∧
    (let s1 := s.settleSlice sl
     let k1 := s1.slice sl
     ∀ f w k', (k1.walks.find? fun w => w.arriving && decide (w.due ≤ s1.slot)) = none →
      (k1.fills.find? fun f => f.arriving && decide (f.due ≤ s1.slot)) = some f →
      k1.install (s1.cacheBays sl) f.addr s1.slot (f.data.getD []) = .got w k' →
      exec (.fillInstall sl) s = .next (s1.setSlice sl { k' with touched := true })) ∧
    (∀ l rest, k.wbSent = l :: rest → exec (.writeBack sl) s = .next (s.writeBack sl l rest)) ∧
    (∀ b, ((s.part p).page pg).boundary = some b → ((s.part p).page pg).copyAll = false →
      exec (.lineCopyDone p pg) s =
        .next ((s.putLines (s.stackOfPage p pg) ((s.part p).page pg).frame (s.pageLines p pg)).setPage p pg { (s.part p).page pg with copyAll := true }))

/-- Far-tier transfers and their packets. -/
def Obligations.FarTierTransfersMovePages : Prop :=
  (
  ∀ (s : State) (p pg : Nat),
    let part := s.part p
    let e := part.page pg
    (part.inTransfer pg true = true →
      (∀ ls, (part.backendOf pg).kind = 0 →
        exec (.migrationInDone p pg (some ls)) s = .next ((s.putLines (s.stackOfPage p pg) e.frame ls).pageIn p pg)) ∧
      (e.tries < 2 → exec (.migrationInDone p pg none) s = .next ((s.setPage p pg { e with tries := e.tries + 1, arrived := [] }).askIn p pg)) ∧
      (2 ≤ e.tries → exec (.migrationInDone p pg none) s = .next (s.failIn p pg 0x22)) ∧
      (e.started + (part.backendOf pg).timeoutMs * 25000 ≤ s.tick → exec (.farTransferTimeout p pg) s = .next (s.failIn p pg 0x70))) ∧
    (part.sending pg = true →
      ((part.backendOf pg).kind = 0 ∨ e.arrived.length = 512 → exec (.migrationOutDone p pg true) s = .next (s.pageOut p pg)) ∧
      (e.tries < 2 → exec (.migrationOutDone p pg false) s = .next ((s.setPage p pg { e with tries := e.tries + 1, arrived := [] }).sendOut p pg)) ∧
      (2 ≤ e.tries → exec (.migrationOutDone p pg false) s = .next (s.failOut p pg 0x22)) ∧
      (part.inTransfer pg true = false → part.inTransfer pg false = true → e.started + (part.backendOf pg).timeoutMs * 25000 ≤ s.tick →
        exec (.farTransferTimeout p pg) s = .next (s.failOut p pg 0x70))) ∧
    ∀ g rest, part.prefetch = g :: rest →
      ((part.page g).st ≠ .far → exec (.prefetch p) s = .next (s.modPart p fun part => { part with prefetch := rest })) ∧
      ((part.page g).st = .far → ∀ t f, s.startIn p g true = .got t f → exec (.prefetch p) s = .next (t.modPart p fun part => { part with prefetch := rest })) ∧
      ((part.page g).st = .far → ∀ k, s.startIn p g true = .fail k →
        exec (.prefetch p) s = .next ((s.modPart p fun part => part.logFailure 0 g k).modPart p fun part => { part with prefetch := rest }))) ∧
  (
  ∀ (s : State) (l : Nat) (k : Packet) (rest : List (Nat × Packet)),
    let s1 := { s with pktIn := rest }
    let p := s.partOfPort l
    let part := s.part p
    let data : Packet := { cls := 0x02, flits := 19, dest := k.src, part := k.part, tag := k.tag, addr := k.addr, arg := k.arg }
    let ack : Packet := { cls := 0x04, dest := k.src, part := k.part, tag := k.tag, addr := k.addr, arg := k.arg }
    (takePacket 0x01 s.pktIn = some ((l, k), rest) →
      (∀ g first, part.exported k = some (g, first) → (part.page g).st = .hbm ∨ (part.page g).st = .zero →
        exec .farRead s = .next (s1.queuePacket l { data with lines := s1.storedPiece p g first })) ∧
      (∀ g first, part.exported k = some (g, first) → (part.page g).st = .unmapped ∨ (part.page g).st = .pin →
        exec .farRead s = .next (s1.queuePacket l { data with status := 3 })) ∧
      (∀ g first, part.exported k = some (g, first) → (part.page g).st = .inn ∨ (part.page g).st = .out ∨ (part.page g).st = .far →
        exec .farRead s = .next (s1.queuePacket l { data with status := 1 })) ∧
      (part.exported k = none → exec .farRead s = .next (s1.queuePacket l { data with status := 3 }))) ∧
    (∀ pg, takePacket 0x02 s.pktIn = some ((l, k), rest) → part.farPageOf k true = some pg →
      let piece := k.addr % pageBytes / 4096
      (k.status = 0 → exec .farData s = .next
        ((s1.putLines (s1.stackOfPage p pg) (part.page pg).frame (k.lines.map fun x => (64 * piece + x.1 % 64, x.2))).setPage p pg
          { part.page pg with arrived := addOnce (part.page pg).arrived piece })) ∧
      (k.status ≠ 0 → exec .farData s = .next (s1.farAnswerFails p pg true))) ∧
    (takePacket 0x03 s.pktIn = some ((l, k), rest) →
      (part.exported k = none → exec .farWrite s = .next (s1.queuePacket l { ack with status := 3 })) ∧
      (∀ g first, part.exported k = some (g, first) → ∀ u, s1.frameForWrite p g = (u, 0) → ((u.part p).page g).st = .hbm →
        exec .farWrite s = .next (((u.putLines (u.stackOfPage p g) ((u.part p).page g).frame
          (k.lines.map fun x => (first + (x.1 - k.addr % pageBytes / 64), x.2))).modPart p fun part => part.staleFar g).queuePacket l ack))) ∧
    (∀ pg, takePacket 0x04 s.pktIn = some ((l, k), rest) → part.farPageOf k false = some pg →
      (k.status = 0 → exec .farAck s =
        .next (s1.setPage p pg { part.page pg with arrived := addOnce (part.page pg).arrived (k.addr % pageBytes / 4096) })) ∧
      (k.status ≠ 0 → exec .farAck s = .next (s1.farAnswerFails p pg false))))

/-- The boundary of a step and the intake's samples (R22, R355, R357). -/
def Obligations.StepsAdvanceAndSamplesLand : Prop :=
  ∀ (s : State) (p : Nat),
    (s.boundaryFalls p = true → ∃ t : State, exec (.stepBoundary p) s = .next (((t.satchelAt p).handOver).afterBoundary p (s.part p).goesOn) ∧
      (t.part p).step = (s.part p).step + 1 ∧ (t.part p).stepsDone = (s.part p).stepsDone + 1 ∧
      (t.part p).dataPos = (s.part p).firstCursor ((s.part p).step + 1) ∧ (t.part p).frozen = (s.part p).frozenNext ∧
      (t.part p).escalated = [] ∧ (t.part p).rungs = [] ∧ (t.part p).widened = [] ∧ (t.part p).clip = none ∧ (t.part p).replay = false ∧
      (t.part p).record.isSome = true ∧ t.cores = s.cores ∧ t.power = s.power) ∧
    (∀ rec : List Byte,
      let s1 := s.settleIntake p
      let it := (s1.part p).intake
      (s1.part p).intakeReady = true → rec.length = it.recordBytes → (∀ u range,
        s1.writeFields p (it.ringBase + it.k % it.slots * it.slotBytes) rec (it.fields.map fun x => x.toNat) = (u, 0, range) →
        exec (.sampleWrite p rec) s = .next (u.sampleDone p range)) ∧
        ∀ u range, s1.writeFields p (it.ringBase + it.k % it.slots * it.slotBytes) rec (it.fields.map fun x => x.toNat) = (u, stBusy, range) →
          exec (.sampleWrite p rec) s = .next u) ∧
    (let it := (s.part p).intake
     it.configured = true → it.st = 1 →
      (it.retried = false → exec (.intakeDmaFailure p false) s = .next
        ((s.modPart p fun part => { part with intake := { it with retried := true } }).put (.hostRead it.recordAddr it.recordBytes))) ∧
      (it.retried = true → exec (.intakeDmaFailure p false) s = .next ((s.endJobAccess p 0x23 0 0).stopIntake p 0x23)) ∧
      exec (.intakeDmaFailure p true) s = .next ((s.endJobAccess p 0x70 0 0).stopIntake p 0x70))

/-- What a light-link port and an edge router do. -/
def Obligations.LinksAndEdgeRouters : Prop :=
  (
  ∀ (s : State) (l : Nat),
    let x := s.port l
    let p := s.partOfPort l
    (s.carries l = true → x.parked = false → flitSlot x.onThree x.flit ≤ s.slot → exec (.flitTime l) s = .next (s.flitTime l)) ∧
    (s.carries l = true → ∀ fr : RxFrame,
      let s1 := fr.packets.foldl (fun s k => s.oweFlits l k) (s.modPort l fun x => { x with openFrames := x.openFrames.filter (· != fr.frame) })
      let bad := s1.modPort l fun x => { x with counts := bump x.counts 1 }
      (fr.ok = true → exec (.frameSeal l fr) s = .next ((s1.frameGood l fr).countOpen p)) ∧
      (fr.ok = false → fr.timed = [] → exec (.frameSeal l fr) s = .next (bad.countOpen p)) ∧
      (fr.ok = false → fr.timed ≠ [] → exec (.frameSeal l fr) s = .next (((bad.report 1 l 0x33 p).endStep p 0x23).countOpen p))) ∧
    (s.carries l = true → ∀ fl : TimedFlit, fl.sent + x.compiled ≤ s.slot →
      let s1 := s.countHandOn l fl
      (∀ t, s1.handOn l fl = .moved t → exec (.timedFlitHandOn l fl) s = .next t) ∧
      (∀ t, s1.handOn l fl = .ended t → exec (.timedFlitHandOn l fl) s = .next t) ∧
      (∀ t u k j, s1.handOn l fl = .held t k → s.handOn l fl = .held u j → exec (.timedFlitHandOn l fl) s = .next u)) ∧
    (∀ fl : TimedFlit, fl.sent + x.compiled < fl.arrived → ∃ y : Port, s.countHandOn l fl = (s.setPort l y).countOpen p ∧ y.counts = bump x.counts 4) ∧
    (s.carries l = true → ∀ fl : RxBell, fl.ok = true →
      let s1 := s.modPort l fun x => { x with bellGot := max x.bellGot fl.seq }
      let msgs := (fl.msgs.take 28).filter (· != 0)
      (s1.relayFrom l = none → exec (.bellFlit l fl) s = .next { s1 with
        bellIn := s.bellIn ++ (msgs.filter fun m => underLinkKey m == !fl.jobKey).map (fun m => (fl.dev, fl.part, m)) }) ∧
      (∀ o, s1.relayFrom l = some o → exec (.bellFlit l fl) s = .next (s1.modPort o fun x => { x with bellQ := x.bellQ ++ msgs }))) ∧
    (∀ e rest, takeFirst (fun (e : Nat × List W64 × Nat) => decide (e.2.2 + 2400 ≤ s.slot)) x.bellOut = some (e, rest) →
      exec (.bellResend l) s = .next (s.setPort l { x with bellOut := rest, bellQ := e.2.1 ++ x.bellQ, counts := bump x.counts 2 })) ∧
    (∀ e rest, takeFirst (fun (e : Packet × Nat × Nat) => decide (e.2.2 + 4800 ≤ s.slot)) x.pktOut = some (e, rest) → x.pktPos = 0 →
      exec (.packetResend l) s = .next (s.setPort l { x with pktOut := rest, pktQ := e.1 :: x.pktQ })) ∧
    (∀ lane, bit x.lanes (lane % 4) = true →
      (x.st = 2 → exec (.laneFailure l lane) s = .next
        ((((s.setPort l { x with st := 1, lanes := x.lanes - 2 ^ (lane % 4) }).report 1 l 0x30 p).linkEvent l).framesFail l)) ∧
      (x.st ≠ 2 → exec (.laneFailure l lane) s = .next (s.portDown l))) ∧
    (x.st = 1 → exec (.laneRetrainDone l true) s = .next (s.portUp l x.lanes) ∧ exec (.laneRetrainDone l false) s = .next (s.portDown l)) ∧
    (takeFirst (fun (k : Nat × Packet) => k.1 == l && k.2.ctl == some .park) s.pktIn = none → s.mayPark l = true → exec (.portPark l) s =
      .next ((s.sendPacket x.peer { cls := 0x20, ctl := some .park }).modPort l fun x => { x with parked := true }))) ∧
  (
  ∀ (s : State) (g : Nat) (fl : ReduceFlit),
    let p := s.partOfEdge g
    let part := s.part p
    let s1 := s.modPart p Part.startColls
    part.job = .running → s.carries fl.port = true → s.partOfPort fl.port = p →
      (fl.epoch ≠ part.layoutEpoch → exec (.edgeRouterAddition g fl) s = .next (s.endStep p 0x42)) ∧
      (fl.epoch = part.layoutEpoch → ∀ k r u b, (s1.part p).reduceOf fl = some (k, r) → s1.readMem p (k.src + fl.off) (4 * fl.arriving.length) = .ok u b →
        let sum := addPartials part.roundKey.toNat part.dataPos k.layer (collAddend k r (fl.off / k.chunk)) (fl.off / 4)
          (words32 fl.arriving.length b) fl.arriving
        let bytes := sum.flatMap fun w => leBytes 4 w.toNat
        (∀ t, u.sumOn p k r fl bytes = .moved t → exec (.edgeRouterAddition g fl) s = .next (t.countEdge (fl.port / 2) 2 1)) ∧
        (∀ t c, u.sumOn p k r fl bytes = .held t c → exec (.edgeRouterAddition g fl) s = .next t) ∧
        (fl.off / k.chunk ≠ k.index → u.sumOn p k r fl bytes = .moved ((u.addReady r.outPort
          { stream := r.outStream, sent := u.slot, part := p, srcDev := u.self, addr := fl.off, bytes := bytes }).collSent p k.layer r.outPort r.outStream
            bytes.length)) ∧
        (fl.off / k.chunk = k.index → k.kind ≠ 2 → ∀ v, u.writePages p 2 (k.dest + fl.off) bytes = (v, 0) →
          u.sumOn p k r fl bytes = .moved (v.countEdge (fl.port / 2) 3 1))))

/-- The messages of the Form's bells (R302 to R307). -/
def Obligations.FormBellMessages : Prop :=
  ∀ (s : State) (d p : Nat) (m : W64) (rest : List (Nat × Nat × W64)),
    let s1 := { s with bellIn := rest }
    let b := bits m.toNat 16 10
    let v : W32 := BitVec.ofNat 32 (bits m.toNat 32 32)
    let part := s.part p
    (takeBell 0x01 s.bellIn = some ((d, p, m), rest) →
      let s2 := if s1.isPrefect && s1.spans p && d / 64 == s.form.form then s1.sendBells s1.heads p m else s1
      (s2.isRoot p = true → exec .ring s = .next (s2.rootRing p b v)) ∧
      (s2.isRoot p = false → (s2.isDeputy || (s2.isDeputyHead && s2.spans p)) = true → exec .ring s = .next (s2.keepRing p b v)) ∧
      (s2.isRoot p = false → (s2.isDeputy || (s2.isDeputyHead && s2.spans p)) = false → exec .ring s = .next s2)) ∧
    (takeBell 0x02 s.bellIn = some ((d, p, m), rest) →
      let s2 := if (v - tget 0 part.bells b).toNat < 2 ^ 31 then s1.setBell p b v else s1
      exec .count s = .next (if s2.isPrefect && !s2.isRoot p then s2.sendBells s2.members p m else s2)) ∧
    (let ahead (x : Nat × Nat × W64) : Bool :=
       let k := (bits x.2.2.toNat 32 32 + 2 ^ 32 - (s.part x.2.1).openStep % 2 ^ 32) % 2 ^ 32
       decide (0 < k) && decide (k < 2 ^ 31)
     takeFirst (fun x => x.2.2.toNat % 256 == 0x03 && !ahead x) s.bellIn = some ((d, p, m), rest) → v.toNat = part.openStep % 2 ^ 32 →
      exec .flag s = .next ((s1.modPart p fun part => part.modGroup (bits m.toNat 16 8) fun x =>
        { x with flags := x.flags ++ [(d, bits m.toNat 25 7, bit m.toNat 24)] }).tryVerdicts p 1024 [bits m.toNat 16 8])) ∧
    (takeBell 0x04 s.bellIn = some ((d, p, m), rest) →
      let s2 := if s1.isPrefect && d / 64 == s.form.form then s1.sendBells (s1.members.filter (· != d)) p m else s1
      let layer := bits m.toNat 16 12
      let rung := bits m.toNat 28 2
      let srcs := ((s2.part p).layerSources layer).filter (· != s2.self)
      (srcs = [] → exec .rung s = .next s2) ∧
      (srcs ≠ [] → v.toNat = (s2.part p).step % 2 ^ 32 → ∃ u : State, exec .rung s = .next (u.sendBells srcs p (msgRungAck layer rung v.toNat)) ∧
        u = { s2 with parts := u.parts } ∧ (∀ q, q ≠ p → u.part q = s2.part q) ∧ tget 0 (u.part p).rungs layer = max (tget 0 (s2.part p).rungs layer) rung)) ∧
    (takeBell 0x05 s.bellIn = some ((d, p, m), rest) → exec .rungAck s = .next
      ((s1.modPart p fun part => { part with rungWait := part.rungWait.filter fun w => w != (bits m.toNat 16 12, d) }).allVerdicts p)) ∧
    (takeBell 0x06 s.bellIn = some ((d, p, m), rest) →
      let s2 := if s1.isPrefect && d != s1.self then s1.sendBells s1.members p m else s1
      (s2.part p).job = .running → (s2.part p).clip = none → bits m.toNat 16 16 = (s2.part p).step % 2 ^ 16 →
      (special32 v.toNat = false → exec .clip s = .next ((s2.modPart p fun part => { part with clip := some v }).allVerdicts p)) ∧
      (special32 v.toNat = true → exec .clip s = .next (s2.endStep p 0x52)))

/-- The leadership of a Form and its time (R291, R293, R308). -/
def Obligations.FormLeadershipAndTime : Prop :=
  ∀ (s : State) (d p : Nat) (m : W64) (rest : List (Nat × Nat × W64)),
    let s1 := { s with bellIn := rest }
    let b := s.beat
    (takeBell 0x07 s.bellIn = some ((d, p, m), rest) → s.form.set = true → d = s.form.prefect → s.form.head ≠ some d →
      exec .heartbeat s = .next { s1 with form := { s.form with heard := true, missedBeats := 0, missingSent := false } }) ∧
    (takeBell 0x07 s.bellIn = some ((d, p, m), rest) → s.form.set = true → d ≠ s.form.prefect → s.form.head = some d →
      exec .heartbeat s = .next { s1 with form := { s.form with headHeard := true, headMissed := 0, headMissingSent := false } }) ∧
    (takeBell 0x08 s.bellIn = some ((d, p, m), rest) → s.isDeputy = true → bits m.toNat 16 14 = s.form.prefect →
      let t := { s1 with form := { s.form with missing := addOnce s.form.missing d } }
      exec .missing s = .next (if t.mayTakeOver then t.takeOver else t)) ∧
    (takeBell 0x08 s.bellIn = some ((d, p, m), rest) → s.isDeputyHead = true → s.form.head = some (bits m.toNat 16 14) →
      (s.isDeputy = true → bits m.toNat 16 14 ≠ s.form.prefect) →
      let t := { s1 with form := { s.form with headMissing := addOnce s.form.headMissing d } }
      exec .missing s = .next (if t.mayTakeOverHead then t.takeOverHead else t)) ∧
    (takeBell 0x09 s.bellIn = some ((d, p, m), rest) →
      (bits m.toNat 16 14 / 64 = s.form.form → ∃ u : State, exec .takeover s = .next u ∧ u.form.prefect = bits m.toNat 16 14 ∧
        u.form.missedBeats = 0 ∧ u.form.deputy ≠ some (bits m.toNat 16 14) ∧ u = { s1 with form := u.form, beat := u.beat }) ∧
      (bits m.toNat 16 14 / 64 ≠ s.form.form → ∃ u : State, exec .takeover s = .next u ∧ u.form.head = some (bits m.toNat 16 14) ∧
        u.form.headMissed = 0 ∧ u.form.prefect = s.form.prefect)) ∧
    (s.form.set = true → s.isPrefect = false → 4 ≤ s.form.missedBeats → s.isDeputy = false → s.form.missingSent = false →
      s.form.deputy = some d →
      exec .heartbeatLost s = .next (({ s with form := { s.form with missingSent := true } }).sendBell d 0 (msgMissing s.form.prefect))) ∧
    (b.last ≠ beatOf s.slot + 1 → exec .beatBoundary s =
      .next ({ s with beat := { b with last := beatOf s.slot + 1 }
                      ports := s.ports.map fun (e : Nat × Port) => (e.1, { e.2 with lateInBeat := 0 }) }).checkBeat.beats.probeSuspects) ∧
    (s.form.set = true → b.root = false → b.holdover = false → s.portIsUp b.lockPort = false → exec .lockPortDown s =
      .next (if s.portIsUp b.altPort then { s with beat := { b with lockPort := b.altPort, altPort := b.lockPort } }
        else { s with beat := { b with holdover := true, locked := false, holdSince := some s.tick } })) ∧
    (b.holdover = true → s.portIsUp b.lockPort = true → exec .lockPortReturn s =
      .next { s with beat := { b with holdover := false, locked := true, holdSince := none, timedEnded := false } }) ∧
    (∀ t, b.holdover = true → b.holdSince = some t → b.timedEnded = false → t + 25000000 ≤ s.tick →
      let s2 := ({ s with beat := { b with timedEnded := true } }).report 0 0 0x42 0
      exec .holdoverExpiry s = .next (s2.partList.foldl (fun s p => match (s.part p).image with
        | some im => if im.ports = [] then s else s.endStep p 0x40
        | none => s) s2)) ∧
    (∀ width, b.aligning = true → b.phaseSet = false → exec (.beatEdge width) s = .next
      (({ s with slot := s.slot / 2 ^ 20 * 2 ^ 20, beat := { b with phaseSet := true, edgeSeen := true, edgeError := 0, frame := none } }).readPulse
        (beatOf s.slot) (beatPulse width)))

/-- Satchels (R325 to R334). -/
def Obligations.SatchelsAreStoredAndCommitted : Prop :=
  ∀ (s : State) (l p : Nat) (k : Packet) (rest : List (Nat × Packet)),
    let s1 := { s with pktIn := rest }
    let q := s.partOfPort l
    let part := s.part p
    let sat := part.satchel
    (takePacket 0x10 s.pktIn = some ((l, k), rest) → k.record = none → ∃ u : State,
      (exec .satchel s = .next u ∨ exec .satchel s = .next (u.sendPacket k.src { cls := 0x11, part := q, tag := k.tag, arg := k.arg })) ∧
      u = { s1 with parts := u.parts } ∧
      let old := (s.part q).buddyStore k.src
      let new := (u.part q).buddyStore k.src
      new.newStep = some k.arg.toNat ∧
      (old.newStep = some k.arg.toNat → new.newRecord = old.newRecord ∧ new.newPieces = old.newPieces + 1) ∧
      (old.newStep ≠ some k.arg.toNat → new.newRecord = none ∧ new.newPieces = 1)) ∧
    (takePacket 0x11 s.pktIn = some ((l, k), rest) → (s.part q).satchel.inProgress = some k.arg.toNat → (s.part q).satchel.toSend = [] →
      (s.part q).satchel.recordLeft = false → exec .satchelAck s = .next (s1.ringRoot q (s.part q).satchel.satBell 1)) ∧
    (∀ step, sat.inProgress = some step → part.deviceCount ≤ (tget 0 part.bells sat.satBell - sat.bellBase).toNat → ∃ u : State,
      exec (.satchelCommit p) s = .next (u.partEvent p 0x0007 (packList [(8, step), (1, 0)])) ∧ (u.part p).satchel.committed = some step ∧
      (u.part p).satchel.inProgress = none ∧ (u.part p).satchel.taken = sat.taken + 1 ∧ (u.part p).satRecord = part.record ∧
      (u.part p).buddies = part.buddies.map (fun b => b.commit step) ∧ u = { s with parts := u.parts, form := u.form }) ∧
    (sat.inProgress.isSome = true → sat.buddyEn = true → exec (.satchelCopyFailure p) s = .next (s.satchelFailed p)) ∧
    (∀ step, sat.farInProgress = some step → exec (.farSatchelCommit p) s = .next
      ((s.modPart p fun part => { part with satchel := { part.satchel with far := some step, farInProgress := none }, farCopy := [] }).partEvent p 0x0007
        (packList [(8, step), (1, 1)]))) ∧
    (∀ rank order left, part.spareFill = some (rank, order, left) → exec (.spareFillSourceFailure p) s = .next (s.modPart p fun part =>
      { part with spareFill := some (rank, min 5 (order + 1), if order = 2 ∨ order = 4 then part.setPages else left) }))

/-- The packets of a Form's control (R306, R314 to R316, R331, R408). -/
def Obligations.FormPacketsActOnce : Prop :=
  ∀ (s : State) (l dev : Nat) (k : Packet) (rest : List (Nat × Packet)),
    let s1 := { s with pktIn := rest }
    (∀ n, takePacket 0x21 s.pktIn = some ((l, k), rest) → k.note = some n → (s.isHead && k.src / 64 != s.form.form) = false → (s.isPrefect || s.isDeputy) = true →
      exec .absenceNote s = .next (s1.noteIn n)) ∧
    (∀ n, takePacket 0x21 s.pktIn = some ((l, k), rest) → k.note = some n → (s.isHead && k.src / 64 != s.form.form) = true →
      exec .absenceNote s = .next (s1.headNoteIn k.src n)) ∧
    (s.form.noteWindow ≠ noteWindowOf s.slot →
      let w := noteWindowOf s.slot
      let mine := s.form.toReport
      let s2 := { s with form := { s.form with noteWindow := w, notes := [], reported := mine.map fun n => n.key, toReport := [] } }
      exec .noteWindowBoundary s = .next (mine.foldl (fun s n => s.sendReport n)
        (s.form.notes.foldl (fun t e => t.windowNote w (w - s.form.noteWindow) e) s2))) ∧
    (s.isPrefect = true → dev ∈ s.suspects → 4 ≤ tget 0 s.form.probes dev → exec (.memberAbsent dev) s = .next (s.declareAbsent dev)) ∧
    (∀ n, takeCtl FormCtl.isHold s.pktIn = some ((l, k), rest) → k.ctl = some (.hold n) →
      s.isPrefect = false → exec .hold s =
        .next ((({ s1 with form := { s.form with absent := addOnce s.form.absent n.key.dev } }).holdSteps n).autoFill n.key.dev)) ∧
    (takeFirst (fun (x : Nat × Packet) => x.1 == l && x.2.cls == 0x20 && x.2.ctl == some FormCtl.ready) s.pktIn = some ((l, k), rest) →
      let x := s.port l
      let s2 := s1.setPort l { x with peerReady := true, jobKey := x.jobKey || x.keyPart.isSome }
      exec (.ready l) s = .next (match x.keyPart with | some p => s2.tryKeys p | none => s2)) ∧
    (takePacket 0x22 s.pktIn = some ((l, k), rest) → (k.tag = 1 ∧ s.form.head = some k.src ∧ s.isHead = false ∧ s.isPrefect = true →
      exec .normPacket s = .next (s1.postNorms k.part k.arg.toNat k.norm)) ∧
      (k.tag ≠ 1 → s.isPrefect = false → (s.isDeputy || s.isNormRoot k.part) = true →
        exec .normPacket s = .next (s1.normsIn k.part k.src k.arg.toNat k.norm))) ∧
    (takeCtl FormCtl.isProbe s.pktIn = some ((l, k), rest) →
      (k.ctl = some .probe → exec .formControlProbe s = .next (s1.sendPacket k.src { cls := 0x20, ctl := some .probeAnswer })) ∧
      (k.ctl = some .probeAnswer → exec .formControlProbe s =
        .next { s1 with form := { s.form with probes := tset 0 s.form.probes k.src 0 } })) ∧
    (∀ r step pos cur, takeCtl FormCtl.isPosition s.pktIn = some ((l, k), rest) →
      k.ctl = some (.position r step pos cur) → ∃ u : State, exec .dataPositionReport s = .next u ∧
        (jobDev k.part k.src, step, pos, cur) ∈ u.form.positions ∧
        (∀ x ∈ u.form.positions, x.1 = jobDev k.part k.src → x.2.1 = step → x = (jobDev k.part k.src, step, pos, cur)) ∧ u = { s1 with form := u.form })

/-- What is taken out of use, repaired or spared (R241 to R243, R317). -/
def Obligations.FaultyUnitsAreTakenOut : Prop :=
  ∀ (s : State) (x h pc bank row : Nat),
    let st := s.stack h
    (∀ cause, cause ≠ .corrected ∨ 8 ≤ (s.site x).corrected.length → exec (.coreSiteFence x cause) s = .next (s.fenceSite x)) ∧
    (s.power.mainOn = true →
      let s1 := s.dutyStep 3 x 1600
      exec (.routerProbe x true) s = .next (s1.modSite x fun t => { t with missed := 0 }) ∧
      ((s1.site x).missed = 0 → exec (.routerProbe x false) s = .next (s1.modSite x fun t => { t with missed := 1 })) ∧
      (0 < (s1.site x).missed → exec (.routerProbe x false) s =
        .next (((s1.modSite x fun t => { t with missed := t.missed + 1 }).bypassRouter x).dutyEvent 3))) ∧
    exec (.routerParityFailure x) s = .next (s.bypassRouter x) ∧
    (s.power.fwReady = true → st.st ≠ .fenced → st.rowDue pc bank row = true → ∃ u : State, exec (.rowRepair h pc bank row) s = .next u ∧
      tget [] (u.stack h).rowErrs (rowKey pc bank row) = [] ∧ tget 0 (u.stack h).rowsRepaired pc = min (tget 0 st.rowsRepaired pc + 1) 65535 ∧
      (∀ k, k ≠ h → u.stack k = s.stack k) ∧
      (∀ e ∈ st.rowLines pc bank row, ∃ e' ∈ st.rowLines pc bank row, e'.1 = e.1 ∧ tget {} (u.stack h).lines e.1 = corrected e'.2) ∧
      (∀ k, (∀ e ∈ st.rowLines pc bank row, e.1 ≠ k) → tget {} (u.stack h).lines k = tget {} st.lines k)) ∧
    (s.power.fwReady = true → st.channelDue pc = true → exec (.pseudoChannelSparing h pc) s = .next (s.spareChannel h pc)) ∧
    (st.st ≠ .spare ∨ st.spareFor ≠ pc → exec (.pseudoChannelUnresponsive h pc) s = .next (s.fenceStack h)) ∧
    (st.st = .sparing → ∃ u : State, exec (.spareCopyComplete h) s = .next (u.addRepair { kind := 3, a := h, b := st.spareFor }) ∧
      (u.stack h).st = .spare ∧ tget 0 (u.stack h).hourErrs st.spareFor = 0 ∧ (u.stack h).cursor = 6291456 ∧ (u.stack h).lines = st.lines ∧ u = { s with hbm := u.hbm })

/-- The scrubs and the checks of idle sites (R171, R240, R317, R424, R425). -/
def Obligations.ScrubsAndSelfChecks : Prop :=
  ∀ (s : State) (h line x : Nat) (ev : HbmEvent), s.power.mainOn = true →
    let st := s.stack h
    let m := st.meet line 1 ev
    let l := tget {} m.lines line
    (∀ l' : HbmLine, st.st ≠ .fenced → ev.parity < 2 → (line / 32768 < framesPerStack ∨ st.st = .normal) → decodeLine l = .corrected l' →
      s.pageOfFrame h (line / 32768) = none ∨ l'.keyId.toNat = (s.part (s.partOfStack h)).keyGen % 32 →
      ∃ u : State, exec (.hbmScrub h line ev) s = .next u ∧ tget {} (u.stack h).lines line = l' ∧
        (∀ k, k ≠ line → tget {} (u.stack h).lines k = tget {} m.lines k) ∧ ∀ k, k ≠ h → u.stack k = s.stack k) ∧
    (st.st ≠ .fenced → ev.parity < 2 → (line / 32768 < framesPerStack ∨ st.st = .normal) → decodeLine l = .bad →
      ∃ u : State, exec (.hbmScrub h line ev) s = .next u ∧ (u.stack h).lines = m.lines ∧
        (u.stack h).ue = bump st.ue (st.physical (scrubPlace line).1.1 (scrubPlace line).2) ∧ ∀ k, k ≠ h → u.stack k = s.stack k) ∧
    (∀ c addr err, s.coreAt x = some c → ((s.core c).power = .running ∨ (s.core c).power = .clockStop) → 2 ≤ err →
      exec (.sramScrub (.site x addr) err) s = .next ((s.dutyStep 6 x sramUnits).fenceSite x)) ∧
    (∀ k ln sub err, err ≠ 0 → exec (.sramScrub (.sliceLine k ln sub) err) s = .next
      ((((s.dutyStep 6 (1600 + k) sramUnits).modSlice k fun sl => { sl with asleep := false, touched := true }).modSlice k fun sl =>
        sl.scrubLine ln sub err).dutyEvent 6)) ∧
    (∀ k byte err, 2 ≤ err → ∃ u : State, exec (.sramScrub (.pinLine k byte) err) s = .next u ∧
      (u.slice k).pinBad = addOnce (s.slice k).pinBad (byte / 64) ∧ u.cores = s.cores ∧ u.hbm = s.hbm) ∧
    (s.care.dayWindow ≠ s.tick / 2160000000000 → ∃ u : State, exec (.scrubWindowEnd true) s = .next u ∧
      u.care.dayWindow = s.tick / 2160000000000 ∧ (∀ k < 32, (u.stack k).rowErrs = [] ∧ (u.stack k).lines = (s.stack k).lines) ∧
      (((upFrom 0 32).all fun k => (s.stack k).st == .fenced || (s.stack k).progress == 65536) = false →
        u.care.flagScrub = true ∧ (u.duty 7).missed = satInc32 (s.duty 7).missed)) ∧
    (s.care.hourWindow ≠ s.tick / 90000000000 → ∃ u : State, exec (.scrubWindowEnd false) s = .next u ∧
      u.care.hourWindow = s.tick / 90000000000 ∧ (∀ k < 1600, (u.site k).corrected = []) ∧ (∀ k < 32, (u.stack k).hourErrs = []) ∧
      (((s.duty 6).lastDone < 90000000000 * s.care.hourWindow ∨ (s.duty 6).lastDone = 0) →
        u.care.flagScrub = true ∧ (u.duty 6).missed = satInc32 (s.duty 6).missed)) ∧
    ((match s.coreAt x with | some c => (s.core c).seated | none => false) = false →
      ((s.site x).fenced = false → ∀ same cache, ∃ u : State, exec (.attentionPipeCheck x same cache) s = .next u ∧
        (let v := ((s.powerForCheck x).dutyStep 8 x 1600).attnCheck x same cache
         u = if same && cache then v else v.dutyEvent 8) ∧
        (cache = true → (u.site x).pipeOk = same ∧ (u.site x).cacheOk = true ∧ (u.site x).checks = (s.site x).checks + 1 ∧
          (u.site x).fenced = false)) ∧
      exec (.siteRetest x true) s = .next (s.dutyStep 9 x 1600) ∧
      exec (.siteRetest x false) s = .next (((s.dutyStep 9 x 1600).fenceSite x).dutyEvent 9))

/-- The calibrations of the caretaker (R423, R426 to R428). -/
def Obligations.CaretakerCalibrates : Prop :=
  ∀ (s : State) (h pc l lane cart bias sensor : Nat) (offset : Int), s.power.mainOn = true →
    ((s.stack h).st ≠ .fenced → (s.duty 4).period ≤ (tget 0 s.care.latest (192 + h) - (s.stack h).trainedAt).natAbs →
      ∃ u : State, exec (.hbmInterfaceRetraining h pc true) s = .next u ∧ exec (.hbmInterfaceRetraining h pc false) s = .next (u.spareChannel h pc) ∧
        (u.stack h).trainedAt = tget 0 s.care.latest (192 + h) ∧ (u.stack h).lines = (s.stack h).lines ∧ (u.duty 4).lastDone = s.tick) ∧
    (l / 4 ∉ s.power.cartsOut →
      let s1 := s.dutyStep 5 l 64
      let n := (s1.port l).unconverged
      exec (.opticalRecalibration l lane true) s = .next (s1.modPort l fun x => { x with cal := true, unconverged := 0 }) ∧
      (n < 2 → exec (.opticalRecalibration l lane false) s = .next (s1.modPort l fun x => { x with unconverged := n + 1 })) ∧
      (2 ≤ n → exec (.opticalRecalibration l lane false) s =
        .next (((s1.modPort l fun x => { x with unconverged := 0 }).dutyEvent 5).laneFails l lane))) ∧
    (cart ∉ s.power.cartsOut → ∃ u : State,
      let first := if tget 0 s.care.biasFirst cart = 0 then bias else tget 0 s.care.biasFirst cart
      exec (.laserAgeing cart bias) s =
        .next (if 3 * first ≤ 2 * bias then (u.dutyEvent 10).report 1 (4 * cart) 0x32 (u.partOfPort (4 * cart)) else u) ∧
      tget 0 u.care.bias cart = bias ∧ tget 0 u.care.biasFirst cart = first) ∧
    (sensor < 192 →
      ((offset - tget 0 s.care.offsets sensor).natAbs < 16 → ∃ u : State, exec (.thermalSensorCalibration sensor offset) s = .next u ∧
        tget 0 u.care.offsets sensor = offset ∧ ∀ k, k ≠ sensor → tget 0 u.care.offsets k = tget 0 s.care.offsets k) ∧
      (16 ≤ (offset - tget 0 s.care.offsets sensor).natAbs → ∃ u : State, exec (.thermalSensorCalibration sensor offset) s = .next u ∧
        u.care.offsets = s.care.offsets ∧ u.care.flagCalib = true)) ∧
    (s.power.fwReady = true → exec .flashWearLevelling s = .next (s.modDuty 12 fun d => { d with lastDone := s.tick, progress := 0 }))

/-- Power, its limits, and the restart of firmware (R376, R404, R413, R417, R418, R430). -/
def Obligations.PowerIsLimitedAndFirmwareRestarts : Prop :=
  ∀ (s : State),
    (∀ temps powers, 2 ≤ s.power.stage → s.care.windows < s.tick / 25000 →
      let s1 := s.partList.foldl (fun s p => s.keepWindow p) (s.readSensors temps powers)
      let s2 := ({ s1 with care := { s1.care with windows := s1.care.windows + 1, epochAt := beatOf s1.slot, flagScrub := false
                                                  flagCalib := false, flagShed := false, flagThrottle := false } }).modDuty 2 fun d =>
        { d with lastDone := s1.tick }
      exec (.telemetryWindowEnd temps powers) s = .next
        (if s2.power.mainOn = false then s2 else if s2.tooHot then s2.enterFault 0x61 else (s2.setDuties.heatActions).fallAsleep)) ∧
    (∀ g, (g ∉ s.care.limited → exec (.engineCurrentLimit g true) s = .next { s with care := { s.care with
        limited := addOnce s.care.limited g, flagThrottle := true } }) ∧
      (g ∈ s.care.limited → exec (.engineCurrentLimit g false) s = .next { s with care := { s.care with
        limited := s.care.limited.filter (· != g), flagThrottle := true } })) ∧
    (∀ rail, s.power.mainOn = true →
      (tget 0 s.care.shed rail < 2 → exec (.phaseShed rail) s = .next { s with care := { s.care with
        shed := tset 0 s.care.shed rail (tget 0 s.care.shed rail + 1), flagShed := true } }) ∧
      (2 ≤ tget 0 s.care.shed rail → exec (.phaseShed rail) s = .next (s.enterFault 0x61))) ∧
    (∀ k, exec (.blockWake (.clockTree k)) s = .next (s.modPart k fun p => { p with treeStopped := false }) ∧
      exec (.blockWake (.slice k)) s = .next (s.modSlice k fun x => { x with asleep := false, touched := true }) ∧
      exec (.blockWake (.stack k)) s = .next (s.modStack k fun x => { x with asleep := false, touched := true }) ∧
      exec (.blockWake (.port k)) s = .next (s.wakePort k) ∧
      exec (.blockWake .pcie) s = .next { s with power := { s.power with l0p := false, pcieTouched := true } }) ∧
    (∀ p ok, (s.part p).rekey = true → exec (.reKeyRetry p ok) s =
      .next ((s.modPart p fun x => { x with rekeyFar := x.rekeyFar.filter fun pg => !ok.contains pg }).settleRekey p)) ∧
    (s.power.fwReady = true → exec .fwWatchdogRestart s = .next ((s.fwDown 1).report 0 0 0x60 0)) ∧
    (s.power.fwReady = false → s.power.restartCause ≠ 0 → ∃ u : State, exec .fwRestart s = .next (u.releaseHolds.settleRings) ∧
      u.power = { s.power with fwReady := true, restartCause := 0 } ∧ u.cores = s.cores ∧ u.parts = s.parts ∧ u.sec.auditSeq = s.sec.auditSeq + 1)

/-- The Nerca rings and their interrupts (R349, R363 to R370). -/
def Obligations.RingsMoveCommandsAndCompletions : Prop :=
  ∀ (s : State) (f r k : Nat), s.ringOf f r = some k →
    let g := s.ring k
    (∀ idx descs, isCmdRing k = true → g.enable = true → g.error = false → idx < g.size →
      let x := readDescs g.size s.tick ((idx + g.size - g.sqTail) % g.size) g.sqTail descs
      x.2 = false → exec (.sqTailDoorbell f r idx descs) s = .next
        (({ s.setRing k { g with sqTail := idx, inflight := g.inflight ++ x.1, error := false } with
            power := { s.power with pcieTouched := true } }).settleRings) ∧
        x.1.length = (idx + g.size - g.sqTail) % g.size) ∧
    (∀ idx, idx < g.size → (isCmdRing k = true → exec (.cqHeadDoorbell f r idx) s = .next (s.setRing k { g with cqHead := idx })) ∧
      (isCmdRing k = false → exec (.eventHeadDoorbell f r idx) s = .next (s.setRing k { g with cqHead := idx }))) ∧
    (∀ idx descs, g.size ≤ idx → exec (.sqTailDoorbell f r idx descs) s = .next s ∧ exec (.cqHeadDoorbell f r idx) s = .next s) ∧
    (∀ v : W32, r = (s.fn f).ringSel →
      (bit v.toNat 4 = true → g.enable = false → 4 ≤ bits v.toNat 0 4 → bits v.toNat 0 4 ≤ 12 → exec (.ringEnable f v) s = .next (s.setRing k
        { g with sizeLog2 := bits v.toNat 0 4, enable := true, sqHead := 0, cqTail := 0, sqTail := 0, cqHead := 0, phase := true, error := false })) ∧
      (bit v.toNat 4 = false → g.enable = true → (∀ c ∈ g.inflight, c.started = false) →
        exec (.ringDisable f v) s = .next (s.setRing k { g with enable := false, inflight := [] }))) ∧
    (∀ t c, g.find t = some c → k ≠ i3cRing → s.power.fwReady = true → c.pendingSent = false → c.since + 2500000 ≤ s.tick →
      exec (.pendingTimeout k t) s = .next ((s.queueCompletion k c { status := 0x01 }).modRing k fun g =>
        { g with inflight := g.inflight.map fun x => if x.idx == c.idx then { x with pendingSent := true } else x })) ∧
    (∀ c rest, g.waiting = c :: rest → k ≠ i3cRing → g.enable = true → g.free = true → ∃ u : State,
      exec (.completionPost k false) s = .next (if c.quiet then u.settleRings else (u.raise (s.ringVector k).1 (s.ringVector k).2).settleRings) ∧
      u.out = s.out ++ [.completion k g.cqTail { c with phase := g.phase, sqHead := g.sqHead }] ∧
      (u.ring k).waiting = rest ∧ (u.ring k).cqTail = (if g.cqTail + 1 < g.size then g.cqTail + 1 else 0) ∧
      (u.ring k).phase = (if g.cqTail + 1 < g.size then g.phase else !g.phase) ∧
      (u.ring k).inflight = (if c.status = 0x01 then g.inflight else dropDone c.tag g.inflight)) ∧
    (∀ v t0, tget none (s.fn f).inHoldoff v = some t0 → t0 + (s.fn f).holdTicks ≤ s.tick →
      let fn := s.fn f
      let s1 := s.setFn f { fn with inHoldoff := tset none fn.inHoldoff v none, heldCauses := fn.heldCauses &&& ~~~(BitVec.ofNat 16 (2 ^ v)) }
      exec (.holdoffExpiry f v) s = .next (if fn.heldCauses.getLsbD v && !fn.mask.getLsbD v then s1.message f v else s1))

/-- R13: no event is lost to a clear. -/
def Obligations.ClearsLoseNoEvent : Prop :=
  ∀ (s : State) (f : Nat), s.fnLive f = true →
    (∀ (w : W32) (same : BitVec 16), ∃ u : State, exec (.intCauseClear f w same) s = .next u ∧
      ∀ v < 16, (u.fn f).cause.getLsbD v = (same.getLsbD v || ((s.fn f).cause.getLsbD v && !w.getLsbD v))) ∧
    (∀ reg : Reg, Reg.rc reg = true → (∀ n, reg = .coreStall n → n < 7) →
      (∃ u : State, exec (.counterReadClear f reg 0 true) s = .next u ∧ u.out = s.out ++ [.read f (s.readReg f reg)] ∧
        (u.readReg f reg = 0 ∨ f = 0 ∧ s.readReg f reg = 0xFFFFFFFF ∧ u.readReg f reg = 0xFFFFFFFF ∧
          ∃ p, s.locked p = true ∨ (s.fn (p + 1)).enabled = true)) ∧
      (f = 0 → (∀ p, s.locked p = false) → (∃ x c, s.selected (s.fn 0).coreSel = some (x, some c)) → (s.fn 0).sensorSel < 160 →
        (∀ k, reg ∈ [Reg.mbxIntakeSamples k, .mbxIntakeRange k, .mbxIntakeWaitHost k, .mbxIntakeWaitRing k, .mbxIntakeIgnored k] →
          (s.windowPart 0 k).isSome = true) →
        ∀ same, same < 1024 → same ≤ s.slot → ∃ u : State, exec (.counterReadClear f reg same true) s = .next u ∧
          u.out = s.out ++ [.read f (s.readReg f reg)] ∧ u.readReg f reg = BitVec.ofNat 32 same))

/-- The host's registers and the aperture (R12, R15, R346, R358). -/
def Obligations.HostReachesRegistersAndMemory : Prop :=
  ∀ (s : State) (f : Nat), s.fnLive f = true →
    (∀ w : W32, let fn := s.fn f
      exec (.intMaskWrite f w) s = .next (((s.setFn f { fn with mask := w.setWidth 16 }).notifyAll f
        (maskList 16 (fn.cause &&& fn.mask &&& ~~~(w.setWidth 16)).toNat)).touchLink)) ∧
    (∀ k p (w : W32), s.windowPart f k = some p → exec (.intakeAppend f k w) s = .next
      (((s.setPart p { s.part p with intake := (s.part p).intake.append w }).settleIntake p).touchLink)) ∧
    (∀ reg, Reg.rc reg = false → ∃ u : State, exec (.lowHalfRead f reg true) s = .next u ∧ u.out = s.out ++ [.read f (s.readReg f reg)] ∧
      (∀ k v, s.latchOf f reg = some (k, v) → tget 0 (u.fn f).latch k = BitVec.ofNat 32 v)) ∧
    (∀ reg, (if Reg.rc reg then exec (.counterReadClear f reg 0 false) s else exec (.lowHalfRead f reg false) s) =
      .next ((s.put (.read f 0xFFFFFFFF)).touchLink)) ∧
    (∀ reg (w : W32) descs, exec (.registerWrite f reg w true descs) s = .next ((s.writeReg f reg w descs).touchLink) ∧
      exec (.registerWrite f reg w false descs) s = .next s) ∧
    (∀ w : W32, exec (.registerWrite f .intMask w true []) s = exec (.intMaskWrite f w) s ∧
      exec (.registerWrite f .intCause w true []) s = exec (.intCauseClear f w 0) s) ∧
    (∀ off len p, let a := ((s.fn f).apBase + off) % 2 ^ 44
      off + len ≤ 2 ^ (s.fn f).bar4Log2 → 0 < len → a % pageBytes + len ≤ pageBytes → s.touchLink.apTarget f a = .part p →
        ∀ u b, s.touchLink.readMem p a len = .ok u b → exec (.apertureRead f off len) s = .next (u.put (.apRead f (some b)))) ∧
    (∀ off (bytes : List Byte) p, let a := ((s.fn f).apBase + off) % 2 ^ 44
      off + bytes.length ≤ 2 ^ (s.fn f).bar4Log2 → bytes ≠ [] → a % pageBytes + bytes.length ≤ pageBytes → s.touchLink.apTarget f a = .part p →
        ((s.part p).job = .running → exec (.apertureWrite f off bytes) s = .next (s.touchLink.apFail f a true 0x12)) ∧
        ((s.part p).job ≠ .running → ∀ u b v, s.touchLink.readMem p a bytes.length = .ok u b → u.writeMem p a bytes = (v, 0) →
          exec (.apertureWrite f off bytes) s = .next (v.put (.apWrite f true))))

/-- Resets of the endpoint and its secure sessions (R343, R344, R402, R409). -/
def Obligations.EndpointResetsAndSessions : Prop :=
  ∀ (s : State) (f : Nat),
    (0 < f → (s.fn f).enabled = true → s.isPart (f - 1) = true →
      exec (.functionLevelReset f) s = .next (((s.tdiError (f - 1)).resetPart (f - 1)).settleRings)) ∧
    exec .hotReset s = .next s.flrAll.settleRings ∧
    (∃ u : State, exec .dlDown s = .next u.settleRings ∧ u.power.linkUp = false ∧ u.cores = s.flrAll.cores) ∧
    (∃ u : State, exec .numvfsClear s = .next u.settleRings ∧ u.power.numVfs = 0 ∧ ∀ k, 1 ≤ k → k ≤ 8 → (u.fn k).enabled = false) ∧
    (s.power.linkUp = false → s.power.perst = true → s.power.pwrOk = true →
      exec .dlUp s = .next ((upFrom 0 9).foldl (fun s f => s.sendHeld f) { s with power := { s.power with linkUp := true } })) ∧
    (1 ≤ f → f ≤ 8 → (s.fn f).enabled = false → exec (.vfEnable f) s =
      .next { s.setFn f { s.fn f with enabled := true } with power := { s.power with numVfs := max s.power.numVfs f } }) ∧
    (s.fnLive f = true →
      (∃ u : State, exec (.ideFailure f) s = .next (if f = 0 then u else u.tdiError (f - 1)) ∧ (u.fn f).ide = []) ∧
      (∀ b, 36 ≤ b → b ≤ 41 → exec (.barChange f b) s = .next ((if f = 0 then s else s.tdiError (f - 1)).modFn f fun fn => { fn with bar4Log2 := b })) ∧
      (∀ req st, 0 < f → s.isPart (f - 1) = true → (s.fn f).spdm = 5 ∨ (s.fn 0).spdm = 5 → tdiNext (s.part (f - 1)).tdi req = some st →
        exec (.tdispRequest f req) s = .next (s.setPart (f - 1) { s.part (f - 1) with tdi := st })) ∧
      (∀ sid, (s.fn f).spdm = 5 → sid ≤ 8 → exec (.ideKmRequest f sid) s = .next (s.setFn f { s.fn f with ide := addOnce (s.fn f).ide sid })) ∧
      (s.power.fwReady = true →
        let st := (s.fn f).spdm
        exec (.getVersion f) s = .next (s.spdmAnswer f 1 0x04 [0x13]) ∧
        (1 ≤ st → exec (.getCapabilities f) s = .next (s.spdmAnswer f (max st 2) 0x61 [])) ∧
        (2 ≤ st → exec (.negotiateAlgorithms f) s = .next (s.spdmAnswer f (max st 3) 0x63 [])) ∧
        (3 ≤ st → exec (.getDigests f) s = .next (s.spdmAnswer f st 0x01 (leBytes 64 (Config.sha512 Config.certificates).toNat)) ∧
          exec (.getCertificate f) s = .next (s.spdmAnswer f st 0x02 Config.certificates) ∧
          (∀ n, exec (.challenge f n) s = .next (s.spdmAnswer f st 0x03 (Config.sign (n ++ s.measurements f n))) ∧
            exec (.getMeasurements f n) s = .next (s.spdmAnswer f st 0x60 (s.measurements f n))) ∧
          exec (.keyExchange f) s = .next (s.spdmAnswer f 4 0x64 [])) ∧
        (st = 4 → ∃ u : State, exec (.finish f) s = .next u ∧ (u.fn f).spdm = 5 ∧ (u.fn f).spdmKeys = 0) ∧
        (st = 5 → exec (.spdmHeartbeat f) s = .next (s.spdmAnswer f 5 0x68 []) ∧
          (∃ u : State, exec (.keyUpdate f) s = .next u ∧ (u.fn f).spdm = 5 ∧ (u.fn f).spdmKeys = (s.fn f).spdmKeys + 1) ∧
          exec (.endSession f) s = .next (s.spdmAnswer f 3 0x6C [])) ∧
        (st < 3 → exec (.keyExchange f) s = .next (s.put (.spdm f 0x7F [])))))

/-- The query commands (R372, R382). The free values of SATCHEL_QUERY and SELFTEST_RUN are the model's (log entries 5 and 36). -/
def Obligations.QueriesAnswerTheState : Prop :=
  ∀ (s : State) (r t : Nat) (c : Cmd),
    let s0 := s.markStarted r c
    let j := s.job r c
    let part := s0.part j.p

    (s.starts r t 0x0101 c = true → Completes (.deviceInfo r t) s r c s0 (okBytes 256 s0.deviceInfo)) ∧
    (s.starts r t 0x0202 c = true → Completes (.partitionQuery r t) s r c s0
      (okBytes 64 (packList ((1, s0.count) :: s0.partList.map fun p => (1, jobCode (s0.part p).job))))) ∧
    (s.starts r t 0x0303 c = true → Completes (.jobInfo r t) s r c s0 (okBytes 96 (leBytes 64 part.digest.toNat ++
      packList [(8, part.step), (4, part.layoutEpoch), (1, jobCode part.job), (1, match part.image with | some im => im.level | none => 0)]))) ∧
    (s.starts r t 0x0503 c = true → Completes (.jobQuery r t) s r c s0 (okBytes 32 (packList [(1, jobCode part.job), (1, part.lastStatus),
      (8, part.step), (4, if part.job == .running then part.runSteps - part.stepsDone else 0), (8, part.dataPos)]))) ∧
    (s.starts r t 0x0514 c = true → Completes (.intakeQuery r t) s r c s0 (okBytes 48 (packList ([(8, part.intake.cursor),
      (2, part.intake.shards.length), (1, part.intake.st)] ++ (upFrom 0 5).map fun k => (4, tget 0 part.intake.counts k))))) ∧
    (s.starts r t 0x0402 c = true → Completes (.memQuotaQuery r t) s r c s0 (okBytes 32 (packList
      (((upFrom 0 4).zip [1, 2, 4, 4]).map (fun e => (e.2, part.quotaOf e.1)) ++ ((upFrom 0 4).zip [1, 2, 4, 4]).map fun e => (e.2, part.useOf e.1))))) ∧
    (s.starts r t 0x0409 c = true → 1 ≤ j.arg 1 → j.arg 1 ≤ 512 → j.arg 0 + j.arg 1 ≤ rangePages → Completes (.memPageQuery r t) s r c s0
      { result := (upFrom (j.arg 0) (j.arg 1)).map fun pg =>
          BitVec.ofNat 8 (pageCode (part.page pg).st + 8 * (part.page pg).farValid.toNat + 16 * (part.page pg).satDirty.toNat) }) ∧
    (∀ k, s.starts r t 0x0415 c = true → part.pool = some k → 2 * j.arg 0 ≤ c.payLen →
      (∀ i < j.arg 0, leNat ((j.pay.drop (2 * i)).take 2) < k.slots) → Completes (.kvPoolQuery r t) s r c s0
        { result := leBytes 4 k.free.length ++ leBytes 4 k.pages.length ++ leBytes 8 0 ++
            (readList j.pay (List.replicate (j.arg 0) 2)).flatMap k.descBytes }) ∧
    (s.starts r t 0x0602 c = true →
      let x := s0.orFree 16 part.satchel.buddy
      let y := x.1.orFree 64 part.satchel.committed
      let z := y.1.orFree 64 part.satchel.far
      Completes (.satchelQuery r t) s r c z.1
        (okBytes 32 (packList [(2, x.2), (8, y.2), (8, z.2), (4, part.satchel.sent), (4, part.satchel.inSet)]))) ∧
    (s.starts r t 0x0702 c = true →
      let f := s0.form
      let live := if f.set then (s0.self :: s0.members).foldl (fun n d => n ||| 2 ^ (d % 64)) 0 else 0
      Completes (.formQuery r t) s r c s0 (okBytes 1024 (leBytes 1 f.role ++ leBytes 1 s0.isDeputyHead.toNat ++
        leBytes 2 (devCode (if f.set then some f.prefect else none)) ++ leBytes 2 (devCode f.deputy) ++ leBytes 2 (devCode f.head) ++ leBytes 8 live ++
        ((upFrom 0 64).flatMap fun l => leBytes 2 (s0.port l).compiled) ++ leBytes 4 s0.beat.statusWord))) ∧
    (s.starts r t 0x0704 c = true → Completes (.linkStatus r t) s r c s0
      { result := ((upFrom 0 64).filter fun l => bit (j.arg 0) l).flatMap fun l => s0.portRecord j.p l }) ∧
    (s.starts r t 0x0707 c = true → (s0.isPrefect || s0.isDeputy) = true → (s0.form.norms.any fun e => e.1 == j.arg 0 * 8 + j.p) = true →
      Completes (.normRead r t) s r c s0 { result := (tget [] s0.form.norms (j.arg 0 * 8 + j.p)).flatMap normBytes }) ∧
    (∀ x, s.starts r t 0x0801 c = true → j.arg 0 < part.tel.windows.length → part.tel.windows[part.tel.windows.length - 1 - j.arg 0]? = some x →
      Completes (.telRead r t) s r c s0
        { result := (upFrom j.p s0.span).flatMap fun q => s0.recordView (s0.ringVector r).1 (tget [] x.2 q) }) ∧
    (s.starts r t 0x0803 c = true → Completes (.overflowRead r t) s r c s0 { result := (tget [] part.tel.overflow (j.arg 0)).flatMap ovfBytes }) ∧
    (s.starts r t 0x0905 c = true →
      let l := (s0.sec.audit.filter fun e => decide (j.arg 0 ≤ e.seq) && decide (e.seq < j.arg 0 + j.arg 1)).reverse
      let head := leBytes 8 s0.newestSeq ++ leBytes 64 s0.newestDigest.toNat
      Completes (.auditRead r t) s r c s0 { result := l.flatMap auditBytes ++ head ++ padTo 3373 (Config.sign head) }) ∧
    (s.starts r t 0x0906 c = true → 33 ≤ c.payLen → j.num 32 1 ≤ 1 → Completes (.attest r t) s r c s0
      { result := s0.report8 (fnView (s0.ringVector r).1) (j.pay.take 32) ++ if bit (j.num 32 1) 0 then Config.certificates else [] }) ∧
    (s.starts r t 0x0A03 c = true → Completes (.fwQuery r t) s r c s0
      (okBytes 32 (packList [(4, s0.sec.bank0.version), (4, s0.sec.bank1.version), (1, s0.sec.bank), (8, s0.sec.staged.length)]))) ∧
    (s.starts r t 0x0B03 c = true → Completes (.selftestRun r t) s r c { s0 with fresh := s0.fresh + 1 }
      { result := leBytes 64 (Config.freeValue 512 s0.fresh).toNat }) ∧
    (s.starts r t 0x0B12 c = true → Completes (.repairQuery r t) s r c s0 { result := s0.repairBytes }) ∧
    (s.starts r t 0x0B13 c = true → (s0.isPrefect || s0.isDeputy) = true →
      Completes (.noteQuery r t) s r c s0 { result := s0.form.notes.flatMap fun e => noteBytes e.1 }) ∧
    (s.starts r t 0x0C01 c = true →
      Completes (.caretakerQuery r t) s r c s0 { result := (upFrom 1 12).flatMap fun k => dutyBytes k (s0.duty k) })

/-- The commands of jobs and partitions (R24, R338, R372, R379, R387). -/
def Obligations.JobCommandsTakeEffect : Prop :=
  ∀ (s : State) (r t : Nat) (c : Cmd),
    let s0 := s.markStarted r c
    let j := s.job r c
    let part := s0.part j.p

    (s.starts r t 0x0108 c = true → j.arg 0 ≠ 0 → bit levelMask (j.arg 0 - 1) = true →
      Completes (.behaviourPin r t) s r c { s0 with sec := { s0.sec with level := j.arg 0 } } {}) ∧
    (s.starts r t 0x0201 c = true → j.arg 0 ∈ [1, 2, 4, 8] → (∀ p ∈ s0.partList, s0.locked p = false) →
      Completes (.partitionSet r t) s r c (s0.partitionSet (j.arg 0)) {}) ∧
    (∀ b im, s.starts r t 0x0301 c = true → 16 * j.arg 2 ≤ c.payLen → s0.imageOk j.p im = true → s0.overQuota j.p im = false →
      s0.formMismatch im = false →
      let digest := Config.sha512 b
      let s1 := s0.loadJob j.p im digest (j.arg 0) (j.arg 1)
      part.left = false → s0.stackFenced j.p = false → s1.crossesTwo j.p (fun k => (s1.part j.p).plan k) = false →
        Completes (.jobLoad r t (.ok b) (some im)) s r c s1 { result := leBytes 64 digest.toNat } (some digest)) ∧
    (∀ b im, s.starts r t 0x0301 c = true → 16 * j.arg 2 ≤ c.payLen → (match im with | some i => s0.imageOk j.p i | none => false) = false →
      Completes (.jobLoad r t (.ok b) im) s r c { s0 with fresh := s0.fresh + 1 } { status := 0x11, detail := imageDetail s0.fresh }
        (some (Config.sha512 b))) ∧
    (s.starts r t 0x0302 c = true → Completes (.jobUnload r t) s r c (s0.unloadJob j.p) {} (some part.digest)) ∧
    (s.starts r t 0x0304 c = true → 2 * j.arg 0 ≤ c.payLen → (∀ k < j.arg 0, leNat ((j.pay.drop (2 * k)).take 2) < 2 ^ 14) →
      Completes (.jobRanks r t) s r c ((s0.modPart j.p fun part => { part with ranks := readList j.pay (List.replicate (j.arg 0) 2) }).placeBuddy j.p) {}) ∧
    (s.starts r t 0x0501 c = true → (s0.namesOthers j.p = true → s0.form.set = true ∧ s0.beat.epochValid = true) → part.satchel.configured = true →
      (s0.needsKeys j.p = true → part.jobKeysDone = true) → s0.sec.diag = none → part.left = false → s0.stackFenced j.p = false →
        ∀ refill, exec (.jobRun r t refill) s = .next (((s0.refillSet j.p refill).startRun j.p r t (j.arg 0)).modRing r fun g =>
          { g with inflight := g.inflight.map fun x => if x.idx == c.idx then { x with running := true } else x }).settleRings) ∧
    (s.starts r t 0x0502 c = true → Completes (.jobStop r t) s r c
      (if part.job = .running then s0.setPart j.p { part with stopAsked := true } else s0) {}) ∧
    (s.starts r t 0x0504 c = true → 512 ≤ c.payLen → Completes (.frozenSet r t) s r c
      (s0.setPart j.p { part with frozenNext := BitVec.ofNat 4096 (leNat (j.pay.take 512)) }) {})

/-- The commands of the intake and of memory (R246 to R252, R353 to R359, R404, R431). -/
def Obligations.IntakeAndMemoryCommandsTakeEffect : Prop :=
  ∀ (s : State) (r t : Nat) (c : Cmd),
    let s0 := s.markStarted r c
    let j := s.job r c
    let part := s0.part j.p

    let it := part.intake
    (s.starts r t 0x0510 c = true → 64 + 32 * min 16 (leNat ((c.bytes.drop 34).take 1)) ≤ c.payLen → s0.intakeConfigBad j = none →
      let v (k : Nat) : Nat := (readList j.pay intakeSizes).getD k 0
      Completes (.intakeConfig r t) s r c (s0.setPart j.p { part with intake := { it with
        configured := true, ringBase := v 0, key := BitVec.ofNat 64 (v 1), recordBytes := v 2, slotBytes := v 3, slots := v 4, fill := v 5, free := v 6
        epochs := v 7, fields := (upFrom 0 (v 8)).map fun k => BitVec.ofNat 256 (fieldAt j.pay k) } }) {}) ∧
    (s.starts r t 0x0511 c = true → j.arg 0 ≤ 1 → (if j.arg 0 = 1 then it.shards.length else 0) + j.arg 1 ≤ 4096 → 24 * j.arg 1 ≤ c.payLen →
      (∀ k < j.arg 1, it.recordBytes ≤ (shardAt j.pay k).stride ∧ (shardAt j.pay k).len ≤ 2 ^ 36) → (j.arg 0 = 0 → part.job = .loaded) →
      Completes (.intakeShards r t) s r c ((s0.setPart j.p { part with intake := { it with
        shards := if j.arg 0 = 0 then (upFrom 0 (j.arg 1)).map (shardAt j.pay) else it.shards ++ (upFrom 0 (j.arg 1)).map (shardAt j.pay) } }).settleIntake
          j.p) {}) ∧
    (s.starts r t 0x0512 c = true → it.configured = true → Completes (.intakeStart r t) s r c (if it.st = 1 ∨ it.st = 2 then s0 else
      (s0.setPart j.p { part with intake := { it with st := 1, stopStatus := 0 } }).settleIntake j.p) {}) ∧
    (s.starts r t 0x0513 c = true → Completes (.intakeStop r t) s r c (s0.stopIntake j.p 0) {}) ∧
    (s.starts r t 0x0802 c = true → j.arg 2 ≤ 1 → (j.arg 2 = 1 → 2 ≤ j.arg 1 ∧ j.arg 1 ≤ 65536) → Completes (.telStream r t) s r c
      (s0.setPart j.p { part with tel := { part.tel with streamBase := j.arg 0, streamEntries := j.arg 1, streaming := j.arg 2 == 1 } }) {}) ∧
    (s.starts r t 0x0401 c = true → 8 ≤ j.arg 0 → j.arg 0 ≤ 24 → s0.locked j.p = false →
      Completes (.memQuotaSet r t) s r c (s0.setPart j.p { part with quota := [j.arg 0, j.arg 1, j.arg 2, j.arg 3] }) {}) ∧
    (s.starts r t 0x0403 c = true → rangeBad (j.arg 0) (j.arg 1) = none → j.arg 2 ≤ 2 → j.arg 3 ≤ 3 →
      (j.arg 2 ≠ 1 → (tget none part.backends (j.arg 3)).isSome = true) → j.arg 0 + j.arg 1 ≤ 2 ^ 44 →
      (∀ a ∈ part.allocs, j.arg 0 + j.arg 1 ≤ a.base ∨ a.base + a.len ≤ j.arg 0) →
      (∀ e ∈ part.pages, e.2.st = .pin → e.1 < j.arg 0 / pageBytes ∨ (j.arg 0 + j.arg 1) / pageBytes ≤ e.1) →
      let tables := part.newTables (j.arg 0 / pageBytes) (j.arg 1 / pageBytes)
      let frames := tables.length + (if j.arg 2 = 1 then j.arg 1 / pageBytes else 0)
      part.useOf 2 + frames ≤ part.quotaOf 2 ∨ frames = 0 → ∀ u, s0.takeTables j.p tables = some u → Completes (.memAlloc r t) s r c
        (u.modPart j.p fun part => part.addAlloc { base := j.arg 0, len := j.arg 1, policy := j.arg 2, backend := j.arg 3 }) {} ∧
        (∀ k ∈ tables, (tget none (u.part j.p).tables k).isSome = true) ∧ (u.part j.p).allocs = part.allocs) ∧
    (s.starts r t 0x0404 c = true → (s.ring r).find t = some c → c.running = false → rangeBad (j.arg 0) (j.arg 1) = none →
      (part.job = .running → (rangeOf (j.arg 0) (j.arg 1)).any part.namedPage = false) →
      let mine := (rangeOf (j.arg 0) (j.arg 1)).filter fun pg => (part.allocOf pg).isSome
      mine.any (fun pg => s0.pageWaits j.p pg) = false → Completes (.memFree r t) s r c ((mine.foldl (fun s pg => s.freePage j.p pg) s0).modPart j.p fun part =>
        { part with allocs := part.allocs.flatMap fun a => a.without (j.arg 0) (j.arg 1) }) {}) ∧
    (∀ u, s.starts r t 0x0405 c = true → (s.ring r).find t = some c → c.running = false → rangeBad (j.arg 0) (j.arg 1) = none →
      (s0.memFlush j = .done u {} → let e := s.ended r c u {}
        exec (.memFlush r t) s = .next (e.partList.foldl (fun s p => s.flushMore p) e)) ∧
      (s0.memFlush j = .later u → let e := (u.modRing r fun g => { g with inflight := g.inflight.map fun x =>
          if x.idx == c.idx then { x with running := true } else x }).settleRings
        exec (.memFlush r t) s = .next (e.partList.foldl (fun s p => s.flushMore p) e))) ∧
    (s.starts r t 0x0406 c = true → j.arg 0 ≤ 3 → j.arg 4 ≤ 10000 →
      (j.arg 0 = 3 → Completes (.farAttach r t) s r c (s0.setPart j.p { part with
        exports := (part.exports.filter fun e => e.1 != j.arg 3) ++ [(j.arg 3, j.arg 5, j.arg 6)] }) {}) ∧
      (j.arg 0 ≠ 3 → j.arg 1 ≤ 3 → tget none part.backends (j.arg 1) = none → (j.arg 0 = 1 → (s0.portTo (j.arg 2)).isSome = true) →
        (j.arg 0 = 2 → (s0.portToNode (j.arg 2)).isSome = true) →
        Completes (.farAttach r t) s r c (s0.setPart j.p { part with backends := tset none part.backends (j.arg 1) (some
          { kind := j.arg 0, target := j.arg 2, region := j.arg 3, timeoutMs := if j.arg 4 = 0 then 250 else j.arg 4
            base := j.arg 5, len := j.arg 6 }) }) {})) ∧
    (s.starts r t 0x0407 c = true → j.arg 0 ≤ 3 → (tget none part.backends (j.arg 0)).isSome = true →
      (∀ e ∈ part.pages, (e.2.farValid = true ∨ e.2.st = .far ∨ e.2.st = .out ∨ e.2.st = .inn) → ∀ a, part.allocOf e.1 = some a → a.backend ≠ j.arg 0) →
      Completes (.farDetach r t) s r c (s0.setPart j.p { part with backends := tset none part.backends (j.arg 0) none }) {}) ∧
    (∀ im, s.starts r t 0x0408 c = true → part.image = some im → j.arg 0 < im.windows.length →
      (let w := im.windows.getD (j.arg 0) {}
       ∀ pg ∈ upFrom w.firstPage w.pages, ((part.page pg).st = .hbm → (part.page pg).farValid = true) ∧ s0.pageDirty j.p pg = false) →
      Completes (.windowSetVersion r t) s r c (s0.setPart j.p { part with versions := tset 0 part.versions (j.arg 0) (j.arg 1) }) {}) ∧
    (s.starts r t 0x0903 c = true → c.payLen = 0 ∨ 32 ≤ c.payLen → part.rekey = false → s0.locked j.p = false →
      Completes (.memKeyRotate r t) s r c ((s0.modPart j.p fun part => { part with
        keyGen := (part.keyGen + 1) % 32, prevHeld := true, prevKeys := part.keys, rekey := true
        rekeyFar := (part.pages.filter fun e => e.2.st == .far || e.2.st == .inn || e.2.farValid).map Prod.fst }).drawKeys j.p
          (if j.pay.all (· == 0) then [] else j.pay.take 32)) {})

/-- The commands of key-value pools (R173, R183). -/
def Obligations.KvPoolCommandsTakeEffect : Prop :=
  ∀ (s : State) (r t : Nat) (c : Cmd),
    let s0 := s.markStarted r c
    let j := s.job r c
    let part := s0.part j.p

    (s.starts r t 0x0410 c = true → j.arg 0 ∈ [1, 3, 4] → j.arg 1 ≤ 15 → j.arg 3 ≤ 63 → j.arg 4 ≤ 4095 → j.arg 5 ≤ 1023 → j.arg 6 ≠ 0 →
      j.arg 7 ≤ 1 → 12 * (j.arg 2 + 1) ≤ c.payLen →
      (∀ l < j.arg 2 + 1, (kvLayerEntry j.pay l).getD 0 0 < 4096 ∧ (kvLayerEntry j.pay l).getD 1 0 = 0) → part.pool = none →
      s0.otherSlots j.p + (j.arg 5 + 1) ≤ 1024 → part.useOf 2 + j.arg 6 ≤ part.quotaOf 2 →
      let entry (l : Nat) : Nat × W32 × W32 := ((kvLayerEntry j.pay l).getD 0 0, BitVec.ofNat 32 ((kvLayerEntry j.pay l).getD 2 0),
        BitVec.ofNat 32 ((kvLayerEntry j.pay l).getD 3 0))
      ∀ u k, s0.addPoolPages j.p (j.arg 6) { type := j.arg 0, hdim := 16 * (j.arg 1 + 1), layers := j.arg 2 + 1, heads := j.arg 3 + 1
                                             maxp := j.arg 4 + 1, slots := j.arg 5 + 1, grow := j.arg 7 == 1
                                             table := (upFrom 0 (j.arg 2 + 1)).map entry } = some (u, k) →
        Completes (.kvPoolCreate r t) s r c (u.setPool j.p k) {}) ∧
    ∀ k, part.pool = some k →
      (s.starts r t 0x0416 c = true → Completes (.kvPoolDestroy r t) s r c
        ((k.pages.foldl (fun s pg => s.freePage j.p pg) s0).modPart j.p fun part => { part with pool := none }) {}) ∧
      (j.arg 0 < k.slots →
        (s.starts r t 0x0411 c = true → (k.slot (j.arg 0)).st = 0 → Completes (.kvSeqOpen r t) s r c
          (s0.setPool j.p (k.modSlot (j.arg 0) fun _ => { st := 1, tag := j.arg 1 })) {}) ∧
        (s.starts r t 0x0412 c = true → (k.slot (j.arg 0)).st = 1 → Completes (.kvSeqPark r t) s r c
          ((s0.setPool j.p (k.modSlot (j.arg 0) fun d => { d with st := 2, parkBeat := s0.slot / 2 ^ 20 % 2 ^ 32 })).kvPump j.p) {}) ∧
        (s.starts r t 0x0413 c = true → (k.slot (j.arg 0)).st = 2 → (k.slot (j.arg 0)).evicted = false → Completes (.kvSeqResume r t) s r c
          (s0.setPool j.p (k.modSlot (j.arg 0) fun d => { d with st := 1 })) {}) ∧
        (s.starts r t 0x0414 c = true → (s.ring r).find t = some c → c.running = false → (k.slot (j.arg 0)).st ≠ 0 →
          (∀ x ∈ k.reqs, x.slot ≠ j.arg 0) → Completes (.kvSeqClose r t) s r c
            (s0.setPool j.p ((k.freeSlot (j.arg 0)).modSlot (j.arg 0) fun _ => {})) {}))

/-- The commands of satchels, Forms and links (R280, R295, R309, R323, R332 to R335). -/
def Obligations.FormAndSatchelCommandsTakeEffect : Prop :=
  ∀ (s : State) (r t : Nat) (c : Cmd),
    let s0 := s.markStarted r c
    let j := s.job r c
    let part := s0.part j.p

    (s.starts r t 0x0601 c = true → j.arg 0 ≠ 0 → j.arg 2 ≤ 1023 → j.arg 3 ≤ 1 → (j.arg 3 = 0 → part.deviceCount ≤ 1) → j.arg 4 ≤ 3 →
      (j.arg 1 ≠ 0 → (tget none part.backends (j.arg 4)).isSome = true) → j.arg 5 ≤ 16 → j.arg 6 ≠ 0 → j.arg 6 ≤ 64 →
      j.arg 6 = (match part.image with | some im => im.state | none => []).length → 8 * j.arg 6 ≤ c.payLen → part.badSetBase (setBases j) = none →
      let free := part.release 2 part.satReserve
      let new : Part := { free with satchel := { free.satchel with
        configured := true, set := setBases j, interval := j.arg 0, farEvery := j.arg 1, satBell := j.arg 2, buddyEn := j.arg 3 == 1
        farBackend := j.arg 4, spares := j.arg 5, baseNext := true } }
      new.useOf 2 + new.satReserve ≤ new.quotaOf 2 →
        Completes (.satchelConfig r t) s r c ((s0.setPart j.p (new.charge 2 new.satReserve)).placeBuddy j.p) {}) ∧
    (s.starts r t 0x0603 c = true → Completes (.satchelTake r t) s r c
      (s0.setPart j.p { part with satchel := { part.satchel with dueNext := true } }) {}) ∧
    (∀ l, s.starts r t 0x0604 c = true →
      (j.arg 0 = 0 → s0.ownStateHolds j.p = true → Completes (.satchelRestore r t l) s r c (s0.modPart j.p fun part => { part with job := .held }) {}) ∧
      (∀ src rest, (j.arg 0 = 0 ∧ s0.ownStateHolds j.p = false) ∨ (j.arg 0 = 1 ∧ ∀ k, part.satchel.committed = some k → k = src.record.step) ∨
          (j.arg 0 = 2 ∧ ∀ k, part.satchel.far = some k → k = src.record.step) →
        l = some src :: rest → (∀ pg ∈ src.record.pages, src.pages.any (fun e => e.1 == pg) = true) → src.record.digest = part.digest →
        src.record.level = (match part.image with | some im => im.level | none => 0) → (∀ k < 4, src.record.use.getD k 0 ≤ part.quotaOf k) →
        Completes (.satchelRestore r t l) s r c ((s0.restoreFrom j.p src).modPart j.p fun part => { part with job := .held }) {})) ∧
    (∀ fits rec arrived s1 u, s.starts r t 0x0605 c = true → (s.ring r).find t = some c → c.running = false → j.arg 0 < part.ranks.length →
      j.arg 1 < 2 ^ 14 → s0.form.absent.contains (j.arg 1) = false → s0.isPrefect = true → s0.form.absent.contains (part.ranks.getD (j.arg 0) 0) = true →
      (part.spareFill = none ∧ s1 = s0.modPart j.p fun part => part.startFill (j.arg 0) (j.arg 1) false) ∨
        ((∃ x, part.spareFill = some (j.arg 0, x)) ∧ part.fillDev = some (j.arg 1) ∧ s1 = s0.modPart j.p fun part => { part with fillAuto := false }) →
      (fits = false → Completes (.spareFill r t fits rec arrived) s r c s0 { status := stFormMismatch }) ∧
      (fits = true → j.arg 1 = s0.self ∨ (s0.portTo (j.arg 1)).isSome = true →
        (s1.fillOn rec arrived j = .done u {} → Completes (.spareFill r t fits rec arrived) s r c u {}) ∧
        (s1.fillOn rec arrived j = .later u → exec (.spareFill r t fits rec arrived) s = .next (u.modRing r fun g =>
          { g with inflight := g.inflight.map fun x => if x.idx == c.idx then { x with running := true } else x }).settleRings))) ∧
    (∀ data, s.starts r t 0x0606 c = true → movesAt (j.arg 1) + 24 * j.arg 2 ≤ c.payLen → part.badPlan j = none → s0.isPrefect = true →
      j.arg 0 = part.layoutEpoch → leNat (j.pay.take 64) = part.digest.toNat →
      let ranks := readList (j.pay.drop 64) (List.replicate (j.arg 1) 2)
      let mine := (planMoves j).filter fun m => ranks.getD m.dst 0 == s0.self
      (∀ m ∈ mine, ∀ pg ∈ rangeOf m.base m.len, (part.allocOf pg).isSome = true) →
      let s1 := s0.setPart j.p { part with layoutEpoch := (part.layoutEpoch + 1) % 2 ^ 32 }
      Completes (.reshardRun r t true data) s r c (((s1.takeMoves j.p mine data).modPart j.p fun part => { part with
        ranks := ranks, movesDone := planMoves j, satchel := { part.satchel with dueNext := true, baseNext := true } }).placeBuddy j.p) {} ∧
      Completes (.reshardRun r t false data) s r c s1 { status := 0x61 }) ∧
    (∀ links, s.starts r t 0x0701 c = true → j.arg 1 ≤ 63 → j.arg 2 ≤ 3 → j.arg 3 ≤ 63 → j.arg 4 ≤ 63 → 256 + 8 * j.arg 5 ≤ c.payLen →
      badSetup j.pay (j.arg 5) = none → (j.arg 2 = 0 ∨ j.arg 2 = 2 → (peerOf (linkMap j.pay) (j.arg 3)).isSome = true) →
      s0.strapsDiffer (j.arg 0) (j.arg 1) = false →
      (∀ e ∈ linkMap j.pay, e.2.valid = true → s0.canTrain e.1 = true ∧ links.any (fun x => x.1 == e.1) = true) →
      Completes (.formSetup r t links true) s r c (s0.formSetup
        (formOf (j.arg 0) (j.arg 1) (j.arg 2) (j.arg 3) (j.arg 4) (linkMap j.pay) (bellRoutes j.pay (j.arg 5))) (j.arg 3) (j.arg 4) links) {}) ∧
    (∀ links, s.starts r t 0x0703 c = true →
      let named := (upFrom 0 64).filter fun l => bit (j.arg 0) l
      let s1 := { s0 with care := { s0.care with lasersOff := s0.care.lasersOff.filter fun k =>
        !(named.any fun l => l / 4 == k) || decide (600 ≤ tget 0 s0.care.latest (288 + k)) } }
      (∀ l ∈ named, (s0.part (s0.partOfPort l)).usesPort l = true → (s0.part (s0.partOfPort l)).job ≠ .running) →
      (∀ l ∈ named, s1.canTrain l = true ∧ links.any (fun x => x.1 == l) = true) →
      Completes (.linkMeasure r t links) s r c (named.foldl (fun s l => match links.find? fun x => x.1 == l with
        | some (_, m, lanes) => (s.measurePort l m).portUp l (lanes % 16)
        | none => s) s1) {}) ∧
    (s.starts r t 0x0705 c = true → j.arg 0 < 2 ^ 14 → s0.form.set = true → (j.arg 1 ≠ 3 → j.arg 0 / 64 = s0.form.form) →
      (j.arg 1 = 1 → Completes (.roleSet r t) s r c { s0 with form := { s0.form with handover := some (j.arg 0) } } {}) ∧
      (j.arg 1 = 2 → Completes (.roleSet r t) s r c { s0 with form := { s0.form with
        deputy := some (j.arg 0), role := if j.arg 0 = s0.self then 2 else if s0.form.role = 2 then 0 else s0.form.role } } {}) ∧
      (j.arg 1 = 3 → Completes (.roleSet r t) s r c { s0 with form := { s0.form with deputyHead := some (j.arg 0) } } {})) ∧
    (s.starts r t 0x0706 c = true → s0.form.set = true →
      (j.arg 0 = s0.self → let s1 := (upFrom 0 64).foldl (fun s l => s.portDown l) s0
        Completes (.formLeave r t) s r c { s1 with form := { noteWindow := s1.form.noteWindow }, beat := { errors := s1.beat.errors } } {}) ∧
      (j.arg 0 ≠ s0.self → j.arg 0 ∈ s0.members → s0.isPrefect = true →
        Completes (.formLeave r t) s r c (s0.declareAbsent (j.arg 0)) {}))

/-- The commands of security, firmware and diagnosis (R242, R317, R391 to R393, R399, R406, R408, R429). -/
def Obligations.SecurityCommandsTakeEffect : Prop :=
  ∀ (s : State) (r t : Nat) (c : Cmd),
    let s0 := s.markStarted r c
    let j := s.job r c
    let part := s0.part j.p

    let d := s.dropChallenge r
    let d0 := d.markStarted r c
    let jd := d.job r c
    (d.starts r t 0x0901 c = true → ringPart r = none → jd.arg 0 = 2 ∨ jd.arg 0 = 3 →
      (s.authDue r t 1 = true → 1 ≤ c.payLen → let n := (Config.random d0.fresh).toNat
        fits r c { result := leBytes 32 n } = true → exec (.roleAuthChallenge r t) s = .next (d.ended r c
          (({ d0 with fresh := d0.fresh + 1 }).modRing r fun g => { g with challenge := some (n, d0.tick) }) { result := leBytes 32 n })) ∧
      (s.authDue r t 2 = true → (if jd.arg 0 = 3 then 5359 else 3375) ≤ c.payLen → jd.num 1 1 ≤ 3 →
        let g := d0.ring r
        let fails := if g.failMinute = d0.minute then g.failures else 0
        fails < 16 →
        let good := match (s.ring r).challenge, d0.authKey jd with
          | some (n, t0), some key => decide (d0.tick < t0 + challengeTicks) && bothVerify key (authMessage n r (jd.arg 0)) (jd.num 2 64) (jd.num 66 3309)
          | _, _ => false
        (good = true → exec (.roleAuthResponse r t) s = .next (d.ended r c (d0.modRing r fun g => { g with role := jd.arg 0, cred := jd.num 1 1 }) {})) ∧
        (good = false → exec (.roleAuthResponse r t) s = .next (d.ended r c
          (d0.modRing r fun g => { g with failures := fails + 1, failMinute := d0.minute }) { status := 0x30 }))) ∧
      (s.authDue r t 3 = true → 1986 ≤ c.payLen → jd.num 1 1 ≤ 3 → d0.unowned = true ∨ d0.roleOf r = 2 →
        let s1 := { d0 with sec := { d0.sec with creds := tset none d0.sec.creds (jd.num 1 1) (some (jd.num 2 32, jd.num 34 1952)) } }
        exec (.roleAuthEnrol r t) s = .next (d.ended r c (if d0.unowned then s1.modRing r fun g => { g with role := 2, cred := jd.num 1 1 } else s1) {})) ∧
      (s.authDue r t 4 = true → 2 ≤ c.payLen → jd.num 1 1 ≤ 3 → (tget none d0.sec.creds (jd.num 1 1)).isSome = true → d0.roleOf r = 2 →
        1 < (d0.sec.creds.filter fun e => e.2.isSome).length → exec (.roleAuthRevoke r t) s = .next (d.ended r c
          { d0 with sec := { d0.sec with creds := tset none d0.sec.creds (jd.num 1 1) none } } {}))) ∧
    (∀ n t0, (s.ring r).challenge = some (n, t0) → t0 + challengeTicks ≤ s.tick → exec (.challengeExpiry r) s = .next d) ∧
    (∀ key, s.starts r t 0x0902 c = true → 1264 ≤ c.payLen → badKeyMessage j = none → Config.openJobSecret (j.pay.take 1264) = some key →
      j.num 16 64 = part.digest.toNat →
      let s1 := s0.setPart j.p { part with jobKey := true, jobSecret := key, jobId := j.num 8 8 }
      let s2 := (s1.part j.p).jobPorts.foldl (fun s l => s.keyPort j.p l) s1
      (s2.portsKeyed j.p = true → let s3 := s2.modPart j.p fun part => { part with jobKeysDone := true }
        Completes (.jobKeys r t) s r c s3 { result := s3.confirmation j.p } (some part.digest)) ∧
      (s2.portsKeyed j.p = false → exec (.jobKeys r t) s = .next (s2.modRing r fun g =>
        { g with inflight := g.inflight.map fun x => if x.idx == c.idx then { x with running := true } else x }).settleRings)) ∧
    (∀ p k cmd, s.keysCmd p = some (k, cmd) → cmd.startTick + 250000000 ≤ s.tick → exec (.jobKeysTimeout p) s =
      .next (s.endKeys p { status := if (s.part p).jobPorts.any fun l => !(s.port l).up then 0x40 else 0x70 })) ∧
    (s.starts r t 0x0904 c = true → 40 ≤ c.payLen → j.num 0 4 ≤ 15 → 1 ≤ j.num 4 4 → j.num 4 4 ≤ 86400 →
      let b := tokenBody (s0.sec.tokenSeq + 1) (j.num 0 4) s0.sec.boots (s0.tick + 25000000 * j.num 4 4) ((j.pay.drop 8).take 32)
      Completes (.consentIssue r t) s r c { s0 with sec := { s0.sec with tokenSeq := s0.sec.tokenSeq + 1 } }
        { result := b ++ padTo 3373 (Config.sign b) }) ∧
    (s.starts r t 0x0A01 c = true → j.arg 0 = 0 ∨ j.arg 0 = s0.sec.staged.length ∧ j.arg 1 = s0.sec.stageTotal → j.arg 0 + c.payLen ≤ j.arg 1 →
      let b := if j.arg 0 = 0 then j.pay else s0.sec.staged ++ j.pay
      let sec := { s0.sec with staged := b, stageTotal := j.arg 1 }
      Completes (.fwStage r t) s r c
        { s0 with sec := if sec.bank = 0 then { sec with bank1 := imageOfBytes b } else { sec with bank0 := imageOfBytes b } } {}) ∧
    (s.starts r t 0x0A02 c = true → s0.sec.bankFails s0.sec.otherBank = none → r ≠ i3cRing →
      let s1 := ((s0.auditCmd r { c with role := s0.roleOf r } 0 (some s.sec.otherBank.digest)).queueCompletion r c { status := 0x01 }).postAll r
      exec (.fwActivate r t) s = .next (s1.intoBank.modRing r fun g =>
        { g with inflight := g.inflight.map fun x => if x.idx == c.idx then { x with running := true } else x }).settleRings) ∧
    (s.starts r t 0x0B01 c = true → 3445 ≤ c.payLen →
      let scope := j.num 24 4
      Config.verify (Config.aliasKey 0) (j.pay.take 72) (j.num 72 64) = true → Config.verify (Config.aliasKey 1) (j.pay.take 72) (j.num 136 3309) = true →
      j.num 0 16 = Config.serial.toNat → j.num 28 4 = s0.sec.boots → s0.tick < j.num 32 8 → s0.sec.tokenUsed < j.num 16 8 →
      (bit scope 1 = true → ∀ p ∈ s0.partList, (s0.part p).job = .none) →
      let s1 := { s0 with sec := { s0.sec with tokenUsed := j.num 16 8, diag := some (scope, j.num 32 8) } }
      Completes (.diagOpen r t) s r c (if bit scope 1 then s1.rawTest else s1) {}) ∧
    (s.starts r t 0x0B02 c = true → Completes (.diagClose r t) s r c { s0 with sec := { s0.sec with diag := none } } {}) ∧
    (∀ scope e, s.sec.diag = some (scope, e) → e ≤ s.tick → exec .diagExpiry s = .next { s with sec := { s.sec with diag := none } }) ∧
    (s.starts r t 0x0B10 c = true → j.arg 0 ≤ 31 → j.arg 1 ≤ 30 → Completes (.hbmSpare r t) s r c
      (if (s0.stack (j.arg 0)).st == .spare && (s0.stack (j.arg 0)).spareFor == j.arg 1 then s0 else s0.spareChannel (j.arg 0) (j.arg 1)) {}) ∧
    (s.starts r t 0x0B11 c = true → j.arg 0 ≤ 31 → j.arg 1 ≤ 49 → Completes (.siteFence r t) s r c (s0.fenceSite (50 * j.arg 0 + j.arg 1)) {}) ∧
    (s.starts r t 0x0C02 c = true → c.payLen % 8 = 0 → (∀ k < j.pay.length / 8, badDuty j k = none) → Completes (.caretakerSet r t) s r c
      ((upFrom 0 (j.pay.length / 8)).foldl (fun s k => s.modDuty (dutyEntry j k).1 fun d => { d with period := (dutyEntry j k).2.2 }) s0) {})

/-- The I3C channel (R384, R385). -/
def Obligations.I3cChannelAnswers : Prop :=
  ∀ (s : State),
    (∀ bytes : List Byte, s.i3cHears = true → s.i3c.st ≠ 1 →
      let s1 := s.releaseAlert
      let seq := (bytes.getD 1 0).toNat
      (Sys2Proof.Machine.frameGood bytes = true → exec (.i3cPrivateWrite bytes) s = .next ((({ s1 with i3c := { s1.i3c with
        st := 1, seq := seq, answer := [] } }).modRing i3cRing fun g =>
          { g with enable := true, inflight := [frameCmd bytes s1.tick], waiting := [] }).settleRings)) ∧
      (Sys2Proof.Machine.frameGood bytes = false → exec (.i3cPrivateWrite bytes) s =
        .next { s1 with i3c := { s1.i3c with st := 3, seq := seq, answer := [] } })) ∧
    (∀ bytes : List Byte, s.i3cHears = false ∨ s.i3c.st = 1 → exec (.i3cPrivateWrite bytes) s = .next (s.put .nack)) ∧
    (s.i3cHears = true → exec .i3cPrivateRead s =
      .next (if s.i3c.st = 2 then (s.put (.i3c s.i3c.readBytes)).releaseAlert else s.put (.i3c s.i3c.readBytes)) ∧
      exec .getpid s = .next (s.put (.i3c s.pid)) ∧ exec .getbcr s = .next (s.put (.i3c (padTo 1 (Config.i3cAnswer 1)))) ∧
      exec .getdcr s = .next (s.put (.i3c (padTo 1 (Config.i3cAnswer 2)))) ∧
      exec .getstatus s = .next (s.put (.i3c (padTo 2 (Config.i3cAnswer 3)))) ∧
      (∀ b, s.pid.getLast? = some b → b.toNat % 64 = s.power.straps.toNat % 64)) ∧
    (s.i3cOn = true → (s.i3c.addr = none → ∀ a, exec (.entdaa a) s = .next { s with i3c := { s.i3c with addr := some a } } ∧
        exec (.setdasa a) s = .next { s with i3c := { s.i3c with addr := some a } }) ∧
      ∃ u : State, exec .rstdaa s = .next u ∧ u.i3c = { s.i3c with addr := none } ∧ (u.ring i3cRing).role = 0 ∧ (u.ring i3cRing).cred = 0xFF) ∧
    exec .enec s = .next s ∧ exec .disec s = .next s

/-- The pins of the module (R433, R434, R440, R442 to R445). -/
def Obligations.PowerPinsAct : Prop :=
  ∀ (s : State),
    (∀ second, s.power.input = false → (s.power.emergOff = false ∨ second = true) → ∃ u : State, exec (.inputGood second) s = .next u ∧
      u.tick = 0 ∧ u.power.phase = .strap ∧ u.power.stage = 1 ∧ u.power.input = true ∧ u.power.emergOff = false ∧
      u.power.emergLatched = s.power.emergOff ∧ u.power.mainOn = false ∧ u.sec.svnMin = s.sec.svnMin ∧ u.sec.creds = s.sec.creds) ∧
    (s.power.input = false → s.power.emergOff = true → exec (.inputGood false) s = .next { s with power := { s.power with input := true } }) ∧
    (s.power.input = true → ∃ u : State, exec .inputLoss s = .next u ∧ u.power.input = false ∧ u.power.phase = .off ∧ u.power.mainOn = false ∧
      u.cores = [] ∧ u.sec.svnMin = s.sec.svnMin) ∧
    (s.power.input = true → s.power.overVolt = false → ∃ u : State, exec .overVoltage s = .next u ∧ u.power.overVolt = true ∧
      u.power.phase = .off ∧ u.cores = []) ∧
    (s.power.overVolt = true → s.power.emergOff = false → ∃ u : State, exec .overVoltageClear s = .next u ∧ u.power.overVolt = false ∧
      u.power.phase = .strap ∧ u.power.stage = 1 ∧ u.tick = 0) ∧
    (s.power.input = true → s.power.emergOff = false → ∃ u : State, exec .emergOff s = .next u ∧ u.power.emergOff = true ∧
      u.power.lasersOff = true ∧ u.power.phase = .off ∧ u.cores = []) ∧
    exec .perstRelease s = .next { s with power := { s.power with perst := true } } ∧
    (∃ u : State, exec .perstAssert s = .next u.settleRings ∧ u.power.perst = false ∧ u.power.linkUp = false ∧
      u.cores = (if s.power.perst then s.flrAll else s).cores) ∧
    (∀ level f, ∃ u : State, exec (.seatInChange level) s = .next u ∧ u = { s with power := { s.power with seatIn := level } } ∧
      bit (u.regValue f .aonSide) 21 = level) ∧
    (∀ cart, cart ≤ 15 →
      let dark := ({ s with power := { s.power with cartsOut := addOnce s.power.cartsOut cart } }).cartridgeDark cart
      ∃ u : State, exec (.cartridgeLatchOpen cart) s = .next u ∧ (∀ l, l / 4 = cart → (u.port l).cal = false) ∧
        (∀ l, l / 4 ≠ cart → u.port l = dark.port l) ∧ u = { dark with ports := u.ports }) ∧
    (∀ cart, exec (.cartridgeLatchClose cart) s = .next { s with
      power := { s.power with cartsOut := s.power.cartsOut.filter (· != cart) }
      care := { s.care with lasersOff := s.care.lasersOff.filter (· != cart) } }) ∧
    (s.power.phase = .run → s.power.stage = 4 → s.power.pastStep4 = true → ∃ u : State, exec .pwrEnRise s = .next u ∧ u.power.stage = 5 ∧
      u.power.pwrEn = true) ∧
    (s.power.phase = .run → 5 ≤ s.power.stage → ∃ u : State, exec .pwrEnFall s = .next u ∧ u.power.stage = 4 ∧ u.power.mainOn = false ∧
      u.power.computeReady = false ∧ u.power.pwrEn = false ∧ u.cores = [])

/-- Start-up (R397, R438, R447, R448). -/
def Obligations.StartUpGoesStepByStep : Prop :=
  ∀ (s : State),
    (∀ mv, s.power.phase = .strap → ∃ u : State, exec (.strapPhaseEnd mv) s = .next (u.drive "PWR_OK" true) ∧ u.power.phase = .run ∧
      u.power.stage = 3 ∧ u.power.pwrOk = true ∧ u.power.straps = BitVec.ofNat 18 (strapBits mv) ∧ u.power.strapValid = (strapWord mv).isSome ∧
      u.tick = max s.tick 500000) ∧
    (s.atStep 3 = true →
      exec (.bootRomCheck false) s = .next (s.enterFault 0x61) ∧
      (s.sec.bankFails s.runningBank = none → exec (.bootRomCheck true) s = .next (s.toStep 4)) ∧
      (s.sec.bankFails s.runningBank ≠ none → s.sec.bankFails s.sec.otherBank = none → exec (.bootRomCheck true) s =
        .next (({ s with sec := { s.sec with bank := 1 - s.sec.bank, fallback := true } }).toStep 4)) ∧
      (s.sec.bankFails s.runningBank ≠ none → s.sec.bankFails s.sec.otherBank ≠ none → exec (.bootRomCheck true) s =
        .next { s.enterFault 0x61 with sec := { (s.enterFault 0x61).sec with recovery := true } })) ∧
    (s.atStep 4 = true → s.power.fwReady = false → s.power.restartCause = 0 →
      exec (.repairRecordCheck false) s = .next (s.enterFault 0x61) ∧
      ∃ u : State, exec (.repairRecordCheck true) s = .next ((u.toStep (if s.power.pwrEn then 5 else 4)).settleRings) ∧
        u.sec.boots = (s.sec.boots + 1) % 2 ^ 32 ∧ u.power.fwReady = true) ∧
    (s.atStep 5 = true → exec (.mainRegulatorsUp false) s = .next (s.enterFault 0x61) ∧
      exec (.mainRegulatorsUp true) s = .next (({ s with power := { s.power with mainOn := true } }).toStep 6)) ∧
    (∀ failed, s.atStep 6 = true →
      let s1 := (upFrom 0 32).foldl (fun s h => s.modStack h fun st => { st with trainedAt := tget 0 s.care.latest (192 + h) }) s
      let s2 := (failed.filter fun h => decide (h < 32)).foldl (fun s h => s.fenceStack h) s1
      ∃ u : State, exec (.hbmTrainingDone failed) s = .next (u.toStep 7) ∧
        u = { s2 with parts := u.parts, fresh := s2.fresh + 3 * s2.partList.length } ∧
        ∀ p ∈ s2.partList, (u.part p).memKeys = true ∧ (u.part p).keyGen = 0 ∧ (u.part p).prevHeld = false) ∧
    (∀ fails attn cache, s.atStep 7 = true →
      let s1 := s.sec.repairs.foldl (fun s r => s.applyRepair r) s
      let s2 := (fails.filter fun x => decide (x < 1600)).foldl (fun s x => s.fenceSite x) s1
      exec (.selfTestDone fails attn cache) s = .next (((upFrom 0 1600).foldl (fun s x => if (s.site x).fenced then s else
        s.attnCheck x (!attn.contains x) (!cache.contains x)) s2).seatPlans.toStep 8)) ∧
    (∀ failed, s.atStep 8 = true → ∃ u : State, exec (.opticalCalibrationDone failed) s = .next ((u.toStep 9).settleRings) ∧
      u.power.computeReady = true ∧ u.sec = s.sec.ready s.runningBank ∧
      ∀ l < 64, l / 4 ∉ s.power.cartsOut → l ∉ failed → (u.port l).cal = true)

/-- R30: subnormals are flushed; and encodings convert to themselves. -/
def Obligations.SubnormalsFlushAndFormatsRoundTrip : Prop :=
  (∀ t ∈ [0, 1, 2, 5, 6],
    (∀ n, bits n (fracBits t) (expBits t) = 0 → decodeFloat t n = .fin (bit n (typeBits t - 1)) 0 0) ∧
    ∀ (neg : Bool) (m : Nat) (e : Int), 0 < m →
      let r := roundTo (fracBits t + 1) m e
      let sh := (r.2 - e).toNat
      (e ≤ r.2 ∧ r.1 ≤ 2 ^ (fracBits t + 1) ∧ 2 * m ≤ 2 * r.1 * 2 ^ sh + 2 ^ sh ∧ 2 * r.1 * 2 ^ sh ≤ 2 * m + 2 ^ sh ∧
        (2 * m = 2 * r.1 * 2 ^ sh + 2 ^ sh ∨ 2 * r.1 * 2 ^ sh = 2 * m + 2 ^ sh → r.1 % 2 = 0) ∧ (m < 2 ^ (fracBits t + 1) → r = (m, e))) ∧
      (leadExp r.1 r.2 < minExp t → convert t (.fin neg m e) = ⟨signBit t neg, false, false⟩)) ∧
  (∀ t ∈ [0, 1, 2, 3, 5, 6], ∀ n < 2 ^ typeBits t,
    (decodeFloat t n = .nan → (convert t (decodeFloat t n)).bits = canonNan t) ∧
    (decodeFloat t n ≠ .nan → (t = 3 ∨ bits n (fracBits t) (expBits t) ≠ 0 ∨ bits n 0 (fracBits t) = 0) →
      (convert t (decodeFloat t n)).bits = n)) ∧
  ∀ n < 2 ^ 32, bits n 23 8 ≠ 0 → decodeFloat 5 n ≠ .nan → (convert 6 (decodeFloat 5 n)).bits = n * 2 ^ 16

/-- Stochastic rounding (R48). -/
def Obligations.StochasticRounding : Prop :=
  ∀ t ∈ [0, 1, 2, 3, 5, 6],
    (∀ n < 2 ^ typeBits t, (∃ neg m e, decodeFloat t n = .fin neg m e) →
      (t = 3 ∨ bits n (fracBits t) (expBits t) ≠ 0 ∨ bits n 0 (fracBits t) = 0) → ∀ r, (stochastic t r (decodeFloat t n)).bits = n) ∧
    ∀ (neg : Bool) (m : Nat) (e : Int), 0 < m →
      (exceeds t m e = false →
        let g : Int := (if t = 3 then max (leadExp m e) 0 else leadExp m e) - fracBits t
        let sh := (g - e).toNat
        let lo := m / 2 ^ sh
        let f := (m % 2 ^ sh) * 65536 / 2 ^ sh
        e < g → m % 2 ^ sh ≠ 0 → lo * 2 ^ sh < m ∧ m < (lo + 1) * 2 ^ sh ∧ f < 65536 ∧
          ∀ r, stochastic t r (.fin neg m e) = encodeFin t neg (if r < f then lo + 1 else lo) g) ∧
      (let g : Int := leadExp (maxFinite t).1 (maxFinite t).2 - fracBits t
       let top := roundGrid (maxFinite t).1 (maxFinite t).2 g + 1
       exceeds t m e = true → dyGt top g m e = false → ∀ r, stochastic t r (.fin neg m e) = encodeFin t neg top g)

/-- Writes into scratchpad and draft lines (R6, R61, R78). -/
def Obligations.ScratchpadWritesReadBack : Prop :=
  ∀ (core : Core) (a v k : Nat),
    let fair := core.putNat none a v k
    ((∀ b, core.byteAt [] b = tget 0 core.spad b) ∧
      fair.readNat [] a k = v % 256 ^ k ∧ ∀ b view, (b < a ∨ a + k ≤ b) → fair.byteAt view b = core.byteAt view b) ∧
    ∀ g,
      let mine := core.putNat (some g) a v k
      mine.readNat [g] a k = v % 256 ^ k ∧ (∀ b, (b < a ∨ a + k ≤ b) → mine.byteAt [g] b = core.byteAt [g] b) ∧
      (∀ b view, g ∉ view → mine.byteAt view b = core.byteAt view b) ∧ mine.spad = core.spad
end

