-- ==== Sys2Proof/Laws/Commands.lean ====
section
/-! SUPPORT. What a command of a Nerca ring does, once it starts (R372). -/

namespace Sys2Proof.Machine

open Sys2Proof

/-- A command that starts, and whose own rules are met, passes every check. -/
theorem check_of_starts {s : State} {r t op : Nat} {c : Cmd} {rules : CmdRules} (h : s.starts r t op c = true)
    (hi : rules.inline (s.markStarted r c) (s.job r c) = none) (hn : rules.need (s.job r c) ≤ c.payLen)
    (hp : rules.pay (s.markStarted r c) (s.job r c) = none) : (s.markStarted r c).check r c rules = .inr (s.job r c) := by
  simp only [State.starts, Bool.and_eq_true, decide_eq_true_eq, beq_iff_eq, Option.isNone_iff_eq_none, Bool.or_eq_true] at h
  obtain ⟨⟨⟨⟨⟨⟨⟨_, _⟩, hop⟩, _⟩, hs⟩, hpay⟩, hc⟩, hz⟩ := h
  have hj : ({ r := r, c := c, p := (s.markStarted r c).cmdPart r c, args := readList c.argBytes ((cmdSpec c.opcode).getD {}).args
               pay := c.bytes } : Job) = s.job r c := rfl
  have hp' : (s.job r c).p = (s.markStarted r c).cmdPart r c := rfl
  subst hop
  have hl : ¬ c.payLen < rules.need (s.job r c) := by omega
  have hcls : (!(s.markStarted r c).inClass (s.job r c).p ((cmdSpec c.opcode).getD {}).cls ||
      (((cmdSpec c.opcode).getD {}).compute && !(s.markStarted r c).power.computeReady)) = false := by
    rw [hp', hc]
    rcases hz with hz | hz <;> simp_all
  obtain ⟨b, hb⟩ : ∃ b, (if c.payLen = 0 then Dma.ok [] else c.payload) = .ok b := by
    rcases hpay with h0 | h0
    · exact ⟨[], by simp [h0]⟩
    · cases hd : c.payload <;> simp_all
      split
      · exact ⟨_, rfl⟩
      · exact ⟨_, rfl⟩
  rw [hp'] at hcls
  simp only [State.check, hs, hj, hi, hl, if_false, hb, hp, hcls, Bool.false_eq_true]

/-- A command that starts, meets its own rules and does its work completes with its answer. -/
theorem runCmd_done {s s1 : State} {r t op : Nat} {c : Cmd} {rules : CmdRules} {f : State → Job → CmdRes} {a : Answer}
    {digest : Option (BitVec 512)} (h : s.starts r t op c = true)
    (hi : rules.inline (s.markStarted r c) (s.job r c) = none) (hn : rules.need (s.job r c) ≤ c.payLen)
    (hp : rules.pay (s.markStarted r c) (s.job r c) = none) (hf : f (s.markStarted r c) (s.job r c) = .done s1 a)
    (ha : fits r c a = true) : s.runCmd r t op rules f digest = s.ended r c s1 a digest := by
  have hc := check_of_starts h hi hn hp
  simp only [State.starts, Bool.and_eq_true, decide_eq_true_eq, beq_iff_eq, Bool.not_eq_true'] at h
  obtain ⟨⟨⟨⟨⟨⟨⟨hst, ht⟩, hop⟩, hu⟩, _⟩, _⟩, _⟩, _⟩ := h
  have ha' : ¬ ((if r = i3cRing then 4096 else c.resLen) < a.result.length) := by simpa [fits] using ha
  simp only [State.runCmd, hst, ht, hop, hu, hc, hf, bne_self_eq_false, Bool.or_self, Bool.false_eq_true, if_false, ha', State.ended]

/-- A command that starts, meets its own rules and is turned away by its work completes with the status of that, and nothing else. -/
theorem runCmd_fail {s : State} {r t op : Nat} {c : Cmd} {rules : CmdRules} {f : State → Job → CmdRes} {a : Answer}
    {digest : Option (BitVec 512)} (h : s.starts r t op c = true)
    (hi : rules.inline (s.markStarted r c) (s.job r c) = none) (hn : rules.need (s.job r c) ≤ c.payLen)
    (hp : rules.pay (s.markStarted r c) (s.job r c) = none) (hf : f (s.markStarted r c) (s.job r c) = .fail a) :
    s.runCmd r t op rules f digest = s.ended r c (s.markStarted r c) a digest := by
  have hc := check_of_starts h hi hn hp
  simp only [State.starts, Bool.and_eq_true, decide_eq_true_eq, beq_iff_eq, Bool.not_eq_true'] at h
  obtain ⟨⟨⟨⟨⟨⟨⟨hst, ht⟩, hop⟩, hu⟩, _⟩, _⟩, _⟩, _⟩ := h
  simp only [State.runCmd, hst, ht, hop, hu, hc, hf, bne_self_eq_false, Bool.or_self, Bool.false_eq_true, if_false, State.ended]

/-- A command that starts, meets its own rules and goes on runs from then on. -/
theorem runCmd_later {s s1 : State} {r t op : Nat} {c : Cmd} {rules : CmdRules} {f : State → Job → CmdRes}
    {digest : Option (BitVec 512)} (h : s.starts r t op c = true)
    (hi : rules.inline (s.markStarted r c) (s.job r c) = none) (hn : rules.need (s.job r c) ≤ c.payLen)
    (hp : rules.pay (s.markStarted r c) (s.job r c) = none) (hf : f (s.markStarted r c) (s.job r c) = .later s1) :
    s.runCmd r t op rules f digest = (s1.modRing r fun g =>
      { g with inflight := g.inflight.map fun x => if x.idx == c.idx then { x with running := true } else x }).settleRings := by
  have hc := check_of_starts h hi hn hp
  simp only [State.starts, Bool.and_eq_true, decide_eq_true_eq, beq_iff_eq, Bool.not_eq_true'] at h
  obtain ⟨⟨⟨⟨⟨⟨⟨hst, ht⟩, hop⟩, hu⟩, _⟩, _⟩, _⟩, _⟩ := h
  simp only [State.runCmd, hst, ht, hop, hu, hc, hf, bne_self_eq_false, Bool.or_self, Bool.false_eq_true, if_false]

end Sys2Proof.Machine
end

