-- ==== Sys2Proof/Laws/Ctl.lean ====
section
/-! SUPPORT. The fields of control of a state, and the general lemmas with which every operation that leaves them as they are is shown
to do so. -/

namespace Sys2Proof.Machine

open Sys2Proof
/-- The fields of control: fabric time and the always-on tick, the phases of power and start-up, the queue, and what firmware keeps of
configuration, roles and versions. Few commands change any of them. -/
structure Ctl where
  slot : Nat
  tick : Nat
  sub : Nat
  phase : Phase
  stage : Nat
  fwReady : Bool
  restartCause : Nat
  seatOut : Bool
  mainOn : Bool
  computeReady : Bool
  straps : BitVec 18
  strapValid : Bool
  count : Nat
  recovery : Bool
  svnMin : Nat
  revoked : BitVec 4
  creds : SMap (Option (Nat × Nat))
  level : Nat
  boots : Nat
  pending : List Instr
/-- The fields of control of a state. -/
def State.ctl (s : State) : Ctl :=
  { slot := s.slot, tick := s.tick, sub := s.sub, phase := s.power.phase, stage := s.power.stage, fwReady := s.power.fwReady
    restartCause := s.power.restartCause, seatOut := s.power.seatOut, mainOn := s.power.mainOn, computeReady := s.power.computeReady
    straps := s.power.straps, strapValid := s.power.strapValid, count := s.count
    recovery := s.sec.recovery, svnMin := s.sec.svnMin, revoked := s.sec.revoked, creds := s.sec.creds, level := s.sec.level, boots := s.sec.boots
    pending := s.pending }

def MemRes.keeps (k : Ctl) : MemRes → Prop
  | .ok s _ => s.ctl = k
  | .fail s _ => s.ctl = k

def FrameRes.keeps (k : Ctl) : FrameRes → Prop
  | .got s _ => s.ctl = k
  | .wait s => s.ctl = k
  | .fail _ => True

def PageRes.keeps (k : Ctl) : PageRes → Prop
  | .frame s => s.ctl = k
  | .zeros s => s.ctl = k
  | .wait s => s.ctl = k
  | .pin => True
  | .fail _ => True

def UnitRes.keeps (k : Ctl) : UnitRes → Prop
  | .moved s => s.ctl = k
  | .held s _ => s.ctl = k
  | .ended s => s.ctl = k

def CmdRes.keeps (k : Ctl) : CmdRes → Prop
  | .done s _ => s.ctl = k
  | .fail _ => True
  | .later s => s.ctl = k

theorem foldl_ctl {α : Type} {g : State → α → State} (h : ∀ s a, (g s a).ctl = s.ctl) (l : List α) (s : State) :
    (l.foldl g s).ctl = s.ctl := by
  induction l generalizing s with
  | nil => rfl
  | cons a l ih => exact (ih _).trans (h s a)

def keepsO (k : Ctl) : Host.Outcome State Fault Refusal → Prop
  | .next t => t.ctl = k
  | _ => True

theorem keepsO_next {k : Ctl} {t : State} (h : t.ctl = k) : keepsO k (.next t) := h

theorem MemRes.keeps_ok {k : Ctl} {s b} (h : s.ctl = k) : (MemRes.ok s b).keeps k := h

theorem MemRes.keeps_fail {k : Ctl} {s b} (h : s.ctl = k) : (MemRes.fail s b).keeps k := h

theorem FrameRes.keeps_got {k : Ctl} {s b} (h : s.ctl = k) : (FrameRes.got s b).keeps k := h

theorem FrameRes.keeps_wait {k : Ctl} {s} (h : s.ctl = k) : (FrameRes.wait s).keeps k := h

theorem PageRes.keeps_frame {k : Ctl} {s} (h : s.ctl = k) : (PageRes.frame s).keeps k := h

theorem PageRes.keeps_zeros {k : Ctl} {s} (h : s.ctl = k) : (PageRes.zeros s).keeps k := h

theorem PageRes.keeps_wait {k : Ctl} {s} (h : s.ctl = k) : (PageRes.wait s).keeps k := h

theorem UnitRes.keeps_moved {k : Ctl} {s} (h : s.ctl = k) : (UnitRes.moved s).keeps k := h

theorem UnitRes.keeps_held {k : Ctl} {s b} (h : s.ctl = k) : (UnitRes.held s b).keeps k := h

theorem UnitRes.keeps_ended {k : Ctl} {s} (h : s.ctl = k) : (UnitRes.ended s).keeps k := h

theorem CmdRes.keeps_done {k : Ctl} {s b} (h : s.ctl = k) : (CmdRes.done s b).keeps k := h

theorem CmdRes.keeps_later {k : Ctl} {s} (h : s.ctl = k) : (CmdRes.later s).keeps k := h

theorem MemRes.ctl_ok {k : Ctl} {r s b} (h : MemRes.keeps k r) (e : r = .ok s b) : s.ctl = k := by subst e; exact h

theorem MemRes.ctl_fail {k : Ctl} {r s b} (h : MemRes.keeps k r) (e : r = .fail s b) : s.ctl = k := by subst e; exact h

theorem FrameRes.ctl_got {k : Ctl} {r s b} (h : FrameRes.keeps k r) (e : r = .got s b) : s.ctl = k := by subst e; exact h

theorem FrameRes.ctl_wait {k : Ctl} {r s} (h : FrameRes.keeps k r) (e : r = .wait s) : s.ctl = k := by subst e; exact h

theorem PageRes.ctl_frame {k : Ctl} {r s} (h : PageRes.keeps k r) (e : r = .frame s) : s.ctl = k := by subst e; exact h

theorem PageRes.ctl_zeros {k : Ctl} {r s} (h : PageRes.keeps k r) (e : r = .zeros s) : s.ctl = k := by subst e; exact h

theorem PageRes.ctl_wait {k : Ctl} {r s} (h : PageRes.keeps k r) (e : r = .wait s) : s.ctl = k := by subst e; exact h

theorem UnitRes.ctl_moved {k : Ctl} {r s} (h : UnitRes.keeps k r) (e : r = .moved s) : s.ctl = k := by subst e; exact h

theorem UnitRes.ctl_held {k : Ctl} {r s b} (h : UnitRes.keeps k r) (e : r = .held s b) : s.ctl = k := by subst e; exact h

theorem UnitRes.ctl_ended {k : Ctl} {r s} (h : UnitRes.keeps k r) (e : r = .ended s) : s.ctl = k := by subst e; exact h

theorem CmdRes.ctl_done {k : Ctl} {r s b} (h : CmdRes.keeps k r) (e : r = .done s b) : s.ctl = k := by subst e; exact h

theorem CmdRes.ctl_later {k : Ctl} {r s} (h : CmdRes.keeps k r) (e : r = .later s) : s.ctl = k := by subst e; exact h

theorem MemRes.keeps_trans {k k' : Ctl} {r : MemRes} (h : r.keeps k) (e : k = k') : r.keeps k' := e ▸ h

theorem FrameRes.keeps_trans {k k' : Ctl} {r : FrameRes} (h : r.keeps k) (e : k = k') : r.keeps k' := e ▸ h

theorem PageRes.keeps_trans {k k' : Ctl} {r : PageRes} (h : r.keeps k) (e : k = k') : r.keeps k' := e ▸ h

theorem UnitRes.keeps_trans {k k' : Ctl} {r : UnitRes} (h : r.keeps k) (e : k = k') : r.keeps k' := e ▸ h

theorem CmdRes.keeps_trans {k k' : Ctl} {r : CmdRes} (h : r.keeps k) (e : k = k') : r.keeps k' := e ▸ h

theorem keepsO_trans {k k' : Ctl} {r} (h : keepsO k r) (e : k = k') : keepsO k' r := e ▸ h

theorem fst_ctl {α : Type} {k : Ctl} {r : State × α} {s a} (h : r.1.ctl = k) (e : r = (s, a)) : s.ctl = k := by subst e; exact h

theorem snd_ctl {α : Type} {k : Ctl} {r : α × State} {s a} (h : r.2.ctl = k) (e : r = (a, s)) : s.ctl = k := by subst e; exact h

theorem ctl_ite {c : Prop} [Decidable c] {a b : State} {k : Ctl} (ha : a.ctl = k) (hb : b.ctl = k) : (if c then a else b).ctl = k := by split <;> assumption

theorem ctl_upd (t : State) {parts} {cores} {sites} {slices} {cloaks} {edges} {hbm} {ports} {beat} {form} {bellIn} {pktIn} {rings} {fns} {care} {i3c} {fresh} {out} : (State.mk t.slot t.tick t.sub t.power t.count parts cores sites slices cloaks edges hbm ports beat form bellIn pktIn rings fns t.sec care i3c fresh out t.pending).ctl = t.ctl := rfl

theorem ctl_upd2 (t : State) {parts} {cores} {sites} {slices} {cloaks} {edges} {hbm} {ports} {beat} {form} {bellIn} {pktIn} {rings} {fns} {care} {i3c} {fresh} {out} {w : Power} {x : Sec}
    (h : w.phase = t.power.phase ∧ w.stage = t.power.stage ∧ w.fwReady = t.power.fwReady ∧ w.restartCause = t.power.restartCause ∧ w.seatOut = t.power.seatOut ∧ w.mainOn = t.power.mainOn ∧ w.computeReady = t.power.computeReady ∧ w.straps = t.power.straps ∧ w.strapValid = t.power.strapValid ∧ x.recovery = t.sec.recovery ∧ x.svnMin = t.sec.svnMin ∧ x.revoked = t.sec.revoked ∧ x.creds = t.sec.creds ∧ x.level = t.sec.level ∧ x.boots = t.sec.boots) :
    (State.mk t.slot t.tick t.sub w t.count parts cores sites slices cloaks edges hbm ports beat form bellIn pktIn rings fns x care i3c fresh out t.pending).ctl = t.ctl := by
  obtain ⟨h0, h1, h2, h3, h4, h5, h6, h7, h8, h9, h10, h11, h12, h13, h14⟩ := h
  simp only [State.ctl, h0, h1, h2, h3, h4, h5, h6, h7, h8, h9, h10, h11, h12, h13, h14]

theorem foldl_fst_ctl {α β : Type} {g : State × β → α → State × β} (h : ∀ x a, (g x a).1.ctl = x.1.ctl) (l : List α) (x : State × β) :
    (l.foldl g x).1.ctl = x.1.ctl := by
  induction l generalizing x with
  | nil => rfl
  | cons a l ih => exact (ih _).trans (h x a)

theorem ctl_of_next {k : Ctl} {r : Host.Outcome State Fault Refusal} {s} (h : keepsO k r) (e : r = .next s) : s.ctl = k := by subst e; exact h

theorem ite_fst_ctl {β : Type} {c : Prop} [Decidable c] {x y : State × β} {k : Ctl} (hx : x.1.ctl = k) (hy : y.1.ctl = k) :
    (if c then x else y).1.ctl = k := by split <;> assumption

theorem UnitRes.keeps_ite {c : Prop} [Decidable c] {x y : UnitRes} {k : Ctl} (hx : x.keeps k) (hy : y.keeps k) :
    UnitRes.keeps k (if c then x else y) := by split <;> assumption

end Sys2Proof.Machine
end

