-- ==== Sys2Proof/Laws/CtlOps.lean ====
section
/-! SUPPORT. Shared operations that leave the fields of control as they are, one lemma for each. -/

namespace Sys2Proof.Machine

open Sys2Proof

@[simp] theorem State.setCore_ctl (s : State) (k : Nat) (v : Core) : (State.setCore s k v).ctl = s.ctl := by
  unfold State.setCore
  repeat' first
    | with_reducible rfl
    | (fail_if_no_progress with_reducible refine (ctl_upd _).trans ?_)

@[simp] theorem State.modCore_ctl (s : State) (k : Nat) (g : Core → Core) : (State.modCore s k g).ctl = s.ctl := by
  unfold State.modCore
  repeat' first
    | with_reducible rfl
    | with_reducible refine (State.setCore_ctl ..).trans ?_

@[simp] theorem State.setPart_ctl (s : State) (k : Nat) (v : Part) : (State.setPart s k v).ctl = s.ctl := by
  unfold State.setPart
  repeat' first
    | with_reducible rfl
    | (fail_if_no_progress with_reducible refine (ctl_upd _).trans ?_)

@[simp] theorem State.modPart_ctl (s : State) (k : Nat) (g : Part → Part) : (State.modPart s k g).ctl = s.ctl := by
  unfold State.modPart
  repeat' first
    | with_reducible rfl
    | with_reducible refine (State.setPart_ctl ..).trans ?_

@[simp] theorem State.setSite_ctl (s : State) (k : Nat) (v : Site) : (State.setSite s k v).ctl = s.ctl := by
  unfold State.setSite
  repeat' first
    | with_reducible rfl
    | (fail_if_no_progress with_reducible refine (ctl_upd _).trans ?_)

@[simp] theorem State.modSite_ctl (s : State) (k : Nat) (g : Site → Site) : (State.modSite s k g).ctl = s.ctl := by
  unfold State.modSite
  repeat' first
    | with_reducible rfl
    | with_reducible refine (State.setSite_ctl ..).trans ?_

@[simp] theorem State.setSlice_ctl (s : State) (k : Nat) (v : Slice) : (State.setSlice s k v).ctl = s.ctl := by
  unfold State.setSlice
  repeat' first
    | with_reducible rfl
    | (fail_if_no_progress with_reducible refine (ctl_upd _).trans ?_)

@[simp] theorem State.modSlice_ctl (s : State) (k : Nat) (g : Slice → Slice) : (State.modSlice s k g).ctl = s.ctl := by
  unfold State.modSlice
  repeat' first
    | with_reducible rfl
    | with_reducible refine (State.setSlice_ctl ..).trans ?_

@[simp] theorem State.setCloak_ctl (s : State) (k : Nat) (v : Cloak) : (State.setCloak s k v).ctl = s.ctl := by
  unfold State.setCloak
  repeat' first
    | with_reducible rfl
    | (fail_if_no_progress with_reducible refine (ctl_upd _).trans ?_)

@[simp] theorem State.modCloak_ctl (s : State) (k : Nat) (g : Cloak → Cloak) : (State.modCloak s k g).ctl = s.ctl := by
  unfold State.modCloak
  repeat' first
    | with_reducible rfl
    | with_reducible refine (State.setCloak_ctl ..).trans ?_

@[simp] theorem State.setEdge_ctl (s : State) (k : Nat) (v : Edge) : (State.setEdge s k v).ctl = s.ctl := by
  unfold State.setEdge
  repeat' first
    | with_reducible rfl
    | (fail_if_no_progress with_reducible refine (ctl_upd _).trans ?_)

@[simp] theorem State.modEdge_ctl (s : State) (k : Nat) (g : Edge → Edge) : (State.modEdge s k g).ctl = s.ctl := by
  unfold State.modEdge
  repeat' first
    | with_reducible rfl
    | with_reducible refine (State.setEdge_ctl ..).trans ?_

@[simp] theorem State.setStack_ctl (s : State) (k : Nat) (v : Stack) : (State.setStack s k v).ctl = s.ctl := by
  unfold State.setStack
  repeat' first
    | with_reducible rfl
    | (fail_if_no_progress with_reducible refine (ctl_upd _).trans ?_)

@[simp] theorem State.modStack_ctl (s : State) (k : Nat) (g : Stack → Stack) : (State.modStack s k g).ctl = s.ctl := by
  unfold State.modStack
  repeat' first
    | with_reducible rfl
    | with_reducible refine (State.setStack_ctl ..).trans ?_

@[simp] theorem State.setPort_ctl (s : State) (k : Nat) (v : Port) : (State.setPort s k v).ctl = s.ctl := by
  unfold State.setPort
  repeat' first
    | with_reducible rfl
    | (fail_if_no_progress with_reducible refine (ctl_upd _).trans ?_)

@[simp] theorem State.modPort_ctl (s : State) (k : Nat) (g : Port → Port) : (State.modPort s k g).ctl = s.ctl := by
  unfold State.modPort
  repeat' first
    | with_reducible rfl
    | with_reducible refine (State.setPort_ctl ..).trans ?_

@[simp] theorem State.setRing_ctl (s : State) (k : Nat) (v : Ring) : (State.setRing s k v).ctl = s.ctl := by
  unfold State.setRing
  repeat' first
    | with_reducible rfl
    | (fail_if_no_progress with_reducible refine (ctl_upd _).trans ?_)

@[simp] theorem State.modRing_ctl (s : State) (k : Nat) (g : Ring → Ring) : (State.modRing s k g).ctl = s.ctl := by
  unfold State.modRing
  repeat' first
    | with_reducible rfl
    | with_reducible refine (State.setRing_ctl ..).trans ?_

@[simp] theorem State.setFn_ctl (s : State) (k : Nat) (v : Fn) : (State.setFn s k v).ctl = s.ctl := by
  unfold State.setFn
  repeat' first
    | with_reducible rfl
    | (fail_if_no_progress with_reducible refine (ctl_upd _).trans ?_)

@[simp] theorem State.modFn_ctl (s : State) (k : Nat) (g : Fn → Fn) : (State.modFn s k g).ctl = s.ctl := by
  unfold State.modFn
  repeat' first
    | with_reducible rfl
    | with_reducible refine (State.setFn_ctl ..).trans ?_

@[simp] theorem State.put_ctl (s : State) (o : Output) : (State.put s o).ctl = s.ctl := by
  unfold State.put
  repeat' first
    | with_reducible rfl
    | (fail_if_no_progress with_reducible refine (ctl_upd _).trans ?_)

@[simp] theorem State.routerWait_ctl (s : State) (c t cause : Nat) : (State.routerWait s c t cause).ctl = s.ctl := by
  unfold State.routerWait
  repeat' first
    | with_reducible rfl
    | with_reducible refine (State.modCore_ctl ..).trans ?_

@[simp] theorem State.scribble_ctl (s : State) (c : Nat) (w : Option (Nat × Nat)) : (State.scribble s c w).ctl = s.ctl := by
  unfold State.scribble
  repeat' first
    | with_reducible rfl
    | with_reducible refine (State.modCore_ctl ..).trans ?_
    | (fail_if_no_progress with_reducible refine (ctl_upd _).trans ?_)
    | dsimp only
    | split

@[simp] theorem State.complete_ctl (s : State) (i : Issue) (t : Try) : (State.complete s i t).ctl = s.ctl := by
  unfold State.complete
  repeat' first
    | with_reducible rfl
    | with_reducible refine (State.setCore_ctl ..).trans ?_
    | with_reducible refine (State.setPart_ctl ..).trans ?_
    | with_reducible refine (State.scribble_ctl ..).trans ?_
    | (fail_if_no_progress with_reducible refine (ctl_upd _).trans ?_)
    | dsimp only
    | split

@[simp] theorem State.message_ctl (s : State) (f v : Nat) : (State.message s f v).ctl = s.ctl := by
  unfold State.message
  repeat' first
    | with_reducible rfl
    | with_reducible refine (State.setFn_ctl ..).trans ?_
    | with_reducible refine (State.put_ctl ..).trans ?_
    | (fail_if_no_progress with_reducible refine (ctl_upd _).trans ?_)
    | dsimp only
    | split

@[simp] theorem State.notify_ctl (s : State) (f v : Nat) : (State.notify s f v).ctl = s.ctl := by
  unfold State.notify
  repeat' first
    | with_reducible rfl
    | with_reducible refine (State.modFn_ctl ..).trans ?_
    | with_reducible refine (State.message_ctl ..).trans ?_
    | (fail_if_no_progress with_reducible refine (ctl_upd _).trans ?_)
    | dsimp only
    | split

@[simp] theorem State.raise_ctl (s : State) (f v : Nat) : (State.raise s f v).ctl = s.ctl := by
  unfold State.raise
  repeat' first
    | with_reducible rfl
    | with_reducible refine (State.setFn_ctl ..).trans ?_
    | with_reducible refine (State.notify_ctl ..).trans ?_
    | (fail_if_no_progress with_reducible refine (ctl_upd _).trans ?_)
    | dsimp only
    | split

@[simp] theorem State.event_ctl (s : State) (r type part : Nat) (body : List Byte) : (State.event s r type part body).ctl = s.ctl := by
  unfold State.event
  repeat' first
    | with_reducible rfl
    | with_reducible refine (State.setRing_ctl ..).trans ?_
    | with_reducible refine (State.put_ctl ..).trans ?_
    | with_reducible refine (State.raise_ctl ..).trans ?_
    | (fail_if_no_progress with_reducible refine (ctl_upd _).trans ?_)
    | dsimp only
    | split

@[simp] theorem State.partEvent_ctl (s : State) (p type : Nat) (body : List Byte) : (State.partEvent s p type body).ctl = s.ctl := by
  unfold State.partEvent
  repeat' first
    | with_reducible rfl
    | with_reducible refine (State.event_ctl ..).trans ?_

@[simp] theorem State.queueCompletion_ctl (s : State) (r : Nat) (c : Cmd) (a : Answer) : (State.queueCompletion s r c a).ctl = s.ctl := by
  unfold State.queueCompletion
  repeat' first
    | with_reducible rfl
    | with_reducible refine (State.modRing_ctl ..).trans ?_

@[simp] theorem State.finish_ctl (s : State) (r t : Nat) (a : Answer) : (State.finish s r t a).ctl = s.ctl := by
  unfold State.finish
  repeat' first
    | with_reducible rfl
    | with_reducible refine (State.queueCompletion_ctl ..).trans ?_
    | with_reducible refine (State.modRing_ctl ..).trans ?_
    | (fail_if_no_progress with_reducible refine (ctl_upd _).trans ?_)
    | dsimp only
    | split

@[simp] theorem State.finishStatus_ctl (s : State) (r t status : Nat) : (State.finishStatus s r t status).ctl = s.ctl := by
  unfold State.finishStatus
  repeat' first
    | with_reducible rfl
    | with_reducible refine (State.finish_ctl ..).trans ?_

@[simp] theorem State.queuePacket_ctl (s : State) (l : Nat) (p : Packet) : (State.queuePacket s l p).ctl = s.ctl := by
  unfold State.queuePacket
  repeat' first
    | with_reducible rfl
    | with_reducible refine (State.modPort_ctl ..).trans ?_

@[simp] theorem State.sendPacket_ctl (s : State) (dev : Nat) (p : Packet) : (State.sendPacket s dev p).ctl = s.ctl := by
  unfold State.sendPacket
  repeat' first
    | with_reducible rfl
    | with_reducible refine (State.queuePacket_ctl ..).trans ?_
    | (fail_if_no_progress with_reducible refine (ctl_upd _).trans ?_)
    | dsimp only
    | split

@[simp] theorem State.passPacket_ctl (s : State) (dev : Nat) (p : Packet) : (State.passPacket s dev p).ctl = s.ctl := by
  unfold State.passPacket
  repeat' first
    | with_reducible rfl
    | with_reducible refine (State.modPort_ctl ..).trans ?_
    | (fail_if_no_progress with_reducible refine (ctl_upd _).trans ?_)
    | dsimp only
    | split

@[simp] theorem State.passPackets_ctl (s : State) (devs : List Nat) (p : Packet) : (State.passPackets s devs p).ctl = s.ctl := by
  unfold State.passPackets
  repeat' first
    | with_reducible rfl
    | with_reducible refine (State.passPacket_ctl ..).trans ?_
    | with_reducible refine (foldl_ctl (fun _ _ => ?_) _ _).trans ?_

@[simp] theorem State.sendPackets_ctl (s : State) (devs : List Nat) (p : Packet) : (State.sendPackets s devs p).ctl = s.ctl := by
  unfold State.sendPackets
  repeat' first
    | with_reducible rfl
    | with_reducible refine (State.sendPacket_ctl ..).trans ?_
    | with_reducible refine (foldl_ctl (fun _ _ => ?_) _ _).trans ?_

@[simp] theorem State.sendBell_ctl (s : State) (dev part : Nat) (msg : W64) : (State.sendBell s dev part msg).ctl = s.ctl := by
  unfold State.sendBell
  repeat' first
    | with_reducible rfl
    | with_reducible refine (State.modPort_ctl ..).trans ?_
    | (fail_if_no_progress with_reducible refine (ctl_upd _).trans ?_)
    | dsimp only
    | split

@[simp] theorem State.sendBells_ctl (s : State) (devs : List Nat) (part : Nat) (msg : W64) : (State.sendBells s devs part msg).ctl = s.ctl := by
  unfold State.sendBells
  repeat' first
    | with_reducible rfl
    | with_reducible refine (State.sendBell_ctl ..).trans ?_
    | with_reducible refine (foldl_ctl (fun _ _ => ?_) _ _).trans ?_

@[simp] theorem State.keepOverflow_ctl (s : State) (p dev step : Nat) (recs : List OvfRec) : (State.keepOverflow s p dev step recs).ctl = s.ctl := by
  unfold State.keepOverflow
  repeat' first
    | with_reducible rfl
    | (fail_if_no_progress with_reducible refine (ctl_upd _).trans ?_)

@[simp] theorem State.sendOverflow_ctl (s : State) (p : Nat) : (State.sendOverflow s p).ctl = s.ctl := by
  unfold State.sendOverflow
  repeat' first
    | with_reducible rfl
    | with_reducible refine (State.keepOverflow_ctl ..).trans ?_
    | with_reducible refine (State.sendPacket_ctl ..).trans ?_
    | (fail_if_no_progress with_reducible refine (ctl_upd _).trans ?_)
    | dsimp only
    | split

@[simp] theorem State.forwardNote_ctl (s : State) (n : Note) : (State.forwardNote s n).ctl = s.ctl := by
  unfold State.forwardNote
  repeat' first
    | with_reducible rfl
    | with_reducible refine (State.sendPacket_ctl ..).trans ?_
    | with_reducible refine (State.event_ctl ..).trans ?_
    | (fail_if_no_progress with_reducible refine (ctl_upd _).trans ?_)
    | dsimp only
    | split

@[simp] theorem State.noteIn_ctl (s : State) (r : Note) : (State.noteIn s r).ctl = s.ctl := by
  unfold State.noteIn
  repeat' first
    | with_reducible rfl
    | with_reducible refine (State.forwardNote_ctl ..).trans ?_
    | (fail_if_no_progress with_reducible refine (ctl_upd _).trans ?_)
    | dsimp only
    | split

@[simp] theorem State.sendReport_ctl (s : State) (n : Note) : (State.sendReport s n).ctl = s.ctl := by
  unfold State.sendReport
  repeat' first
    | with_reducible rfl
    | with_reducible refine (State.noteIn_ctl ..).trans ?_
    | with_reducible refine (State.sendPackets_ctl ..).trans ?_
    | (fail_if_no_progress with_reducible refine (ctl_upd _).trans ?_)
    | dsimp only
    | split

@[simp] theorem State.report_ctl (s : State) (kind unit cls p : Nat) : (State.report s kind unit cls p).ctl = s.ctl := by
  unfold State.report
  repeat' first
    | with_reducible rfl
    | with_reducible refine (State.raise_ctl ..).trans ?_
    | with_reducible refine (State.sendReport_ctl ..).trans ?_
    | (fail_if_no_progress with_reducible refine (ctl_upd _).trans ?_)
    | dsimp only
    | split

@[simp] theorem State.drawKeys_ctl (s : State) (p : Nat) (mix : List Byte) : (State.drawKeys s p mix).ctl = s.ctl := by
  unfold State.drawKeys
  repeat' first
    | with_reducible rfl
    | with_reducible refine (State.modPart_ctl ..).trans ?_
    | (fail_if_no_progress with_reducible refine (ctl_upd _).trans ?_)

@[simp] theorem State.readLine_ctl (s : State) (p h f i addr : Nat) : (State.readLine s p h f i addr).1.ctl = s.ctl := by
  unfold State.readLine
  repeat' first
    | with_reducible rfl
    | with_reducible refine (State.setStack_ctl ..).trans ?_
    | (fail_if_no_progress with_reducible refine (ctl_upd _).trans ?_)
    | dsimp only
    | split

@[simp] theorem State.writeLine_ctl (s : State) (p h f i addr : Nat) (bytes : SMap Byte) : (State.writeLine s p h f i addr bytes).ctl = s.ctl := by
  unfold State.writeLine
  repeat' first
    | with_reducible rfl
    | with_reducible refine (State.modStack_ctl ..).trans ?_

@[simp] theorem State.takeFrame_ctl (s : State) (h f : Nat) : (State.takeFrame s h f).ctl = s.ctl := by
  unfold State.takeFrame
  repeat' first
    | with_reducible rfl
    | with_reducible refine (State.modStack_ctl ..).trans ?_

@[simp] theorem State.freeFrame_ctl (s : State) (h f : Nat) : (State.freeFrame s h f).ctl = s.ctl := by
  unfold State.freeFrame
  repeat' first
    | with_reducible rfl
    | with_reducible refine (State.modStack_ctl ..).trans ?_

@[simp] theorem State.putLines_ctl (s : State) (h f : Nat) (ls : SMap HbmLine) : (State.putLines s h f ls).ctl = s.ctl := by
  unfold State.putLines
  repeat' first
    | with_reducible rfl
    | with_reducible refine (State.modStack_ctl ..).trans ?_

@[simp] theorem State.setPage_ctl (s : State) (p pg : Nat) (e : Page) : (State.setPage s p pg e).ctl = s.ctl := by
  unfold State.setPage
  repeat' first
    | with_reducible rfl
    | with_reducible refine (State.modPart_ctl ..).trans ?_

@[simp] theorem State.writeFrame_ctl (s : State) (p pg : Nat) (old : Bool) : (State.writeFrame s p pg old).1.ctl = s.ctl := by
  unfold State.writeFrame
  repeat' first
    | with_reducible rfl
    | with_reducible refine (State.takeFrame_ctl ..).trans ?_
    | with_reducible refine (State.setPage_ctl ..).trans ?_
    | with_reducible refine (State.modPart_ctl ..).trans ?_
    | (fail_if_no_progress with_reducible refine (ctl_upd _).trans ?_)
    | dsimp only
    | split

@[simp] theorem State.writeSubs_ctl (s : State) (p : Nat) (l : SliceLine) : (State.writeSubs s p l).ctl = s.ctl := by
  unfold State.writeSubs
  repeat' first
    | with_reducible rfl
    | with_reducible refine (State.writeFrame_ctl ..).trans ?_
    | refine (fst_ctl (State.writeFrame_ctl ..) (by assumption)).trans ?_
    | with_reducible refine (State.writeLine_ctl ..).trans ?_
    | with_reducible refine (State.setPage_ctl ..).trans ?_
    | with_reducible refine (State.modPart_ctl ..).trans ?_
    | with_reducible refine (foldl_ctl (fun _ _ => ?_) _ _).trans ?_
    | with_reducible refine (foldl_fst_ctl (fun _ _ => ?_) _ _).trans ?_
    | (fail_if_no_progress with_reducible refine (ctl_upd _).trans ?_)
    | dsimp only
    | split

@[simp] theorem State.readPageLine_ctl (s : State) (p pg i : Nat) : (State.readPageLine s p pg i).1.ctl = s.ctl := by
  unfold State.readPageLine
  repeat' first
    | with_reducible rfl
    | with_reducible refine (State.readLine_ctl ..).trans ?_
    | refine (fst_ctl (State.readLine_ctl ..) (by assumption)).trans ?_
    | (fail_if_no_progress with_reducible refine (ctl_upd _).trans ?_)
    | dsimp only
    | split

@[simp] theorem State.readSliceLine_ctl (s : State) (p addr : Nat) : (State.readSliceLine s p addr).1.ctl = s.ctl := by
  unfold State.readSliceLine
  repeat' first
    | with_reducible rfl
    | with_reducible refine (State.readPageLine_ctl ..).trans ?_
    | refine (fst_ctl (State.readPageLine_ctl ..) (by assumption)).trans ?_
    | with_reducible refine (foldl_ctl (fun _ _ => ?_) _ _).trans ?_
    | with_reducible refine (foldl_fst_ctl (fun _ _ => ?_) _ _).trans ?_
    | (fail_if_no_progress with_reducible refine (ctl_upd _).trans ?_)
    | dsimp only
    | split

@[simp] theorem State.flushPage_ctl (s : State) (p pg : Nat) : (State.flushPage s p pg).ctl = s.ctl := by
  unfold State.flushPage
  repeat' first
    | with_reducible rfl
    | with_reducible refine (State.modSlice_ctl ..).trans ?_
    | (fail_if_no_progress with_reducible refine (ctl_upd _).trans ?_)
    | dsimp only
    | split

@[simp] theorem State.dropPage_ctl (s : State) (p pg : Nat) (all : Bool) : (State.dropPage s p pg all).ctl = s.ctl := by
  unfold State.dropPage
  repeat' first
    | with_reducible rfl
    | with_reducible refine (State.modSlice_ctl ..).trans ?_

@[simp] theorem State.unpark_ctl (s : State) (p pg : Nat) : (State.unpark s p pg).ctl = s.ctl := by
  unfold State.unpark
  repeat' first
    | with_reducible rfl
    | with_reducible refine (State.modSlice_ctl ..).trans ?_

@[simp] theorem State.sendFar_ctl (s : State) (b : Backend) (ps : List Packet) : (State.sendFar s b ps).ctl = s.ctl := by
  unfold State.sendFar
  repeat' first
    | with_reducible rfl
    | with_reducible refine (State.queuePacket_ctl ..).trans ?_
    | with_reducible refine (foldl_ctl (fun _ _ => ?_) _ _).trans ?_
    | with_reducible refine (foldl_fst_ctl (fun _ _ => ?_) _ _).trans ?_
    | (fail_if_no_progress with_reducible refine (ctl_upd _).trans ?_)
    | dsimp only
    | split

@[simp] theorem State.sendOut_ctl (s : State) (p pg : Nat) : (State.sendOut s p pg).ctl = s.ctl := by
  unfold State.sendOut
  repeat' first
    | with_reducible rfl
    | with_reducible refine (State.put_ctl ..).trans ?_
    | with_reducible refine (State.sendFar_ctl ..).trans ?_
    | (fail_if_no_progress with_reducible refine (ctl_upd _).trans ?_)
    | dsimp only
    | split

@[simp] theorem State.askIn_ctl (s : State) (p pg : Nat) : (State.askIn s p pg).ctl = s.ctl := by
  unfold State.askIn
  repeat' first
    | with_reducible rfl
    | with_reducible refine (State.put_ctl ..).trans ?_
    | with_reducible refine (State.sendFar_ctl ..).trans ?_
    | (fail_if_no_progress with_reducible refine (ctl_upd _).trans ?_)
    | dsimp only
    | split

@[simp] theorem State.beginSend_ctl (s : State) (p pg : Nat) : (State.beginSend s p pg).ctl = s.ctl := by
  unfold State.beginSend
  repeat' first
    | with_reducible rfl
    | with_reducible refine (State.modPart_ctl ..).trans ?_
    | with_reducible refine (State.setPage_ctl ..).trans ?_
    | with_reducible refine (State.sendOut_ctl ..).trans ?_

@[simp] theorem State.drained_ctl (s : State) (p pg : Nat) : (State.drained s p pg).ctl = s.ctl := by
  unfold State.drained
  repeat' first
    | with_reducible rfl
    | with_reducible refine (State.dropPage_ctl ..).trans ?_
    | with_reducible refine (State.freeFrame_ctl ..).trans ?_
    | with_reducible refine (State.modPart_ctl ..).trans ?_
    | with_reducible refine (State.setPage_ctl ..).trans ?_
    | with_reducible refine (State.unpark_ctl ..).trans ?_
    | with_reducible refine (State.beginSend_ctl ..).trans ?_
    | (fail_if_no_progress with_reducible refine (ctl_upd _).trans ?_)
    | dsimp only
    | split

@[simp] theorem State.startOut_ctl (s : State) (p pg : Nat) : (State.startOut s p pg).ctl = s.ctl := by
  unfold State.startOut
  repeat' first
    | with_reducible rfl
    | with_reducible refine (State.modPart_ctl ..).trans ?_
    | with_reducible refine (State.flushPage_ctl ..).trans ?_
    | with_reducible refine (State.setPage_ctl ..).trans ?_
    | with_reducible refine (State.drained_ctl ..).trans ?_
    | (fail_if_no_progress with_reducible refine (ctl_upd _).trans ?_)
    | dsimp only
    | split

theorem State.needFrame_ctl (s : State) (p pg : Nat) : (State.needFrame s p pg).keeps s.ctl := by
  unfold State.needFrame
  extract_lets part h take
  have ht : ∀ t : State, (take t).keeps t.ctl := by
    intro t
    dsimp only [take]
    split
    · trivial
    · split <;> rfl
  clear_value take
  split
  · exact ht s
  · split
    · rfl
    · split
      · trivial
      · split
        · rfl
        · extract_lets t
          have h2 : t.ctl = s.ctl := State.startOut_ctl ..
          clear_value t
          split
          · exact FrameRes.keeps_trans (ht t) h2
          · exact h2

theorem State.startIn_ctl (s : State) (p pg : Nat) (prefetch : Bool) : (State.startIn s p pg prefetch).keeps s.ctl := by
  have hn := State.needFrame_ctl s p pg
  unfold State.startIn
  split
  · exact FrameRes.keeps_wait rfl
  · cases hr : s.needFrame p pg with
    | got t f =>
      exact FrameRes.keeps_got ((State.askIn_ctl ..).trans ((State.modPart_ctl ..).trans ((State.setPage_ctl ..).trans (FrameRes.ctl_got hn hr))))
    | wait t => exact FrameRes.keeps_wait (FrameRes.ctl_wait hn hr)
    | fail c => exact True.intro

theorem State.touchPage_ctl (s : State) (p pg : Nat) : (State.touchPage s p pg).keeps s.ctl := by
  unfold State.touchPage
  extract_lets part e bring
  have hb : ∀ u : State, u.ctl = s.ctl → (bring u).keeps s.ctl := by
    intro u hu
    have h := State.startIn_ctl u p pg false
    dsimp only [bring]
    cases hr : u.startIn p pg false with
    | got v f => exact PageRes.keeps_wait ((FrameRes.ctl_got h hr).trans hu)
    | wait v => exact PageRes.keeps_wait ((FrameRes.ctl_wait h hr).trans hu)
    | fail c => exact True.intro
  clear_value bring
  cases e.st with
  | unmapped => exact True.intro
  | zero => exact PageRes.keeps_zeros rfl
  | pin => exact True.intro
  | inn => exact PageRes.keeps_wait rfl
  | out => exact PageRes.keeps_wait rfl
  | far => exact hb _ rfl
  | hbm =>
    dsimp only
    split
    · refine hb _ ?_
      exact (State.setPage_ctl ..).trans ((State.modPart_ctl ..).trans ((State.freeFrame_ctl ..).trans (State.dropPage_ctl ..)))
    · exact PageRes.keeps_frame (State.setPage_ctl ..)

theorem State.takeTables_ctl (s : State) (p : Nat) (l : List Nat) : ∀ x, State.takeTables s p l = some x → x.ctl = s.ctl := by
  induction l generalizing s with
  | nil => intro x h; cases h; rfl
  | cons k l ih =>
    intro x h
    unfold State.takeTables at h
    dsimp only at h
    split at h
    · cases h
    · exact (ih _ _ h).trans rfl

@[simp] theorem State.releaseKeep_ctl (s : State) (p pg : Nat) : (State.releaseKeep s p pg).ctl = s.ctl := by
  unfold State.releaseKeep
  repeat' first
    | with_reducible rfl
    | with_reducible refine (State.putLines_ctl ..).trans ?_
    | with_reducible refine (State.freeFrame_ctl ..).trans ?_
    | with_reducible refine (State.setPage_ctl ..).trans ?_
    | (fail_if_no_progress with_reducible refine (ctl_upd _).trans ?_)
    | dsimp only
    | split

@[simp] theorem State.rollbackPage_ctl (s : State) (p pg : Nat) : (State.rollbackPage s p pg).ctl = s.ctl := by
  unfold State.rollbackPage
  repeat' first
    | with_reducible rfl
    | with_reducible refine (State.modSlice_ctl ..).trans ?_
    | with_reducible refine (State.freeFrame_ctl ..).trans ?_
    | with_reducible refine (State.modPart_ctl ..).trans ?_
    | with_reducible refine (State.setPage_ctl ..).trans ?_
    | (fail_if_no_progress with_reducible refine (ctl_upd _).trans ?_)
    | dsimp only
    | split

@[simp] theorem State.rollback_ctl (s : State) (p : Nat) : (State.rollback s p).ctl = s.ctl := by
  unfold State.rollback
  repeat' first
    | with_reducible rfl
    | with_reducible refine (State.rollbackPage_ctl ..).trans ?_
    | with_reducible refine (foldl_ctl (fun _ _ => ?_) _ _).trans ?_

@[simp] theorem State.applyVerdict_ctl (s : State) (k : Nat) (v : Nat × Bool) : (State.applyVerdict s k v).ctl = s.ctl := by
  unfold State.applyVerdict
  repeat' first
    | with_reducible rfl
    | with_reducible refine (State.setSlice_ctl ..).trans ?_
    | with_reducible refine (State.modPart_ctl ..).trans ?_
    | with_reducible refine (foldl_ctl (fun _ _ => ?_) _ _).trans ?_
    | with_reducible refine (foldl_fst_ctl (fun _ _ => ?_) _ _).trans ?_
    | (fail_if_no_progress with_reducible refine (ctl_upd _).trans ?_)
    | dsimp only
    | split

@[simp] theorem State.settleSlice_ctl (s : State) (k : Nat) : (State.settleSlice s k).ctl = s.ctl := by
  unfold State.settleSlice
  repeat' first
    | with_reducible rfl
    | with_reducible refine (State.applyVerdict_ctl ..).trans ?_
    | with_reducible refine (State.modSlice_ctl ..).trans ?_
    | with_reducible refine (State.applied_ctl ..).trans ?_
    | with_reducible refine (foldl_ctl (fun _ _ => ?_) _ _).trans ?_
    | with_reducible refine (foldl_fst_ctl (fun _ _ => ?_) _ _).trans ?_
    | (fail_if_no_progress with_reducible refine (ctl_upd _).trans ?_)
    | dsimp only
    | split

@[simp] theorem State.tellEnd_ctl (s : State) (p status : Nat) : (State.tellEnd s p status).ctl = s.ctl := by
  unfold State.tellEnd
  repeat' first
    | with_reducible rfl
    | with_reducible refine (State.finish_ctl ..).trans ?_
    | with_reducible refine (State.partEvent_ctl ..).trans ?_

@[simp] theorem State.clearShadows_ctl (s : State) (p : Nat) : (State.clearShadows s p).ctl = s.ctl := by
  unfold State.clearShadows
  repeat' first
    | with_reducible rfl
    | with_reducible refine (State.modPort_ctl ..).trans ?_
    | with_reducible refine (State.modSlice_ctl ..).trans ?_
    | with_reducible refine (State.applied_ctl ..).trans ?_
    | with_reducible refine (foldl_ctl (fun _ _ => ?_) _ _).trans ?_
    | with_reducible refine (foldl_fst_ctl (fun _ _ => ?_) _ _).trans ?_
    | (fail_if_no_progress with_reducible refine (ctl_upd _).trans ?_)
    | dsimp only
    | split

@[simp] theorem State.dropCoreDrafts_ctl (s : State) (p : Nat) : (State.dropCoreDrafts s p).ctl = s.ctl := by
  unfold State.dropCoreDrafts
  repeat' first
    | with_reducible rfl
    | with_reducible refine (State.modCore_ctl ..).trans ?_
    | with_reducible refine (State.dropDrafts_ctl ..).trans ?_
    | with_reducible refine (foldl_ctl (fun _ _ => ?_) _ _).trans ?_
    | with_reducible refine (foldl_fst_ctl (fun _ _ => ?_) _ _).trans ?_
    | (fail_if_no_progress with_reducible refine (ctl_upd _).trans ?_)
    | dsimp only
    | split

@[simp] theorem State.dropClip_ctl (s : State) (p : Nat) : (State.dropClip s p).ctl = s.ctl := by
  unfold State.dropClip
  repeat' first
    | with_reducible rfl
    | (fail_if_no_progress with_reducible refine (ctl_upd _).trans ?_)

@[simp] theorem State.endStep_ctl (s : State) (p status : Nat) : (State.endStep s p status).ctl = s.ctl := by
  unfold State.endStep
  repeat' first
    | with_reducible rfl
    | with_reducible refine (State.clearShadows_ctl ..).trans ?_
    | with_reducible refine (State.rollback_ctl ..).trans ?_
    | with_reducible refine (State.dropCoreDrafts_ctl ..).trans ?_
    | with_reducible refine (State.sendOverflow_ctl ..).trans ?_
    | with_reducible refine (State.dropClip_ctl ..).trans ?_
    | with_reducible refine (State.modPart_ctl ..).trans ?_
    | with_reducible refine (State.tellEnd_ctl ..).trans ?_
    | (fail_if_no_progress with_reducible refine (ctl_upd _).trans ?_)
    | dsimp only
    | split

@[simp] theorem State.endJobAccess_ctl (s : State) (p status kind unit : Nat) : (State.endJobAccess s p status kind unit).ctl = s.ctl := by
  unfold State.endJobAccess
  repeat' first
    | with_reducible rfl
    | with_reducible refine (State.report_ctl ..).trans ?_
    | with_reducible refine (State.endStep_ctl ..).trans ?_
    | (fail_if_no_progress with_reducible refine (ctl_upd _).trans ?_)
    | dsimp only
    | split

@[simp] theorem State.endFenced_ctl (s : State) (p : Nat) (key : NoteKey) : (State.endFenced s p key).ctl = s.ctl := by
  unfold State.endFenced
  repeat' first
    | with_reducible rfl
    | with_reducible refine (State.modPart_ctl ..).trans ?_
    | with_reducible refine (State.endStep_ctl ..).trans ?_

@[simp] theorem State.endRun_ctl (s : State) (p : Nat) : (State.endRun s p).ctl = s.ctl := by
  unfold State.endRun
  repeat' first
    | with_reducible rfl
    | with_reducible refine (State.clearShadows_ctl ..).trans ?_
    | with_reducible refine (State.dropCoreDrafts_ctl ..).trans ?_
    | with_reducible refine (State.modPart_ctl ..).trans ?_
    | with_reducible refine (State.tellEnd_ctl ..).trans ?_

@[simp] theorem State.launch_ctl (s : State) (p st : Nat) (group : Option Nat) (core : Nat) (seq : Stream) (order : Nat) (kv : Option KvBlock) : (State.launch s p st group core seq order kv).ctl = s.ctl := by
  unfold State.launch
  repeat' first
    | with_reducible rfl
    | with_reducible refine (State.setSlice_ctl ..).trans ?_
    | with_reducible refine (State.modPart_ctl ..).trans ?_
    | (fail_if_no_progress with_reducible refine (ctl_upd _).trans ?_)
    | dsimp only
    | split

@[simp] theorem State.sendToken_ctl (s : State) (c e : Nat) (tag : W32) (group : Option Nat) (q : Stream) (order : Nat) : (State.sendToken s c e tag group q order).ctl = s.ctl := by
  unfold State.sendToken
  repeat' first
    | with_reducible rfl
    | with_reducible refine (State.setCore_ctl ..).trans ?_
    | with_reducible refine (State.launch_ctl ..).trans ?_
    | with_reducible refine (State.modPart_ctl ..).trans ?_
    | (fail_if_no_progress with_reducible refine (ctl_upd _).trans ?_)
    | dsimp only
    | split

@[simp] theorem State.sendTokens_ctl (s : State) (c : Nat) (es : List Nat) (tag : W32) (group : Option Nat) (q : Stream) (order : Nat) : (State.sendTokens s c es tag group q order).ctl = s.ctl := by
  unfold State.sendTokens
  repeat' first
    | with_reducible rfl
    | with_reducible refine (State.sendToken_ctl ..).trans ?_
    | with_reducible refine (foldl_ctl (fun _ _ => ?_) _ _).trans ?_

@[simp] theorem State.freeSlot_ctl (s : State) (c : Nat) (t : QTok) : (State.freeSlot s c t).ctl = s.ctl := by
  unfold State.freeSlot
  repeat' first
    | with_reducible rfl
    | with_reducible refine (State.modPart_ctl ..).trans ?_
    | with_reducible refine (State.modPort_ctl ..).trans ?_
    | with_reducible refine (State.modCore_ctl ..).trans ?_
    | (fail_if_no_progress with_reducible refine (ctl_upd _).trans ?_)
    | dsimp only
    | split

@[simp] theorem State.dropMismatches_ctl (s : State) (c : Nat) (task : Task) (view : List Nat) : (State.dropMismatches s c task view).ctl = s.ctl := by
  unfold State.dropMismatches
  repeat' first
    | with_reducible rfl
    | with_reducible refine (State.modCore_ctl ..).trans ?_
    | with_reducible refine (State.freeSlot_ctl ..).trans ?_
    | with_reducible refine (foldl_ctl (fun _ _ => ?_) _ _).trans ?_
    | with_reducible refine (foldl_fst_ctl (fun _ _ => ?_) _ _).trans ?_
    | (fail_if_no_progress with_reducible refine (ctl_upd _).trans ?_)
    | dsimp only
    | split

@[simp] theorem State.takeTokens_ctl (s : State) (c : Nat) (task : Task) (view : List Nat) : (State.takeTokens s c task view).1.ctl = s.ctl := by
  unfold State.takeTokens
  repeat' first
    | with_reducible rfl
    | with_reducible refine (State.modCore_ctl ..).trans ?_
    | with_reducible refine (State.freeSlot_ctl ..).trans ?_
    | with_reducible refine (foldl_ctl (fun _ _ => ?_) _ _).trans ?_
    | with_reducible refine (foldl_fst_ctl (fun _ _ => ?_) _ _).trans ?_
    | (fail_if_no_progress with_reducible refine (ctl_upd _).trans ?_)
    | dsimp only
    | split

@[simp] theorem State.sendUp_ctl (s : State) (c : Nat) (m : UpMsg) : (State.sendUp s c m).ctl = s.ctl := by
  unfold State.sendUp
  repeat' first
    | with_reducible rfl
    | with_reducible refine (State.modPart_ctl ..).trans ?_

@[simp] theorem State.releaseRings_ctl (s : State) (c : Nat) (q : Stream) : (State.releaseRings s c q).ctl = s.ctl := by
  unfold State.releaseRings
  repeat' first
    | with_reducible rfl
    | with_reducible refine (State.modCore_ctl ..).trans ?_
    | with_reducible refine (State.setSeq_ctl ..).trans ?_
    | with_reducible refine (State.modPart_ctl ..).trans ?_
    | (fail_if_no_progress with_reducible refine (ctl_upd _).trans ?_)
    | dsimp only
    | split

@[simp] theorem State.sendKept_ctl (s : State) (c : ℕ) (a2 : List OutTok) : (State.sendKept s c a2).ctl = s.ctl := by
  induction a2 generalizing s with
  | nil => rfl
  | cons o l ih =>
    unfold State.sendKept
    split
    · exact (ih _).trans (State.sendToken_ctl ..)
    · rfl

@[simp] theorem State.sendCommit_ctl (s : State) (c : Nat) (es : List Nat) (tag : W32) (q : Stream) (order : Nat) : (State.sendCommit s c es tag q order).ctl = s.ctl := by
  unfold State.sendCommit
  repeat' first
    | with_reducible rfl
    | with_reducible refine (State.sendToken_ctl ..).trans ?_
    | with_reducible refine (State.modCore_ctl ..).trans ?_
    | with_reducible refine (foldl_ctl (fun _ _ => ?_) _ _).trans ?_
    | with_reducible refine (foldl_fst_ctl (fun _ _ => ?_) _ _).trans ?_
    | (fail_if_no_progress with_reducible refine (ctl_upd _).trans ?_)
    | dsimp only
    | split

@[simp] theorem State.tryEnd_ctl (s : State) (c : Nat) : (State.tryEnd s c).ctl = s.ctl := by
  unfold State.tryEnd
  repeat' first
    | with_reducible rfl
    | with_reducible refine (State.setCore_ctl ..).trans ?_
    | with_reducible refine (State.sendUp_ctl ..).trans ?_
    | (fail_if_no_progress with_reducible refine (ctl_upd _).trans ?_)
    | dsimp only
    | split

@[simp] theorem State.settleCore_ctl (s : State) (c : Nat) : (State.settleCore s c).ctl = s.ctl := by
  unfold State.settleCore
  repeat' first
    | with_reducible rfl
    | with_reducible refine (State.sendKept_ctl ..).trans ?_
    | with_reducible refine (State.releaseRings_ctl ..).trans ?_
    | with_reducible refine (State.tryEnd_ctl ..).trans ?_
    | (fail_if_no_progress with_reducible refine (ctl_upd _).trans ?_)
    | dsimp only
    | split

@[simp] theorem State.noteParents_ctl (s : State) (p g : Nat) : (State.noteParents s p g).ctl = s.ctl := by
  unfold State.noteParents
  repeat' first
    | with_reducible rfl
    | with_reducible refine (State.setPart_ctl ..).trans ?_
    | with_reducible refine (foldl_ctl (fun _ _ => ?_) _ _).trans ?_
    | with_reducible refine (foldl_fst_ctl (fun _ _ => ?_) _ _).trans ?_
    | (fail_if_no_progress with_reducible refine (ctl_upd _).trans ?_)
    | dsimp only
    | split

@[simp] theorem State.raiseLayer_ctl (s : State) (p layer : Nat) (cs : List Closure) : (State.raiseLayer s p layer cs).ctl = s.ctl := by
  unfold State.raiseLayer
  repeat' first
    | with_reducible rfl
    | with_reducible refine (State.setPart_ctl ..).trans ?_
    | with_reducible refine (State.sendBell_ctl ..).trans ?_
    | (fail_if_no_progress with_reducible refine (ctl_upd _).trans ?_)
    | dsimp only
    | split

@[simp] theorem State.escalate_ctl (s : State) (p g : Nat) : (State.escalate s p g).1.ctl = s.ctl := by
  unfold State.escalate
  repeat' first
    | with_reducible rfl
    | with_reducible refine (State.setPart_ctl ..).trans ?_
    | with_reducible refine (State.endStep_ctl ..).trans ?_
    | with_reducible refine (State.raiseLayer_ctl ..).trans ?_
    | with_reducible refine (foldl_ctl (fun _ _ => ?_) _ _).trans ?_
    | with_reducible refine (foldl_fst_ctl (fun _ _ => ?_) _ _).trans ?_
    | (fail_if_no_progress with_reducible refine (ctl_upd _).trans ?_)
    | dsimp only
    | split

@[simp] theorem State.fairOverflow_ctl (s : State) (p c layer mb : Nat) (causes : List (Nat × Nat)) : (State.fairOverflow s p c layer mb causes).ctl = s.ctl := by
  unfold State.fairOverflow
  repeat' first
    | with_reducible rfl
    | with_reducible refine (State.setPart_ctl ..).trans ?_
    | with_reducible refine (State.endStep_ctl ..).trans ?_

@[simp] theorem State.broadcast_ctl (s : State) (p g : Nat) (commit clip : Bool) : (State.broadcast s p g commit clip).ctl = s.ctl := by
  unfold State.broadcast
  repeat' first
    | with_reducible rfl
    | with_reducible refine (State.modCore_ctl ..).trans ?_
    | with_reducible refine (State.modSlice_ctl ..).trans ?_
    | with_reducible refine (State.modPart_ctl ..).trans ?_
    | with_reducible refine (foldl_ctl (fun _ _ => ?_) _ _).trans ?_

@[simp] theorem State.commitGroup_ctl (s : State) (p g : Nat) : (State.commitGroup s p g).ctl = s.ctl := by
  unfold State.commitGroup
  repeat' first
    | with_reducible rfl
    | with_reducible refine (State.setPart_ctl ..).trans ?_
    | with_reducible refine (State.broadcast_ctl ..).trans ?_

@[simp] theorem State.discardOne_ctl (s : State) (p g : Nat) (clip : Bool) : (State.discardOne s p g clip).ctl = s.ctl := by
  unfold State.discardOne
  repeat' first
    | with_reducible rfl
    | with_reducible refine (State.setPart_ctl ..).trans ?_
    | with_reducible refine (State.broadcast_ctl ..).trans ?_

@[simp] theorem State.discardGroup_ctl (s : State) (p g : Nat) (overflow clip : Bool) : (State.discardGroup s p g overflow clip).ctl = s.ctl := by
  unfold State.discardGroup
  repeat' first
    | with_reducible rfl
    | with_reducible refine (State.escalate_ctl ..).trans ?_
    | refine (fst_ctl (State.escalate_ctl ..) (by assumption)).trans ?_
    | with_reducible refine (State.discardOne_ctl ..).trans ?_
    | with_reducible refine (foldl_ctl (fun _ _ => ?_) _ _).trans ?_
    | with_reducible refine (foldl_fst_ctl (fun _ _ => ?_) _ _).trans ?_
    | (fail_if_no_progress with_reducible refine (ctl_upd _).trans ?_)
    | dsimp only
    | split

@[simp] theorem State.tryVerdicts_ctl (s : State) (p : ℕ) (a2 : ℕ) (a3 : List ℕ) : (State.tryVerdicts s p a2 a3).ctl = s.ctl := by
  induction a2 generalizing s a3 with
  | zero => rfl
  | succ n ih =>
    cases a3 with
    | nil => rfl
    | cons g gs =>
      unfold State.tryVerdicts
      dsimp only
      split
      · split
        · exact (ih _ _).trans (State.discardGroup_ctl ..)
        · split
          · exact ih _ _
          · exact (ih _ _).trans (State.commitGroup_ctl ..)
      · exact ih _ _

@[simp] theorem State.allVerdicts_ctl (s : State) (p : Nat) : (State.allVerdicts s p).ctl = s.ctl := by
  unfold State.allVerdicts
  repeat' first
    | with_reducible rfl
    | with_reducible refine (State.tryVerdicts_ctl ..).trans ?_

@[simp] theorem State.closuresIn_ctl (s : State) (p g : Nat) : (State.closuresIn s p g).ctl = s.ctl := by
  unfold State.closuresIn
  repeat' first
    | with_reducible rfl
    | with_reducible refine (State.setPart_ctl ..).trans ?_
    | with_reducible refine (State.sendBells_ctl ..).trans ?_
    | with_reducible refine (State.sendPackets_ctl ..).trans ?_
    | (fail_if_no_progress with_reducible refine (ctl_upd _).trans ?_)
    | dsimp only
    | split

@[simp] theorem State.closure_ctl (s : State) (p g : Nat) (cl : Closure) (att : Nat) : (State.closure s p g cl att).ctl = s.ctl := by
  unfold State.closure
  repeat' first
    | with_reducible rfl
    | with_reducible refine (State.setPart_ctl ..).trans ?_
    | with_reducible refine (State.modPart_ctl ..).trans ?_
    | with_reducible refine (State.closuresIn_ctl ..).trans ?_
    | with_reducible refine (State.tryVerdicts_ctl ..).trans ?_
    | with_reducible refine (foldl_ctl (fun _ _ => ?_) _ _).trans ?_
    | with_reducible refine (foldl_fst_ctl (fun _ _ => ?_) _ _).trans ?_
    | (fail_if_no_progress with_reducible refine (ctl_upd _).trans ?_)
    | dsimp only
    | split

@[simp] theorem State.applied_ctl (s : State) (p g : Nat) : (State.applied s p g).ctl = s.ctl := by
  unfold State.applied
  repeat' first
    | with_reducible rfl
    | with_reducible refine (State.modPart_ctl ..).trans ?_
    | with_reducible refine (State.closure_ctl ..).trans ?_
    | with_reducible refine (State.tryVerdicts_ctl ..).trans ?_
    | with_reducible refine (foldl_ctl (fun _ _ => ?_) _ _).trans ?_
    | with_reducible refine (foldl_fst_ctl (fun _ _ => ?_) _ _).trans ?_
    | (fail_if_no_progress with_reducible refine (ctl_upd _).trans ?_)
    | dsimp only
    | split

@[simp] theorem State.setPool_ctl (s : State) (p : Nat) (k : KvPool) : (State.setPool s p k).ctl = s.ctl := by
  unfold State.setPool
  repeat' first
    | with_reducible rfl
    | with_reducible refine (State.modPart_ctl ..).trans ?_

@[simp] theorem State.kvAdmitted_ctl (s : State) (p : Nat) (k : KvPool) (view : List Nat) (r : KvReq) : (State.kvAdmitted s p k view r).ctl = s.ctl := by
  unfold State.kvAdmitted
  repeat' first
    | with_reducible rfl
    | with_reducible refine (State.setPool_ctl ..).trans ?_

@[simp] theorem State.kvDropped_ctl (s : State) (p : Nat) (k : KvPool) (id : Nat) : (State.kvDropped s p k id).ctl = s.ctl := by
  unfold State.kvDropped
  repeat' first
    | with_reducible rfl
    | with_reducible refine (State.setPool_ctl ..).trans ?_

@[simp] theorem State.kvAdmit_ctl (s : State) (p : Nat) (r : KvReq) : (State.kvAdmit s p r).ctl = s.ctl := by
  unfold State.kvAdmit
  repeat' first
    | with_reducible rfl
    | with_reducible refine (State.kvDropped_ctl ..).trans ?_
    | with_reducible refine (State.kvAdmitted_ctl ..).trans ?_
    | with_reducible refine (State.setPool_ctl ..).trans ?_
    | (fail_if_no_progress with_reducible refine (ctl_upd _).trans ?_)
    | dsimp only
    | split

@[simp] theorem State.kvLoadStart_ctl (s : State) (p : Nat) (k : KvPool) (r : KvReq) : (State.kvLoadStart s p k r).ctl = s.ctl := by
  unfold State.kvLoadStart
  repeat' first
    | with_reducible rfl
    | with_reducible refine (State.modCore_ctl ..).trans ?_
    | with_reducible refine (State.setPool_ctl ..).trans ?_
    | (fail_if_no_progress with_reducible refine (ctl_upd _).trans ?_)
    | dsimp only
    | split

@[simp] theorem State.kvPumpOne_ctl (s : State) (p id : Nat) : (State.kvPumpOne s p id).ctl = s.ctl := by
  unfold State.kvPumpOne
  repeat' first
    | with_reducible rfl
    | with_reducible refine (State.setPool_ctl ..).trans ?_
    | with_reducible refine (State.launch_ctl ..).trans ?_
    | with_reducible refine (State.kvLoadStart_ctl ..).trans ?_
    | (fail_if_no_progress with_reducible refine (ctl_upd _).trans ?_)
    | dsimp only
    | split

@[simp] theorem State.kvPump_ctl (s : State) (p : Nat) : (State.kvPump s p).ctl = s.ctl := by
  unfold State.kvPump
  repeat' first
    | with_reducible rfl
    | with_reducible refine (State.kvPumpOne_ctl ..).trans ?_
    | with_reducible refine (foldl_ctl (fun _ _ => ?_) _ _).trans ?_
    | with_reducible refine (foldl_fst_ctl (fun _ _ => ?_) _ _).trans ?_
    | (fail_if_no_progress with_reducible refine (ctl_upd _).trans ?_)
    | dsimp only
    | split

@[simp] theorem State.kvBlockDone_ctl (s : State) (p : Nat) (l : Launch) (b : KvBlock) : (State.kvBlockDone s p l b).ctl = s.ctl := by
  unfold State.kvBlockDone
  repeat' first
    | with_reducible rfl
    | with_reducible refine (State.modCore_ctl ..).trans ?_
    | with_reducible refine (State.setPool_ctl ..).trans ?_
    | with_reducible refine (State.kvPump_ctl ..).trans ?_
    | (fail_if_no_progress with_reducible refine (ctl_upd _).trans ?_)
    | dsimp only
    | split

theorem State.addPoolPage_ctl (s : State) (p : Nat) (k : KvPool) : ∀ x, State.addPoolPage s p k = some x → x.1.ctl = s.ctl := by
  intro x h
  unfold State.addPoolPage at h
  extract_lets part pg tables hh at h
  clear_value tables pg hh
  split at h
  · cases h
  · cases hs : s.takeTables p tables with
    | none => rw [hs] at h; cases h
    | some s' =>
      rw [hs] at h
      dsimp only at h
      split at h
      · cases h
      · cases h
        exact (State.takeTables_ctl _ _ _ _ hs : s'.ctl = s.ctl)

@[simp] theorem State.kvNoPage_ctl (s : State) (p : Nat) (k : KvPool) (r : KvReq) : (State.kvNoPage s p k r).ctl = s.ctl := by
  unfold State.kvNoPage
  repeat' first
    | with_reducible rfl
    | with_reducible refine (State.setPool_ctl ..).trans ?_
    | with_reducible refine (State.partEvent_ctl ..).trans ?_

@[simp] theorem State.runOp_ctl (s : State) (c : Nat) (q : Stream) (op : Nat) (f : Issue → Try) : (State.runOp s c q op f).ctl = s.ctl := by
  unfold State.runOp
  repeat' first
    | with_reducible rfl
    | with_reducible refine (State.complete_ctl ..).trans ?_
    | (fail_if_no_progress with_reducible refine (ctl_upd _).trans ?_)
    | dsimp only
    | split

@[simp] theorem State.runAttn_ctl (s : State) (c : Nat) (q : Stream) (op : Nat) (f : Issue → Bool → Try) : (State.runAttn s c q op f).ctl = s.ctl := by
  unfold State.runAttn
  repeat' first
    | with_reducible rfl
    | with_reducible refine (State.complete_ctl ..).trans ?_
    | with_reducible refine (State.modSite_ctl ..).trans ?_
    | (fail_if_no_progress with_reducible refine (ctl_upd _).trans ?_)
    | dsimp only
    | split

@[simp] theorem State.runKv_ctl (s : State) (c : Nat) (q : Stream) (op : Nat) (load : Bool) : (State.runKv s c q op load).ctl = s.ctl := by
  unfold State.runKv
  repeat' first
    | with_reducible rfl
    | with_reducible refine (State.complete_ctl ..).trans ?_
    | with_reducible refine (State.modPart_ctl ..).trans ?_
    | (fail_if_no_progress with_reducible refine (ctl_upd _).trans ?_)
    | dsimp only
    | split

@[simp] theorem State.gatherTaps_ctl (s : State) (p : Nat) : (State.gatherTaps s p).ctl = s.ctl := by
  unfold State.gatherTaps
  repeat' first
    | with_reducible rfl
    | with_reducible refine (State.setPart_ctl ..).trans ?_
    | with_reducible refine (State.setCore_ctl ..).trans ?_
    | with_reducible refine (foldl_ctl (fun _ _ => ?_) _ _).trans ?_
    | with_reducible refine (foldl_fst_ctl (fun _ _ => ?_) _ _).trans ?_
    | (fail_if_no_progress with_reducible refine (ctl_upd _).trans ?_)
    | dsimp only
    | split

@[simp] theorem State.takeFused_ctl (s : State) (p : Nat) : (State.takeFused s p).ctl = s.ctl := by
  unfold State.takeFused
  repeat' first
    | with_reducible rfl
    | (fail_if_no_progress with_reducible refine (ctl_upd _).trans ?_)

@[simp] theorem State.beginChange_ctl (s : State) (p k : Nat) : (State.beginChange s p k).ctl = s.ctl := by
  unfold State.beginChange
  repeat' first
    | with_reducible rfl
    | with_reducible refine (State.modCore_ctl ..).trans ?_
    | with_reducible refine (State.close_ctl ..).trans ?_
    | with_reducible refine (State.setPart_ctl ..).trans ?_
    | with_reducible refine (State.ended_ctl ..).trans ?_
    | with_reducible refine (foldl_ctl (fun _ _ => ?_) _ _).trans ?_

@[simp] theorem State.beginStep_ctl (s : State) (p t : Nat) : (State.beginStep s p t).ctl = s.ctl := by
  unfold State.beginStep
  repeat' first
    | with_reducible rfl
    | with_reducible refine (State.modPart_ctl ..).trans ?_
    | with_reducible refine (State.beginChange_ctl ..).trans ?_

@[simp] theorem State.closeSection_ctl (s : State) (p : Nat) : (State.closeSection s p).ctl = s.ctl := by
  unfold State.closeSection
  repeat' first
    | with_reducible rfl
    | with_reducible refine (State.gatherTaps_ctl ..).trans ?_
    | with_reducible refine (State.takeFused_ctl ..).trans ?_
    | with_reducible refine (State.beginChange_ctl ..).trans ?_
    | with_reducible refine (State.modPart_ctl ..).trans ?_
    | with_reducible refine (State.beginStep_ctl ..).trans ?_
    | (fail_if_no_progress with_reducible refine (ctl_upd _).trans ?_)
    | dsimp only
    | split

@[simp] theorem State.spillRow_ctl (s : State) (r : Nat) : (State.spillRow s r).ctl = s.ctl := by
  unfold State.spillRow
  repeat' first
    | with_reducible rfl
    | with_reducible refine (State.modCloak_ctl ..).trans ?_
    | with_reducible refine (State.modCore_ctl ..).trans ?_
    | with_reducible refine (foldl_ctl (fun _ _ => ?_) _ _).trans ?_
    | with_reducible refine (foldl_fst_ctl (fun _ _ => ?_) _ _).trans ?_
    | (fail_if_no_progress with_reducible refine (ctl_upd _).trans ?_)
    | dsimp only
    | split

@[simp] theorem State.reseatRow_ctl (s : State) (p r : Nat) : (State.reseatRow s p r).ctl = s.ctl := by
  unfold State.reseatRow
  repeat' first
    | with_reducible rfl
    | with_reducible refine (State.modCore_ctl ..).trans ?_
    | with_reducible refine (State.modPart_ctl ..).trans ?_
    | with_reducible refine (foldl_ctl (fun _ _ => ?_) _ _).trans ?_
    | with_reducible refine (foldl_fst_ctl (fun _ _ => ?_) _ _).trans ?_
    | (fail_if_no_progress with_reducible refine (ctl_upd _).trans ?_)
    | dsimp only
    | split

@[simp] theorem State.switch_ctl (s : State) (p : Nat) : (State.switch s p).ctl = s.ctl := by
  unfold State.switch
  repeat' first
    | with_reducible rfl
    | with_reducible refine (State.spillRow_ctl ..).trans ?_
    | with_reducible refine (State.modPart_ctl ..).trans ?_
    | with_reducible refine (State.ended_ctl ..).trans ?_
    | with_reducible refine (State.setCore_ctl ..).trans ?_
    | with_reducible refine (State.reseatRow_ctl ..).trans ?_
    | with_reducible refine (foldl_ctl (fun _ _ => ?_) _ _).trans ?_
    | with_reducible refine (foldl_fst_ctl (fun _ _ => ?_) _ _).trans ?_
    | (fail_if_no_progress with_reducible refine (ctl_upd _).trans ?_)
    | dsimp only
    | split

@[simp] theorem State.loadLinks_ctl (s : State) (p : Nat) : (State.loadLinks s p).ctl = s.ctl := by
  unfold State.loadLinks
  repeat' first
    | with_reducible rfl
    | with_reducible refine (State.setPort_ctl ..).trans ?_
    | with_reducible refine (foldl_ctl (fun _ _ => ?_) _ _).trans ?_
    | with_reducible refine (foldl_fst_ctl (fun _ _ => ?_) _ _).trans ?_
    | (fail_if_no_progress with_reducible refine (ctl_upd _).trans ?_)
    | dsimp only
    | split

@[simp] theorem State.loadCores_ctl (s : State) (p : Nat) : (State.loadCores s p).ctl = s.ctl := by
  unfold State.loadCores
  repeat' first
    | with_reducible rfl
    | with_reducible refine (State.modCore_ctl ..).trans ?_
    | with_reducible refine (foldl_ctl (fun _ _ => ?_) _ _).trans ?_
    | with_reducible refine (foldl_fst_ctl (fun _ _ => ?_) _ _).trans ?_
    | (fail_if_no_progress with_reducible refine (ctl_upd _).trans ?_)
    | dsimp only
    | split

@[simp] theorem State.reinject_ctl (s : State) (p r : Nat) (x : Nat × Nat × Tok) : (State.reinject s p r x).ctl = s.ctl := by
  unfold State.reinject
  repeat' first
    | with_reducible rfl
    | with_reducible refine (State.modCloak_ctl ..).trans ?_
    | with_reducible refine (State.setCore_ctl ..).trans ?_
    | (fail_if_no_progress with_reducible refine (ctl_upd _).trans ?_)
    | dsimp only
    | split

@[simp] theorem State.reinjectRow_ctl (s : State) (p r : Nat) : (State.reinjectRow s p r).ctl = s.ctl := by
  unfold State.reinjectRow
  repeat' first
    | with_reducible rfl
    | with_reducible refine (State.reinject_ctl ..).trans ?_
    | with_reducible refine (State.modCloak_ctl ..).trans ?_
    | with_reducible refine (foldl_ctl (fun _ _ => ?_) _ _).trans ?_

@[simp] theorem State.setCredits_ctl (s : State) (c : Nat) : (State.setCredits s c).ctl = s.ctl := by
  unfold State.setCredits
  repeat' first
    | with_reducible rfl
    | with_reducible refine (State.setCore_ctl ..).trans ?_

@[simp] theorem State.startSection_ctl (s : State) (p : Nat) : (State.startSection s p).ctl = s.ctl := by
  unfold State.startSection
  repeat' first
    | with_reducible rfl
    | with_reducible refine (State.modCloak_ctl ..).trans ?_
    | with_reducible refine (State.modPart_ctl ..).trans ?_
    | with_reducible refine (foldl_ctl (fun _ _ => ?_) _ _).trans ?_

@[simp] theorem State.setSeq_ctl (s : State) (c : Nat) (q : Stream) (sq : Seq) : (State.setSeq s c q sq).ctl = s.ctl := by
  unfold State.setSeq
  repeat' first
    | with_reducible rfl
    | with_reducible refine (State.modCore_ctl ..).trans ?_

@[simp] theorem State.modSeq_ctl (s : State) (c : Nat) (q : Stream) (f : Seq → Seq) : (State.modSeq s c q f).ctl = s.ctl := by
  unfold State.modSeq
  repeat' first
    | with_reducible rfl
    | with_reducible refine (State.modCore_ctl ..).trans ?_

@[simp] theorem State.postTask_ctl (s : State) (c : Nat) (q : Stream) : (State.postTask s c q).ctl = s.ctl := by
  unfold State.postTask
  repeat' first
    | with_reducible rfl
    | with_reducible refine (State.setSeq_ctl ..).trans ?_
    | (fail_if_no_progress with_reducible refine (ctl_upd _).trans ?_)
    | dsimp only
    | split

@[simp] theorem State.loopRead_ctl (s : State) (c : Nat) (q : Stream) (body : Bool) : (State.loopRead s c q body).ctl = s.ctl := by
  unfold State.loopRead
  repeat' first
    | with_reducible rfl
    | with_reducible refine (State.modSeq_ctl ..).trans ?_
    | (fail_if_no_progress with_reducible refine (ctl_upd _).trans ?_)
    | dsimp only
    | split

@[simp] theorem State.ringRead_ctl (s : State) (c : Nat) (q : Stream) (body : Bool) : (State.ringRead s c q body).ctl = s.ctl := by
  unfold State.ringRead
  repeat' first
    | with_reducible rfl
    | with_reducible refine (State.modSeq_ctl ..).trans ?_
    | with_reducible refine (State.releaseRings_ctl ..).trans ?_
    | (fail_if_no_progress with_reducible refine (ctl_upd _).trans ?_)
    | dsimp only
    | split

@[simp] theorem State.armRead_ctl (s : State) (c : Nat) (q : Stream) (body : Bool) : (State.armRead s c q body).ctl = s.ctl := by
  unfold State.armRead
  repeat' first
    | with_reducible rfl
    | with_reducible refine (State.sendUp_ctl ..).trans ?_
    | with_reducible refine (State.modSeq_ctl ..).trans ?_
    | (fail_if_no_progress with_reducible refine (ctl_upd _).trans ?_)
    | dsimp only
    | split

@[simp] theorem State.waitRead_ctl (s : State) (c : Nat) (q : Stream) (body : Bool) : (State.waitRead s c q body).ctl = s.ctl := by
  unfold State.waitRead
  repeat' first
    | with_reducible rfl
    | with_reducible refine (State.setSeq_ctl ..).trans ?_
    | (fail_if_no_progress with_reducible refine (ctl_upd _).trans ?_)
    | dsimp only
    | split

@[simp] theorem State.fireTask_ctl (s : State) (c : Nat) (q : Stream) (t : Task) (rest : List Task) : (State.fireTask s c q t rest).ctl = s.ctl := by
  unfold State.fireTask
  repeat' first
    | with_reducible rfl
    | with_reducible refine (State.takeTokens_ctl ..).trans ?_
    | refine (fst_ctl (State.takeTokens_ctl ..) (by assumption)).trans ?_
    | with_reducible refine (State.setSeq_ctl ..).trans ?_
    | with_reducible refine (State.setCore_ctl ..).trans ?_
    | with_reducible refine (State.modPart_ctl ..).trans ?_
    | with_reducible refine (State.noteParents_ctl ..).trans ?_
    | (fail_if_no_progress with_reducible refine (ctl_upd _).trans ?_)
    | dsimp only
    | split

@[simp] theorem State.fire_ctl (s : State) (c : Nat) (q : Stream) : (State.fire s c q).ctl = s.ctl := by
  unfold State.fire
  repeat' first
    | with_reducible rfl
    | with_reducible refine (State.dropMismatches_ctl ..).trans ?_
    | with_reducible refine (State.fireTask_ctl ..).trans ?_
    | with_reducible refine (foldl_ctl (fun _ _ => ?_) _ _).trans ?_
    | with_reducible refine (foldl_fst_ctl (fun _ _ => ?_) _ _).trans ?_
    | (fail_if_no_progress with_reducible refine (ctl_upd _).trans ?_)
    | dsimp only
    | split

@[simp] theorem State.closeTask_ctl (s : State) (c : Nat) (q : Stream) : (State.closeTask s c q).ctl = s.ctl := by
  unfold State.closeTask
  repeat' first
    | with_reducible rfl
    | with_reducible refine (State.sendTokens_ctl ..).trans ?_
    | with_reducible refine (State.modSeq_ctl ..).trans ?_
    | with_reducible refine (State.modCore_ctl ..).trans ?_
    | with_reducible refine (State.sendUp_ctl ..).trans ?_
    | with_reducible refine (State.closure_ctl ..).trans ?_
    | with_reducible refine (State.settleCore_ctl ..).trans ?_
    | with_reducible refine (State.modPart_ctl ..).trans ?_
    | with_reducible refine (State.fairOverflow_ctl ..).trans ?_
    | (fail_if_no_progress with_reducible refine (ctl_upd _).trans ?_)
    | dsimp only
    | split

@[simp] theorem State.deliver_ctl (s : State) (p d : Nat) (t : Tok) (src : Option (Nat × Nat)) : (State.deliver s p d t src).ctl = s.ctl := by
  unfold State.deliver
  repeat' first
    | with_reducible rfl
    | with_reducible refine (State.setCore_ctl ..).trans ?_
    | with_reducible refine (State.modCloak_ctl ..).trans ?_
    | (fail_if_no_progress with_reducible refine (ctl_upd _).trans ?_)
    | dsimp only
    | split

@[simp] theorem State.tokenLeaves_ctl (s : State) (c e due : Nat) (o : OutTok) : (State.tokenLeaves s c e due o).ctl = s.ctl := by
  unfold State.tokenLeaves
  repeat' first
    | with_reducible rfl
    | with_reducible refine (State.modPart_ctl ..).trans ?_
    | with_reducible refine (State.modCore_ctl ..).trans ?_
    | (fail_if_no_progress with_reducible refine (ctl_upd _).trans ?_)
    | dsimp only
    | split

@[simp] theorem State.tokenOccurs_ctl (s : State) (c e : Nat) : (State.tokenOccurs s c e).ctl = s.ctl := by
  unfold State.tokenOccurs
  repeat' first
    | with_reducible rfl
    | with_reducible refine (State.setCore_ctl ..).trans ?_
    | with_reducible refine (State.tokenLeaves_ctl ..).trans ?_
    | with_reducible refine (State.settleCore_ctl ..).trans ?_
    | with_reducible refine (State.routerWait_ctl ..).trans ?_
    | (fail_if_no_progress with_reducible refine (ctl_upd _).trans ?_)
    | dsimp only
    | split

@[simp] theorem State.creditOccurs_ctl (s : State) (c e : Nat) : (State.creditOccurs s c e).ctl = s.ctl := by
  unfold State.creditOccurs
  repeat' first
    | with_reducible rfl
    | with_reducible refine (State.setCore_ctl ..).trans ?_
    | with_reducible refine (State.modCore_ctl ..).trans ?_
    | with_reducible refine (State.modPart_ctl ..).trans ?_
    | (fail_if_no_progress with_reducible refine (ctl_upd _).trans ?_)
    | dsimp only
    | split

@[simp] theorem State.coreApplied_ctl (s : State) (p c g : Nat) : (State.coreApplied s p c g).ctl = s.ctl := by
  unfold State.coreApplied
  repeat' first
    | with_reducible rfl
    | with_reducible refine (State.modPart_ctl ..).trans ?_
    | with_reducible refine (State.applied_ctl ..).trans ?_

@[simp] theorem State.commitAt_ctl (s : State) (c g : Nat) (rest : List DownMsg) : (State.commitAt s c g rest).ctl = s.ctl := by
  unfold State.commitAt
  repeat' first
    | with_reducible rfl
    | with_reducible refine (State.setCore_ctl ..).trans ?_
    | with_reducible refine (State.modPart_ctl ..).trans ?_
    | with_reducible refine (State.sendCommit_ctl ..).trans ?_
    | with_reducible refine (State.coreApplied_ctl ..).trans ?_
    | with_reducible refine (State.settleCore_ctl ..).trans ?_
    | with_reducible refine (foldl_ctl (fun _ _ => ?_) _ _).trans ?_
    | with_reducible refine (foldl_fst_ctl (fun _ _ => ?_) _ _).trans ?_
    | (fail_if_no_progress with_reducible refine (ctl_upd _).trans ?_)
    | dsimp only
    | split

@[simp] theorem State.dropDrafts_ctl (s : State) (c g : Nat) : (State.dropDrafts s c g).ctl = s.ctl := by
  unfold State.dropDrafts
  repeat' first
    | with_reducible rfl
    | with_reducible refine (State.modCore_ctl ..).trans ?_
    | with_reducible refine (State.freeSlot_ctl ..).trans ?_
    | with_reducible refine (foldl_ctl (fun _ _ => ?_) _ _).trans ?_
    | with_reducible refine (foldl_fst_ctl (fun _ _ => ?_) _ _).trans ?_
    | (fail_if_no_progress with_reducible refine (ctl_upd _).trans ?_)
    | dsimp only
    | split

@[simp] theorem State.discardAt_ctl (s : State) (c g : Nat) (clip : Bool) (rest : List DownMsg) : (State.discardAt s c g clip rest).ctl = s.ctl := by
  unfold State.discardAt
  repeat' first
    | with_reducible rfl
    | with_reducible refine (State.setSeq_ctl ..).trans ?_
    | with_reducible refine (State.setCore_ctl ..).trans ?_
    | with_reducible refine (State.dropDrafts_ctl ..).trans ?_
    | with_reducible refine (State.coreApplied_ctl ..).trans ?_
    | with_reducible refine (State.settleCore_ctl ..).trans ?_

@[simp] theorem State.sliceVerdict_ctl (s : State) (k g : Nat) : (State.sliceVerdict s k g).ctl = s.ctl := by
  unfold State.sliceVerdict
  repeat' first
    | with_reducible rfl
    | with_reducible refine (State.settleSlice_ctl ..).trans ?_
    | with_reducible refine (State.modSlice_ctl ..).trans ?_
    | with_reducible refine (State.applied_ctl ..).trans ?_
    | with_reducible refine (State.modPart_ctl ..).trans ?_

@[simp] theorem State.setBell_ctl (s : State) (p b : Nat) (n : W32) : (State.setBell s p b n).ctl = s.ctl := by
  unfold State.setBell
  repeat' first
    | with_reducible rfl
    | with_reducible refine (State.modPart_ctl ..).trans ?_
    | with_reducible refine (State.modCore_ctl ..).trans ?_
    | with_reducible refine (foldl_ctl (fun _ _ => ?_) _ _).trans ?_
    | with_reducible refine (foldl_fst_ctl (fun _ _ => ?_) _ _).trans ?_
    | (fail_if_no_progress with_reducible refine (ctl_upd _).trans ?_)
    | dsimp only
    | split

@[simp] theorem State.ringRoot_ctl (s : State) (p b : Nat) (amount : W32) : (State.ringRoot s p b amount).ctl = s.ctl := by
  unfold State.ringRoot
  repeat' first
    | with_reducible rfl
    | with_reducible refine (State.sendBells_ctl ..).trans ?_
    | with_reducible refine (State.setBell_ctl ..).trans ?_
    | (fail_if_no_progress with_reducible refine (ctl_upd _).trans ?_)
    | dsimp only
    | split

@[simp] theorem State.zeroProducers_ctl (s : State) (c : Nat) : (State.zeroProducers s c).ctl = s.ctl := by
  unfold State.zeroProducers
  repeat' first
    | with_reducible rfl
    | with_reducible refine (State.setCore_ctl ..).trans ?_
    | with_reducible refine (State.modPart_ctl ..).trans ?_
    | with_reducible refine (foldl_ctl (fun _ _ => ?_) _ _).trans ?_
    | with_reducible refine (foldl_fst_ctl (fun _ _ => ?_) _ _).trans ?_
    | (fail_if_no_progress with_reducible refine (ctl_upd _).trans ?_)
    | dsimp only
    | split

@[simp] theorem State.rollCallDone_ctl (s : State) (c : Nat) : (State.rollCallDone s c).ctl = s.ctl := by
  unfold State.rollCallDone
  repeat' first
    | with_reducible rfl
    | with_reducible refine (State.modCore_ctl ..).trans ?_
    | with_reducible refine (State.setCredits_ctl ..).trans ?_
    | with_reducible refine (State.setCore_ctl ..).trans ?_
    | with_reducible refine (foldl_ctl (fun _ _ => ?_) _ _).trans ?_
    | with_reducible refine (foldl_fst_ctl (fun _ _ => ?_) _ _).trans ?_
    | (fail_if_no_progress with_reducible refine (ctl_upd _).trans ?_)
    | dsimp only
    | split

@[simp] theorem State.putFlit_ctl (s : State) (p st : Nat) (l : Launch) (u : Nat) (cores : List Nat) (b : List Byte) (ts : List (Option SType)) : (State.putFlit s p st l u cores b ts).ctl = s.ctl := by
  unfold State.putFlit
  repeat' first
    | with_reducible rfl
    | with_reducible refine (State.modPart_ctl ..).trans ?_

theorem State.unitFromSlice_ctl (s : State) (p st : Nat) (l : Launch) (u err : Nat) : (State.unitFromSlice s p st l u err).keeps s.ctl := by
  unfold State.unitFromSlice
  repeat' first
    | with_reducible rfl
    | exact True.intro
    | with_reducible refine UnitRes.keeps_moved ?_
    | with_reducible refine UnitRes.keeps_held ?_
    | with_reducible refine UnitRes.keeps_ended ?_
    | with_reducible refine (State.settleSlice_ctl ..).trans ?_
    | with_reducible refine (State.setSlice_ctl ..).trans ?_
    | with_reducible refine (State.ended_ctl ..).trans ?_
    | with_reducible refine (State.endJobAccess_ctl ..).trans ?_
    | with_reducible refine (State.putFlit_ctl ..).trans ?_
    | refine (PageRes.ctl_frame (State.touchPage_ctl ..) (by assumption)).trans ?_
    | refine (PageRes.ctl_zeros (State.touchPage_ctl ..) (by assumption)).trans ?_
    | refine (PageRes.ctl_wait (State.touchPage_ctl ..) (by assumption)).trans ?_
    | with_reducible refine (State.modSlice_ctl ..).trans ?_
    | (fail_if_no_progress with_reducible refine (ctl_upd _).trans ?_)
    | dsimp only
    | split

theorem State.zeroFrame_ctl (s : State) (p pg : Nat) : (State.zeroFrame s p pg).keeps s.ctl := by
  unfold State.zeroFrame
  repeat' first
    | with_reducible rfl
    | exact True.intro
    | with_reducible refine UnitRes.keeps_moved ?_
    | with_reducible refine UnitRes.keeps_held ?_
    | with_reducible refine UnitRes.keeps_ended ?_
    | refine (FrameRes.ctl_got (State.needFrame_ctl ..) (by assumption)).trans ?_
    | refine (FrameRes.ctl_wait (State.needFrame_ctl ..) (by assumption)).trans ?_
    | with_reducible refine (State.setPage_ctl ..).trans ?_
    | with_reducible refine (State.ended_ctl ..).trans ?_
    | with_reducible refine (State.endJobAccess_ctl ..).trans ?_
    | (fail_if_no_progress with_reducible refine (ctl_upd _).trans ?_)
    | dsimp only
    | split

theorem State.storePage_ctl (s : State) (p pg : Nat) (draft : Bool) : (State.storePage s p pg draft).keeps s.ctl := by
  unfold State.storePage
  repeat' first
    | with_reducible rfl
    | exact True.intro
    | with_reducible refine UnitRes.keeps_moved ?_
    | with_reducible refine UnitRes.keeps_held ?_
    | with_reducible refine UnitRes.keeps_ended ?_
    | refine (PageRes.ctl_frame (State.touchPage_ctl ..) (by assumption)).trans ?_
    | refine (PageRes.ctl_zeros (State.touchPage_ctl ..) (by assumption)).trans ?_
    | refine (PageRes.ctl_wait (State.touchPage_ctl ..) (by assumption)).trans ?_
    | refine (UnitRes.ctl_moved (State.zeroFrame_ctl ..) (by assumption)).trans ?_
    | refine (UnitRes.ctl_held (State.zeroFrame_ctl ..) (by assumption)).trans ?_
    | refine (UnitRes.ctl_ended (State.zeroFrame_ctl ..) (by assumption)).trans ?_
    | with_reducible refine UnitRes.keeps_trans (State.zeroFrame_ctl ..) ?_
    | with_reducible refine (State.ended_ctl ..).trans ?_
    | with_reducible refine (State.endJobAccess_ctl ..).trans ?_
    | (fail_if_no_progress with_reducible refine (ctl_upd _).trans ?_)
    | dsimp only
    | split

theorem State.storeUnit_ctl (s : State) (p st : Nat) (l : Launch) (u : Nat) (unit : List Byte) (types : List (Option SType)) :
    (State.storeUnit s p st l u unit types).keeps s.ctl := by
  unfold State.storeUnit
  extract_lets part x a0 pin k a pg s1 wait
  have hs : s1.ctl = s.ctl := State.settleSlice_ctl ..
  have hw : ∀ (t : State) c, t.ctl = s.ctl → (wait t c).keeps s.ctl := fun t c h => h
  clear_value s1 wait
  have h : UnitRes.keeps s.ctl (if pin.isSome then UnitRes.moved s1 else s1.storePage p pg l.group.isSome) :=
    UnitRes.keeps_ite hs (UnitRes.keeps_trans (State.storePage_ctl ..) hs)
  split
  · rename_i heq; exact hw _ _ (UnitRes.ctl_held h heq)
  · rename_i heq; exact UnitRes.ctl_ended h heq
  · rename_i t heq
    have h2 := UnitRes.ctl_moved h heq
    split
    · exact hw _ _ h2
    · dsimp only
      split
      · exact hw _ _ h2
      · exact hw _ _ h2
      · exact (State.endJobAccess_ctl ..).trans h2
      · refine UnitRes.keeps_moved ?_
        split <;> exact h2

@[simp] theorem State.unitFromCore_ctl (s : State) (p st : Nat) (l : Launch) (u w k : Nat) (cores : List Nat) : (State.unitFromCore s p st l u w k cores).ctl = s.ctl := by
  unfold State.unitFromCore
  repeat' first
    | with_reducible rfl
    | with_reducible refine (State.modCore_ctl ..).trans ?_
    | with_reducible refine (State.putFlit_ctl ..).trans ?_

theorem State.unitToSlice_ctl (s : State) (p st : Nat) (l : Launch) (u : Nat) : (State.unitToSlice s p st l u).keeps s.ctl := by
  unfold State.unitToSlice
  repeat' first
    | with_reducible rfl
    | exact True.intro
    | with_reducible refine UnitRes.keeps_moved ?_
    | with_reducible refine UnitRes.keeps_held ?_
    | with_reducible refine UnitRes.keeps_ended ?_
    | refine (UnitRes.ctl_moved (State.storeUnit_ctl ..) (by assumption)).trans ?_
    | refine (UnitRes.ctl_held (State.storeUnit_ctl ..) (by assumption)).trans ?_
    | refine (UnitRes.ctl_ended (State.storeUnit_ctl ..) (by assumption)).trans ?_
    | with_reducible refine UnitRes.keeps_trans (State.storeUnit_ctl ..) ?_
    | with_reducible refine (State.putFlit_ctl ..).trans ?_
    | with_reducible refine (State.unitFromCore_ctl ..).trans ?_
    | (fail_if_no_progress with_reducible refine (ctl_upd _).trans ?_)
    | dsimp only
    | split

@[simp] theorem State.countEdge_ctl (s : State) (g k n : Nat) : (State.countEdge s g k n).ctl = s.ctl := by
  unfold State.countEdge
  repeat' first
    | with_reducible rfl
    | with_reducible refine (State.modEdge_ctl ..).trans ?_

theorem State.unitVector_ctl (s : State) (p st : Nat) (l : Launch) (u : Nat) : (State.unitVector s p st l u).keeps s.ctl := by
  unfold State.unitVector
  repeat' first
    | with_reducible rfl
    | exact True.intro
    | with_reducible refine UnitRes.keeps_moved ?_
    | with_reducible refine UnitRes.keeps_held ?_
    | with_reducible refine UnitRes.keeps_ended ?_
    | with_reducible refine (State.countEdge_ctl ..).trans ?_
    | with_reducible refine (State.unitFromCore_ctl ..).trans ?_
    | with_reducible refine (foldl_ctl (fun _ _ => ?_) _ _).trans ?_

@[simp] theorem State.deliverCores_ctl (s : State) (p : Nat) (f : Flit) : (State.deliverCores s p f).1.ctl = s.ctl := by
  unfold State.deliverCores
  repeat' first
    | with_reducible rfl
    | with_reducible refine (State.modCore_ctl ..).trans ?_
    | with_reducible refine (foldl_ctl (fun _ _ => ?_) _ _).trans ?_

@[simp] theorem State.deliverFlit_ctl (s : State) (p : Nat) (f : Flit) : (State.deliverFlit s p f).1.ctl = s.ctl := by
  unfold State.deliverFlit
  repeat' first
    | with_reducible rfl
    | refine (UnitRes.ctl_moved (State.storeUnit_ctl ..) (by assumption)).trans ?_
    | refine (UnitRes.ctl_held (State.storeUnit_ctl ..) (by assumption)).trans ?_
    | refine (UnitRes.ctl_ended (State.storeUnit_ctl ..) (by assumption)).trans ?_
    | with_reducible refine (State.launch_ctl ..).trans ?_
    | with_reducible refine (State.routerWait_ctl ..).trans ?_
    | with_reducible refine (State.ended_ctl ..).trans ?_
    | with_reducible refine (State.deliverCores_ctl ..).trans ?_
    | refine (fst_ctl (State.deliverCores_ctl ..) (by assumption)).trans ?_
    | (fail_if_no_progress with_reducible refine (ctl_upd _).trans ?_)
    | dsimp only
    | split

@[simp] theorem State.deliverFlits_ctl (s : State) (p : Nat) : (State.deliverFlits s p).ctl = s.ctl := by
  unfold State.deliverFlits
  repeat' first
    | with_reducible rfl
    | with_reducible refine (State.modPart_ctl ..).trans ?_
    | with_reducible refine (State.deliverFlit_ctl ..).trans ?_
    | refine (fst_ctl (State.deliverFlit_ctl ..) (by assumption)).trans ?_
    | with_reducible refine (foldl_ctl (fun _ _ => ?_) _ _).trans ?_
    | with_reducible refine (foldl_fst_ctl (fun _ _ => ?_) _ _).trans ?_
    | (fail_if_no_progress with_reducible refine (ctl_upd _).trans ?_)
    | dsimp only
    | split

@[simp] theorem State.unitMoved_ctl (s : State) (p st : Nat) (l : Launch) (rest : List Launch) : (State.unitMoved s p st l rest).ctl = s.ctl := by
  unfold State.unitMoved
  repeat' first
    | with_reducible rfl
    | with_reducible refine (State.modPart_ctl ..).trans ?_

@[simp] theorem State.launchRoom_ctl (s : State) (c : Nat) : (State.launchRoom s c).ctl = s.ctl := by
  unfold State.launchRoom
  repeat' first
    | with_reducible rfl
    | with_reducible refine (State.modCore_ctl ..).trans ?_

@[simp] theorem State.kvWhy_ctl (s : State) (p : Nat) (l : Launch) (why : Nat) : (State.kvWhy s p l why).ctl = s.ctl := by
  unfold State.kvWhy
  repeat' first
    | with_reducible rfl
    | with_reducible refine (State.setPool_ctl ..).trans ?_
    | (fail_if_no_progress with_reducible refine (ctl_upd _).trans ?_)
    | dsimp only
    | split

@[simp] theorem State.streamOccurrence_ctl (s : State) (p st err : Nat) : (State.streamOccurrence s p st err).ctl = s.ctl := by
  unfold State.streamOccurrence
  extract_lets part x ss t
  have ht : t.ctl = s.ctl := rfl
  clear_value t
  split
  · rfl
  · split
    · exact (State.routerWait_ctl ..).trans ht
    · split
      · exact (State.routerWait_ctl ..).trans ht
      · extract_lets r
        have hr : r.keeps s.ctl := UnitRes.keeps_ite (UnitRes.keeps_trans (State.unitFromSlice_ctl ..) ht)
          (UnitRes.keeps_ite (UnitRes.keeps_trans (State.unitToSlice_ctl ..) ht) (UnitRes.keeps_trans (State.unitVector_ctl ..) ht))
        clear_value r
        split
        · exact hr
        · exact (State.routerWait_ctl ..).trans ((State.kvWhy_ctl ..).trans hr)
        · exact (State.kvPump_ctl ..).trans ((State.launchRoom_ctl ..).trans ((State.unitMoved_ctl ..).trans ((State.kvWhy_ctl ..).trans hr)))

@[simp] theorem State.countCap_ctl (s : State) (k : Nat) : (State.countCap s k).ctl = s.ctl := by
  unfold State.countCap
  repeat' first
    | with_reducible rfl
    | with_reducible refine (State.modSlice_ctl ..).trans ?_
    | (fail_if_no_progress with_reducible refine (ctl_upd _).trans ?_)
    | dsimp only
    | split

@[simp] theorem State.countXbar_ctl (s : State) (g k : Nat) : (State.countXbar s g k).ctl = s.ctl := by
  unfold State.countXbar
  repeat' first
    | with_reducible rfl
    | with_reducible refine (State.modEdge_ctl ..).trans ?_

@[simp] theorem State.cacheOccurs_ctl (s : State) (k g : Nat) : (State.cacheOccurs s k g).ctl = s.ctl := by
  unfold State.cacheOccurs
  repeat' first
    | with_reducible rfl
    | with_reducible refine (State.settleSlice_ctl ..).trans ?_
    | with_reducible refine (State.setSlice_ctl ..).trans ?_
    | with_reducible refine (State.countXbar_ctl ..).trans ?_
    | (fail_if_no_progress with_reducible refine (ctl_upd _).trans ?_)
    | dsimp only
    | split

@[simp] theorem State.modFill_ctl (s : State) (k a : Nat) (f : Fill → Fill) : (State.modFill s k a f).ctl = s.ctl := by
  unfold State.modFill
  repeat' first
    | with_reducible rfl
    | with_reducible refine (State.modSlice_ctl ..).trans ?_

@[simp] theorem State.readMet_ctl (s : State) (p a : Nat) (ev : HbmEvent) : (State.readMet s p a ev).1.ctl = s.ctl := by
  unfold State.readMet
  repeat' first
    | with_reducible rfl
    | with_reducible refine (State.modStack_ctl ..).trans ?_
    | with_reducible refine (State.readSliceLine_ctl ..).trans ?_
    | refine (fst_ctl (State.readSliceLine_ctl ..) (by assumption)).trans ?_
    | (fail_if_no_progress with_reducible refine (ctl_upd _).trans ?_)
    | dsimp only
    | split

@[simp] theorem State.fillReady_ctl (s : State) (k a : Nat) (ev : HbmEvent) : (State.fillReady s k a ev).ctl = s.ctl := by
  unfold State.fillReady
  repeat' first
    | with_reducible rfl
    | with_reducible refine (State.modSlice_ctl ..).trans ?_
    | refine (PageRes.ctl_frame (State.touchPage_ctl ..) (by assumption)).trans ?_
    | refine (PageRes.ctl_zeros (State.touchPage_ctl ..) (by assumption)).trans ?_
    | refine (PageRes.ctl_wait (State.touchPage_ctl ..) (by assumption)).trans ?_
    | with_reducible refine (State.readMet_ctl ..).trans ?_
    | refine (fst_ctl (State.readMet_ctl ..) (by assumption)).trans ?_
    | with_reducible refine (State.modFill_ctl ..).trans ?_
    | with_reducible refine (State.endJobAccess_ctl ..).trans ?_
    | (fail_if_no_progress with_reducible refine (ctl_upd _).trans ?_)
    | dsimp only
    | split

@[simp] theorem State.endFlush_ctl (s : State) (p status : Nat) : (State.endFlush s p status).ctl = s.ctl := by
  unfold State.endFlush
  repeat' first
    | with_reducible rfl
    | with_reducible refine (State.finishStatus_ctl ..).trans ?_
    | with_reducible refine (foldl_ctl (fun _ _ => ?_) _ _).trans ?_
    | with_reducible refine (foldl_fst_ctl (fun _ _ => ?_) _ _).trans ?_
    | (fail_if_no_progress with_reducible refine (ctl_upd _).trans ?_)
    | dsimp only
    | split

@[simp] theorem State.checkFlush_ctl (s : State) (p : Nat) : (State.checkFlush s p).ctl = s.ctl := by
  unfold State.checkFlush
  repeat' first
    | with_reducible rfl
    | with_reducible refine (State.endFlush_ctl ..).trans ?_
    | (fail_if_no_progress with_reducible refine (ctl_upd _).trans ?_)
    | dsimp only
    | split

@[simp] theorem State.pageIn_ctl (s : State) (p pg : Nat) : (State.pageIn s p pg).ctl = s.ctl := by
  unfold State.pageIn
  repeat' first
    | with_reducible rfl
    | with_reducible refine (State.modStack_ctl ..).trans ?_
    | with_reducible refine (State.setPage_ctl ..).trans ?_
    | with_reducible refine (State.askIn_ctl ..).trans ?_
    | with_reducible refine (State.modPart_ctl ..).trans ?_
    | with_reducible refine (State.unpark_ctl ..).trans ?_
    | (fail_if_no_progress with_reducible refine (ctl_upd _).trans ?_)
    | dsimp only
    | split

@[simp] theorem State.failIn_ctl (s : State) (p pg status : Nat) : (State.failIn s p pg status).ctl = s.ctl := by
  unfold State.failIn
  repeat' first
    | with_reducible rfl
    | with_reducible refine (State.freeFrame_ctl ..).trans ?_
    | with_reducible refine (State.modPart_ctl ..).trans ?_
    | with_reducible refine (State.setPage_ctl ..).trans ?_
    | with_reducible refine (State.unpark_ctl ..).trans ?_
    | with_reducible refine (State.endJobAccess_ctl ..).trans ?_
    | (fail_if_no_progress with_reducible refine (ctl_upd _).trans ?_)
    | dsimp only
    | split

@[simp] theorem State.pageOut_ctl (s : State) (p pg : Nat) : (State.pageOut s p pg).ctl = s.ctl := by
  unfold State.pageOut
  repeat' first
    | with_reducible rfl
    | with_reducible refine (State.modPart_ctl ..).trans ?_
    | with_reducible refine (State.setPage_ctl ..).trans ?_
    | with_reducible refine (State.unpark_ctl ..).trans ?_
    | with_reducible refine (State.checkFlush_ctl ..).trans ?_
    | with_reducible refine (State.freeFrame_ctl ..).trans ?_
    | (fail_if_no_progress with_reducible refine (ctl_upd _).trans ?_)
    | dsimp only
    | split

@[simp] theorem State.failOut_ctl (s : State) (p pg status : Nat) : (State.failOut s p pg status).ctl = s.ctl := by
  unfold State.failOut
  repeat' first
    | with_reducible rfl
    | with_reducible refine (State.modPart_ctl ..).trans ?_
    | with_reducible refine (State.setPage_ctl ..).trans ?_
    | with_reducible refine (State.unpark_ctl ..).trans ?_
    | with_reducible refine (State.endFlush_ctl ..).trans ?_
    | with_reducible refine (State.endJobAccess_ctl ..).trans ?_
    | (fail_if_no_progress with_reducible refine (ctl_upd _).trans ?_)
    | dsimp only
    | split

@[simp] theorem State.settleOut_ctl (s : State) (p pg : Nat) : (State.settleOut s p pg).ctl = s.ctl := by
  unfold State.settleOut
  repeat' first
    | with_reducible rfl
    | with_reducible refine (State.failOut_ctl ..).trans ?_
    | with_reducible refine (State.drained_ctl ..).trans ?_
    | (fail_if_no_progress with_reducible refine (ctl_upd _).trans ?_)
    | dsimp only
    | split

@[simp] theorem State.settleOuts_ctl (s : State) (p : Nat) : (State.settleOuts s p).ctl = s.ctl := by
  unfold State.settleOuts
  repeat' first
    | with_reducible rfl
    | with_reducible refine (State.settleOut_ctl ..).trans ?_
    | with_reducible refine (foldl_ctl (fun _ _ => ?_) _ _).trans ?_

theorem State.backFrame_ctl (s : State) (p pg : Nat) : (State.backFrame s p pg).keeps s.ctl := by
  unfold State.backFrame
  repeat' first
    | with_reducible rfl
    | exact True.intro
    | with_reducible refine UnitRes.keeps_moved ?_
    | with_reducible refine UnitRes.keeps_held ?_
    | with_reducible refine UnitRes.keeps_ended ?_
    | refine (UnitRes.ctl_moved (State.zeroFrame_ctl ..) (by assumption)).trans ?_
    | refine (UnitRes.ctl_held (State.zeroFrame_ctl ..) (by assumption)).trans ?_
    | refine (UnitRes.ctl_ended (State.zeroFrame_ctl ..) (by assumption)).trans ?_
    | with_reducible refine UnitRes.keeps_trans (State.zeroFrame_ctl ..) ?_
    | refine (PageRes.ctl_frame (State.touchPage_ctl ..) (by assumption)).trans ?_
    | refine (PageRes.ctl_zeros (State.touchPage_ctl ..) (by assumption)).trans ?_
    | refine (PageRes.ctl_wait (State.touchPage_ctl ..) (by assumption)).trans ?_
    | with_reducible refine (State.ended_ctl ..).trans ?_
    | with_reducible refine (State.endJobAccess_ctl ..).trans ?_
    | (fail_if_no_progress with_reducible refine (ctl_upd _).trans ?_)
    | dsimp only
    | split

@[simp] theorem State.writeBack_ctl (s : State) (k : Nat) (l : SliceLine) (rest : List SliceLine) : (State.writeBack s k l rest).ctl = s.ctl := by
  unfold State.writeBack
  repeat' first
    | with_reducible rfl
    | refine (UnitRes.ctl_moved (State.backFrame_ctl ..) (by assumption)).trans ?_
    | refine (UnitRes.ctl_held (State.backFrame_ctl ..) (by assumption)).trans ?_
    | refine (UnitRes.ctl_ended (State.backFrame_ctl ..) (by assumption)).trans ?_
    | with_reducible refine (State.ended_ctl ..).trans ?_
    | with_reducible refine (State.writeFrame_ctl ..).trans ?_
    | refine (fst_ctl (State.writeFrame_ctl ..) (by assumption)).trans ?_
    | with_reducible refine (State.endJobAccess_ctl ..).trans ?_
    | with_reducible refine (State.writeSubs_ctl ..).trans ?_
    | with_reducible refine (State.modSlice_ctl ..).trans ?_
    | with_reducible refine (State.settleOuts_ctl ..).trans ?_
    | (fail_if_no_progress with_reducible refine (ctl_upd _).trans ?_)
    | dsimp only
    | split

@[simp] theorem State.seenSub_ctl (s : State) (p a k : Nat) : (State.seenSub s p a k).1.ctl = s.ctl := by
  unfold State.seenSub
  repeat' first
    | with_reducible rfl
    | with_reducible refine (State.readPageLine_ctl ..).trans ?_
    | refine (fst_ctl (State.readPageLine_ctl ..) (by assumption)).trans ?_
    | with_reducible refine (State.setSlice_ctl ..).trans ?_
    | (fail_if_no_progress with_reducible refine (ctl_upd _).trans ?_)
    | dsimp only
    | split

theorem State.readSubs_ctl (s : State) (p : Nat) (skip : Nat × Nat) (a n : Nat) : (State.readSubs s p skip a n).keeps s.ctl := by
  induction n generalizing s a with
  | zero => rfl
  | succ n ih =>
    unfold State.readSubs
    have h : (if skip.1 ≤ a && decide (a + 64 ≤ skip.2) then (s, HbmRead.ok []) else s.seenSub p a (a % 256 / 64)).1.ctl = s.ctl :=
      ite_fst_ctl rfl (State.seenSub_ctl ..)
    split
    · rename_i heq; exact fst_ctl h heq
    · rename_i t b heq
      have h2 := fst_ctl h heq
      split
      · rename_i heq2; exact (MemRes.ctl_ok (ih ..) heq2).trans h2
      · exact MemRes.keeps_trans (ih ..) h2

@[simp] theorem State.wakeHome_ctl (s : State) (p pg : Nat) : (State.wakeHome s p pg).ctl = s.ctl := by
  unfold State.wakeHome
  repeat' first
    | with_reducible rfl
    | with_reducible refine (State.settleSlice_ctl ..).trans ?_
    | with_reducible refine (State.modSlice_ctl ..).trans ?_

@[simp] theorem State.pageServes_ctl (s : State) (p pg : Nat) : (State.pageServes s p pg).1.ctl = s.ctl := by
  unfold State.pageServes
  repeat' first
    | with_reducible rfl
    | refine (PageRes.ctl_frame (State.touchPage_ctl ..) (by assumption)).trans ?_
    | refine (PageRes.ctl_zeros (State.touchPage_ctl ..) (by assumption)).trans ?_
    | refine (PageRes.ctl_wait (State.touchPage_ctl ..) (by assumption)).trans ?_
    | (fail_if_no_progress with_reducible refine (ctl_upd _).trans ?_)
    | dsimp only
    | split

theorem State.readMem_ctl (s : State) (p a n : Nat) : (State.readMem s p a n).keeps s.ctl := by
  unfold State.readMem
  dsimp only
  split
  · exact State.pageServes_ctl ..
  · have h : ∀ q, (((s.pageServes p (a / pageBytes)).1.wakeHome p (a / pageBytes)).readSubs p (0, 0) (a / 64 * 64) q).keeps s.ctl := fun q =>
      MemRes.keeps_trans (State.readSubs_ctl ..) ((State.wakeHome_ctl ..).trans (State.pageServes_ctl ..))
    split
    · rename_i heq; exact MemRes.ctl_ok (h _) heq
    · exact h _

@[simp] theorem State.frameForWrite_ctl (s : State) (p pg : Nat) : (State.frameForWrite s p pg).1.ctl = s.ctl := by
  unfold State.frameForWrite
  repeat' first
    | with_reducible rfl
    | refine (FrameRes.ctl_got (State.needFrame_ctl ..) (by assumption)).trans ?_
    | refine (FrameRes.ctl_wait (State.needFrame_ctl ..) (by assumption)).trans ?_
    | with_reducible refine (State.setPage_ctl ..).trans ?_
    | (fail_if_no_progress with_reducible refine (ctl_upd _).trans ?_)
    | dsimp only
    | split

@[simp] theorem State.writeInLine_ctl (s : State) (p a : Nat) (b : List Byte) : (State.writeInLine s p a b).1.ctl = s.ctl := by
  unfold State.writeInLine
  extract_lets pg first n
  have h : ((s.wakeHome p pg).readSubs p (a, a + b.length) first n).keeps s.ctl :=
    MemRes.keeps_trans (State.readSubs_ctl ..) (State.wakeHome_ctl ..)
  split
  · rename_i heq; exact MemRes.ctl_fail h heq
  · rename_i heq
    have h2 := MemRes.ctl_ok h heq
    dsimp only
    split <;> exact h2

@[simp] theorem State.writeSpan_ctl (s : State) (p : ℕ) (a2 : ℕ) (a3 : ℕ) (a4 : List Byte) : (State.writeSpan s p a2 a3 a4).1.ctl = s.ctl := by
  induction a2 generalizing s a3 a4 with
  | zero => rfl
  | succ n ih =>
    cases a4 with
    | nil => rfl
    | cons b l =>
      unfold State.writeSpan
      dsimp only
      split
      · exact (ih _ _ _).trans (State.writeInLine_ctl ..)
      · exact State.writeInLine_ctl ..

@[simp] theorem State.writeMem_ctl (s : State) (p a : Nat) (b : List Byte) : (State.writeMem s p a b).1.ctl = s.ctl := by
  unfold State.writeMem
  repeat' first
    | with_reducible rfl
    | with_reducible refine (State.pageServes_ctl ..).trans ?_
    | refine (fst_ctl (State.pageServes_ctl ..) (by assumption)).trans ?_
    | with_reducible refine (State.frameForWrite_ctl ..).trans ?_
    | refine (fst_ctl (State.frameForWrite_ctl ..) (by assumption)).trans ?_
    | with_reducible refine (State.writeSpan_ctl ..).trans ?_
    | refine (fst_ctl (State.writeSpan_ctl ..) (by assumption)).trans ?_
    | (fail_if_no_progress with_reducible refine (ctl_upd _).trans ?_)
    | dsimp only
    | split

@[simp] theorem State.writePages_ctl (s : State) (p : ℕ) (a2 : ℕ) (a3 : ℕ) (a4 : List Byte) : (State.writePages s p a2 a3 a4).1.ctl = s.ctl := by
  induction a2 generalizing s a3 a4 with
  | zero => rfl
  | succ n ih =>
    cases a4 with
    | nil => rfl
    | cons b l =>
      unfold State.writePages
      dsimp only
      split
      · exact (ih _ _ _).trans (State.writeMem_ctl ..)
      · exact State.writeMem_ctl ..

@[simp] theorem State.intakeCause_ctl (s : State) (p : Nat) : (State.intakeCause s p).ctl = s.ctl := by
  unfold State.intakeCause
  repeat' first
    | with_reducible rfl
    | with_reducible refine (State.partEvent_ctl ..).trans ?_
    | with_reducible refine (State.raise_ctl ..).trans ?_

@[simp] theorem State.stopIntake_ctl (s : State) (p status : Nat) : (State.stopIntake s p status).ctl = s.ctl := by
  unfold State.stopIntake
  repeat' first
    | with_reducible rfl
    | with_reducible refine (State.modPart_ctl ..).trans ?_
    | with_reducible refine (State.intakeCause_ctl ..).trans ?_
    | (fail_if_no_progress with_reducible refine (ctl_upd _).trans ?_)
    | dsimp only
    | split

@[simp] theorem State.settleIntake_ctl (s : State) (p : Nat) : (State.settleIntake s p).ctl = s.ctl := by
  unfold State.settleIntake
  repeat' first
    | with_reducible rfl
    | with_reducible refine (State.stopIntake_ctl ..).trans ?_
    | with_reducible refine (State.modPart_ctl ..).trans ?_
    | with_reducible refine (State.intakeCause_ctl ..).trans ?_
    | (fail_if_no_progress with_reducible refine (ctl_upd _).trans ?_)
    | dsimp only
    | split

@[simp] theorem State.writeFields_ctl (s : State) (p : ℕ) (base : ℕ) (rec : List Byte) (a4 : List ℕ) : (State.writeFields s p base rec a4).1.ctl = s.ctl := by
  induction a4 generalizing s with
  | nil => rfl
  | cons x l ih =>
    unfold State.writeFields
    dsimp only
    split
    · exact State.writePages_ctl ..
    · exact (ih _).trans (State.writePages_ctl ..)

@[simp] theorem State.sampleDone_ctl (s : State) (p range : Nat) : (State.sampleDone s p range).ctl = s.ctl := by
  unfold State.sampleDone
  repeat' first
    | with_reducible rfl
    | with_reducible refine (State.modPart_ctl ..).trans ?_
    | with_reducible refine (State.setBell_ctl ..).trans ?_
    | with_reducible refine (State.settleIntake_ctl ..).trans ?_

@[simp] theorem State.placeBuddy_ctl (s : State) (p : Nat) : (State.placeBuddy s p).ctl = s.ctl := by
  unfold State.placeBuddy
  repeat' first
    | with_reducible rfl
    | with_reducible refine (State.modPart_ctl ..).trans ?_
    | with_reducible refine (foldl_ctl (fun _ _ => ?_) _ _).trans ?_
    | with_reducible refine (foldl_fst_ctl (fun _ _ => ?_) _ _).trans ?_
    | (fail_if_no_progress with_reducible refine (ctl_upd _).trans ?_)
    | dsimp only
    | split

@[simp] theorem State.markOld_ctl (s : State) (p : Nat) : (State.markOld s p).ctl = s.ctl := by
  unfold State.markOld
  repeat' first
    | with_reducible rfl
    | with_reducible refine (State.setSlice_ctl ..).trans ?_
    | with_reducible refine (foldl_ctl (fun _ _ => ?_) _ _).trans ?_
    | with_reducible refine (foldl_fst_ctl (fun _ _ => ?_) _ _).trans ?_
    | (fail_if_no_progress with_reducible refine (ctl_upd _).trans ?_)
    | dsimp only
    | split

@[simp] theorem State.flushAll_ctl (s : State) (p : Nat) : (State.flushAll s p).ctl = s.ctl := by
  unfold State.flushAll
  repeat' first
    | with_reducible rfl
    | with_reducible refine (State.setSlice_ctl ..).trans ?_
    | with_reducible refine (foldl_ctl (fun _ _ => ?_) _ _).trans ?_
    | with_reducible refine (foldl_fst_ctl (fun _ _ => ?_) _ _).trans ?_
    | (fail_if_no_progress with_reducible refine (ctl_upd _).trans ?_)
    | dsimp only
    | split

@[simp] theorem State.pend_ctl (s : State) (p : Nat) (pages : List Nat) : (State.pend s p pages).ctl = s.ctl := by
  unfold State.pend
  repeat' first
    | with_reducible rfl
    | with_reducible refine (State.modPart_ctl ..).trans ?_

@[simp] theorem State.takeSatchel_ctl (s : State) (p : Nat) : (State.takeSatchel s p).ctl = s.ctl := by
  unfold State.takeSatchel
  repeat' first
    | with_reducible rfl
    | with_reducible refine (State.flushAll_ctl ..).trans ?_
    | with_reducible refine (State.pend_ctl ..).trans ?_
    | with_reducible refine (State.modPart_ctl ..).trans ?_
    | with_reducible refine (State.ringRoot_ctl ..).trans ?_
    | (fail_if_no_progress with_reducible refine (ctl_upd _).trans ?_)
    | dsimp only
    | split

@[simp] theorem State.boundaryLine_ctl (s : State) (p pg i : Nat) : (State.boundaryLine s p pg i).1.ctl = s.ctl := by
  unfold State.boundaryLine
  repeat' first
    | with_reducible rfl
    | with_reducible refine (State.readLine_ctl ..).trans ?_
    | refine (fst_ctl (State.readLine_ctl ..) (by assumption)).trans ?_
    | (fail_if_no_progress with_reducible refine (ctl_upd _).trans ?_)
    | dsimp only
    | split

@[simp] theorem State.pieceLines_ctl (s : State) (p : ℕ) (pg : ℕ) (k : ℕ) (a4 : ℕ) : (State.pieceLines s p pg k a4).1.ctl = s.ctl := by
  induction a4 generalizing s with
  | zero => rfl
  | succ n ih =>
    unfold State.pieceLines
    split
    · rename_i heq; exact fst_ctl (ih s) heq
    · rename_i heq
      split
      · rename_i heq2; exact (fst_ctl (State.boundaryLine_ctl ..) heq2).trans (fst_ctl (ih s) heq)
      · rename_i heq2; exact (fst_ctl (State.boundaryLine_ctl ..) heq2).trans (fst_ctl (ih s) heq)

@[simp] theorem State.baseAgain_ctl (s : State) (p : Nat) : (State.baseAgain s p).ctl = s.ctl := by
  unfold State.baseAgain
  repeat' first
    | with_reducible rfl
    | with_reducible refine (State.pend_ctl ..).trans ?_
    | with_reducible refine (State.modPart_ctl ..).trans ?_
    | (fail_if_no_progress with_reducible refine (ctl_upd _).trans ?_)
    | dsimp only
    | split

@[simp] theorem State.satchelFailed_ctl (s : State) (p : Nat) : (State.satchelFailed s p).ctl = s.ctl := by
  unfold State.satchelFailed
  repeat' first
    | with_reducible rfl
    | with_reducible refine (State.modPart_ctl ..).trans ?_
    | with_reducible refine (State.setPage_ctl ..).trans ?_
    | with_reducible refine (State.report_ctl ..).trans ?_
    | with_reducible refine (State.placeBuddy_ctl ..).trans ?_
    | with_reducible refine (State.partEvent_ctl ..).trans ?_
    | with_reducible refine (State.baseAgain_ctl ..).trans ?_

@[simp] theorem State.feedSatchel_ctl (s : State) (l : Nat) : (State.feedSatchel s l).ctl = s.ctl := by
  unfold State.feedSatchel
  extract_lets p part
  split
  · split
    · rfl
    · split
      · rename_i pg rest _
        have h : (if s.pageBad p pg then (s, none) else s.pieceLines p pg part.satchel.piece 64).1.ctl = s.ctl :=
          ite_fst_ctl rfl (State.pieceLines_ctl ..)
        split
        · rename_i heq; exact (State.satchelFailed_ctl ..).trans ((State.modPart_ctl ..).trans (fst_ctl h heq))
        · rename_i heq; exact (State.modPart_ctl ..).trans ((State.queuePacket_ctl ..).trans (fst_ctl h heq))
      · split <;> rfl
  · rfl

@[simp] theorem State.fillPage_ctl (s : State) (p pg : Nat) (lines : SMap HbmLine) : (State.fillPage s p pg lines).ctl = s.ctl := by
  unfold State.fillPage
  repeat' first
    | with_reducible rfl
    | with_reducible refine (State.dropPage_ctl ..).trans ?_
    | with_reducible refine (State.frameForWrite_ctl ..).trans ?_
    | refine (fst_ctl (State.frameForWrite_ctl ..) (by assumption)).trans ?_
    | with_reducible refine (State.modStack_ctl ..).trans ?_
    | with_reducible refine (State.writeLine_ctl ..).trans ?_
    | with_reducible refine (State.modPart_ctl ..).trans ?_
    | with_reducible refine (foldl_ctl (fun _ _ => ?_) _ _).trans ?_
    | with_reducible refine (foldl_fst_ctl (fun _ _ => ?_) _ _).trans ?_
    | (fail_if_no_progress with_reducible refine (ctl_upd _).trans ?_)
    | dsimp only
    | split

@[simp] theorem State.refillSet_ctl (s : State) (p : Nat) (refill : SMap (SMap HbmLine)) : (State.refillSet s p refill).ctl = s.ctl := by
  unfold State.refillSet
  repeat' first
    | with_reducible rfl
    | with_reducible refine (State.fillPage_ctl ..).trans ?_
    | with_reducible refine (foldl_ctl (fun _ _ => ?_) _ _).trans ?_
    | with_reducible refine (foldl_fst_ctl (fun _ _ => ?_) _ _).trans ?_
    | (fail_if_no_progress with_reducible refine (ctl_upd _).trans ?_)
    | dsimp only
    | split

@[simp] theorem State.handOver_ctl (s : State) : (State.handOver s).ctl = s.ctl := by
  unfold State.handOver
  repeat' first
    | with_reducible rfl
    | (fail_if_no_progress with_reducible refine (ctl_upd _).trans ?_)
    | dsimp only
    | split

@[simp] theorem State.satchelAt_ctl (s : State) (p : Nat) : (State.satchelAt s p).ctl = s.ctl := by
  unfold State.satchelAt
  repeat' first
    | with_reducible rfl
    | with_reducible refine (State.takeSatchel_ctl ..).trans ?_
    | (fail_if_no_progress with_reducible refine (ctl_upd _).trans ?_)
    | dsimp only
    | split

@[simp] theorem State.afterBoundary_ctl (s : State) (p : Nat) (goesOn : Bool) : (State.afterBoundary s p goesOn).ctl = s.ctl := by
  unfold State.afterBoundary
  repeat' first
    | with_reducible rfl
    | with_reducible refine (State.endRun_ctl ..).trans ?_
    | with_reducible refine (State.modPart_ctl ..).trans ?_
    | with_reducible refine (State.beginStep_ctl ..).trans ?_
    | with_reducible refine (State.allVerdicts_ctl ..).trans ?_
    | (fail_if_no_progress with_reducible refine (ctl_upd _).trans ?_)
    | dsimp only
    | split

@[simp] theorem State.sendBellFlit_ctl (s : State) (l : Nat) : (State.sendBellFlit s l).ctl = s.ctl := by
  unfold State.sendBellFlit
  repeat' first
    | with_reducible rfl
    | with_reducible refine (State.setPort_ctl ..).trans ?_
    | with_reducible refine (State.put_ctl ..).trans ?_
    | with_reducible refine (foldl_ctl (fun _ _ => ?_) _ _).trans ?_

@[simp] theorem State.sendPacketFlit_ctl (s : State) (l frame : Nat) (k : Packet) (rest : List Packet) : (State.sendPacketFlit s l frame k rest).ctl = s.ctl := by
  unfold State.sendPacketFlit
  repeat' first
    | with_reducible rfl
    | with_reducible refine (State.setPort_ctl ..).trans ?_
    | with_reducible refine (State.put_ctl ..).trans ?_
    | (fail_if_no_progress with_reducible refine (ctl_upd _).trans ?_)
    | dsimp only
    | split

@[simp] theorem State.countUnused_ctl (s : State) (l : Nat) (owner : Option Nat) : (State.countUnused s l owner).ctl = s.ctl := by
  unfold State.countUnused
  repeat' first
    | with_reducible rfl
    | with_reducible refine (State.modPort_ctl ..).trans ?_
    | (fail_if_no_progress with_reducible refine (ctl_upd _).trans ?_)
    | dsimp only
    | split

theorem State.linkRead_ctl (s : State) (p : Nat) (m : LinkMove) (n : Nat) : (State.linkRead s p m n).keeps s.ctl := by
  unfold State.linkRead
  repeat' first
    | with_reducible rfl
    | exact True.intro
    | with_reducible refine MemRes.keeps_ok ?_
    | with_reducible refine MemRes.keeps_fail ?_
    | refine (MemRes.ctl_ok (State.readMem_ctl ..) (by assumption)).trans ?_
    | refine (MemRes.ctl_fail (State.readMem_ctl ..) (by assumption)).trans ?_
    | with_reducible refine MemRes.keeps_trans (State.readMem_ctl ..) ?_
    | (fail_if_no_progress with_reducible refine (ctl_upd _).trans ?_)
    | dsimp only
    | split

@[simp] theorem State.addReady_ctl (s : State) (l : Nat) (fl : TimedFlit) : (State.addReady s l fl).ctl = s.ctl := by
  unfold State.addReady
  repeat' first
    | with_reducible rfl
    | with_reducible refine (State.modPort_ctl ..).trans ?_

@[simp] theorem State.collSent_ctl (s : State) (p layer l st n : Nat) : (State.collSent s p layer l st n).ctl = s.ctl := by
  unfold State.collSent
  repeat' first
    | with_reducible rfl
    | with_reducible refine (State.setPart_ctl ..).trans ?_
    | with_reducible refine (State.addReady_ctl ..).trans ?_
    | (fail_if_no_progress with_reducible refine (ctl_upd _).trans ?_)
    | dsimp only
    | split

@[simp] theorem State.feedLink_ctl (s : State) (l st : Nat) : (State.feedLink s l st).ctl = s.ctl := by
  unfold State.feedLink
  repeat' first
    | with_reducible rfl
    | with_reducible refine (State.modPart_ctl ..).trans ?_
    | with_reducible refine (State.addReady_ctl ..).trans ?_
    | refine (MemRes.ctl_ok (State.linkRead_ctl ..) (by assumption)).trans ?_
    | refine (MemRes.ctl_fail (State.linkRead_ctl ..) (by assumption)).trans ?_
    | with_reducible refine (State.endJobAccess_ctl ..).trans ?_
    | with_reducible refine (State.countEdge_ctl ..).trans ?_
    | with_reducible refine (State.collSent_ctl ..).trans ?_
    | (fail_if_no_progress with_reducible refine (ctl_upd _).trans ?_)
    | dsimp only
    | split

@[simp] theorem State.sendTimed_ctl (s : State) (l t : Nat) (fl : TimedFlit) : (State.sendTimed s l t fl).ctl = s.ctl := by
  unfold State.sendTimed
  repeat' first
    | with_reducible rfl
    | with_reducible refine (State.modPart_ctl ..).trans ?_
    | with_reducible refine (State.put_ctl ..).trans ?_
    | (fail_if_no_progress with_reducible refine (ctl_upd _).trans ?_)
    | dsimp only
    | split

@[simp] theorem State.sendSeal_ctl (s : State) (l n : Nat) : (State.sendSeal s l n).ctl = s.ctl := by
  unfold State.sendSeal
  repeat' first
    | with_reducible rfl
    | with_reducible refine (State.setPort_ctl ..).trans ?_
    | with_reducible refine (State.put_ctl ..).trans ?_
    | (fail_if_no_progress with_reducible refine (ctl_upd _).trans ?_)
    | dsimp only
    | split

@[simp] theorem State.flitTime_ctl (s : State) (l : Nat) : (State.flitTime s l).ctl = s.ctl := by
  unfold State.flitTime
  repeat' first
    | with_reducible rfl
    | with_reducible refine (State.feedSatchel_ctl ..).trans ?_
    | with_reducible refine (State.sendSeal_ctl ..).trans ?_
    | with_reducible refine (State.feedLink_ctl ..).trans ?_
    | with_reducible refine (State.setPort_ctl ..).trans ?_
    | with_reducible refine (State.sendBellFlit_ctl ..).trans ?_
    | with_reducible refine (State.countUnused_ctl ..).trans ?_
    | with_reducible refine (State.modPort_ctl ..).trans ?_
    | with_reducible refine (State.sendTimed_ctl ..).trans ?_
    | with_reducible refine (State.sendPacketFlit_ctl ..).trans ?_
    | (fail_if_no_progress with_reducible refine (ctl_upd _).trans ?_)
    | dsimp only
    | split

@[simp] theorem State.countOpen_ctl (s : State) (p : Nat) : (State.countOpen s p).ctl = s.ctl := by
  unfold State.countOpen
  repeat' first
    | with_reducible rfl
    | with_reducible refine (State.modPart_ctl ..).trans ?_
    | with_reducible refine (State.allVerdicts_ctl ..).trans ?_
    | (fail_if_no_progress with_reducible refine (ctl_upd _).trans ?_)
    | dsimp only
    | split

@[simp] theorem State.oweFlits_ctl (s : State) (l : Nat) (k : Packet) : (State.oweFlits s l k).ctl = s.ctl := by
  unfold State.oweFlits
  repeat' first
    | with_reducible rfl
    | with_reducible refine (State.modPort_ctl ..).trans ?_

@[simp] theorem State.acceptPacket_ctl (s : State) (l : Nat) (k : Packet) : (State.acceptPacket s l k).ctl = s.ctl := by
  unfold State.acceptPacket
  repeat' first
    | with_reducible rfl
    | with_reducible refine (State.setPort_ctl ..).trans ?_
    | with_reducible refine (State.keepOverflow_ctl ..).trans ?_
    | with_reducible refine (State.passPacket_ctl ..).trans ?_
    | (fail_if_no_progress with_reducible refine (ctl_upd _).trans ?_)
    | dsimp only
    | split

@[simp] theorem State.frameGood_ctl (s : State) (l : Nat) (fr : RxFrame) : (State.frameGood s l fr).ctl = s.ctl := by
  unfold State.frameGood
  repeat' first
    | with_reducible rfl
    | with_reducible refine (State.setPort_ctl ..).trans ?_
    | with_reducible refine (State.acceptPacket_ctl ..).trans ?_
    | with_reducible refine (foldl_ctl (fun _ _ => ?_) _ _).trans ?_

@[simp] theorem State.inboundToken_ctl (s : State) (l : Nat) (fl : TimedFlit) (t : Tok) : (State.inboundToken s l fl t).ctl = s.ctl := by
  unfold State.inboundToken
  repeat' first
    | with_reducible rfl
    | with_reducible refine (State.modPort_ctl ..).trans ?_
    | with_reducible refine (State.deliver_ctl ..).trans ?_
    | (fail_if_no_progress with_reducible refine (ctl_upd _).trans ?_)
    | dsimp only
    | split

theorem State.handMem_ctl (s : State) (p l : Nat) (fl : TimedFlit) : (State.handMem s p l fl).keeps s.ctl := by
  unfold State.handMem
  repeat' first
    | with_reducible rfl
    | exact True.intro
    | with_reducible refine UnitRes.keeps_moved ?_
    | with_reducible refine UnitRes.keeps_held ?_
    | with_reducible refine UnitRes.keeps_ended ?_
    | with_reducible refine (State.writePages_ctl ..).trans ?_
    | refine (fst_ctl (State.writePages_ctl ..) (by assumption)).trans ?_
    | with_reducible refine (State.ended_ctl ..).trans ?_
    | with_reducible refine (State.endJobAccess_ctl ..).trans ?_
    | with_reducible refine (State.countEdge_ctl ..).trans ?_
    | with_reducible refine (State.modPart_ctl ..).trans ?_
    | with_reducible refine (foldl_ctl (fun _ _ => ?_) _ _).trans ?_
    | with_reducible refine (foldl_fst_ctl (fun _ _ => ?_) _ _).trans ?_
    | (fail_if_no_progress with_reducible refine (ctl_upd _).trans ?_)
    | dsimp only
    | split

theorem State.handCores_ctl (s : State) (l : Nat) (fl : TimedFlit) : (State.handCores s l fl).keeps s.ctl := by
  unfold State.handCores
  repeat' first
    | with_reducible rfl
    | exact True.intro
    | with_reducible refine UnitRes.keeps_moved ?_
    | with_reducible refine UnitRes.keeps_held ?_
    | with_reducible refine UnitRes.keeps_ended ?_
    | with_reducible refine (State.modCore_ctl ..).trans ?_
    | with_reducible refine (State.countEdge_ctl ..).trans ?_
    | with_reducible refine (foldl_ctl (fun _ _ => ?_) _ _).trans ?_
    | with_reducible refine (foldl_fst_ctl (fun _ _ => ?_) _ _).trans ?_
    | (fail_if_no_progress with_reducible refine (ctl_upd _).trans ?_)
    | dsimp only
    | split

@[simp] theorem State.gatherOn_ctl (s : State) (p l : Nat) (fl : TimedFlit) : (State.gatherOn s p l fl).ctl = s.ctl := by
  unfold State.gatherOn
  repeat' first
    | with_reducible rfl
    | with_reducible refine (State.addReady_ctl ..).trans ?_
    | with_reducible refine (State.collSent_ctl ..).trans ?_
    | (fail_if_no_progress with_reducible refine (ctl_upd _).trans ?_)
    | dsimp only
    | split

theorem State.handOn_ctl (s : State) (l : Nat) (fl : TimedFlit) : (State.handOn s l fl).keeps s.ctl := by
  unfold State.handOn
  extract_lets p
  have h : UnitRes.keeps s.ctl (if fl.bytes = [] then UnitRes.moved s else if fl.cores = [] then s.handMem p l fl else s.handCores l fl) :=
    UnitRes.keeps_ite rfl (UnitRes.keeps_ite (State.handMem_ctl ..) (State.handCores_ctl ..))
  split
  · rename_i heq; exact UnitRes.ctl_held h heq
  · rename_i heq; exact UnitRes.ctl_ended h heq
  · rename_i t heq
    have h2 := UnitRes.ctl_moved h heq
    extract_lets u
    have h3 : u.ctl = s.ctl := (ctl_ite rfl (State.gatherOn_ctl ..)).trans h2
    clear_value u
    refine UnitRes.keeps_moved ?_
    split
    · exact (State.inboundToken_ctl ..).trans h3
    · exact (foldl_ctl (fun _ _ => (State.settleCore_ctl ..).trans (State.modCore_ctl ..)) _ _).trans h3

@[simp] theorem State.countHandOn_ctl (s : State) (l : Nat) (fl : TimedFlit) : (State.countHandOn s l fl).ctl = s.ctl := by
  unfold State.countHandOn
  repeat' first
    | with_reducible rfl
    | with_reducible refine (State.setPort_ctl ..).trans ?_
    | with_reducible refine (State.countOpen_ctl ..).trans ?_

theorem State.sumOn_ctl (s : State) (p : Nat) (k : Collective) (r : CollRing) (fl : ReduceFlit) (bytes : List Byte) : (State.sumOn s p k r fl bytes).keeps s.ctl := by
  unfold State.sumOn
  repeat' first
    | with_reducible rfl
    | exact True.intro
    | with_reducible refine UnitRes.keeps_moved ?_
    | with_reducible refine UnitRes.keeps_held ?_
    | with_reducible refine UnitRes.keeps_ended ?_
    | with_reducible refine (State.addReady_ctl ..).trans ?_
    | with_reducible refine (State.collSent_ctl ..).trans ?_
    | with_reducible refine (State.writePages_ctl ..).trans ?_
    | refine (fst_ctl (State.writePages_ctl ..) (by assumption)).trans ?_
    | with_reducible refine (State.ended_ctl ..).trans ?_
    | with_reducible refine (State.endJobAccess_ctl ..).trans ?_
    | with_reducible refine (State.countEdge_ctl ..).trans ?_
    | (fail_if_no_progress with_reducible refine (ctl_upd _).trans ?_)
    | dsimp only
    | split

@[simp] theorem State.linkEvent_ctl (s : State) (l : Nat) : (State.linkEvent s l).ctl = s.ctl := by
  unfold State.linkEvent
  repeat' first
    | with_reducible rfl
    | with_reducible refine (State.event_ctl ..).trans ?_

@[simp] theorem State.portDown_ctl (s : State) (l : Nat) : (State.portDown s l).ctl = s.ctl := by
  unfold State.portDown
  repeat' first
    | with_reducible rfl
    | with_reducible refine (State.modPort_ctl ..).trans ?_
    | with_reducible refine (State.linkEvent_ctl ..).trans ?_
    | with_reducible refine (State.report_ctl ..).trans ?_
    | with_reducible refine (State.countOpen_ctl ..).trans ?_
    | with_reducible refine (State.endStep_ctl ..).trans ?_
    | (fail_if_no_progress with_reducible refine (ctl_upd _).trans ?_)
    | dsimp only
    | split

@[simp] theorem State.portUp_ctl (s : State) (l lanes : Nat) : (State.portUp s l lanes).ctl = s.ctl := by
  unfold State.portUp
  repeat' first
    | with_reducible rfl
    | with_reducible refine (State.modPort_ctl ..).trans ?_
    | with_reducible refine (State.linkEvent_ctl ..).trans ?_

@[simp] theorem State.framesFail_ctl (s : State) (l : Nat) : (State.framesFail s l).ctl = s.ctl := by
  unfold State.framesFail
  repeat' first
    | with_reducible rfl
    | with_reducible refine (State.setPort_ctl ..).trans ?_
    | with_reducible refine (State.report_ctl ..).trans ?_
    | with_reducible refine (State.endStep_ctl ..).trans ?_
    | with_reducible refine (State.countOpen_ctl ..).trans ?_
    | with_reducible refine (foldl_ctl (fun _ _ => ?_) _ _).trans ?_
    | with_reducible refine (foldl_fst_ctl (fun _ _ => ?_) _ _).trans ?_
    | (fail_if_no_progress with_reducible refine (ctl_upd _).trans ?_)
    | dsimp only
    | split

@[simp] theorem State.laneFails_ctl (s : State) (l lane : Nat) : (State.laneFails s l lane).ctl = s.ctl := by
  unfold State.laneFails
  repeat' first
    | with_reducible rfl
    | with_reducible refine (State.setPort_ctl ..).trans ?_
    | with_reducible refine (State.report_ctl ..).trans ?_
    | with_reducible refine (State.linkEvent_ctl ..).trans ?_
    | with_reducible refine (State.framesFail_ctl ..).trans ?_
    | with_reducible refine (State.portDown_ctl ..).trans ?_
    | (fail_if_no_progress with_reducible refine (ctl_upd _).trans ?_)
    | dsimp only
    | split

@[simp] theorem State.rootRing_ctl (s : State) (p b : Nat) (amount : W32) : (State.rootRing s p b amount).ctl = s.ctl := by
  unfold State.rootRing
  repeat' first
    | with_reducible rfl
    | with_reducible refine (State.modPart_ctl ..).trans ?_
    | with_reducible refine (State.sendBells_ctl ..).trans ?_

@[simp] theorem State.keepRing_ctl (s : State) (p b : Nat) (amount : W32) : (State.keepRing s p b amount).ctl = s.ctl := by
  unfold State.keepRing
  repeat' first
    | with_reducible rfl
    | with_reducible refine (State.modPart_ctl ..).trans ?_

@[simp] theorem State.checkBeat_ctl (s : State) : (State.checkBeat s).ctl = s.ctl := by
  unfold State.checkBeat
  repeat' first
    | with_reducible rfl
    | with_reducible refine (State.report_ctl ..).trans ?_
    | (fail_if_no_progress with_reducible refine (ctl_upd _).trans ?_)
    | dsimp only
    | split

@[simp] theorem State.beats_ctl (s : State) : (State.beats s).ctl = s.ctl := by
  unfold State.beats
  repeat' first
    | with_reducible rfl
    | with_reducible refine (State.sendBells_ctl ..).trans ?_
    | (fail_if_no_progress with_reducible refine (ctl_upd _).trans ?_)
    | dsimp only
    | split

@[simp] theorem State.probeSuspects_ctl (s : State) : (State.probeSuspects s).ctl = s.ctl := by
  unfold State.probeSuspects
  repeat' first
    | with_reducible rfl
    | with_reducible refine (State.queuePacket_ctl ..).trans ?_
    | with_reducible refine (foldl_ctl (fun _ _ => ?_) _ _).trans ?_
    | with_reducible refine (foldl_fst_ctl (fun _ _ => ?_) _ _).trans ?_
    | (fail_if_no_progress with_reducible refine (ctl_upd _).trans ?_)
    | dsimp only
    | split

@[simp] theorem State.takeOver_ctl (s : State) : (State.takeOver s).ctl = s.ctl := by
  unfold State.takeOver
  repeat' first
    | with_reducible rfl
    | with_reducible refine (State.sendBells_ctl ..).trans ?_
    | with_reducible refine (State.noteIn_ctl ..).trans ?_
    | (fail_if_no_progress with_reducible refine (ctl_upd _).trans ?_)

@[simp] theorem State.takeOverHead_ctl (s : State) : (State.takeOverHead s).ctl = s.ctl := by
  unfold State.takeOverHead
  repeat' first
    | with_reducible rfl
    | with_reducible refine (State.sendBells_ctl ..).trans ?_
    | with_reducible refine (State.noteIn_ctl ..).trans ?_
    | (fail_if_no_progress with_reducible refine (ctl_upd _).trans ?_)

@[simp] theorem State.headLost_ctl (s : State) : (State.headLost s).ctl = s.ctl := by
  unfold State.headLost
  repeat' first
    | with_reducible rfl
    | with_reducible refine (State.takeOverHead_ctl ..).trans ?_
    | with_reducible refine (State.sendBell_ctl ..).trans ?_
    | (fail_if_no_progress with_reducible refine (ctl_upd _).trans ?_)
    | dsimp only
    | split

@[simp] theorem State.lockTo_ctl (s : State) (d : Nat) : (State.lockTo s d).ctl = s.ctl := by
  unfold State.lockTo
  repeat' first
    | with_reducible rfl
    | (fail_if_no_progress with_reducible refine (ctl_upd _).trans ?_)
    | dsimp only
    | split

@[simp] theorem State.newPrefect_ctl (s : State) (d : Nat) : (State.newPrefect s d).ctl = s.ctl := by
  unfold State.newPrefect
  repeat' first
    | with_reducible rfl
    | with_reducible refine (State.lockTo_ctl ..).trans ?_
    | (fail_if_no_progress with_reducible refine (ctl_upd _).trans ?_)

@[simp] theorem State.newHead_ctl (s : State) (d : Nat) : (State.newHead s d).ctl = s.ctl := by
  unfold State.newHead
  repeat' first
    | with_reducible rfl
    | with_reducible refine (State.sendBells_ctl ..).trans ?_
    | with_reducible refine (State.lockTo_ctl ..).trans ?_
    | (fail_if_no_progress with_reducible refine (ctl_upd _).trans ?_)
    | dsimp only
    | split

@[simp] theorem State.farAnswerFails_ctl (s : State) (p pg : Nat) (inwards : Bool) : (State.farAnswerFails s p pg inwards).ctl = s.ctl := by
  unfold State.farAnswerFails
  repeat' first
    | with_reducible rfl
    | with_reducible refine (State.setPage_ctl ..).trans ?_
    | with_reducible refine (State.askIn_ctl ..).trans ?_
    | with_reducible refine (State.sendOut_ctl ..).trans ?_
    | with_reducible refine (State.failIn_ctl ..).trans ?_
    | with_reducible refine (State.failOut_ctl ..).trans ?_
    | (fail_if_no_progress with_reducible refine (ctl_upd _).trans ?_)
    | dsimp only
    | split

@[simp] theorem State.postNorms_ctl (s : State) (p step : Nat) (l : List NormRec) : (State.postNorms s p step l).ctl = s.ctl := by
  unfold State.postNorms
  repeat' first
    | with_reducible rfl
    | with_reducible refine (State.partEvent_ctl ..).trans ?_
    | with_reducible refine (foldl_ctl (fun _ _ => ?_) _ _).trans ?_
    | with_reducible refine (foldl_fst_ctl (fun _ _ => ?_) _ _).trans ?_
    | (fail_if_no_progress with_reducible refine (ctl_upd _).trans ?_)

@[simp] theorem State.combineNorms_ctl (s : State) (p step : Nat) : (State.combineNorms s p step).ctl = s.ctl := by
  unfold State.combineNorms
  repeat' first
    | with_reducible rfl
    | with_reducible refine (State.postNorms_ctl ..).trans ?_
    | with_reducible refine (State.sendPackets_ctl ..).trans ?_
    | (fail_if_no_progress with_reducible refine (ctl_upd _).trans ?_)
    | dsimp only
    | split

@[simp] theorem State.formClip_ctl (s : State) (p step : Nat) : (State.formClip s p step).ctl = s.ctl := by
  unfold State.formClip
  repeat' first
    | with_reducible rfl
    | with_reducible refine (State.sendBells_ctl ..).trans ?_
    | (fail_if_no_progress with_reducible refine (ctl_upd _).trans ?_)
    | dsimp only
    | split

@[simp] theorem State.clipAgain_ctl (s : State) (p dev step : Nat) : (State.clipAgain s p dev step).ctl = s.ctl := by
  unfold State.clipAgain
  repeat' first
    | with_reducible rfl
    | with_reducible refine (State.sendBell_ctl ..).trans ?_
    | (fail_if_no_progress with_reducible refine (ctl_upd _).trans ?_)
    | dsimp only
    | split

@[simp] theorem State.normsIn_ctl (s : State) (p dev step : Nat) (l : List NormRec) : (State.normsIn s p dev step l).ctl = s.ctl := by
  unfold State.normsIn
  repeat' first
    | with_reducible rfl
    | with_reducible refine (State.clipAgain_ctl ..).trans ?_
    | with_reducible refine (State.formClip_ctl ..).trans ?_
    | with_reducible refine (State.combineNorms_ctl ..).trans ?_
    | (fail_if_no_progress with_reducible refine (ctl_upd _).trans ?_)
    | dsimp only
    | split

@[simp] theorem State.headNoteIn_ctl (s : State) (src : Nat) (n : Note) : (State.headNoteIn s src n).ctl = s.ctl := by
  unfold State.headNoteIn
  repeat' first
    | with_reducible rfl
    | with_reducible refine (State.noteIn_ctl ..).trans ?_
    | (fail_if_no_progress with_reducible refine (ctl_upd _).trans ?_)
    | dsimp only
    | split

@[simp] theorem State.windowNote_ctl (s : State) (w d : Nat) (e : Note × Nat × Option Nat × Nat) : (State.windowNote s w d e).ctl = s.ctl := by
  unfold State.windowNote
  repeat' first
    | with_reducible rfl
    | with_reducible refine (State.forwardNote_ctl ..).trans ?_
    | (fail_if_no_progress with_reducible refine (ctl_upd _).trans ?_)
    | dsimp only
    | split

@[simp] theorem State.holdSteps_ctl (s : State) (n : Note) : (State.holdSteps s n).ctl = s.ctl := by
  unfold State.holdSteps
  repeat' first
    | with_reducible rfl
    | with_reducible refine (State.endFenced_ctl ..).trans ?_
    | with_reducible refine (foldl_ctl (fun _ _ => ?_) _ _).trans ?_
    | with_reducible refine (foldl_fst_ctl (fun _ _ => ?_) _ _).trans ?_
    | (fail_if_no_progress with_reducible refine (ctl_upd _).trans ?_)
    | dsimp only
    | split

@[simp] theorem State.spareInto_ctl (s : State) (p rank : Nat) : (State.spareInto s p rank).ctl = s.ctl := by
  unfold State.spareInto
  repeat' first
    | with_reducible rfl
    | with_reducible refine (State.modPart_ctl ..).trans ?_
    | (fail_if_no_progress with_reducible refine (ctl_upd _).trans ?_)
    | dsimp only
    | split

@[simp] theorem State.autoFill_ctl (s : State) (d : Nat) : (State.autoFill s d).ctl = s.ctl := by
  unfold State.autoFill
  repeat' first
    | with_reducible rfl
    | with_reducible refine (State.spareInto_ctl ..).trans ?_
    | with_reducible refine (foldl_ctl (fun _ _ => ?_) _ _).trans ?_
    | with_reducible refine (foldl_fst_ctl (fun _ _ => ?_) _ _).trans ?_
    | (fail_if_no_progress with_reducible refine (ctl_upd _).trans ?_)
    | dsimp only
    | split

@[simp] theorem State.declareAbsent_ctl (s : State) (d : Nat) : (State.declareAbsent s d).ctl = s.ctl := by
  unfold State.declareAbsent
  repeat' first
    | with_reducible rfl
    | with_reducible refine (State.noteIn_ctl ..).trans ?_
    | with_reducible refine (State.sendPackets_ctl ..).trans ?_
    | with_reducible refine (State.holdSteps_ctl ..).trans ?_
    | with_reducible refine (State.autoFill_ctl ..).trans ?_
    | (fail_if_no_progress with_reducible refine (ctl_upd _).trans ?_)
    | dsimp only
    | split

@[simp] theorem State.modDuty_ctl (s : State) (code : Nat) (f : Duty → Duty) : (State.modDuty s code f).ctl = s.ctl := by
  unfold State.modDuty
  repeat' first
    | with_reducible rfl
    | (fail_if_no_progress with_reducible refine (ctl_upd _).trans ?_)

@[simp] theorem State.dutyStep_ctl (s : State) (code n total : Nat) : (State.dutyStep s code n total).ctl = s.ctl := by
  unfold State.dutyStep
  repeat' first
    | with_reducible rfl
    | with_reducible refine (State.modDuty_ctl ..).trans ?_

@[simp] theorem State.dutyEvent_ctl (s : State) (code : Nat) : (State.dutyEvent s code).ctl = s.ctl := by
  unfold State.dutyEvent
  repeat' first
    | with_reducible rfl
    | with_reducible refine (State.modDuty_ctl ..).trans ?_

@[simp] theorem State.addRepair_ctl (s : State) (r : Repair) : (State.addRepair s r).ctl = s.ctl := by
  unfold State.addRepair
  repeat' first
    | with_reducible rfl
    | (fail_if_no_progress with_reducible refine (ctl_upd _).trans ?_)
    | dsimp only
    | split
    | (fail_if_no_progress refine (ctl_upd2 _ ⟨rfl, rfl, rfl, rfl, rfl, rfl, rfl, rfl, rfl, rfl, rfl, rfl, rfl, rfl, rfl⟩).trans ?_)

@[simp] theorem State.leaveJobs_ctl (s : State) (p unit cls : Nat) : (State.leaveJobs s p unit cls).ctl = s.ctl := by
  unfold State.leaveJobs
  repeat' first
    | with_reducible rfl
    | with_reducible refine (State.report_ctl ..).trans ?_
    | with_reducible refine (State.modPart_ctl ..).trans ?_
    | with_reducible refine (State.endFenced_ctl ..).trans ?_

@[simp] theorem State.failSite_ctl (s : State) (x : Nat) : (State.failSite s x).ctl = s.ctl := by
  unfold State.failSite
  repeat' first
    | with_reducible rfl
    | with_reducible refine (State.leaveJobs_ctl ..).trans ?_
    | with_reducible refine (State.modPart_ctl ..).trans ?_
    | (fail_if_no_progress with_reducible refine (ctl_upd _).trans ?_)
    | dsimp only
    | split

@[simp] theorem State.fenceSite_ctl (s : State) (x : Nat) : (State.fenceSite s x).ctl = s.ctl := by
  unfold State.fenceSite
  repeat' first
    | with_reducible rfl
    | with_reducible refine (State.modSite_ctl ..).trans ?_
    | with_reducible refine (State.addRepair_ctl ..).trans ?_
    | with_reducible refine (State.report_ctl ..).trans ?_
    | with_reducible refine (State.zeroProducers_ctl ..).trans ?_
    | with_reducible refine (State.modCore_ctl ..).trans ?_
    | with_reducible refine (State.failSite_ctl ..).trans ?_
    | with_reducible refine (State.endFenced_ctl ..).trans ?_
    | (fail_if_no_progress with_reducible refine (ctl_upd _).trans ?_)
    | dsimp only
    | split

@[simp] theorem State.bypassRouter_ctl (s : State) (x : Nat) : (State.bypassRouter s x).ctl = s.ctl := by
  unfold State.bypassRouter
  repeat' first
    | with_reducible rfl
    | with_reducible refine (State.modSite_ctl ..).trans ?_
    | with_reducible refine (State.addRepair_ctl ..).trans ?_
    | with_reducible refine (State.report_ctl ..).trans ?_
    | with_reducible refine (State.failSite_ctl ..).trans ?_
    | with_reducible refine (State.endFenced_ctl ..).trans ?_
    | (fail_if_no_progress with_reducible refine (ctl_upd _).trans ?_)
    | dsimp only
    | split

@[simp] theorem State.attnCheck_ctl (s : State) (x : Nat) (same cache : Bool) : (State.attnCheck s x same cache).ctl = s.ctl := by
  unfold State.attnCheck
  repeat' first
    | with_reducible rfl
    | with_reducible refine (State.modSite_ctl ..).trans ?_
    | with_reducible refine (State.report_ctl ..).trans ?_
    | with_reducible refine (State.addRepair_ctl ..).trans ?_
    | with_reducible refine (State.fenceSite_ctl ..).trans ?_
    | (fail_if_no_progress with_reducible refine (ctl_upd _).trans ?_)
    | dsimp only
    | split

@[simp] theorem State.powerForCheck_ctl (s : State) (x : Nat) : (State.powerForCheck s x).ctl = s.ctl := by
  unfold State.powerForCheck
  repeat' first
    | with_reducible rfl
    | with_reducible refine (State.modCore_ctl ..).trans ?_
    | (fail_if_no_progress with_reducible refine (ctl_upd _).trans ?_)
    | dsimp only
    | split

@[simp] theorem State.fenceStack_ctl (s : State) (h : Nat) : (State.fenceStack s h).ctl = s.ctl := by
  unfold State.fenceStack
  repeat' first
    | with_reducible rfl
    | with_reducible refine (State.modStack_ctl ..).trans ?_
    | with_reducible refine (State.report_ctl ..).trans ?_
    | with_reducible refine (State.endFenced_ctl ..).trans ?_
    | (fail_if_no_progress with_reducible refine (ctl_upd _).trans ?_)
    | dsimp only
    | split

@[simp] theorem State.spareChannel_ctl (s : State) (h pc : Nat) : (State.spareChannel s h pc).ctl = s.ctl := by
  unfold State.spareChannel
  repeat' first
    | with_reducible rfl
    | with_reducible refine (State.setStack_ctl ..).trans ?_
    | with_reducible refine (State.report_ctl ..).trans ?_
    | with_reducible refine (State.fenceStack_ctl ..).trans ?_
    | (fail_if_no_progress with_reducible refine (ctl_upd _).trans ?_)
    | dsimp only
    | split

@[simp] theorem State.scrubPage_ctl (s : State) (h p pg addr line : Nat) (x : Stack × HbmRead) :
    (State.scrubPage s h p pg addr line x).ctl = s.ctl := by
  unfold State.scrubPage
  split
  · exact State.setStack_ctl ..
  · exact (State.modPart_ctl ..).trans (State.setStack_ctl ..)

@[simp] theorem State.scrubLine_ctl (s : State) (h line : Nat) : (State.scrubLine s h line).ctl = s.ctl := by
  unfold State.scrubLine
  dsimp only
  split
  · exact State.setStack_ctl ..
  · exact State.scrubPage_ctl ..

@[simp] theorem State.endCommands_ctl (s : State) (status : Nat) : (State.endCommands s status).ctl = s.ctl := by
  unfold State.endCommands
  repeat' first
    | with_reducible rfl
    | with_reducible refine (State.finishStatus_ctl ..).trans ?_
    | with_reducible refine (foldl_ctl (fun _ _ => ?_) _ _).trans ?_

@[simp] theorem State.drive_ctl (s : State) (name : String) (level : Bool) : (State.drive s name level).ctl = s.ctl := by
  unfold State.drive
  repeat' first
    | with_reducible rfl
    | with_reducible refine (State.put_ctl ..).trans ?_

@[simp] theorem State.cartridgeDark_ctl (s : State) (c : Nat) : (State.cartridgeDark s c).ctl = s.ctl := by
  unfold State.cartridgeDark
  repeat' first
    | with_reducible rfl
    | with_reducible refine (State.portDown_ctl ..).trans ?_
    | with_reducible refine (foldl_ctl (fun _ _ => ?_) _ _).trans ?_

@[simp] theorem State.wakePort_ctl (s : State) (l : Nat) : (State.wakePort s l).ctl = s.ctl := by
  unfold State.wakePort
  repeat' first
    | with_reducible rfl
    | with_reducible refine (State.modPort_ctl ..).trans ?_
    | with_reducible refine (State.queuePacket_ctl ..).trans ?_
    | (fail_if_no_progress with_reducible refine (ctl_upd _).trans ?_)
    | dsimp only
    | split

@[simp] theorem State.keepWindow_ctl (s : State) (p : Nat) : (State.keepWindow s p).ctl = s.ctl := by
  unfold State.keepWindow
  repeat' first
    | with_reducible rfl
    | with_reducible refine (State.modPart_ctl ..).trans ?_
    | with_reducible refine (State.put_ctl ..).trans ?_
    | (fail_if_no_progress with_reducible refine (ctl_upd _).trans ?_)
    | dsimp only
    | split

@[simp] theorem State.readSensors_ctl (s : State) (temps : List Int) (powers : List Nat) : (State.readSensors s temps powers).ctl = s.ctl := by
  unfold State.readSensors
  repeat' first
    | with_reducible rfl
    | (fail_if_no_progress with_reducible refine (ctl_upd _).trans ?_)

@[simp] theorem State.setDuties_ctl (s : State) : (State.setDuties s).ctl = s.ctl := by
  unfold State.setDuties
  repeat' first
    | with_reducible rfl
    | with_reducible refine (foldl_ctl (fun _ _ => ?_) _ _).trans ?_
    | with_reducible refine (foldl_fst_ctl (fun _ _ => ?_) _ _).trans ?_
    | (fail_if_no_progress with_reducible refine (ctl_upd _).trans ?_)
    | dsimp only
    | split

@[simp] theorem State.heatActions_ctl (s : State) : (State.heatActions s).ctl = s.ctl := by
  unfold State.heatActions
  repeat' first
    | with_reducible rfl
    | with_reducible refine (State.setStack_ctl ..).trans ?_
    | with_reducible refine (State.portDown_ctl ..).trans ?_
    | with_reducible refine (State.cartridgeDark_ctl ..).trans ?_
    | with_reducible refine (foldl_ctl (fun _ _ => ?_) _ _).trans ?_
    | with_reducible refine (foldl_fst_ctl (fun _ _ => ?_) _ _).trans ?_
    | (fail_if_no_progress with_reducible refine (ctl_upd _).trans ?_)
    | dsimp only
    | split

@[simp] theorem State.fallAsleep_ctl (s : State) : (State.fallAsleep s).ctl = s.ctl := by
  unfold State.fallAsleep
  repeat' first
    | with_reducible rfl
    | with_reducible refine (State.modSlice_ctl ..).trans ?_
    | with_reducible refine (State.modStack_ctl ..).trans ?_
    | with_reducible refine (State.setPort_ctl ..).trans ?_
    | with_reducible refine (State.modPart_ctl ..).trans ?_
    | with_reducible refine (foldl_ctl (fun _ _ => ?_) _ _).trans ?_
    | with_reducible refine (foldl_fst_ctl (fun _ _ => ?_) _ _).trans ?_
    | (fail_if_no_progress with_reducible refine (ctl_upd _).trans ?_)
    | dsimp only
    | split
    | (fail_if_no_progress refine (ctl_upd2 _ ⟨rfl, rfl, rfl, rfl, rfl, rfl, rfl, rfl, rfl, rfl, rfl, rfl, rfl, rfl, rfl⟩).trans ?_)

@[simp] theorem State.audit_ctl (s : State) (opcode role ring part status cred : Nat) (detail : BitVec 256) : (State.audit s opcode role ring part status cred detail).ctl = s.ctl := by
  unfold State.audit
  repeat' first
    | with_reducible rfl
    | (fail_if_no_progress with_reducible refine (ctl_upd _).trans ?_)
    | dsimp only
    | split
    | (fail_if_no_progress refine (ctl_upd2 _ ⟨rfl, rfl, rfl, rfl, rfl, rfl, rfl, rfl, rfl, rfl, rfl, rfl, rfl, rfl, rfl⟩).trans ?_)

@[simp] theorem State.auditCmd_ctl (s : State) (r : Nat) (c : Cmd) (status : Nat) (digest : Option (BitVec 512)) (cred : Nat) : (State.auditCmd s r c status digest cred).ctl = s.ctl := by
  unfold State.auditCmd
  repeat' first
    | with_reducible rfl
    | with_reducible refine (State.audit_ctl ..).trans ?_
    | (fail_if_no_progress with_reducible refine (ctl_upd _).trans ?_)
    | dsimp only
    | split

@[simp] theorem State.markStarted_ctl (s : State) (r : Nat) (c : Cmd) : (State.markStarted s r c).ctl = s.ctl := by
  unfold State.markStarted
  repeat' first
    | with_reducible rfl
    | with_reducible refine (State.modRing_ctl ..).trans ?_

@[simp] theorem State.close_ctl (s : State) (r : Nat) (c : Cmd) (a : Answer) : (State.close s r c a).ctl = s.ctl := by
  unfold State.close
  repeat' first
    | with_reducible rfl
    | with_reducible refine (State.queueCompletion_ctl ..).trans ?_
    | with_reducible refine (State.modRing_ctl ..).trans ?_

@[simp] theorem State.settleRing_ctl (s : State) (r : ℕ) (a2 : ℕ) : (State.settleRing s r a2).ctl = s.ctl := by
  induction a2 generalizing s with
  | zero => rfl
  | succ n ih =>
    unfold State.settleRing
    split
    · rfl
    · split
      · exact (ih _).trans ((State.close_ctl ..).trans ((State.auditCmd_ctl ..).trans (State.markStarted_ctl ..)))
      · rfl

@[simp] theorem State.settleRings_ctl (s : State) : (State.settleRings s).ctl = s.ctl := by
  unfold State.settleRings
  repeat' first
    | with_reducible rfl
    | with_reducible refine (State.settleRing_ctl ..).trans ?_
    | with_reducible refine (foldl_ctl (fun _ _ => ?_) _ _).trans ?_

theorem State.runCmd_ctl (s : State) (r : ℕ) (t : ℕ) (op : ℕ) (rules : CmdRules) (f : State → Job → CmdRes) (digest : Option (BitVec 512)) (hf : ∀ s j, (f s j).keeps s.ctl) : (State.runCmd s r t op rules f digest).ctl = s.ctl := by
  unfold State.runCmd
  split
  · rfl
  · split
    · rfl
    · extract_lets s0 c' cred fin
      have h0 : s0.ctl = s.ctl := State.markStarted_ctl ..
      have hfin : ∀ u a, (fin u a).ctl = u.ctl := fun u a =>
        (State.settleRings_ctl _).trans ((State.close_ctl ..).trans (State.auditCmd_ctl ..))
      clear_value s0 fin
      split
      · exact (hfin _ _).trans h0
      · split
        · exact (hfin _ _).trans h0
        · exact (State.settleRings_ctl _).trans ((State.modRing_ctl ..).trans ((CmdRes.ctl_later (hf _ _) (by assumption)).trans h0))
        · rename_i he
          have hd := (CmdRes.ctl_done (hf _ _) he).trans h0
          split
          · exact (hfin _ _).trans h0
          · exact (hfin _ _).trans hd

@[simp] theorem State.sqTailTo_ctl (s : State) (f k idx : Nat) (descs : List (Option (BitVec 512) × Dma)) : (State.sqTailTo s f k idx descs).ctl = s.ctl := by
  unfold State.sqTailTo
  repeat' first
    | with_reducible rfl
    | with_reducible refine (State.setRing_ctl ..).trans ?_
    | with_reducible refine (State.put_ctl ..).trans ?_
    | with_reducible refine (State.settleRings_ctl ..).trans ?_
    | (fail_if_no_progress with_reducible refine (ctl_upd _).trans ?_)
    | dsimp only
    | split
    | (fail_if_no_progress refine (ctl_upd2 _ ⟨rfl, rfl, rfl, rfl, rfl, rfl, rfl, rfl, rfl, rfl, rfl, rfl, rfl, rfl, rfl⟩).trans ?_)

@[simp] theorem State.headTo_ctl (s : State) (k idx : Nat) (cmd : Bool) : (State.headTo s k idx cmd).ctl = s.ctl := by
  unfold State.headTo
  repeat' first
    | with_reducible rfl
    | with_reducible refine (State.modRing_ctl ..).trans ?_
    | (fail_if_no_progress with_reducible refine (ctl_upd _).trans ?_)
    | dsimp only
    | split

@[simp] theorem State.doorbell_ctl (s : State) (f : Nat) (ring : Nat → Option Nat) (w : Nat) (descs : List (Option (BitVec 512) × Dma)) : (State.doorbell s f ring w descs).ctl = s.ctl := by
  unfold State.doorbell
  repeat' first
    | with_reducible rfl
    | with_reducible refine (State.sqTailTo_ctl ..).trans ?_
    | with_reducible refine (State.headTo_ctl ..).trans ?_
    | (fail_if_no_progress with_reducible refine (ctl_upd _).trans ?_)
    | dsimp only
    | split

@[simp] theorem State.ringConfig_ctl (s : State) (f : Nat) (v : W32) : (State.ringConfig s f v).ctl = s.ctl := by
  unfold State.ringConfig
  repeat' first
    | with_reducible rfl
    | with_reducible refine (State.modRing_ctl ..).trans ?_
    | (fail_if_no_progress with_reducible refine (ctl_upd _).trans ?_)
    | dsimp only
    | split

@[simp] theorem State.answerI3c_ctl (s : State) (c : Completion) : (State.answerI3c s c).ctl = s.ctl := by
  unfold State.answerI3c
  repeat' first
    | with_reducible rfl
    | with_reducible refine (State.setRing_ctl ..).trans ?_
    | with_reducible refine (State.drive_ctl ..).trans ?_
    | (fail_if_no_progress with_reducible refine (ctl_upd _).trans ?_)
    | dsimp only
    | split
    | (fail_if_no_progress refine (ctl_upd2 _ ⟨rfl, rfl, rfl, rfl, rfl, rfl, rfl, rfl, rfl, rfl, rfl, rfl, rfl, rfl, rfl⟩).trans ?_)

@[simp] theorem execCompletionPost_ctl (r : Nat) (resultFails : Bool) (s : State) : keepsO s.ctl (execCompletionPost r resultFails s) := by
  unfold execCompletionPost
  repeat' first
    | with_reducible rfl
    | with_reducible refine keepsO_next ?_
    | with_reducible refine (State.answerI3c_ctl _ _).trans ?_
    | with_reducible refine (State.put_ctl _ _).trans ?_
    | with_reducible refine (State.setRing_ctl _ _ _).trans ?_
    | with_reducible refine (State.settleRings_ctl _).trans ?_
    | with_reducible refine (State.raise_ctl _ _ _).trans ?_
    | dsimp only
    | split
    | (fail_if_no_progress refine (ctl_upd2 _ ⟨rfl, rfl, rfl, rfl, rfl, rfl, rfl, rfl, rfl, rfl, rfl, rfl, rfl, rfl, rfl⟩).trans ?_)

@[simp] theorem State.releaseHolds_ctl (s : State) : (State.releaseHolds s).ctl = s.ctl := by
  unfold State.releaseHolds
  repeat' first
    | with_reducible rfl
    | with_reducible refine (State.modPart_ctl ..).trans ?_
    | with_reducible refine (State.beginStep_ctl ..).trans ?_
    | with_reducible refine (foldl_ctl (fun _ _ => ?_) _ _).trans ?_
    | with_reducible refine (foldl_fst_ctl (fun _ _ => ?_) _ _).trans ?_
    | (fail_if_no_progress with_reducible refine (ctl_upd _).trans ?_)
    | dsimp only
    | split

@[simp] theorem State.putCore_ctl (s : State) (f : Nat) (g : Core → Core) : (State.putCore s f g).ctl = s.ctl := by
  unfold State.putCore
  repeat' first
    | with_reducible rfl
    | with_reducible refine (State.modCore_ctl ..).trans ?_
    | (fail_if_no_progress with_reducible refine (ctl_upd _).trans ?_)
    | dsimp only
    | split

@[simp] theorem State.putIntake_ctl (s : State) (f k i n : Nat) : (State.putIntake s f k i n).ctl = s.ctl := by
  unfold State.putIntake
  repeat' first
    | with_reducible rfl
    | with_reducible refine (State.modPart_ctl ..).trans ?_
    | (fail_if_no_progress with_reducible refine (ctl_upd _).trans ?_)
    | dsimp only
    | split

@[simp] theorem State.putCounter_ctl (s : State) (f : Nat) (reg : Reg) (n : Nat) : (State.putCounter s f reg n).ctl = s.ctl := by
  unfold State.putCounter
  repeat' first
    | with_reducible rfl
    | with_reducible refine (State.modSlice_ctl ..).trans ?_
    | with_reducible refine (State.modCloak_ctl ..).trans ?_
    | with_reducible refine (State.modStack_ctl ..).trans ?_
    | with_reducible refine (State.modEdge_ctl ..).trans ?_
    | with_reducible refine (State.modPort_ctl ..).trans ?_
    | with_reducible refine (State.putIntake_ctl ..).trans ?_
    | with_reducible refine (State.modFn_ctl ..).trans ?_
    | with_reducible refine (State.putCore_ctl ..).trans ?_
    | with_reducible refine (State.modSite_ctl ..).trans ?_
    | (fail_if_no_progress with_reducible refine (ctl_upd _).trans ?_)
    | dsimp only
    | split

@[simp] theorem State.touchLink_ctl (s : State) : (State.touchLink s).ctl = s.ctl := by
  unfold State.touchLink
  repeat' first
    | with_reducible rfl
    | (fail_if_no_progress with_reducible refine (ctl_upd _).trans ?_)
    | dsimp only
    | split
    | (fail_if_no_progress refine (ctl_upd2 _ ⟨rfl, rfl, rfl, rfl, rfl, rfl, rfl, rfl, rfl, rfl, rfl, rfl, rfl, rfl, rfl⟩).trans ?_)

@[simp] theorem State.modSelRing_ctl (s : State) (f : Nat) (g : Ring → Ring) : (State.modSelRing s f g).ctl = s.ctl := by
  unfold State.modSelRing
  repeat' first
    | with_reducible rfl
    | with_reducible refine (State.modRing_ctl ..).trans ?_
    | (fail_if_no_progress with_reducible refine (ctl_upd _).trans ?_)
    | dsimp only
    | split

@[simp] theorem State.notifyAll_ctl (s : State) (f : Nat) (vs : List Nat) : (State.notifyAll s f vs).ctl = s.ctl := by
  unfold State.notifyAll
  repeat' first
    | with_reducible rfl
    | with_reducible refine (State.notify_ctl ..).trans ?_
    | with_reducible refine (foldl_ctl (fun _ _ => ?_) _ _).trans ?_

@[simp] theorem State.clearCause_ctl (s : State) (f : Nat) (w : W32) (same : BitVec 16) : (State.clearCause s f w same).ctl = s.ctl := by
  unfold State.clearCause
  repeat' first
    | with_reducible rfl
    | with_reducible refine (State.setFn_ctl ..).trans ?_
    | with_reducible refine (State.notifyAll_ctl ..).trans ?_

@[simp] theorem State.writeMask_ctl (s : State) (f : Nat) (w : W32) : (State.writeMask s f w).ctl = s.ctl := by
  unfold State.writeMask
  repeat' first
    | with_reducible rfl
    | with_reducible refine (State.setFn_ctl ..).trans ?_
    | with_reducible refine (State.notifyAll_ctl ..).trans ?_

@[simp] theorem State.intakeAppend_ctl (s : State) (f k : Nat) (w : W32) : (State.intakeAppend s f k w).ctl = s.ctl := by
  unfold State.intakeAppend
  repeat' first
    | with_reducible rfl
    | with_reducible refine (State.modPart_ctl ..).trans ?_
    | with_reducible refine (State.settleIntake_ctl ..).trans ?_
    | (fail_if_no_progress with_reducible refine (ctl_upd _).trans ?_)
    | dsimp only
    | split

@[simp] theorem State.writeReg_ctl (s : State) (f : Nat) (reg : Reg) (w : W32) (descs : List (Option (BitVec 512) × Dma)) : (State.writeReg s f reg w descs).ctl = s.ctl := by
  unfold State.writeReg
  repeat' first
    | with_reducible rfl
    | with_reducible refine (State.modFn_ctl ..).trans ?_
    | with_reducible refine (State.modSelRing_ctl ..).trans ?_
    | with_reducible refine (State.ringConfig_ctl ..).trans ?_
    | with_reducible refine (State.doorbell_ctl ..).trans ?_
    | with_reducible refine (State.clearCause_ctl ..).trans ?_
    | with_reducible refine (State.writeMask_ctl ..).trans ?_
    | with_reducible refine (State.intakeAppend_ctl ..).trans ?_
    | with_reducible refine (State.modPart_ctl ..).trans ?_
    | (fail_if_no_progress with_reducible refine (ctl_upd _).trans ?_)
    | dsimp only
    | split

@[simp] theorem State.apFail_ctl (s : State) (f a : Nat) (write : Bool) (status : Nat) : (State.apFail s f a write status).ctl = s.ctl := by
  unfold State.apFail
  repeat' first
    | with_reducible rfl
    | with_reducible refine (State.modFn_ctl ..).trans ?_
    | with_reducible refine (State.put_ctl ..).trans ?_
    | with_reducible refine (State.raise_ctl ..).trans ?_

@[simp] theorem State.ownerDrop_ctl (s : State) (k : Nat) : (State.ownerDrop s k).ctl = s.ctl := by
  unfold State.ownerDrop
  repeat' first
    | with_reducible rfl
    | with_reducible refine (State.modSlice_ctl ..).trans ?_

@[simp] theorem State.emptyRings_ctl (s : State) (rs : List Nat) : (State.emptyRings s rs).ctl = s.ctl := by
  unfold State.emptyRings
  repeat' first
    | with_reducible rfl
    | with_reducible refine (State.modRing_ctl ..).trans ?_
    | with_reducible refine (foldl_ctl (fun _ _ => ?_) _ _).trans ?_

@[simp] theorem State.openStatus_ctl (s : State) : (State.openStatus s).2.ctl = s.ctl := by
  unfold State.openStatus
  repeat' first
    | with_reducible rfl
    | (fail_if_no_progress with_reducible refine (ctl_upd _).trans ?_)

@[simp] theorem State.endByReset_ctl (s : State) (p : Nat) : (State.endByReset s p).ctl = s.ctl := by
  unfold State.endByReset
  repeat' first
    | with_reducible rfl
    | refine (snd_ctl (State.openStatus_ctl ..) (by assumption)).trans ?_
    | with_reducible refine (State.endStep_ctl ..).trans ?_
    | (fail_if_no_progress with_reducible refine (ctl_upd _).trans ?_)
    | dsimp only
    | split
    | (fail_if_no_progress refine (ctl_upd2 _ ⟨rfl, rfl, rfl, rfl, rfl, rfl, rfl, rfl, rfl, rfl, rfl, rfl, rfl, rfl, rfl⟩).trans ?_)

@[simp] theorem State.resetPart_ctl (s : State) (p : Nat) : (State.resetPart s p).ctl = s.ctl := by
  unfold State.resetPart
  repeat' first
    | with_reducible rfl
    | with_reducible refine (State.endByReset_ctl ..).trans ?_
    | with_reducible refine (State.stopIntake_ctl ..).trans ?_
    | with_reducible refine (State.emptyRings_ctl ..).trans ?_

@[simp] theorem State.tdiError_ctl (s : State) (p : Nat) : (State.tdiError s p).ctl = s.ctl := by
  unfold State.tdiError
  repeat' first
    | with_reducible rfl
    | with_reducible refine (State.modPart_ctl ..).trans ?_
    | with_reducible refine (State.endStep_ctl ..).trans ?_
    | (fail_if_no_progress with_reducible refine (ctl_upd _).trans ?_)
    | dsimp only
    | split

@[simp] theorem State.flr_ctl (s : State) (f : Nat) : (State.flr s f).ctl = s.ctl := by
  unfold State.flr
  repeat' first
    | with_reducible rfl
    | with_reducible refine (State.emptyRings_ctl ..).trans ?_
    | with_reducible refine (State.modRing_ctl ..).trans ?_
    | with_reducible refine (State.resetPart_ctl ..).trans ?_
    | with_reducible refine (State.tdiError_ctl ..).trans ?_
    | with_reducible refine (foldl_ctl (fun _ _ => ?_) _ _).trans ?_
    | with_reducible refine (foldl_fst_ctl (fun _ _ => ?_) _ _).trans ?_
    | (fail_if_no_progress with_reducible refine (ctl_upd _).trans ?_)
    | dsimp only
    | split

@[simp] theorem State.flrAll_ctl (s : State) : (State.flrAll s).ctl = s.ctl := by
  unfold State.flrAll
  repeat' first
    | with_reducible rfl
    | with_reducible refine (State.flr_ctl ..).trans ?_
    | with_reducible refine (foldl_ctl (fun _ _ => ?_) _ _).trans ?_

@[simp] theorem State.sendHeld_ctl (s : State) (f : Nat) : (State.sendHeld s f).ctl = s.ctl := by
  unfold State.sendHeld
  repeat' first
    | with_reducible rfl
    | with_reducible refine (State.put_ctl ..).trans ?_
    | with_reducible refine (State.modFn_ctl ..).trans ?_
    | with_reducible refine (foldl_ctl (fun _ _ => ?_) _ _).trans ?_
    | with_reducible refine (foldl_fst_ctl (fun _ _ => ?_) _ _).trans ?_
    | (fail_if_no_progress with_reducible refine (ctl_upd _).trans ?_)
    | dsimp only
    | split

@[simp] theorem State.spdmAnswer_ctl (s : State) (f st code : Nat) (bytes : List Byte) : (State.spdmAnswer s f st code bytes).ctl = s.ctl := by
  unfold State.spdmAnswer
  repeat' first
    | with_reducible rfl
    | with_reducible refine (State.modFn_ctl ..).trans ?_
    | with_reducible refine (State.spdm_ctl ..).trans ?_
    | with_reducible refine (State.put_ctl ..).trans ?_

@[simp] theorem State.spdm_ctl (s : State) (f need : Nat) (next : Nat → Nat) (code : Nat) (bytes : List Byte) : (State.spdm s f need next code bytes).ctl = s.ctl := by
  unfold State.spdm
  repeat' first
    | with_reducible rfl
    | with_reducible refine (State.put_ctl ..).trans ?_
    | with_reducible refine (State.spdmAnswer_ctl ..).trans ?_
    | (fail_if_no_progress with_reducible refine (ctl_upd _).trans ?_)
    | dsimp only
    | split

@[simp] theorem State.placePins_ctl (s : State) (p : Nat) (im : Image) : (State.placePins s p im).ctl = s.ctl := by
  unfold State.placePins
  repeat' first
    | with_reducible rfl
    | with_reducible refine (State.modSlice_ctl ..).trans ?_
    | with_reducible refine (State.modPart_ctl ..).trans ?_
    | with_reducible refine (State.setPage_ctl ..).trans ?_
    | with_reducible refine (foldl_ctl (fun _ _ => ?_) _ _).trans ?_

@[simp] theorem State.loadJob_ctl (s : State) (p : Nat) (im : Image) (digest : BitVec 512) (roundKey randomKey : Nat) : (State.loadJob s p im digest roundKey randomKey).ctl = s.ctl := by
  unfold State.loadJob
  repeat' first
    | with_reducible rfl
    | with_reducible refine (State.placePins_ctl ..).trans ?_
    | with_reducible refine (State.dropClip_ctl ..).trans ?_
    | with_reducible refine (State.modPart_ctl ..).trans ?_

@[simp] theorem State.unloadJob_ctl (s : State) (p : Nat) : (State.unloadJob s p).ctl = s.ctl := by
  unfold State.unloadJob
  repeat' first
    | with_reducible rfl
    | with_reducible refine (State.releaseKeep_ctl ..).trans ?_
    | with_reducible refine (State.flushAll_ctl ..).trans ?_
    | with_reducible refine (State.modCore_ctl ..).trans ?_
    | with_reducible refine (State.modSlice_ctl ..).trans ?_
    | with_reducible refine (State.modCloak_ctl ..).trans ?_
    | with_reducible refine (State.modPort_ctl ..).trans ?_
    | with_reducible refine (State.modPart_ctl ..).trans ?_
    | with_reducible refine (foldl_ctl (fun _ _ => ?_) _ _).trans ?_
    | with_reducible refine (foldl_fst_ctl (fun _ _ => ?_) _ _).trans ?_
    | (fail_if_no_progress with_reducible refine (ctl_upd _).trans ?_)
    | dsimp only
    | split

@[simp] theorem State.startRun_ctl (s : State) (p r t steps : Nat) : (State.startRun s p r t steps).ctl = s.ctl := by
  unfold State.startRun
  repeat' first
    | with_reducible rfl
    | with_reducible refine (State.modPart_ctl ..).trans ?_
    | with_reducible refine (State.beginStep_ctl ..).trans ?_
    | (fail_if_no_progress with_reducible refine (ctl_upd _).trans ?_)
    | dsimp only
    | split

theorem State.goOn_ctl (s : State) (r : ℕ) (t : ℕ) (op : ℕ) (f : State → Job → CmdRes) (hf : ∀ s j, (f s j).keeps s.ctl) : (State.goOn s r t op f).ctl = s.ctl := by
  unfold State.goOn
  repeat' first
    | with_reducible rfl
    | refine (CmdRes.ctl_done (hf _ _) (by assumption)).trans ?_
    | refine (CmdRes.ctl_later (hf _ _) (by assumption)).trans ?_
    | with_reducible refine (State.settleRings_ctl _).trans ?_
    | with_reducible refine (State.finish_ctl _ _ _ _).trans ?_
    | with_reducible refine (State.auditCmd_ctl _ _ _ _ _ _).trans ?_
    | dsimp only
    | split

theorem State.runOrGoOn_ctl (s : State) (r : ℕ) (t : ℕ) (op : ℕ) (rules : CmdRules) (f : State → Job → CmdRes) (g : State → Job → CmdRes) (hf : ∀ s j, (f s j).keeps s.ctl) (hg : ∀ s j, (g s j).keeps s.ctl) : (State.runOrGoOn s r t op rules f g).ctl = s.ctl := by
  unfold State.runOrGoOn
  repeat' first
    | with_reducible rfl
    | assumption
    | with_reducible refine (State.goOn_ctl _ _ _ _ _ ?_).trans ?_
    | with_reducible refine (State.runCmd_ctl _ _ _ _ _ _ _ ?_).trans ?_
    | split

@[simp] theorem State.freePage_ctl (s : State) (p pg : Nat) : (State.freePage s p pg).ctl = s.ctl := by
  unfold State.freePage
  repeat' first
    | with_reducible rfl
    | with_reducible refine (State.dropPage_ctl ..).trans ?_
    | with_reducible refine (State.freeFrame_ctl ..).trans ?_
    | with_reducible refine (State.modPart_ctl ..).trans ?_
    | with_reducible refine (State.setPage_ctl ..).trans ?_
    | (fail_if_no_progress with_reducible refine (ctl_upd _).trans ?_)
    | dsimp only
    | split

theorem State.memFree_ctl (s : State) (j : Job) : (State.memFree s j).keeps s.ctl := by
  unfold State.memFree
  repeat' first
    | with_reducible rfl
    | exact True.intro
    | with_reducible refine CmdRes.keeps_done ?_
    | with_reducible refine CmdRes.keeps_later ?_
    | with_reducible refine (State.freePage_ctl ..).trans ?_
    | with_reducible refine (State.modPart_ctl ..).trans ?_
    | with_reducible refine (foldl_ctl (fun _ _ => ?_) _ _).trans ?_
    | with_reducible refine (foldl_fst_ctl (fun _ _ => ?_) _ _).trans ?_
    | (fail_if_no_progress with_reducible refine (ctl_upd _).trans ?_)
    | dsimp only
    | split

@[simp] theorem State.stopFlush_ctl (s : State) (p status : Nat) : (State.stopFlush s p status).ctl = s.ctl := by
  unfold State.stopFlush
  repeat' first
    | with_reducible rfl
    | with_reducible refine (State.modPart_ctl ..).trans ?_
    | with_reducible refine (State.endFlush_ctl ..).trans ?_

@[simp] theorem State.flushOne_ctl (s : State) (p pg : Nat) : (State.flushOne s p pg).ctl = s.ctl := by
  unfold State.flushOne
  repeat' first
    | with_reducible rfl
    | with_reducible refine (State.stopFlush_ctl ..).trans ?_
    | with_reducible refine (State.flushPage_ctl ..).trans ?_
    | with_reducible refine (State.setPage_ctl ..).trans ?_
    | with_reducible refine (State.modPart_ctl ..).trans ?_
    | with_reducible refine (State.beginSend_ctl ..).trans ?_
    | (fail_if_no_progress with_reducible refine (ctl_upd _).trans ?_)
    | dsimp only
    | split

@[simp] theorem State.flushMore_ctl (s : State) (p : Nat) : (State.flushMore s p).ctl = s.ctl := by
  unfold State.flushMore
  repeat' first
    | with_reducible rfl
    | with_reducible refine (State.flushOne_ctl ..).trans ?_
    | with_reducible refine (State.checkFlush_ctl ..).trans ?_
    | with_reducible refine (foldl_ctl (fun _ _ => ?_) _ _).trans ?_
    | with_reducible refine (foldl_fst_ctl (fun _ _ => ?_) _ _).trans ?_
    | (fail_if_no_progress with_reducible refine (ctl_upd _).trans ?_)
    | dsimp only
    | split

theorem State.memFlush_ctl (s : State) (j : Job) : (State.memFlush s j).keeps s.ctl := by
  unfold State.memFlush
  repeat' first
    | with_reducible rfl
    | exact True.intro
    | with_reducible refine CmdRes.keeps_done ?_
    | with_reducible refine CmdRes.keeps_later ?_
    | with_reducible refine (State.modPart_ctl ..).trans ?_
    | with_reducible refine (State.setPage_ctl ..).trans ?_
    | with_reducible refine (foldl_ctl (fun _ _ => ?_) _ _).trans ?_
    | with_reducible refine (foldl_fst_ctl (fun _ _ => ?_) _ _).trans ?_
    | (fail_if_no_progress with_reducible refine (ctl_upd _).trans ?_)
    | dsimp only
    | split

theorem State.addPoolPages_ctl (s : State) (p n : Nat) (k : KvPool) : ∀ x, State.addPoolPages s p n k = some x → x.1.ctl = s.ctl := by
  induction n generalizing s k with
  | zero => intro x h; cases h; rfl
  | succ n ih =>
    intro x h
    unfold State.addPoolPages at h
    cases hs : s.addPoolPage p k with
    | none => rw [hs] at h; cases h
    | some y => rw [hs] at h; exact (ih _ _ x h).trans (State.addPoolPage_ctl _ _ _ _ hs)

theorem State.slotCmd_ctl (s : State) (j : Job) (beyond : Nat) (ok : SeqDesc → Bool) (f : KvPool → CmdRes) (hf : ∀ k, (f k).keeps s.ctl) :
    (State.slotCmd s j beyond ok f).keeps s.ctl := by
  unfold State.slotCmd
  repeat' first
    | exact True.intro
    | exact hf _
    | split

theorem State.seqClose_ctl (s : State) (j : Job) : (State.seqClose s j).keeps s.ctl := by
  unfold State.seqClose
  refine State.slotCmd_ctl _ _ _ _ _ fun k => ?_
  dsimp only
  split <;> rfl

@[simp] theorem State.noValue_ctl (s : State) (w : Nat) : (State.noValue s w).1.ctl = s.ctl := by
  unfold State.noValue
  repeat' first
    | with_reducible rfl
    | (fail_if_no_progress with_reducible refine (ctl_upd _).trans ?_)

@[simp] theorem State.orFree_ctl (s : State) (w : Nat) (v : Option Nat) : (State.orFree s w v).1.ctl = s.ctl := by
  unfold State.orFree
  repeat' first
    | with_reducible rfl
    | with_reducible refine (State.noValue_ctl ..).trans ?_
    | refine (fst_ctl (State.noValue_ctl ..) (by assumption)).trans ?_
    | (fail_if_no_progress with_reducible refine (ctl_upd _).trans ?_)
    | dsimp only
    | split

@[simp] theorem State.recreateAllocs_ctl (s : State) (p : Nat) (allocs : List (Nat × Nat × Nat × Nat)) : (State.recreateAllocs s p allocs).ctl = s.ctl := by
  unfold State.recreateAllocs
  extract_lets t1 t2
  have h1 : t1.ctl = s.ctl := foldl_ctl (fun _ _ => State.freePage_ctl ..) _ _
  have h2 : t2.ctl = s.ctl := h1
  refine (foldl_ctl (fun u a => ?_) _ _).trans h2
  dsimp only
  refine (State.modPart_ctl ..).trans ?_
  cases h : u.takeTables p ((u.part p).newTables (a.1 / pageBytes) (a.2.1 / pageBytes)) with
  | none => rfl
  | some v => exact State.takeTables_ctl _ _ _ _ h

@[simp] theorem State.placeToken_ctl (s : State) (p : Nat) (x : Nat × Tok) : (State.placeToken s p x).ctl = s.ctl := by
  unfold State.placeToken
  repeat' first
    | with_reducible rfl
    | with_reducible refine (State.modCore_ctl ..).trans ?_

@[simp] theorem State.restoreCredits_ctl (s : State) (p : Nat) : (State.restoreCredits s p).ctl = s.ctl := by
  unfold State.restoreCredits
  repeat' first
    | with_reducible rfl
    | with_reducible refine (State.setCore_ctl ..).trans ?_
    | with_reducible refine (foldl_ctl (fun _ _ => ?_) _ _).trans ?_
    | with_reducible refine (foldl_fst_ctl (fun _ _ => ?_) _ _).trans ?_
    | (fail_if_no_progress with_reducible refine (ctl_upd _).trans ?_)
    | dsimp only
    | split

@[simp] theorem State.applyRecord_ctl (s : State) (p : Nat) (x : SchedRec) : (State.applyRecord s p x).ctl = s.ctl := by
  unfold State.applyRecord
  repeat' first
    | with_reducible rfl
    | with_reducible refine (State.modCore_ctl ..).trans ?_
    | with_reducible refine (State.setSeq_ctl ..).trans ?_
    | with_reducible refine (State.restoreCredits_ctl ..).trans ?_
    | with_reducible refine (State.placeToken_ctl ..).trans ?_
    | with_reducible refine (State.modPart_ctl ..).trans ?_
    | with_reducible refine (State.report_ctl ..).trans ?_
    | with_reducible refine (foldl_ctl (fun _ _ => ?_) _ _).trans ?_
    | with_reducible refine (foldl_fst_ctl (fun _ _ => ?_) _ _).trans ?_
    | (fail_if_no_progress with_reducible refine (ctl_upd _).trans ?_)
    | dsimp only
    | split

@[simp] theorem State.restoreFrom_ctl (s : State) (p : Nat) (src : RestoreSrc) : (State.restoreFrom s p src).ctl = s.ctl := by
  unfold State.restoreFrom
  repeat' first
    | with_reducible rfl
    | with_reducible refine (State.dropClip_ctl ..).trans ?_
    | with_reducible refine (State.recreateAllocs_ctl ..).trans ?_
    | with_reducible refine (State.fillPage_ctl ..).trans ?_
    | with_reducible refine (State.applyRecord_ctl ..).trans ?_
    | with_reducible refine (foldl_ctl (fun _ _ => ?_) _ _).trans ?_

theorem State.tryRestore_ctl (s : State) (p : ℕ) (want : Option ℕ) (a3 : List (Option RestoreSrc)) : (State.tryRestore s p want a3).keeps s.ctl := by
  induction a3 with
  | nil => exact True.intro
  | cons o l ih =>
    cases o with
    | none => unfold State.tryRestore; exact ih
    | some src =>
      unfold State.tryRestore
      dsimp only
      repeat' first
        | exact ih
        | exact True.intro
        | exact CmdRes.keeps_done (State.restoreFrom_ctl ..)
        | split

@[simp] theorem State.joinRank_ctl (s : State) (p rank dev : Nat) : (State.joinRank s p rank dev).ctl = s.ctl := by
  unfold State.joinRank
  repeat' first
    | with_reducible rfl
    | with_reducible refine (State.modPart_ctl ..).trans ?_
    | with_reducible refine (State.placeBuddy_ctl ..).trans ?_
    | with_reducible refine (State.baseAgain_ctl ..).trans ?_
    | (fail_if_no_progress with_reducible refine (ctl_upd _).trans ?_)
    | dsimp only
    | split

@[simp] theorem State.takeFillRecord_ctl (s : State) (p : Nat) (rec : Option SchedRec) : (State.takeFillRecord s p rec).ctl = s.ctl := by
  unfold State.takeFillRecord
  repeat' first
    | with_reducible rfl
    | with_reducible refine (State.dropClip_ctl ..).trans ?_
    | with_reducible refine (State.recreateAllocs_ctl ..).trans ?_
    | with_reducible refine (State.applyRecord_ctl ..).trans ?_
    | with_reducible refine (State.modPart_ctl ..).trans ?_
    | (fail_if_no_progress with_reducible refine (ctl_upd _).trans ?_)
    | dsimp only
    | split

@[simp] theorem State.takeArrived_ctl (s : State) (p : Nat) (arrived : SMap (SMap HbmLine)) : (State.takeArrived s p arrived).ctl = s.ctl := by
  unfold State.takeArrived
  repeat' first
    | with_reducible rfl
    | with_reducible refine (State.fillPage_ctl ..).trans ?_
    | with_reducible refine (State.modPart_ctl ..).trans ?_
    | with_reducible refine (foldl_ctl (fun _ _ => ?_) _ _).trans ?_
    | with_reducible refine (foldl_fst_ctl (fun _ _ => ?_) _ _).trans ?_
    | (fail_if_no_progress with_reducible refine (ctl_upd _).trans ?_)
    | dsimp only
    | split

@[simp] theorem State.fillStep_ctl (s : State) (p : Nat) (rec : Option SchedRec) (arrived : SMap (SMap HbmLine)) : (State.fillStep s p rec arrived).ctl = s.ctl := by
  unfold State.fillStep
  repeat' first
    | with_reducible rfl
    | with_reducible refine (State.takeFillRecord_ctl ..).trans ?_
    | with_reducible refine (State.takeArrived_ctl ..).trans ?_
    | with_reducible refine (State.spareInto_ctl ..).trans ?_
    | with_reducible refine (State.modPart_ctl ..).trans ?_
    | with_reducible refine (State.joinRank_ctl ..).trans ?_
    | (fail_if_no_progress with_reducible refine (ctl_upd _).trans ?_)
    | dsimp only
    | split

theorem State.fillOn_ctl (s : State) (rec : Option SchedRec) (arrived : SMap (SMap HbmLine)) (j : Job) : (State.fillOn s rec arrived j).keeps s.ctl := by
  unfold State.fillOn
  repeat' first
    | with_reducible rfl
    | exact True.intro
    | with_reducible refine CmdRes.keeps_done ?_
    | with_reducible refine CmdRes.keeps_later ?_
    | with_reducible refine (State.fillStep_ctl ..).trans ?_
    | (fail_if_no_progress with_reducible refine (ctl_upd _).trans ?_)
    | dsimp only
    | split

@[simp] theorem State.fillsOn_ctl (s : State) (rec : Option SchedRec) (arrived : SMap (SMap HbmLine)) : (State.fillsOn s rec arrived).ctl = s.ctl := by
  unfold State.fillsOn
  repeat' first
    | with_reducible rfl
    | with_reducible refine (State.fillStep_ctl ..).trans ?_
    | with_reducible refine (foldl_ctl (fun _ _ => ?_) _ _).trans ?_
    | with_reducible refine (foldl_fst_ctl (fun _ _ => ?_) _ _).trans ?_
    | (fail_if_no_progress with_reducible refine (ctl_upd _).trans ?_)
    | dsimp only
    | split

@[simp] theorem State.takeMoves_ctl (s : State) (p : Nat) (mine : List ShardMove) (data : SMap (SMap HbmLine)) : (State.takeMoves s p mine data).ctl = s.ctl := by
  unfold State.takeMoves
  repeat' first
    | with_reducible rfl
    | with_reducible refine (State.fillPage_ctl ..).trans ?_
    | with_reducible refine (foldl_ctl (fun _ _ => ?_) _ _).trans ?_

@[simp] theorem State.measurePort_ctl (s : State) (l m : Nat) : (State.measurePort s l m).ctl = s.ctl := by
  unfold State.measurePort
  repeat' first
    | with_reducible rfl
    | with_reducible refine (State.modPort_ctl ..).trans ?_

@[simp] theorem State.setupLink_ctl (s : State) (l m : Nat) (e : LinkEntry) : (State.setupLink s l m e).ctl = s.ctl := by
  unfold State.setupLink
  repeat' first
    | with_reducible rfl
    | with_reducible refine (State.modPort_ctl ..).trans ?_
    | with_reducible refine (State.measurePort_ctl ..).trans ?_
    | with_reducible refine (State.portUp_ctl ..).trans ?_

@[simp] theorem State.formSetup_ctl (s : State) (f : Form) (lock alt : Nat) (links : SMap Nat) : (State.formSetup s f lock alt links).ctl = s.ctl := by
  unfold State.formSetup
  repeat' first
    | with_reducible rfl
    | with_reducible refine (State.setupLink_ctl ..).trans ?_
    | with_reducible refine (foldl_ctl (fun _ _ => ?_) _ _).trans ?_
    | with_reducible refine (foldl_fst_ctl (fun _ _ => ?_) _ _).trans ?_
    | (fail_if_no_progress with_reducible refine (ctl_upd _).trans ?_)
    | dsimp only
    | split

@[simp] theorem State.dropChallenge_ctl (s : State) (r : Nat) : (State.dropChallenge s r).ctl = s.ctl := by
  unfold State.dropChallenge
  repeat' first
    | with_reducible rfl
    | with_reducible refine (State.modRing_ctl ..).trans ?_

theorem State.roleAuth_ctl (s : State) (r : ℕ) (t : ℕ) (type : ℕ) (rules : CmdRules) (f : State → Job → CmdRes) (hf : ∀ s j, (f s j).keeps s.ctl) : (State.roleAuth s r t type rules f).ctl = s.ctl := by
  unfold State.roleAuth
  repeat' first
    | with_reducible rfl
    | exact True.intro
    | intro _
    | exact hf _ _
    | with_reducible refine (State.runCmd_ctl _ _ _ _ _ _ _ ?_).trans ?_
    | with_reducible refine (State.dropChallenge_ctl _ _).trans ?_
    | split

@[simp] theorem State.endKeys_ctl (s : State) (p : Nat) (a : Answer) : (State.endKeys s p a).ctl = s.ctl := by
  unfold State.endKeys
  repeat' first
    | with_reducible rfl
    | with_reducible refine (State.auditCmd_ctl ..).trans ?_
    | with_reducible refine (State.finish_ctl ..).trans ?_
    | with_reducible refine (State.settleRings_ctl ..).trans ?_
    | (fail_if_no_progress with_reducible refine (ctl_upd _).trans ?_)
    | dsimp only
    | split

@[simp] theorem State.tryKeys_ctl (s : State) (p : Nat) : (State.tryKeys s p).ctl = s.ctl := by
  unfold State.tryKeys
  repeat' first
    | with_reducible rfl
    | with_reducible refine (State.modPart_ctl ..).trans ?_
    | with_reducible refine (State.endKeys_ctl ..).trans ?_
    | (fail_if_no_progress with_reducible refine (ctl_upd _).trans ?_)
    | dsimp only
    | split

@[simp] theorem State.keyPort_ctl (s : State) (p l : Nat) : (State.keyPort s p l).ctl = s.ctl := by
  unfold State.keyPort
  repeat' first
    | with_reducible rfl
    | with_reducible refine (State.modPort_ctl ..).trans ?_
    | with_reducible refine (State.queuePacket_ctl ..).trans ?_
    | (fail_if_no_progress with_reducible refine (ctl_upd _).trans ?_)
    | dsimp only
    | split

@[simp] theorem State.settleRekey_ctl (s : State) (p : Nat) : (State.settleRekey s p).ctl = s.ctl := by
  unfold State.settleRekey
  repeat' first
    | with_reducible rfl
    | with_reducible refine (State.modPart_ctl ..).trans ?_
    | with_reducible refine (State.audit_ctl ..).trans ?_
    | (fail_if_no_progress with_reducible refine (ctl_upd _).trans ?_)
    | dsimp only
    | split

@[simp] theorem State.rawTest_ctl (s : State) : (State.rawTest s).ctl = s.ctl := by
  unfold State.rawTest
  repeat' first
    | with_reducible rfl
    | with_reducible refine (foldl_ctl (fun _ _ => ?_) _ _).trans ?_
    | with_reducible refine (foldl_fst_ctl (fun _ _ => ?_) _ _).trans ?_
    | (fail_if_no_progress with_reducible refine (ctl_upd _).trans ?_)

@[simp] theorem State.postAll_ctl (s : State) (r : Nat) : (State.postAll s r).ctl = s.ctl := by
  unfold State.postAll
  refine foldl_ctl (fun t _ => ?_) _ _
  split
  · rename_i heq; exact ctl_of_next (execCompletionPost_ctl ..) heq
  · rfl

@[simp] theorem State.releaseAlert_ctl (s : State) : (State.releaseAlert s).ctl = s.ctl := by
  unfold State.releaseAlert
  repeat' first
    | with_reducible rfl
    | with_reducible refine (State.drive_ctl ..).trans ?_
    | (fail_if_no_progress with_reducible refine (ctl_upd _).trans ?_)
    | dsimp only
    | split
    | (fail_if_no_progress refine (ctl_upd2 _ ⟨rfl, rfl, rfl, rfl, rfl, rfl, rfl, rfl, rfl, rfl, rfl, rfl, rfl, rfl, rfl⟩).trans ?_)

@[simp] theorem State.unbindI3c_ctl (s : State) : (State.unbindI3c s).ctl = s.ctl := by
  unfold State.unbindI3c
  repeat' first
    | with_reducible rfl
    | with_reducible refine (State.modRing_ctl ..).trans ?_

@[simp] theorem State.i3cAnswer_ctl (s : State) (b : List Byte) : (State.i3cAnswer s b).ctl = s.ctl := by
  unfold State.i3cAnswer
  repeat' first
    | with_reducible rfl
    | with_reducible refine (State.put_ctl ..).trans ?_
    | (fail_if_no_progress with_reducible refine (ctl_upd _).trans ?_)
    | dsimp only
    | split

@[simp] theorem State.logStart_ctl (s : State) : (State.logStart s).ctl = s.ctl := by
  unfold State.logStart
  repeat' first
    | with_reducible rfl
    | with_reducible refine (State.audit_ctl ..).trans ?_
    | (fail_if_no_progress with_reducible refine (ctl_upd _).trans ?_)
    | dsimp only
    | split

@[simp] theorem State.applyRepair_ctl (s : State) (r : Repair) : (State.applyRepair s r).ctl = s.ctl := by
  unfold State.applyRepair
  repeat' first
    | with_reducible rfl
    | with_reducible refine (State.modSite_ctl ..).trans ?_
    | with_reducible refine (State.failSite_ctl ..).trans ?_
    | with_reducible refine (State.modStack_ctl ..).trans ?_
    | (fail_if_no_progress with_reducible refine (ctl_upd _).trans ?_)
    | dsimp only
    | split

@[simp] theorem State.seatPlans_ctl (s : State) : (State.seatPlans s).ctl = s.ctl := by
  unfold State.seatPlans
  repeat' first
    | with_reducible rfl
    | with_reducible refine (State.modPart_ctl ..).trans ?_
    | with_reducible refine (foldl_ctl (fun _ _ => ?_) _ _).trans ?_

@[simp] theorem State.countCycle_ctl (s : State) (c : Nat) : (State.countCycle s c).ctl = s.ctl := by
  unfold State.countCycle
  repeat' first
    | with_reducible rfl
    | with_reducible refine (State.setCore_ctl ..).trans ?_
    | (fail_if_no_progress with_reducible refine (ctl_upd _).trans ?_)
    | dsimp only
    | split

@[simp] theorem State.countRouter_ctl (s : State) (c : Nat) : (State.countRouter s c).ctl = s.ctl := by
  unfold State.countRouter
  repeat' first
    | with_reducible rfl
    | with_reducible refine (State.setCore_ctl ..).trans ?_
    | (fail_if_no_progress with_reducible refine (ctl_upd _).trans ?_)
    | dsimp only
    | split

@[simp] theorem State.beatFirmware_ctl (s : State) : (State.beatFirmware s).ctl = s.ctl := by
  unfold State.beatFirmware
  repeat' first
    | with_reducible rfl
    | (fail_if_no_progress with_reducible refine (ctl_upd _).trans ?_)
    | dsimp only
    | split
    | (fail_if_no_progress refine (ctl_upd2 _ ⟨rfl, rfl, rfl, rfl, rfl, rfl, rfl, rfl, rfl, rfl, rfl, rfl, rfl, rfl, rfl⟩).trans ?_)

@[simp] theorem State.watchSection_ctl (s : State) (p : Nat) : (State.watchSection s p).ctl = s.ctl := by
  unfold State.watchSection
  repeat' first
    | with_reducible rfl
    | with_reducible refine (State.setPart_ctl ..).trans ?_
    | (fail_if_no_progress with_reducible refine (ctl_upd _).trans ?_)
    | dsimp only
    | split

@[simp] theorem State.idleCore_ctl (s : State) (c : Nat) : (State.idleCore s c).ctl = s.ctl := by
  unfold State.idleCore
  repeat' first
    | with_reducible rfl
    | with_reducible refine (State.setCore_ctl ..).trans ?_
    | (fail_if_no_progress with_reducible refine (ctl_upd _).trans ?_)
    | dsimp only
    | split

@[simp] theorem State.idleSettle_ctl (s : State) (c : Nat) : (State.idleSettle s c).ctl = s.ctl := by
  unfold State.idleSettle
  repeat' first
    | with_reducible rfl
    | with_reducible refine (State.settleCore_ctl ..).trans ?_
    | (fail_if_no_progress with_reducible refine (ctl_upd _).trans ?_)
    | dsimp only
    | split

@[simp] theorem State.slotCores_ctl (s : State) : (State.slotCores s).ctl = s.ctl := by
  unfold State.slotCores
  repeat' first
    | with_reducible rfl
    | with_reducible refine (State.countRouter_ctl ..).trans ?_
    | with_reducible refine (State.countCycle_ctl ..).trans ?_
    | with_reducible refine (State.idleCore_ctl ..).trans ?_
    | with_reducible refine (State.idleSettle_ctl ..).trans ?_
    | with_reducible refine (foldl_ctl (fun _ _ => ?_) _ _).trans ?_
    | with_reducible refine (foldl_fst_ctl (fun _ _ => ?_) _ _).trans ?_
    | (fail_if_no_progress with_reducible refine (ctl_upd _).trans ?_)
    | dsimp only
    | split

@[simp] theorem State.slotIntake_ctl (s : State) (p : Nat) : (State.slotIntake s p).ctl = s.ctl := by
  unfold State.slotIntake
  repeat' first
    | with_reducible rfl
    | with_reducible refine (State.modPart_ctl ..).trans ?_
    | with_reducible refine (State.settleIntake_ctl ..).trans ?_
    | (fail_if_no_progress with_reducible refine (ctl_upd _).trans ?_)
    | dsimp only
    | split

@[simp] theorem State.slotStack_ctl (s : State) (h : Nat) : (State.slotStack s h).ctl = s.ctl := by
  unfold State.slotStack
  repeat' first
    | with_reducible rfl
    | with_reducible refine (State.setStack_ctl ..).trans ?_
    | (fail_if_no_progress with_reducible refine (ctl_upd _).trans ?_)
    | dsimp only
    | split

@[simp] theorem State.slotPart_ctl (s : State) (p : Nat) : (State.slotPart s p).ctl = s.ctl := by
  unfold State.slotPart
  repeat' first
    | with_reducible rfl
    | with_reducible refine (State.watchSection_ctl ..).trans ?_
    | with_reducible refine (State.deliverFlits_ctl ..).trans ?_
    | with_reducible refine (State.countCap_ctl ..).trans ?_
    | with_reducible refine (State.kvPump_ctl ..).trans ?_
    | with_reducible refine (State.flushMore_ctl ..).trans ?_
    | with_reducible refine (State.settleOuts_ctl ..).trans ?_
    | with_reducible refine (State.settleRekey_ctl ..).trans ?_
    | with_reducible refine (State.slotIntake_ctl ..).trans ?_
    | with_reducible refine (foldl_ctl (fun _ _ => ?_) _ _).trans ?_
    | with_reducible refine (foldl_fst_ctl (fun _ _ => ?_) _ _).trans ?_
    | (fail_if_no_progress with_reducible refine (ctl_upd _).trans ?_)
    | dsimp only
    | split

@[simp] theorem State.countThrottle_ctl (s : State) : (State.countThrottle s).ctl = s.ctl := by
  unfold State.countThrottle
  repeat' first
    | with_reducible rfl
    | with_reducible refine (foldl_ctl (fun _ _ => ?_) _ _).trans ?_
    | with_reducible refine (foldl_fst_ctl (fun _ _ => ?_) _ _).trans ?_
    | (fail_if_no_progress with_reducible refine (ctl_upd _).trans ?_)
    | dsimp only
    | split

end Sys2Proof.Machine
end

