-- ==== Sys2Proof/Laws/CtlCommands.lean ====
section
/-! SUPPORT. Commands whose next state has the same fields of control, one lemma for each. -/

namespace Sys2Proof.Machine

open Sys2Proof

theorem execKvAppendAdmit_ctl (p n : Nat) (s : State) : keepsO s.ctl (execKvAppendAdmit p n s) := by
  unfold execKvAppendAdmit
  repeat' first
    | with_reducible rfl
    | with_reducible refine keepsO_next ?_
    | with_reducible refine (State.kvAdmit_ctl ..).trans ?_
    | with_reducible refine (State.kvPump_ctl ..).trans ?_
    | (fail_if_no_progress with_reducible refine (ctl_upd _).trans ?_)
    | dsimp only
    | split

theorem execKvAllocatorAnswer_ctl (p n : Nat) (s : State) : keepsO s.ctl (execKvAllocatorAnswer p n s) := by
  unfold execKvAllocatorAnswer
  repeat' first
    | with_reducible rfl
    | with_reducible refine keepsO_next ?_
    | with_reducible refine (State.kvPump_ctl ..).trans ?_
    | with_reducible refine (State.setPool_ctl ..).trans ?_
    | with_reducible refine (State.kvAdmit_ctl ..).trans ?_
    | with_reducible refine (State.kvNoPage_ctl ..).trans ?_
    | refine (State.addPoolPage_ctl _ _ _ _ (by assumption)).trans ?_
    | (fail_if_no_progress with_reducible refine (ctl_upd _).trans ?_)
    | dsimp only
    | split

theorem execKvAllocatorTimeout_ctl (p n : Nat) (s : State) : keepsO s.ctl (execKvAllocatorTimeout p n s) := by
  unfold execKvAllocatorTimeout
  repeat' first
    | with_reducible rfl
    | with_reducible refine keepsO_next ?_
    | with_reducible refine (State.kvNoPage_ctl ..).trans ?_
    | (fail_if_no_progress with_reducible refine (ctl_upd _).trans ?_)
    | dsimp only
    | split

theorem execMma_ctl (c : Nat) (q : Stream) (s : State) : keepsO s.ctl (execMma c q s) := by
  unfold execMma
  repeat' first
    | with_reducible rfl
    | with_reducible refine keepsO_next ?_
    | with_reducible refine (State.runOp_ctl ..).trans ?_

theorem execMmaAcc_ctl (c : Nat) (q : Stream) (s : State) : keepsO s.ctl (execMmaAcc c q s) := by
  unfold execMmaAcc
  repeat' first
    | with_reducible rfl
    | with_reducible refine keepsO_next ?_
    | with_reducible refine (State.runOp_ctl ..).trans ?_

theorem execMmaWg_ctl (c : Nat) (q : Stream) (s : State) : keepsO s.ctl (execMmaWg c q s) := by
  unfold execMmaWg
  repeat' first
    | with_reducible rfl
    | with_reducible refine keepsO_next ?_
    | with_reducible refine (State.runOp_ctl ..).trans ?_

theorem execMmaAccWg_ctl (c : Nat) (q : Stream) (s : State) : keepsO s.ctl (execMmaAccWg c q s) := by
  unfold execMmaAccWg
  repeat' first
    | with_reducible rfl
    | with_reducible refine keepsO_next ?_
    | with_reducible refine (State.runOp_ctl ..).trans ?_

theorem execAccLoad_ctl (c : Nat) (q : Stream) (s : State) : keepsO s.ctl (execAccLoad c q s) := by
  unfold execAccLoad
  repeat' first
    | with_reducible rfl
    | with_reducible refine keepsO_next ?_
    | with_reducible refine (State.runOp_ctl ..).trans ?_

theorem execDrain_ctl (c : Nat) (q : Stream) (s : State) : keepsO s.ctl (execDrain c q s) := by
  unfold execDrain
  repeat' first
    | with_reducible rfl
    | with_reducible refine keepsO_next ?_
    | with_reducible refine (State.runOp_ctl ..).trans ?_

theorem execDrainAdd_ctl (c : Nat) (q : Stream) (s : State) : keepsO s.ctl (execDrainAdd c q s) := by
  unfold execDrainAdd
  repeat' first
    | with_reducible rfl
    | with_reducible refine keepsO_next ?_
    | with_reducible refine (State.runOp_ctl ..).trans ?_

theorem execRowSum_ctl (c : Nat) (q : Stream) (s : State) : keepsO s.ctl (execRowSum c q s) := by
  unfold execRowSum
  repeat' first
    | with_reducible rfl
    | with_reducible refine keepsO_next ?_
    | with_reducible refine (State.runOp_ctl ..).trans ?_

theorem execRowMax_ctl (c : Nat) (q : Stream) (s : State) : keepsO s.ctl (execRowMax c q s) := by
  unfold execRowMax
  repeat' first
    | with_reducible rfl
    | with_reducible refine keepsO_next ?_
    | with_reducible refine (State.runOp_ctl ..).trans ?_

theorem execRowSumsq_ctl (c : Nat) (q : Stream) (s : State) : keepsO s.ctl (execRowSumsq c q s) := by
  unfold execRowSumsq
  repeat' first
    | with_reducible rfl
    | with_reducible refine keepsO_next ?_
    | with_reducible refine (State.runOp_ctl ..).trans ?_

theorem execRowFn_ctl (c : Nat) (q : Stream) (s : State) : keepsO s.ctl (execRowFn c q s) := by
  unfold execRowFn
  repeat' first
    | with_reducible rfl
    | with_reducible refine keepsO_next ?_
    | with_reducible refine (State.runOp_ctl ..).trans ?_

theorem execSoftmax_ctl (c : Nat) (q : Stream) (s : State) : keepsO s.ctl (execSoftmax c q s) := by
  unfold execSoftmax
  repeat' first
    | with_reducible rfl
    | with_reducible refine keepsO_next ?_
    | with_reducible refine (State.runOp_ctl ..).trans ?_

theorem execSoftmaxBwd_ctl (c : Nat) (q : Stream) (s : State) : keepsO s.ctl (execSoftmaxBwd c q s) := by
  unfold execSoftmaxBwd
  repeat' first
    | with_reducible rfl
    | with_reducible refine keepsO_next ?_
    | with_reducible refine (State.runOp_ctl ..).trans ?_

theorem execNorm_ctl (c : Nat) (q : Stream) (s : State) : keepsO s.ctl (execNorm c q s) := by
  unfold execNorm
  repeat' first
    | with_reducible rfl
    | with_reducible refine keepsO_next ?_
    | with_reducible refine (State.runOp_ctl ..).trans ?_

theorem execNormBwd_ctl (c : Nat) (q : Stream) (s : State) : keepsO s.ctl (execNormBwd c q s) := by
  unfold execNormBwd
  repeat' first
    | with_reducible rfl
    | with_reducible refine keepsO_next ?_
    | with_reducible refine (State.runOp_ctl ..).trans ?_

theorem execVadd_ctl (c : Nat) (q : Stream) (s : State) : keepsO s.ctl (execVadd c q s) := by
  unfold execVadd
  repeat' first
    | with_reducible rfl
    | with_reducible refine keepsO_next ?_
    | with_reducible refine (State.runOp_ctl ..).trans ?_

theorem execVsub_ctl (c : Nat) (q : Stream) (s : State) : keepsO s.ctl (execVsub c q s) := by
  unfold execVsub
  repeat' first
    | with_reducible rfl
    | with_reducible refine keepsO_next ?_
    | with_reducible refine (State.runOp_ctl ..).trans ?_

theorem execVmul_ctl (c : Nat) (q : Stream) (s : State) : keepsO s.ctl (execVmul c q s) := by
  unfold execVmul
  repeat' first
    | with_reducible rfl
    | with_reducible refine keepsO_next ?_
    | with_reducible refine (State.runOp_ctl ..).trans ?_

theorem execVmad_ctl (c : Nat) (q : Stream) (s : State) : keepsO s.ctl (execVmad c q s) := by
  unfold execVmad
  repeat' first
    | with_reducible rfl
    | with_reducible refine keepsO_next ?_
    | with_reducible refine (State.runOp_ctl ..).trans ?_

theorem execVmax_ctl (c : Nat) (q : Stream) (s : State) : keepsO s.ctl (execVmax c q s) := by
  unfold execVmax
  repeat' first
    | with_reducible rfl
    | with_reducible refine keepsO_next ?_
    | with_reducible refine (State.runOp_ctl ..).trans ?_

theorem execVmin_ctl (c : Nat) (q : Stream) (s : State) : keepsO s.ctl (execVmin c q s) := by
  unfold execVmin
  repeat' first
    | with_reducible rfl
    | with_reducible refine keepsO_next ?_
    | with_reducible refine (State.runOp_ctl ..).trans ?_

theorem execVcvt_ctl (c : Nat) (q : Stream) (s : State) : keepsO s.ctl (execVcvt c q s) := by
  unfold execVcvt
  repeat' first
    | with_reducible rfl
    | with_reducible refine keepsO_next ?_
    | with_reducible refine (State.runOp_ctl ..).trans ?_

theorem execVaffine_ctl (c : Nat) (q : Stream) (s : State) : keepsO s.ctl (execVaffine c q s) := by
  unfold execVaffine
  repeat' first
    | with_reducible rfl
    | with_reducible refine keepsO_next ?_
    | with_reducible refine (State.runOp_ctl ..).trans ?_

theorem execVaddLs_ctl (c : Nat) (q : Stream) (s : State) : keepsO s.ctl (execVaddLs c q s) := by
  unfold execVaddLs
  repeat' first
    | with_reducible rfl
    | with_reducible refine keepsO_next ?_
    | with_reducible refine (State.runOp_ctl ..).trans ?_

theorem execVrand_ctl (c : Nat) (q : Stream) (s : State) : keepsO s.ctl (execVrand c q s) := by
  unfold execVrand
  repeat' first
    | with_reducible rfl
    | with_reducible refine keepsO_next ?_
    | with_reducible refine (State.runOp_ctl ..).trans ?_

theorem execVdrop_ctl (c : Nat) (q : Stream) (s : State) : keepsO s.ctl (execVdrop c q s) := by
  unfold execVdrop
  repeat' first
    | with_reducible rfl
    | with_reducible refine keepsO_next ?_
    | with_reducible refine (State.runOp_ctl ..).trans ?_

theorem execVput_ctl (c : Nat) (q : Stream) (s : State) : keepsO s.ctl (execVput c q s) := by
  unfold execVput
  repeat' first
    | with_reducible rfl
    | with_reducible refine keepsO_next ?_
    | with_reducible refine (State.runOp_ctl ..).trans ?_

theorem execOptAdamw_ctl (c : Nat) (q : Stream) (s : State) : keepsO s.ctl (execOptAdamw c q s) := by
  unfold execOptAdamw
  repeat' first
    | with_reducible rfl
    | with_reducible refine keepsO_next ?_
    | with_reducible refine (State.runOp_ctl ..).trans ?_

theorem execOptSgdm_ctl (c : Nat) (q : Stream) (s : State) : keepsO s.ctl (execOptSgdm c q s) := by
  unfold execOptSgdm
  repeat' first
    | with_reducible rfl
    | with_reducible refine keepsO_next ?_
    | with_reducible refine (State.runOp_ctl ..).trans ?_

theorem execOptStep_ctl (c : Nat) (q : Stream) (s : State) : keepsO s.ctl (execOptStep c q s) := by
  unfold execOptStep
  repeat' first
    | with_reducible rfl
    | with_reducible refine keepsO_next ?_
    | with_reducible refine (State.runOp_ctl ..).trans ?_

theorem execAttnFwd_ctl (c : Nat) (q : Stream) (s : State) : keepsO s.ctl (execAttnFwd c q s) := by
  unfold execAttnFwd
  repeat' first
    | with_reducible rfl
    | with_reducible refine keepsO_next ?_
    | with_reducible refine (State.runAttn_ctl ..).trans ?_

theorem execAttnRecomp_ctl (c : Nat) (q : Stream) (s : State) : keepsO s.ctl (execAttnRecomp c q s) := by
  unfold execAttnRecomp
  repeat' first
    | with_reducible rfl
    | with_reducible refine keepsO_next ?_
    | with_reducible refine (State.runAttn_ctl ..).trans ?_

theorem execAttnDs_ctl (c : Nat) (q : Stream) (s : State) : keepsO s.ctl (execAttnDs c q s) := by
  unfold execAttnDs
  repeat' first
    | with_reducible rfl
    | with_reducible refine keepsO_next ?_
    | with_reducible refine (State.runAttn_ctl ..).trans ?_

theorem execRope_ctl (c : Nat) (q : Stream) (s : State) : keepsO s.ctl (execRope c q s) := by
  unfold execRope
  repeat' first
    | with_reducible rfl
    | with_reducible refine keepsO_next ?_
    | with_reducible refine (State.runAttn_ctl ..).trans ?_

theorem execAttnFwdFused_ctl (c : Nat) (q : Stream) (s : State) : keepsO s.ctl (execAttnFwdFused c q s) := by
  unfold execAttnFwdFused
  repeat' first
    | with_reducible rfl
    | with_reducible refine keepsO_next ?_
    | with_reducible refine (State.runAttn_ctl ..).trans ?_

theorem execAttnRecompFused_ctl (c : Nat) (q : Stream) (s : State) : keepsO s.ctl (execAttnRecompFused c q s) := by
  unfold execAttnRecompFused
  repeat' first
    | with_reducible rfl
    | with_reducible refine keepsO_next ?_
    | with_reducible refine (State.runAttn_ctl ..).trans ?_

theorem execAttnDsFused_ctl (c : Nat) (q : Stream) (s : State) : keepsO s.ctl (execAttnDsFused c q s) := by
  unfold execAttnDsFused
  repeat' first
    | with_reducible rfl
    | with_reducible refine keepsO_next ?_
    | with_reducible refine (State.runAttn_ctl ..).trans ?_

theorem execRopeFused_ctl (c : Nat) (q : Stream) (s : State) : keepsO s.ctl (execRopeFused c q s) := by
  unfold execRopeFused
  repeat' first
    | with_reducible rfl
    | with_reducible refine keepsO_next ?_
    | with_reducible refine (State.runAttn_ctl ..).trans ?_

theorem execKvAppend_ctl (c : Nat) (q : Stream) (s : State) : keepsO s.ctl (execKvAppend c q s) := by
  unfold execKvAppend
  repeat' first
    | with_reducible rfl
    | with_reducible refine keepsO_next ?_
    | with_reducible refine (State.runKv_ctl ..).trans ?_

theorem execKvLoad_ctl (c : Nat) (q : Stream) (s : State) : keepsO s.ctl (execKvLoad c q s) := by
  unfold execKvLoad
  repeat' first
    | with_reducible rfl
    | with_reducible refine keepsO_next ?_
    | with_reducible refine (State.runKv_ctl ..).trans ?_
    | with_reducible refine (State.kvPump_ctl ..).trans ?_

theorem execEngineOperationDone_ctl (c e : Nat) (port : Bool) (s : State) : keepsO s.ctl (execEngineOperationDone c e port s) := by
  unfold execEngineOperationDone
  repeat' first
    | with_reducible rfl
    | with_reducible refine keepsO_next ?_
    | with_reducible refine (State.modCore_ctl ..).trans ?_

theorem execComputeUnitOperationDone_ctl (c unit : Nat) (s : State) : keepsO s.ctl (execComputeUnitOperationDone c unit s) := by
  unfold execComputeUnitOperationDone
  repeat' first
    | with_reducible rfl
    | with_reducible refine keepsO_next ?_
    | with_reducible refine (State.modCore_ctl ..).trans ?_
    | (fail_if_no_progress with_reducible refine (ctl_upd _).trans ?_)
    | dsimp only
    | split

theorem execSwitchSlot_ctl (p : Nat) (s : State) : keepsO s.ctl (execSwitchSlot p s) := by
  unfold execSwitchSlot
  repeat' first
    | with_reducible rfl
    | with_reducible refine keepsO_next ?_
    | with_reducible refine (State.switch_ctl ..).trans ?_
    | with_reducible refine (State.loadLinks_ctl ..).trans ?_
    | (fail_if_no_progress with_reducible refine (ctl_upd _).trans ?_)
    | dsimp only
    | split

theorem execWindowBStart_ctl (p : Nat) (s : State) : keepsO s.ctl (execWindowBStart p s) := by
  unfold execWindowBStart
  repeat' first
    | with_reducible rfl
    | with_reducible refine keepsO_next ?_
    | with_reducible refine (State.loadCores_ctl ..).trans ?_
    | with_reducible refine (State.modPart_ctl ..).trans ?_
    | with_reducible refine (State.endJobAccess_ctl ..).trans ?_
    | (fail_if_no_progress with_reducible refine (ctl_upd _).trans ?_)
    | dsimp only
    | split

theorem execWindowCStart_ctl (p : Nat) (s : State) : keepsO s.ctl (execWindowCStart p s) := by
  unfold execWindowCStart
  repeat' first
    | with_reducible rfl
    | with_reducible refine keepsO_next ?_
    | with_reducible refine (State.reinjectRow_ctl ..).trans ?_
    | with_reducible refine (State.setCredits_ctl ..).trans ?_
    | with_reducible refine (State.modPart_ctl ..).trans ?_
    | with_reducible refine (foldl_ctl (fun _ _ => ?_) _ _).trans ?_
    | with_reducible refine (foldl_fst_ctl (fun _ _ => ?_) _ _).trans ?_
    | (fail_if_no_progress with_reducible refine (ctl_upd _).trans ?_)
    | dsimp only
    | split

theorem execSectionStart_ctl (p : Nat) (s : State) : keepsO s.ctl (execSectionStart p s) := by
  unfold execSectionStart
  repeat' first
    | with_reducible rfl
    | with_reducible refine keepsO_next ?_
    | with_reducible refine (State.startSection_ctl ..).trans ?_
    | with_reducible refine (State.closeSection_ctl ..).trans ?_
    | (fail_if_no_progress with_reducible refine (ctl_upd _).trans ?_)
    | dsimp only
    | split

theorem execPeriodBoundary_ctl (p : Nat) (s : State) : keepsO s.ctl (execPeriodBoundary p s) := by
  unfold execPeriodBoundary
  repeat' first
    | with_reducible rfl
    | with_reducible refine keepsO_next ?_
    | with_reducible refine (State.setPart_ctl ..).trans ?_
    | (fail_if_no_progress with_reducible refine (ctl_upd _).trans ?_)
    | dsimp only
    | split

theorem execSectionStuck_ctl (p : Nat) (s : State) : keepsO s.ctl (execSectionStuck p s) := by
  unfold execSectionStuck
  repeat' first
    | with_reducible rfl
    | with_reducible refine keepsO_next ?_
    | with_reducible refine (State.endStep_ctl ..).trans ?_
    | (fail_if_no_progress with_reducible refine (ctl_upd _).trans ?_)
    | dsimp only
    | split

theorem execTaskOpen_ctl (c : Nat) (q : Stream) (s : State) : keepsO s.ctl (execTaskOpen c q s) := by
  unfold execTaskOpen
  repeat' first
    | with_reducible rfl
    | with_reducible refine keepsO_next ?_
    | with_reducible refine (State.postTask_ctl ..).trans ?_

theorem execLoop_ctl (c : Nat) (q : Stream) (body : Bool) (s : State) : keepsO s.ctl (execLoop c q body s) := by
  unfold execLoop
  repeat' first
    | with_reducible rfl
    | with_reducible refine keepsO_next ?_
    | with_reducible refine (State.loopRead_ctl ..).trans ?_

theorem execSetMb_ctl (c : Nat) (q : Stream) (s : State) : keepsO s.ctl (execSetMb c q s) := by
  unfold execSetMb
  repeat' first
    | with_reducible rfl
    | with_reducible refine keepsO_next ?_
    | with_reducible refine (State.modSeq_ctl ..).trans ?_
    | (fail_if_no_progress with_reducible refine (ctl_upd _).trans ?_)
    | dsimp only
    | split

theorem execBellRing_ctl (c : Nat) (q : Stream) (body : Bool) (s : State) : keepsO s.ctl (execBellRing c q body s) := by
  unfold execBellRing
  repeat' first
    | with_reducible rfl
    | with_reducible refine keepsO_next ?_
    | with_reducible refine (State.ringRead_ctl ..).trans ?_

theorem execBellArm_ctl (c : Nat) (q : Stream) (body : Bool) (s : State) : keepsO s.ctl (execBellArm c q body s) := by
  unfold execBellArm
  repeat' first
    | with_reducible rfl
    | with_reducible refine keepsO_next ?_
    | with_reducible refine (State.armRead_ctl ..).trans ?_

theorem execBellWait_ctl (c : Nat) (q : Stream) (body : Bool) (s : State) : keepsO s.ctl (execBellWait c q body s) := by
  unfold execBellWait
  repeat' first
    | with_reducible rfl
    | with_reducible refine keepsO_next ?_
    | with_reducible refine (State.waitRead_ctl ..).trans ?_

theorem execSectionEnd_ctl (c : Nat) (q : Stream) (s : State) : keepsO s.ctl (execSectionEnd c q s) := by
  unfold execSectionEnd
  repeat' first
    | with_reducible rfl
    | with_reducible refine keepsO_next ?_
    | with_reducible refine (State.modSeq_ctl ..).trans ?_
    | with_reducible refine (State.ended_ctl ..).trans ?_
    | with_reducible refine (State.tryEnd_ctl ..).trans ?_
    | (fail_if_no_progress with_reducible refine (ctl_upd _).trans ?_)
    | dsimp only
    | split

theorem execTaskFire_ctl (c : Nat) (q : Stream) (s : State) : keepsO s.ctl (execTaskFire c q s) := by
  unfold execTaskFire
  repeat' first
    | with_reducible rfl
    | with_reducible refine keepsO_next ?_
    | with_reducible refine (State.fire_ctl ..).trans ?_

theorem execTaskClose_ctl (c : Nat) (q : Stream) (s : State) : keepsO s.ctl (execTaskClose c q s) := by
  unfold execTaskClose
  repeat' first
    | with_reducible rfl
    | with_reducible refine keepsO_next ?_
    | with_reducible refine (State.closeTask_ctl ..).trans ?_

theorem execTokenArrive_ctl (p n : Nat) (s : State) : keepsO s.ctl (execTokenArrive p n s) := by
  unfold execTokenArrive
  repeat' first
    | with_reducible rfl
    | with_reducible refine keepsO_next ?_
    | with_reducible refine (State.modPart_ctl ..).trans ?_
    | with_reducible refine (State.deliver_ctl ..).trans ?_
    | (fail_if_no_progress with_reducible refine (ctl_upd _).trans ?_)
    | dsimp only
    | split

theorem execTokenOccurrence_ctl (c e : Nat) (s : State) : keepsO s.ctl (execTokenOccurrence c e s) := by
  unfold execTokenOccurrence
  repeat' first
    | with_reducible rfl
    | with_reducible refine keepsO_next ?_
    | with_reducible refine (State.tokenOccurs_ctl ..).trans ?_

theorem execCreditOccurrence_ctl (c e : Nat) (s : State) : keepsO s.ctl (execCreditOccurrence c e s) := by
  unfold execCreditOccurrence
  repeat' first
    | with_reducible rfl
    | with_reducible refine keepsO_next ?_
    | with_reducible refine (State.creditOccurs_ctl ..).trans ?_

theorem execCreditArrive_ctl (p n : Nat) (s : State) : keepsO s.ctl (execCreditArrive p n s) := by
  unfold execCreditArrive
  repeat' first
    | with_reducible rfl
    | with_reducible refine keepsO_next ?_
    | with_reducible refine (State.modPart_ctl ..).trans ?_
    | with_reducible refine (State.modCore_ctl ..).trans ?_
    | with_reducible refine (State.settleCore_ctl ..).trans ?_
    | (fail_if_no_progress with_reducible refine (ctl_upd _).trans ?_)
    | dsimp only
    | split

theorem execClosureMessage_ctl (p : Nat) (s : State) : keepsO s.ctl (execClosureMessage p s) := by
  unfold execClosureMessage
  repeat' first
    | with_reducible rfl
    | with_reducible refine keepsO_next ?_
    | with_reducible refine (State.closure_ctl ..).trans ?_
    | with_reducible refine (State.modPart_ctl ..).trans ?_
    | (fail_if_no_progress with_reducible refine (ctl_upd _).trans ?_)
    | dsimp only
    | split

theorem execCommitVerdict_ctl (c g : Nat) (s : State) : keepsO s.ctl (execCommitVerdict c g s) := by
  unfold execCommitVerdict
  repeat' first
    | with_reducible rfl
    | with_reducible refine keepsO_next ?_
    | with_reducible refine (State.modCore_ctl ..).trans ?_
    | with_reducible refine (State.commitAt_ctl ..).trans ?_
    | (fail_if_no_progress with_reducible refine (ctl_upd _).trans ?_)
    | dsimp only
    | split

theorem execDiscardVerdict_ctl (c g : Nat) (s : State) : keepsO s.ctl (execDiscardVerdict c g s) := by
  unfold execDiscardVerdict
  repeat' first
    | with_reducible rfl
    | with_reducible refine keepsO_next ?_
    | with_reducible refine (State.modCore_ctl ..).trans ?_
    | with_reducible refine (State.discardAt_ctl ..).trans ?_
    | (fail_if_no_progress with_reducible refine (ctl_upd _).trans ?_)
    | dsimp only
    | split

theorem execSliceVerdict_ctl (sl g : Nat) (s : State) : keepsO s.ctl (execSliceVerdict sl g s) := by
  unfold execSliceVerdict
  repeat' first
    | with_reducible rfl
    | with_reducible refine keepsO_next ?_
    | with_reducible refine (State.applied_ctl ..).trans ?_
    | with_reducible refine (State.sliceVerdict_ctl ..).trans ?_
    | (fail_if_no_progress with_reducible refine (ctl_upd _).trans ?_)
    | dsimp only
    | split

theorem execRingMessage_ctl (p : Nat) (s : State) : keepsO s.ctl (execRingMessage p s) := by
  unfold execRingMessage
  repeat' first
    | with_reducible rfl
    | with_reducible refine keepsO_next ?_
    | with_reducible refine (State.modPart_ctl ..).trans ?_
    | with_reducible refine (State.ringRoot_ctl ..).trans ?_
    | (fail_if_no_progress with_reducible refine (ctl_upd _).trans ?_)
    | dsimp only
    | split

theorem execArmMessage_ctl (p : Nat) (s : State) : keepsO s.ctl (execArmMessage p s) := by
  unfold execArmMessage
  repeat' first
    | with_reducible rfl
    | with_reducible refine keepsO_next ?_
    | with_reducible refine (State.modPart_ctl ..).trans ?_
    | with_reducible refine (State.modCore_ctl ..).trans ?_
    | (fail_if_no_progress with_reducible refine (ctl_upd _).trans ?_)
    | dsimp only
    | split

theorem execCountMessage_ctl (c : Nat) (s : State) : keepsO s.ctl (execCountMessage c s) := by
  unfold execCountMessage
  repeat' first
    | with_reducible rfl
    | with_reducible refine keepsO_next ?_
    | with_reducible refine (State.modCore_ctl ..).trans ?_
    | with_reducible refine (State.setSeq_ctl ..).trans ?_
    | (fail_if_no_progress with_reducible refine (ctl_upd _).trans ?_)
    | dsimp only
    | split

theorem execEndMessage_ctl (p : Nat) (s : State) : keepsO s.ctl (execEndMessage p s) := by
  unfold execEndMessage
  repeat' first
    | with_reducible rfl
    | with_reducible refine keepsO_next ?_
    | with_reducible refine (State.modPart_ctl ..).trans ?_
    | with_reducible refine (State.ended_ctl ..).trans ?_
    | with_reducible refine (State.closeSection_ctl ..).trans ?_
    | (fail_if_no_progress with_reducible refine (ctl_upd _).trans ?_)
    | dsimp only
    | split

theorem execCloseMessage_ctl (c : Nat) (s : State) : keepsO s.ctl (execCloseMessage c s) := by
  unfold execCloseMessage
  repeat' first
    | with_reducible rfl
    | with_reducible refine keepsO_next ?_
    | with_reducible refine (State.modCore_ctl ..).trans ?_
    | (fail_if_no_progress with_reducible refine (ctl_upd _).trans ?_)
    | dsimp only
    | split

theorem execGenMessage_ctl (p c : Nat) (s : State) : keepsO s.ctl (execGenMessage p c s) := by
  unfold execGenMessage
  repeat' first
    | with_reducible rfl
    | with_reducible refine keepsO_next ?_
    | with_reducible refine (State.modCore_ctl ..).trans ?_
    | with_reducible refine (State.settleCore_ctl ..).trans ?_
    | with_reducible refine (foldl_ctl (fun _ _ => ?_) _ _).trans ?_
    | with_reducible refine (foldl_fst_ctl (fun _ _ => ?_) _ _).trans ?_
    | (fail_if_no_progress with_reducible refine (ctl_upd _).trans ?_)
    | dsimp only
    | split

theorem execClockStop_ctl (c : Nat) (s : State) : keepsO s.ctl (execClockStop c s) := by
  unfold execClockStop
  repeat' first
    | with_reducible rfl
    | with_reducible refine keepsO_next ?_
    | with_reducible refine (State.setCore_ctl ..).trans ?_
    | (fail_if_no_progress with_reducible refine (ctl_upd _).trans ?_)
    | dsimp only
    | split

theorem execCoreWake_ctl (c : Nat) (s : State) : keepsO s.ctl (execCoreWake c s) := by
  unfold execCoreWake
  repeat' first
    | with_reducible rfl
    | with_reducible refine keepsO_next ?_
    | with_reducible refine (State.setCore_ctl ..).trans ?_
    | with_reducible refine (State.settleCore_ctl ..).trans ?_
    | (fail_if_no_progress with_reducible refine (ctl_upd _).trans ?_)
    | dsimp only
    | split

theorem execCoreGate_ctl (c : Nat) (s : State) : keepsO s.ctl (execCoreGate c s) := by
  unfold execCoreGate
  repeat' first
    | with_reducible rfl
    | with_reducible refine keepsO_next ?_
    | with_reducible refine (State.zeroProducers_ctl ..).trans ?_
    | with_reducible refine (State.modCore_ctl ..).trans ?_
    | (fail_if_no_progress with_reducible refine (ctl_upd _).trans ?_)
    | dsimp only
    | split

theorem execCorePowerUp_ctl (c : Nat) (s : State) : keepsO s.ctl (execCorePowerUp c s) := by
  unfold execCorePowerUp
  repeat' first
    | with_reducible rfl
    | with_reducible refine keepsO_next ?_
    | with_reducible refine (State.setCore_ctl ..).trans ?_
    | (fail_if_no_progress with_reducible refine (ctl_upd _).trans ?_)
    | dsimp only
    | split

theorem execRollCall_ctl (c : Nat) (s : State) : keepsO s.ctl (execRollCall c s) := by
  unfold execRollCall
  repeat' first
    | with_reducible rfl
    | with_reducible refine keepsO_next ?_
    | with_reducible refine (State.rollCallDone_ctl ..).trans ?_
    | with_reducible refine (State.endJobAccess_ctl ..).trans ?_
    | (fail_if_no_progress with_reducible refine (ctl_upd _).trans ?_)
    | dsimp only
    | split

theorem execStreamOccurrence_ctl (p st err : Nat) (s : State) : keepsO s.ctl (execStreamOccurrence p st err s) := by
  unfold execStreamOccurrence
  repeat' first
    | with_reducible rfl
    | with_reducible refine keepsO_next ?_
    | with_reducible refine (State.streamOccurrence_ctl ..).trans ?_

theorem execBlockDelivered_ctl (p st : Nat) (s : State) : keepsO s.ctl (execBlockDelivered p st s) := by
  unfold execBlockDelivered
  repeat' first
    | with_reducible rfl
    | with_reducible refine keepsO_next ?_
    | with_reducible refine (State.launch_ctl ..).trans ?_
    | with_reducible refine (State.modPart_ctl ..).trans ?_
    | with_reducible refine (State.kvBlockDone_ctl ..).trans ?_
    | with_reducible refine (State.settleCore_ctl ..).trans ?_
    | (fail_if_no_progress with_reducible refine (ctl_upd _).trans ?_)
    | dsimp only
    | split

theorem execCacheSlotOccurrence_ctl (sl : Nat) (s : State) : keepsO s.ctl (execCacheSlotOccurrence sl s) := by
  unfold execCacheSlotOccurrence
  repeat' first
    | with_reducible rfl
    | with_reducible refine keepsO_next ?_
    | with_reducible refine (State.cacheOccurs_ctl ..).trans ?_
    | (fail_if_no_progress with_reducible refine (ctl_upd _).trans ?_)
    | dsimp only
    | split

theorem execFillReady_ctl (sl a : Nat) (ev : HbmEvent) (s : State) : keepsO s.ctl (execFillReady sl a ev s) := by
  unfold execFillReady
  repeat' first
    | with_reducible rfl
    | with_reducible refine keepsO_next ?_
    | with_reducible refine (State.fillReady_ctl ..).trans ?_
    | with_reducible refine (State.setSlice_ctl ..).trans ?_
    | (fail_if_no_progress with_reducible refine (ctl_upd _).trans ?_)
    | dsimp only
    | split

theorem execFillInstall_ctl (sl : Nat) (s : State) : keepsO s.ctl (execFillInstall sl s) := by
  unfold execFillInstall
  repeat' first
    | with_reducible rfl
    | with_reducible refine keepsO_next ?_
    | with_reducible refine (State.settleSlice_ctl ..).trans ?_
    | with_reducible refine (State.setSlice_ctl ..).trans ?_
    | with_reducible refine (State.endJobAccess_ctl ..).trans ?_
    | (fail_if_no_progress with_reducible refine (ctl_upd _).trans ?_)
    | dsimp only
    | split

theorem execLineCopyDone_ctl (p pg : Nat) (s : State) : keepsO s.ctl (execLineCopyDone p pg s) := by
  unfold execLineCopyDone
  repeat' first
    | with_reducible rfl
    | with_reducible refine keepsO_next ?_
    | with_reducible refine (State.putLines_ctl ..).trans ?_
    | with_reducible refine (State.setPage_ctl ..).trans ?_
    | (fail_if_no_progress with_reducible refine (ctl_upd _).trans ?_)
    | dsimp only
    | split

theorem execMigrationInDone_ctl (p pg : Nat) (lines : Option (SMap HbmLine)) (s : State) : keepsO s.ctl (execMigrationInDone p pg lines s) := by
  unfold execMigrationInDone
  repeat' first
    | with_reducible rfl
    | with_reducible refine keepsO_next ?_
    | with_reducible refine (State.setPage_ctl ..).trans ?_
    | with_reducible refine (State.askIn_ctl ..).trans ?_
    | with_reducible refine (State.failIn_ctl ..).trans ?_
    | with_reducible refine (State.putLines_ctl ..).trans ?_
    | with_reducible refine (State.pageIn_ctl ..).trans ?_
    | (fail_if_no_progress with_reducible refine (ctl_upd _).trans ?_)
    | dsimp only
    | split

theorem execMigrationOutDone_ctl (p pg : Nat) (ok : Bool) (s : State) : keepsO s.ctl (execMigrationOutDone p pg ok s) := by
  unfold execMigrationOutDone
  repeat' first
    | with_reducible rfl
    | with_reducible refine keepsO_next ?_
    | with_reducible refine (State.pageOut_ctl ..).trans ?_
    | with_reducible refine (State.setPage_ctl ..).trans ?_
    | with_reducible refine (State.sendOut_ctl ..).trans ?_
    | with_reducible refine (State.failOut_ctl ..).trans ?_
    | (fail_if_no_progress with_reducible refine (ctl_upd _).trans ?_)
    | dsimp only
    | split

theorem execFarTransferTimeout_ctl (p pg : Nat) (s : State) : keepsO s.ctl (execFarTransferTimeout p pg s) := by
  unfold execFarTransferTimeout
  repeat' first
    | with_reducible rfl
    | with_reducible refine keepsO_next ?_
    | with_reducible refine (State.failIn_ctl ..).trans ?_
    | with_reducible refine (State.failOut_ctl ..).trans ?_
    | (fail_if_no_progress with_reducible refine (ctl_upd _).trans ?_)
    | dsimp only
    | split

theorem execPrefetch_ctl (p : Nat) (s : State) : keepsO s.ctl (execPrefetch p s) := by
  unfold execPrefetch
  repeat' first
    | with_reducible rfl
    | with_reducible refine keepsO_next ?_
    | with_reducible refine (State.modPart_ctl ..).trans ?_
    | with_reducible refine (FrameRes.ctl_got (State.startIn_ctl ..) (by assumption)).trans ?_
    | with_reducible refine (FrameRes.ctl_wait (State.startIn_ctl ..) (by assumption)).trans ?_
    | (fail_if_no_progress with_reducible refine (ctl_upd _).trans ?_)
    | dsimp only
    | split

theorem execWriteBack_ctl (sl : Nat) (s : State) : keepsO s.ctl (execWriteBack sl s) := by
  unfold execWriteBack
  repeat' first
    | with_reducible rfl
    | with_reducible refine keepsO_next ?_
    | with_reducible refine (State.writeBack_ctl ..).trans ?_
    | (fail_if_no_progress with_reducible refine (ctl_upd _).trans ?_)
    | dsimp only
    | split

theorem execSampleWrite_ctl (p : Nat) (rec : List Byte) (s : State) : keepsO s.ctl (execSampleWrite p rec s) := by
  unfold execSampleWrite
  repeat' first
    | with_reducible rfl
    | with_reducible refine keepsO_next ?_
    | with_reducible refine (State.settleIntake_ctl ..).trans ?_
    | with_reducible refine (State.writeFields_ctl ..).trans ?_
    | refine (fst_ctl (State.writeFields_ctl ..) (by assumption)).trans ?_
    | with_reducible refine (State.sampleDone_ctl ..).trans ?_
    | with_reducible refine (State.endJobAccess_ctl ..).trans ?_
    | with_reducible refine (State.stopIntake_ctl ..).trans ?_
    | (fail_if_no_progress with_reducible refine (ctl_upd _).trans ?_)
    | dsimp only
    | split

theorem execIntakeDmaFailure_ctl (p : Nat) (timeout : Bool) (s : State) : keepsO s.ctl (execIntakeDmaFailure p timeout s) := by
  unfold execIntakeDmaFailure
  repeat' first
    | with_reducible rfl
    | with_reducible refine keepsO_next ?_
    | with_reducible refine (State.endJobAccess_ctl ..).trans ?_
    | with_reducible refine (State.stopIntake_ctl ..).trans ?_
    | with_reducible refine (State.modPart_ctl ..).trans ?_
    | with_reducible refine (State.put_ctl ..).trans ?_
    | (fail_if_no_progress with_reducible refine (ctl_upd _).trans ?_)
    | dsimp only
    | split

theorem execSatchel_ctl (s : State) : keepsO s.ctl (execSatchel s) := by
  unfold execSatchel
  repeat' first
    | with_reducible rfl
    | with_reducible refine keepsO_next ?_
    | with_reducible refine (State.modPart_ctl ..).trans ?_
    | with_reducible refine (State.sendPacket_ctl ..).trans ?_
    | with_reducible refine (foldl_ctl (fun _ _ => ?_) _ _).trans ?_
    | with_reducible refine (foldl_fst_ctl (fun _ _ => ?_) _ _).trans ?_
    | (fail_if_no_progress with_reducible refine (ctl_upd _).trans ?_)
    | dsimp only
    | split

theorem execSatchelAck_ctl (s : State) : keepsO s.ctl (execSatchelAck s) := by
  unfold execSatchelAck
  repeat' first
    | with_reducible rfl
    | with_reducible refine keepsO_next ?_
    | with_reducible refine (State.ringRoot_ctl ..).trans ?_
    | (fail_if_no_progress with_reducible refine (ctl_upd _).trans ?_)
    | dsimp only
    | split

theorem execSatchelCommit_ctl (p : Nat) (s : State) : keepsO s.ctl (execSatchelCommit p s) := by
  unfold execSatchelCommit
  repeat' first
    | with_reducible rfl
    | with_reducible refine keepsO_next ?_
    | with_reducible refine (State.modPart_ctl ..).trans ?_
    | with_reducible refine (State.setPage_ctl ..).trans ?_
    | with_reducible refine (State.partEvent_ctl ..).trans ?_
    | with_reducible refine (foldl_ctl (fun _ _ => ?_) _ _).trans ?_
    | with_reducible refine (foldl_fst_ctl (fun _ _ => ?_) _ _).trans ?_
    | (fail_if_no_progress with_reducible refine (ctl_upd _).trans ?_)
    | dsimp only
    | split

theorem execSatchelCopyFailure_ctl (p : Nat) (s : State) : keepsO s.ctl (execSatchelCopyFailure p s) := by
  unfold execSatchelCopyFailure
  repeat' first
    | with_reducible rfl
    | with_reducible refine keepsO_next ?_
    | with_reducible refine (State.satchelFailed_ctl ..).trans ?_
    | (fail_if_no_progress with_reducible refine (ctl_upd _).trans ?_)
    | dsimp only
    | split

theorem execFarSatchelCommit_ctl (p : Nat) (s : State) : keepsO s.ctl (execFarSatchelCommit p s) := by
  unfold execFarSatchelCommit
  repeat' first
    | with_reducible rfl
    | with_reducible refine keepsO_next ?_
    | with_reducible refine (State.modPart_ctl ..).trans ?_
    | with_reducible refine (State.partEvent_ctl ..).trans ?_
    | (fail_if_no_progress with_reducible refine (ctl_upd _).trans ?_)
    | dsimp only
    | split

theorem execStepBoundary_ctl (p : Nat) (s : State) : keepsO s.ctl (execStepBoundary p s) := by
  unfold execStepBoundary
  repeat' first
    | with_reducible rfl
    | with_reducible refine keepsO_next ?_
    | with_reducible refine (State.sendPackets_ctl ..).trans ?_
    | with_reducible refine (State.sendOverflow_ctl ..).trans ?_
    | with_reducible refine (State.modPart_ctl ..).trans ?_
    | with_reducible refine (State.releaseKeep_ctl ..).trans ?_
    | with_reducible refine (State.markOld_ctl ..).trans ?_
    | with_reducible refine (State.satchelAt_ctl ..).trans ?_
    | with_reducible refine (State.handOver_ctl ..).trans ?_
    | with_reducible refine (State.afterBoundary_ctl ..).trans ?_
    | with_reducible refine (foldl_ctl (fun _ _ => ?_) _ _).trans ?_
    | with_reducible refine (foldl_fst_ctl (fun _ _ => ?_) _ _).trans ?_
    | (fail_if_no_progress with_reducible refine (ctl_upd _).trans ?_)
    | dsimp only
    | split

theorem execFlitTime_ctl (l : Nat) (s : State) : keepsO s.ctl (execFlitTime l s) := by
  unfold execFlitTime
  repeat' first
    | with_reducible rfl
    | with_reducible refine keepsO_next ?_
    | with_reducible refine (State.flitTime_ctl ..).trans ?_
    | (fail_if_no_progress with_reducible refine (ctl_upd _).trans ?_)
    | dsimp only
    | split

theorem execFrameSeal_ctl (l : Nat) (fr : RxFrame) (s : State) : keepsO s.ctl (execFrameSeal l fr s) := by
  unfold execFrameSeal
  repeat' first
    | with_reducible rfl
    | with_reducible refine keepsO_next ?_
    | with_reducible refine (State.modPort_ctl ..).trans ?_
    | with_reducible refine (State.oweFlits_ctl ..).trans ?_
    | with_reducible refine (State.frameGood_ctl ..).trans ?_
    | with_reducible refine (State.countOpen_ctl ..).trans ?_
    | with_reducible refine (State.report_ctl ..).trans ?_
    | with_reducible refine (State.endStep_ctl ..).trans ?_
    | with_reducible refine (foldl_ctl (fun _ _ => ?_) _ _).trans ?_
    | with_reducible refine (foldl_fst_ctl (fun _ _ => ?_) _ _).trans ?_
    | (fail_if_no_progress with_reducible refine (ctl_upd _).trans ?_)
    | dsimp only
    | split

theorem execBellFlit_ctl (l : Nat) (fl : RxBell) (s : State) : keepsO s.ctl (execBellFlit l fl s) := by
  unfold execBellFlit
  repeat' first
    | with_reducible rfl
    | with_reducible refine keepsO_next ?_
    | with_reducible refine (State.modPort_ctl ..).trans ?_
    | (fail_if_no_progress with_reducible refine (ctl_upd _).trans ?_)
    | dsimp only
    | split

theorem execBellResend_ctl (l : Nat) (s : State) : keepsO s.ctl (execBellResend l s) := by
  unfold execBellResend
  repeat' first
    | with_reducible rfl
    | with_reducible refine keepsO_next ?_
    | with_reducible refine (State.modPort_ctl ..).trans ?_
    | (fail_if_no_progress with_reducible refine (ctl_upd _).trans ?_)
    | dsimp only
    | split

theorem execPacketResend_ctl (l : Nat) (s : State) : keepsO s.ctl (execPacketResend l s) := by
  unfold execPacketResend
  repeat' first
    | with_reducible rfl
    | with_reducible refine keepsO_next ?_
    | with_reducible refine (State.modPort_ctl ..).trans ?_
    | (fail_if_no_progress with_reducible refine (ctl_upd _).trans ?_)
    | dsimp only
    | split

theorem execTimedFlitHandOn_ctl (l : Nat) (fl : TimedFlit) (s : State) : keepsO s.ctl (execTimedFlitHandOn l fl s) := by
  unfold execTimedFlitHandOn
  repeat' first
    | with_reducible rfl
    | with_reducible refine keepsO_next ?_
    | with_reducible refine (State.countHandOn_ctl ..).trans ?_
    | with_reducible refine (UnitRes.ctl_moved (State.handOn_ctl ..) (by assumption)).trans ?_
    | with_reducible refine (UnitRes.ctl_held (State.handOn_ctl ..) (by assumption)).trans ?_
    | with_reducible refine (UnitRes.ctl_ended (State.handOn_ctl ..) (by assumption)).trans ?_
    | with_reducible refine (State.ended_ctl ..).trans ?_
    | (fail_if_no_progress with_reducible refine (ctl_upd _).trans ?_)
    | dsimp only
    | split

theorem execEdgeRouterAddition_ctl (g : Nat) (fl : ReduceFlit) (s : State) : keepsO s.ctl (execEdgeRouterAddition g fl s) := by
  unfold execEdgeRouterAddition
  repeat' first
    | with_reducible rfl
    | with_reducible refine keepsO_next ?_
    | with_reducible refine (State.endStep_ctl ..).trans ?_
    | with_reducible refine (State.modPart_ctl ..).trans ?_
    | with_reducible refine (MemRes.ctl_ok (State.readMem_ctl ..) (by assumption)).trans ?_
    | with_reducible refine (MemRes.ctl_fail (State.readMem_ctl ..) (by assumption)).trans ?_
    | with_reducible refine (State.endJobAccess_ctl ..).trans ?_
    | with_reducible refine (UnitRes.ctl_moved (State.sumOn_ctl ..) (by assumption)).trans ?_
    | with_reducible refine (UnitRes.ctl_held (State.sumOn_ctl ..) (by assumption)).trans ?_
    | with_reducible refine (UnitRes.ctl_ended (State.sumOn_ctl ..) (by assumption)).trans ?_
    | with_reducible refine (State.countEdge_ctl ..).trans ?_
    | with_reducible refine (State.ended_ctl ..).trans ?_
    | (fail_if_no_progress with_reducible refine (ctl_upd _).trans ?_)
    | dsimp only
    | split

theorem execLaneFailure_ctl (l lane : Nat) (s : State) : keepsO s.ctl (execLaneFailure l lane s) := by
  unfold execLaneFailure
  repeat' first
    | with_reducible rfl
    | with_reducible refine keepsO_next ?_
    | with_reducible refine (State.laneFails_ctl ..).trans ?_

theorem execLaneRetrainDone_ctl (l : Nat) (ok : Bool) (s : State) : keepsO s.ctl (execLaneRetrainDone l ok s) := by
  unfold execLaneRetrainDone
  repeat' first
    | with_reducible rfl
    | with_reducible refine keepsO_next ?_
    | with_reducible refine (State.portUp_ctl ..).trans ?_
    | with_reducible refine (State.portDown_ctl ..).trans ?_
    | (fail_if_no_progress with_reducible refine (ctl_upd _).trans ?_)
    | dsimp only
    | split

theorem execRing_ctl (s : State) : keepsO s.ctl (execRing s) := by
  unfold execRing
  repeat' first
    | with_reducible rfl
    | with_reducible refine keepsO_next ?_
    | with_reducible refine (State.sendBells_ctl ..).trans ?_
    | with_reducible refine (State.rootRing_ctl ..).trans ?_
    | with_reducible refine (State.keepRing_ctl ..).trans ?_
    | (fail_if_no_progress with_reducible refine (ctl_upd _).trans ?_)
    | dsimp only
    | split

theorem execCount_ctl (s : State) : keepsO s.ctl (execCount s) := by
  unfold execCount
  repeat' first
    | with_reducible rfl
    | with_reducible refine keepsO_next ?_
    | with_reducible refine (State.setBell_ctl ..).trans ?_
    | with_reducible refine (State.sendBells_ctl ..).trans ?_
    | (fail_if_no_progress with_reducible refine (ctl_upd _).trans ?_)
    | dsimp only
    | split

theorem execFlag_ctl (s : State) : keepsO s.ctl (execFlag s) := by
  unfold execFlag
  repeat' first
    | with_reducible rfl
    | with_reducible refine keepsO_next ?_
    | with_reducible refine (State.modPart_ctl ..).trans ?_
    | with_reducible refine (State.tryVerdicts_ctl ..).trans ?_
    | (fail_if_no_progress with_reducible refine (ctl_upd _).trans ?_)
    | dsimp only
    | split

theorem execRung_ctl (s : State) : keepsO s.ctl (execRung s) := by
  unfold execRung
  repeat' first
    | with_reducible rfl
    | with_reducible refine keepsO_next ?_
    | with_reducible refine (State.sendBells_ctl ..).trans ?_
    | with_reducible refine (State.modPart_ctl ..).trans ?_
    | (fail_if_no_progress with_reducible refine (ctl_upd _).trans ?_)
    | dsimp only
    | split

theorem execRungAck_ctl (s : State) : keepsO s.ctl (execRungAck s) := by
  unfold execRungAck
  repeat' first
    | with_reducible rfl
    | with_reducible refine keepsO_next ?_
    | with_reducible refine (State.modPart_ctl ..).trans ?_
    | with_reducible refine (State.allVerdicts_ctl ..).trans ?_
    | (fail_if_no_progress with_reducible refine (ctl_upd _).trans ?_)
    | dsimp only
    | split

theorem execClip_ctl (s : State) : keepsO s.ctl (execClip s) := by
  unfold execClip
  repeat' first
    | with_reducible rfl
    | with_reducible refine keepsO_next ?_
    | with_reducible refine (State.sendBells_ctl ..).trans ?_
    | with_reducible refine (State.endStep_ctl ..).trans ?_
    | with_reducible refine (State.modPart_ctl ..).trans ?_
    | with_reducible refine (State.allVerdicts_ctl ..).trans ?_
    | (fail_if_no_progress with_reducible refine (ctl_upd _).trans ?_)
    | dsimp only
    | split

theorem execBeatBoundary_ctl (s : State) : keepsO s.ctl (execBeatBoundary s) := by
  unfold execBeatBoundary
  repeat' first
    | with_reducible rfl
    | with_reducible refine keepsO_next ?_
    | with_reducible refine (State.checkBeat_ctl ..).trans ?_
    | with_reducible refine (State.beats_ctl ..).trans ?_
    | with_reducible refine (State.probeSuspects_ctl ..).trans ?_
    | (fail_if_no_progress with_reducible refine (ctl_upd _).trans ?_)
    | dsimp only
    | split

theorem execLockPortDown_ctl (s : State) : keepsO s.ctl (execLockPortDown s) := by
  unfold execLockPortDown
  repeat' first
    | with_reducible rfl
    | with_reducible refine keepsO_next ?_
    | (fail_if_no_progress with_reducible refine (ctl_upd _).trans ?_)
    | dsimp only
    | split

theorem execLockPortReturn_ctl (s : State) : keepsO s.ctl (execLockPortReturn s) := by
  unfold execLockPortReturn
  repeat' first
    | with_reducible rfl
    | with_reducible refine keepsO_next ?_
    | (fail_if_no_progress with_reducible refine (ctl_upd _).trans ?_)
    | dsimp only
    | split

theorem execHoldoverExpiry_ctl (s : State) : keepsO s.ctl (execHoldoverExpiry s) := by
  unfold execHoldoverExpiry
  repeat' first
    | with_reducible rfl
    | with_reducible refine keepsO_next ?_
    | with_reducible refine (State.report_ctl ..).trans ?_
    | with_reducible refine (State.endStep_ctl ..).trans ?_
    | with_reducible refine (foldl_ctl (fun _ _ => ?_) _ _).trans ?_
    | with_reducible refine (foldl_fst_ctl (fun _ _ => ?_) _ _).trans ?_
    | (fail_if_no_progress with_reducible refine (ctl_upd _).trans ?_)
    | dsimp only
    | split

theorem execHeartbeat_ctl (s : State) : keepsO s.ctl (execHeartbeat s) := by
  unfold execHeartbeat
  repeat' first
    | with_reducible rfl
    | with_reducible refine keepsO_next ?_
    | (fail_if_no_progress with_reducible refine (ctl_upd _).trans ?_)
    | dsimp only
    | split

theorem execMissing_ctl (s : State) : keepsO s.ctl (execMissing s) := by
  unfold execMissing
  repeat' first
    | with_reducible rfl
    | with_reducible refine keepsO_next ?_
    | with_reducible refine (State.takeOver_ctl ..).trans ?_
    | with_reducible refine (State.takeOverHead_ctl ..).trans ?_
    | (fail_if_no_progress with_reducible refine (ctl_upd _).trans ?_)
    | dsimp only
    | split

theorem execHeartbeatLost_ctl (s : State) : keepsO s.ctl (execHeartbeatLost s) := by
  unfold execHeartbeatLost
  repeat' first
    | with_reducible rfl
    | with_reducible refine keepsO_next ?_
    | with_reducible refine (State.headLost_ctl ..).trans ?_
    | with_reducible refine (State.takeOver_ctl ..).trans ?_
    | with_reducible refine (State.sendBell_ctl ..).trans ?_
    | (fail_if_no_progress with_reducible refine (ctl_upd _).trans ?_)
    | dsimp only
    | split

theorem execTakeover_ctl (s : State) : keepsO s.ctl (execTakeover s) := by
  unfold execTakeover
  repeat' first
    | with_reducible rfl
    | with_reducible refine keepsO_next ?_
    | with_reducible refine (State.newPrefect_ctl ..).trans ?_
    | with_reducible refine (State.newHead_ctl ..).trans ?_
    | (fail_if_no_progress with_reducible refine (ctl_upd _).trans ?_)
    | dsimp only
    | split

theorem execFarRead_ctl (s : State) : keepsO s.ctl (execFarRead s) := by
  unfold execFarRead
  repeat' first
    | with_reducible rfl
    | with_reducible refine keepsO_next ?_
    | with_reducible refine (State.queuePacket_ctl ..).trans ?_
    | (fail_if_no_progress with_reducible refine (ctl_upd _).trans ?_)
    | dsimp only
    | split

theorem execFarWrite_ctl (s : State) : keepsO s.ctl (execFarWrite s) := by
  unfold execFarWrite
  repeat' first
    | with_reducible rfl
    | with_reducible refine keepsO_next ?_
    | with_reducible refine (State.queuePacket_ctl ..).trans ?_
    | with_reducible refine (State.frameForWrite_ctl ..).trans ?_
    | with_reducible refine (fst_ctl (State.frameForWrite_ctl ..) (by assumption)).trans ?_
    | with_reducible refine (State.putLines_ctl ..).trans ?_
    | with_reducible refine (State.modPart_ctl ..).trans ?_
    | (fail_if_no_progress with_reducible refine (ctl_upd _).trans ?_)
    | dsimp only
    | split

theorem execFarData_ctl (s : State) : keepsO s.ctl (execFarData s) := by
  unfold execFarData
  repeat' first
    | with_reducible rfl
    | with_reducible refine keepsO_next ?_
    | with_reducible refine (State.farAnswerFails_ctl ..).trans ?_
    | with_reducible refine (State.putLines_ctl ..).trans ?_
    | with_reducible refine (State.setPage_ctl ..).trans ?_
    | (fail_if_no_progress with_reducible refine (ctl_upd _).trans ?_)
    | dsimp only
    | split

theorem execFarAck_ctl (s : State) : keepsO s.ctl (execFarAck s) := by
  unfold execFarAck
  repeat' first
    | with_reducible rfl
    | with_reducible refine keepsO_next ?_
    | with_reducible refine (State.farAnswerFails_ctl ..).trans ?_
    | with_reducible refine (State.setPage_ctl ..).trans ?_
    | (fail_if_no_progress with_reducible refine (ctl_upd _).trans ?_)
    | dsimp only
    | split

theorem execNormPacket_ctl (s : State) : keepsO s.ctl (execNormPacket s) := by
  unfold execNormPacket
  repeat' first
    | with_reducible rfl
    | with_reducible refine keepsO_next ?_
    | with_reducible refine (State.postNorms_ctl ..).trans ?_
    | with_reducible refine (State.passPackets_ctl ..).trans ?_
    | with_reducible refine (State.normsIn_ctl ..).trans ?_
    | (fail_if_no_progress with_reducible refine (ctl_upd _).trans ?_)
    | dsimp only
    | split

theorem execFormControlProbe_ctl (s : State) : keepsO s.ctl (execFormControlProbe s) := by
  unfold execFormControlProbe
  repeat' first
    | with_reducible rfl
    | with_reducible refine keepsO_next ?_
    | with_reducible refine (State.sendPacket_ctl ..).trans ?_
    | (fail_if_no_progress with_reducible refine (ctl_upd _).trans ?_)
    | dsimp only
    | split

theorem execDataPositionReport_ctl (s : State) : keepsO s.ctl (execDataPositionReport s) := by
  unfold execDataPositionReport
  repeat' first
    | with_reducible rfl
    | with_reducible refine keepsO_next ?_
    | (fail_if_no_progress with_reducible refine (ctl_upd _).trans ?_)
    | dsimp only
    | split

theorem execAbsenceNote_ctl (s : State) : keepsO s.ctl (execAbsenceNote s) := by
  unfold execAbsenceNote
  repeat' first
    | with_reducible rfl
    | with_reducible refine keepsO_next ?_
    | with_reducible refine (State.headNoteIn_ctl ..).trans ?_
    | with_reducible refine (State.noteIn_ctl ..).trans ?_
    | (fail_if_no_progress with_reducible refine (ctl_upd _).trans ?_)
    | dsimp only
    | split

theorem execNoteWindowBoundary_ctl (s : State) : keepsO s.ctl (execNoteWindowBoundary s) := by
  unfold execNoteWindowBoundary
  repeat' first
    | with_reducible rfl
    | with_reducible refine keepsO_next ?_
    | with_reducible refine (State.windowNote_ctl ..).trans ?_
    | with_reducible refine (State.sendReport_ctl ..).trans ?_
    | with_reducible refine (foldl_ctl (fun _ _ => ?_) _ _).trans ?_
    | with_reducible refine (foldl_fst_ctl (fun _ _ => ?_) _ _).trans ?_
    | (fail_if_no_progress with_reducible refine (ctl_upd _).trans ?_)
    | dsimp only
    | split

theorem execMemberAbsent_ctl (dev : Nat) (s : State) : keepsO s.ctl (execMemberAbsent dev s) := by
  unfold execMemberAbsent
  repeat' first
    | with_reducible rfl
    | with_reducible refine keepsO_next ?_
    | with_reducible refine (State.declareAbsent_ctl ..).trans ?_
    | (fail_if_no_progress with_reducible refine (ctl_upd _).trans ?_)
    | dsimp only
    | split

theorem execHold_ctl (s : State) : keepsO s.ctl (execHold s) := by
  unfold execHold
  repeat' first
    | with_reducible rfl
    | with_reducible refine keepsO_next ?_
    | with_reducible refine (State.sendPackets_ctl ..).trans ?_
    | with_reducible refine (State.holdSteps_ctl ..).trans ?_
    | with_reducible refine (State.autoFill_ctl ..).trans ?_
    | (fail_if_no_progress with_reducible refine (ctl_upd _).trans ?_)
    | dsimp only
    | split

theorem execCoreSiteFence_ctl (x : Nat) (cause : FenceCause) (s : State) : keepsO s.ctl (execCoreSiteFence x cause s) := by
  unfold execCoreSiteFence
  repeat' first
    | with_reducible rfl
    | with_reducible refine keepsO_next ?_
    | with_reducible refine (State.fenceSite_ctl ..).trans ?_
    | (fail_if_no_progress with_reducible refine (ctl_upd _).trans ?_)
    | dsimp only
    | split

theorem execRollCallTimeout_ctl (c : Nat) (s : State) : keepsO s.ctl (execRollCallTimeout c s) := by
  unfold execRollCallTimeout
  repeat' first
    | with_reducible rfl
    | with_reducible refine keepsO_next ?_
    | with_reducible refine (State.fenceSite_ctl ..).trans ?_
    | (fail_if_no_progress with_reducible refine (ctl_upd _).trans ?_)
    | dsimp only
    | split

theorem execRouterProbe_ctl (x : Nat) (answered : Bool) (s : State) : keepsO s.ctl (execRouterProbe x answered s) := by
  unfold execRouterProbe
  repeat' first
    | with_reducible rfl
    | with_reducible refine keepsO_next ?_
    | with_reducible refine (State.dutyStep_ctl ..).trans ?_
    | with_reducible refine (State.modSite_ctl ..).trans ?_
    | with_reducible refine (State.bypassRouter_ctl ..).trans ?_
    | with_reducible refine (State.dutyEvent_ctl ..).trans ?_
    | (fail_if_no_progress with_reducible refine (ctl_upd _).trans ?_)
    | dsimp only
    | split

theorem execRouterParityFailure_ctl (x : Nat) (s : State) : keepsO s.ctl (execRouterParityFailure x s) := by
  unfold execRouterParityFailure
  repeat' first
    | with_reducible rfl
    | with_reducible refine keepsO_next ?_
    | with_reducible refine (State.bypassRouter_ctl ..).trans ?_

theorem execSiteRetest_ctl (x : Nat) (pass : Bool) (s : State) : keepsO s.ctl (execSiteRetest x pass s) := by
  unfold execSiteRetest
  repeat' first
    | with_reducible rfl
    | with_reducible refine keepsO_next ?_
    | with_reducible refine (State.dutyStep_ctl ..).trans ?_
    | with_reducible refine (State.fenceSite_ctl ..).trans ?_
    | with_reducible refine (State.dutyEvent_ctl ..).trans ?_
    | (fail_if_no_progress with_reducible refine (ctl_upd _).trans ?_)
    | dsimp only
    | split

theorem execAttentionPipeCheck_ctl (x : Nat) (same : Bool) (cache : Bool) (s : State) : keepsO s.ctl (execAttentionPipeCheck x same cache s) := by
  unfold execAttentionPipeCheck
  repeat' first
    | with_reducible rfl
    | with_reducible refine keepsO_next ?_
    | with_reducible refine (State.powerForCheck_ctl ..).trans ?_
    | with_reducible refine (State.dutyStep_ctl ..).trans ?_
    | with_reducible refine (State.attnCheck_ctl ..).trans ?_
    | with_reducible refine (State.dutyEvent_ctl ..).trans ?_
    | (fail_if_no_progress with_reducible refine (ctl_upd _).trans ?_)
    | dsimp only
    | split

theorem execRowRepair_ctl (h : Nat) (pc : Nat) (bank : Nat) (row : Nat) (s : State) : keepsO s.ctl (execRowRepair h pc bank row s) := by
  unfold execRowRepair
  repeat' first
    | with_reducible rfl
    | with_reducible refine keepsO_next ?_
    | with_reducible refine (State.setStack_ctl ..).trans ?_
    | with_reducible refine (State.addRepair_ctl ..).trans ?_
    | with_reducible refine (State.report_ctl ..).trans ?_
    | with_reducible refine (foldl_ctl (fun _ _ => ?_) _ _).trans ?_
    | with_reducible refine (foldl_fst_ctl (fun _ _ => ?_) _ _).trans ?_
    | (fail_if_no_progress with_reducible refine (ctl_upd _).trans ?_)
    | dsimp only
    | split

theorem execPseudoChannelSparing_ctl (h : Nat) (pc : Nat) (s : State) : keepsO s.ctl (execPseudoChannelSparing h pc s) := by
  unfold execPseudoChannelSparing
  repeat' first
    | with_reducible rfl
    | with_reducible refine keepsO_next ?_
    | with_reducible refine (State.spareChannel_ctl ..).trans ?_
    | (fail_if_no_progress with_reducible refine (ctl_upd _).trans ?_)
    | dsimp only
    | split

theorem execSpareCopyComplete_ctl (h : Nat) (s : State) : keepsO s.ctl (execSpareCopyComplete h s) := by
  unfold execSpareCopyComplete
  repeat' first
    | with_reducible rfl
    | with_reducible refine keepsO_next ?_
    | with_reducible refine (State.setStack_ctl ..).trans ?_
    | with_reducible refine (State.addRepair_ctl ..).trans ?_
    | (fail_if_no_progress with_reducible refine (ctl_upd _).trans ?_)
    | dsimp only
    | split

theorem execPseudoChannelUnresponsive_ctl (h : Nat) (pc : Nat) (s : State) : keepsO s.ctl (execPseudoChannelUnresponsive h pc s) := by
  unfold execPseudoChannelUnresponsive
  repeat' first
    | with_reducible rfl
    | with_reducible refine keepsO_next ?_
    | with_reducible refine (State.fenceStack_ctl ..).trans ?_
    | (fail_if_no_progress with_reducible refine (ctl_upd _).trans ?_)
    | dsimp only
    | split

theorem execHbmScrub_ctl (h : Nat) (line : Nat) (ev : HbmEvent) (s : State) : keepsO s.ctl (execHbmScrub h line ev s) := by
  unfold execHbmScrub
  repeat' first
    | with_reducible rfl
    | with_reducible refine keepsO_next ?_
    | with_reducible refine (State.setStack_ctl ..).trans ?_
    | with_reducible refine (State.modStack_ctl ..).trans ?_
    | with_reducible refine (State.scrubLine_ctl ..).trans ?_
    | with_reducible refine (State.dutyEvent_ctl ..).trans ?_
    | with_reducible refine (State.modDuty_ctl ..).trans ?_
    | (fail_if_no_progress with_reducible refine (ctl_upd _).trans ?_)
    | dsimp only
    | split

theorem execSramScrub_ctl (target : Sram) (err : Nat) (s : State) : keepsO s.ctl (execSramScrub target err s) := by
  unfold execSramScrub
  repeat' first
    | with_reducible rfl
    | with_reducible refine keepsO_next ?_
    | with_reducible refine (State.dutyStep_ctl ..).trans ?_
    | with_reducible refine (State.modSite_ctl ..).trans ?_
    | with_reducible refine (State.dutyEvent_ctl ..).trans ?_
    | with_reducible refine (State.fenceSite_ctl ..).trans ?_
    | with_reducible refine (State.modSlice_ctl ..).trans ?_
    | with_reducible refine (State.scrubLine_ctl ..).trans ?_
    | (fail_if_no_progress with_reducible refine (ctl_upd _).trans ?_)
    | dsimp only
    | split

theorem execScrubWindowEnd_ctl (hbm : Bool) (s : State) : keepsO s.ctl (execScrubWindowEnd hbm s) := by
  unfold execScrubWindowEnd
  repeat' first
    | with_reducible rfl
    | with_reducible refine keepsO_next ?_
    | with_reducible refine (State.modDuty_ctl ..).trans ?_
    | with_reducible refine (foldl_ctl (fun _ _ => ?_) _ _).trans ?_
    | with_reducible refine (foldl_fst_ctl (fun _ _ => ?_) _ _).trans ?_
    | (fail_if_no_progress with_reducible refine (ctl_upd _).trans ?_)
    | dsimp only
    | split

theorem execHbmInterfaceRetraining_ctl (h : Nat) (pc : Nat) (ok : Bool) (s : State) : keepsO s.ctl (execHbmInterfaceRetraining h pc ok s) := by
  unfold execHbmInterfaceRetraining
  repeat' first
    | with_reducible rfl
    | with_reducible refine keepsO_next ?_
    | with_reducible refine (State.modStack_ctl ..).trans ?_
    | with_reducible refine (State.dutyEvent_ctl ..).trans ?_
    | with_reducible refine (State.modDuty_ctl ..).trans ?_
    | with_reducible refine (State.spareChannel_ctl ..).trans ?_
    | (fail_if_no_progress with_reducible refine (ctl_upd _).trans ?_)
    | dsimp only
    | split

theorem execOpticalRecalibration_ctl (l : Nat) (lane : Nat) (converged : Bool) (s : State) : keepsO s.ctl (execOpticalRecalibration l lane converged s) := by
  unfold execOpticalRecalibration
  repeat' first
    | with_reducible rfl
    | with_reducible refine keepsO_next ?_
    | with_reducible refine (State.dutyStep_ctl ..).trans ?_
    | with_reducible refine (State.modPort_ctl ..).trans ?_
    | with_reducible refine (State.dutyEvent_ctl ..).trans ?_
    | with_reducible refine (State.laneFails_ctl ..).trans ?_
    | (fail_if_no_progress with_reducible refine (ctl_upd _).trans ?_)
    | dsimp only
    | split

theorem execLaserAgeing_ctl (cart : Nat) (bias : Nat) (s : State) : keepsO s.ctl (execLaserAgeing cart bias s) := by
  unfold execLaserAgeing
  repeat' first
    | with_reducible rfl
    | with_reducible refine keepsO_next ?_
    | with_reducible refine (State.dutyStep_ctl ..).trans ?_
    | with_reducible refine (State.dutyEvent_ctl ..).trans ?_
    | with_reducible refine (State.report_ctl ..).trans ?_
    | (fail_if_no_progress with_reducible refine (ctl_upd _).trans ?_)
    | dsimp only
    | split

theorem execThermalSensorCalibration_ctl (sensor : Nat) (offset : Int) (s : State) : keepsO s.ctl (execThermalSensorCalibration sensor offset s) := by
  unfold execThermalSensorCalibration
  repeat' first
    | with_reducible rfl
    | with_reducible refine keepsO_next ?_
    | with_reducible refine (State.dutyStep_ctl ..).trans ?_
    | with_reducible refine (State.dutyEvent_ctl ..).trans ?_
    | (fail_if_no_progress with_reducible refine (ctl_upd _).trans ?_)
    | dsimp only
    | split

theorem execFlashWearLevelling_ctl (s : State) : keepsO s.ctl (execFlashWearLevelling s) := by
  unfold execFlashWearLevelling
  repeat' first
    | with_reducible rfl
    | with_reducible refine keepsO_next ?_
    | with_reducible refine (State.modDuty_ctl ..).trans ?_
    | (fail_if_no_progress with_reducible refine (ctl_upd _).trans ?_)
    | dsimp only
    | split

theorem execEngineCurrentLimit_ctl (grp : Nat) (hot : Bool) (s : State) : keepsO s.ctl (execEngineCurrentLimit grp hot s) := by
  unfold execEngineCurrentLimit
  repeat' first
    | with_reducible rfl
    | with_reducible refine keepsO_next ?_
    | (fail_if_no_progress with_reducible refine (ctl_upd _).trans ?_)
    | dsimp only
    | split

theorem execBlockWake_ctl (b : Block) (s : State) : keepsO s.ctl (execBlockWake b s) := by
  unfold execBlockWake
  repeat' first
    | with_reducible rfl
    | with_reducible refine keepsO_next ?_
    | with_reducible refine (State.modPart_ctl ..).trans ?_
    | with_reducible refine (State.modSlice_ctl ..).trans ?_
    | with_reducible refine (State.modStack_ctl ..).trans ?_
    | with_reducible refine (State.wakePort_ctl ..).trans ?_
    | (fail_if_no_progress with_reducible refine (ctl_upd _).trans ?_)
    | dsimp only
    | split
    | (fail_if_no_progress refine (ctl_upd2 _ ⟨rfl, rfl, rfl, rfl, rfl, rfl, rfl, rfl, rfl, rfl, rfl, rfl, rfl, rfl, rfl⟩).trans ?_)

theorem execPortPark_ctl (l : Nat) (s : State) : keepsO s.ctl (execPortPark l s) := by
  unfold execPortPark
  repeat' first
    | with_reducible rfl
    | with_reducible refine keepsO_next ?_
    | with_reducible refine (State.modPort_ctl ..).trans ?_
    | with_reducible refine (State.sendPacket_ctl ..).trans ?_
    | (fail_if_no_progress with_reducible refine (ctl_upd _).trans ?_)
    | dsimp only
    | split

theorem execSqTailDoorbell_ctl (f : Nat) (r : Nat) (idx : Nat) (descs : List ((Option (BitVec 512)) × Dma)) (s : State) : keepsO s.ctl (execSqTailDoorbell f r idx descs s) := by
  unfold execSqTailDoorbell
  repeat' first
    | with_reducible rfl
    | with_reducible refine keepsO_next ?_
    | with_reducible refine (State.sqTailTo_ctl ..).trans ?_
    | (fail_if_no_progress with_reducible refine (ctl_upd _).trans ?_)
    | dsimp only
    | split

theorem execCqHeadDoorbell_ctl (f : Nat) (r : Nat) (idx : Nat) (s : State) : keepsO s.ctl (execCqHeadDoorbell f r idx s) := by
  unfold execCqHeadDoorbell
  repeat' first
    | with_reducible rfl
    | with_reducible refine keepsO_next ?_
    | with_reducible refine (State.headTo_ctl ..).trans ?_
    | (fail_if_no_progress with_reducible refine (ctl_upd _).trans ?_)
    | dsimp only
    | split

theorem execEventHeadDoorbell_ctl (f : Nat) (r : Nat) (idx : Nat) (s : State) : keepsO s.ctl (execEventHeadDoorbell f r idx s) := by
  unfold execEventHeadDoorbell
  repeat' first
    | with_reducible rfl
    | with_reducible refine keepsO_next ?_
    | with_reducible refine (State.headTo_ctl ..).trans ?_
    | (fail_if_no_progress with_reducible refine (ctl_upd _).trans ?_)
    | dsimp only
    | split

theorem execRingEnable_ctl (f : Nat) (v : W32) (s : State) : keepsO s.ctl (execRingEnable f v s) := by
  unfold execRingEnable
  repeat' first
    | with_reducible rfl
    | with_reducible refine keepsO_next ?_
    | with_reducible refine (State.ringConfig_ctl ..).trans ?_
    | (fail_if_no_progress with_reducible refine (ctl_upd _).trans ?_)
    | dsimp only
    | split

theorem execRingDisable_ctl (f : Nat) (v : W32) (s : State) : keepsO s.ctl (execRingDisable f v s) := by
  unfold execRingDisable
  repeat' first
    | with_reducible rfl
    | with_reducible refine keepsO_next ?_
    | with_reducible refine (State.ringConfig_ctl ..).trans ?_
    | (fail_if_no_progress with_reducible refine (ctl_upd _).trans ?_)
    | dsimp only
    | split

theorem execPendingTimeout_ctl (r : Nat) (t : Nat) (s : State) : keepsO s.ctl (execPendingTimeout r t s) := by
  unfold execPendingTimeout
  repeat' first
    | with_reducible rfl
    | with_reducible refine keepsO_next ?_
    | with_reducible refine (State.queueCompletion_ctl ..).trans ?_
    | with_reducible refine (State.modRing_ctl ..).trans ?_
    | (fail_if_no_progress with_reducible refine (ctl_upd _).trans ?_)
    | dsimp only
    | split

theorem execCounterReadClear_ctl (f : Nat) (reg : Reg) (same : Nat) (whole : Bool) (s : State) : keepsO s.ctl (execCounterReadClear f reg same whole s) := by
  unfold execCounterReadClear
  repeat' first
    | with_reducible rfl
    | with_reducible refine keepsO_next ?_
    | with_reducible refine (State.put_ctl ..).trans ?_
    | with_reducible refine (State.putCounter_ctl ..).trans ?_
    | with_reducible refine (State.touchLink_ctl ..).trans ?_
    | (fail_if_no_progress with_reducible refine (ctl_upd _).trans ?_)
    | dsimp only
    | split

theorem execLowHalfRead_ctl (f : Nat) (reg : Reg) (whole : Bool) (s : State) : keepsO s.ctl (execLowHalfRead f reg whole s) := by
  unfold execLowHalfRead
  repeat' first
    | with_reducible rfl
    | with_reducible refine keepsO_next ?_
    | with_reducible refine (State.put_ctl ..).trans ?_
    | with_reducible refine (State.touchLink_ctl ..).trans ?_
    | with_reducible refine (State.modFn_ctl ..).trans ?_
    | (fail_if_no_progress with_reducible refine (ctl_upd _).trans ?_)
    | dsimp only
    | split

theorem execIntCauseClear_ctl (f : Nat) (w : W32) (same : BitVec 16) (s : State) : keepsO s.ctl (execIntCauseClear f w same s) := by
  unfold execIntCauseClear
  repeat' first
    | with_reducible rfl
    | with_reducible refine keepsO_next ?_
    | with_reducible refine (State.clearCause_ctl ..).trans ?_
    | with_reducible refine (State.touchLink_ctl ..).trans ?_
    | (fail_if_no_progress with_reducible refine (ctl_upd _).trans ?_)
    | dsimp only
    | split

theorem execIntMaskWrite_ctl (f : Nat) (w : W32) (s : State) : keepsO s.ctl (execIntMaskWrite f w s) := by
  unfold execIntMaskWrite
  repeat' first
    | with_reducible rfl
    | with_reducible refine keepsO_next ?_
    | with_reducible refine (State.writeMask_ctl ..).trans ?_
    | with_reducible refine (State.touchLink_ctl ..).trans ?_
    | (fail_if_no_progress with_reducible refine (ctl_upd _).trans ?_)
    | dsimp only
    | split

theorem execHoldoffExpiry_ctl (f : Nat) (v : Nat) (s : State) : keepsO s.ctl (execHoldoffExpiry f v s) := by
  unfold execHoldoffExpiry
  repeat' first
    | with_reducible rfl
    | with_reducible refine keepsO_next ?_
    | with_reducible refine (State.setFn_ctl ..).trans ?_
    | with_reducible refine (State.message_ctl ..).trans ?_
    | (fail_if_no_progress with_reducible refine (ctl_upd _).trans ?_)
    | dsimp only
    | split

theorem execIntakeAppend_ctl (f : Nat) (k : Nat) (w : W32) (s : State) : keepsO s.ctl (execIntakeAppend f k w s) := by
  unfold execIntakeAppend
  repeat' first
    | with_reducible rfl
    | with_reducible refine keepsO_next ?_
    | with_reducible refine (State.intakeAppend_ctl ..).trans ?_
    | with_reducible refine (State.touchLink_ctl ..).trans ?_
    | (fail_if_no_progress with_reducible refine (ctl_upd _).trans ?_)
    | dsimp only
    | split

theorem execRegisterWrite_ctl (f : Nat) (reg : Reg) (w : W32) (whole : Bool) (descs : List ((Option (BitVec 512)) × Dma)) (s : State) : keepsO s.ctl (execRegisterWrite f reg w whole descs s) := by
  unfold execRegisterWrite
  repeat' first
    | with_reducible rfl
    | with_reducible refine keepsO_next ?_
    | with_reducible refine (State.writeReg_ctl ..).trans ?_
    | with_reducible refine (State.touchLink_ctl ..).trans ?_
    | (fail_if_no_progress with_reducible refine (ctl_upd _).trans ?_)
    | dsimp only
    | split

theorem execApertureRead_ctl (f : Nat) (off : Nat) (len : Nat) (s : State) : keepsO s.ctl (execApertureRead f off len s) := by
  unfold execApertureRead
  repeat' first
    | with_reducible rfl
    | with_reducible refine keepsO_next ?_
    | with_reducible refine (State.touchLink_ctl ..).trans ?_
    | with_reducible refine (State.put_ctl ..).trans ?_
    | with_reducible refine (State.ownerDrop_ctl ..).trans ?_
    | with_reducible refine (State.apFail_ctl ..).trans ?_
    | with_reducible refine (MemRes.ctl_ok (State.readMem_ctl ..) (by assumption)).trans ?_
    | with_reducible refine (MemRes.ctl_fail (State.readMem_ctl ..) (by assumption)).trans ?_
    | (fail_if_no_progress with_reducible refine (ctl_upd _).trans ?_)
    | dsimp only
    | split

theorem execApertureWrite_ctl (f : Nat) (off : Nat) (bytes : List Byte) (s : State) : keepsO s.ctl (execApertureWrite f off bytes s) := by
  unfold execApertureWrite
  repeat' first
    | with_reducible rfl
    | with_reducible refine keepsO_next ?_
    | with_reducible refine (State.touchLink_ctl ..).trans ?_
    | with_reducible refine (State.ownerDrop_ctl ..).trans ?_
    | with_reducible refine (State.apFail_ctl ..).trans ?_
    | with_reducible refine (MemRes.ctl_ok (State.readMem_ctl ..) (by assumption)).trans ?_
    | with_reducible refine (MemRes.ctl_fail (State.readMem_ctl ..) (by assumption)).trans ?_
    | with_reducible refine (State.writeMem_ctl ..).trans ?_
    | with_reducible refine (fst_ctl (State.writeMem_ctl ..) (by assumption)).trans ?_
    | with_reducible refine (State.put_ctl ..).trans ?_
    | (fail_if_no_progress with_reducible refine (ctl_upd _).trans ?_)
    | dsimp only
    | split

theorem execFunctionLevelReset_ctl (f : Nat) (s : State) : keepsO s.ctl (execFunctionLevelReset f s) := by
  unfold execFunctionLevelReset
  repeat' first
    | with_reducible rfl
    | with_reducible refine keepsO_next ?_
    | with_reducible refine (State.flr_ctl ..).trans ?_
    | with_reducible refine (State.settleRings_ctl ..).trans ?_

theorem execHotReset_ctl (s : State) : keepsO s.ctl (execHotReset s) := by
  unfold execHotReset
  repeat' first
    | with_reducible rfl
    | with_reducible refine keepsO_next ?_
    | with_reducible refine (State.flrAll_ctl ..).trans ?_
    | with_reducible refine (State.settleRings_ctl ..).trans ?_

theorem execDlDown_ctl (s : State) : keepsO s.ctl (execDlDown s) := by
  unfold execDlDown
  refine keepsO_next ((State.settleRings_ctl _).trans ?_)
  have h : s.flrAll.ctl = s.ctl := State.flrAll_ctl ..
  generalize s.flrAll = t at h ⊢
  exact Eq.trans rfl h

theorem execNumvfsClear_ctl (s : State) : keepsO s.ctl (execNumvfsClear s) := by
  unfold execNumvfsClear
  extract_lets t1 t2
  have h1 : t1.ctl = s.ctl := State.flrAll_ctl ..
  clear_value t1
  have h2 : t2.ctl = s.ctl := (foldl_ctl (fun _ _ => ctl_ite (State.modFn_ctl ..) rfl) _ _).trans h1
  clear_value t2
  exact keepsO_next ((State.settleRings_ctl _).trans (Eq.trans rfl h2))

theorem execDlUp_ctl (s : State) : keepsO s.ctl (execDlUp s) := by
  unfold execDlUp
  repeat' first
    | with_reducible rfl
    | with_reducible refine keepsO_next ?_
    | with_reducible refine (State.sendHeld_ctl ..).trans ?_
    | with_reducible refine (foldl_ctl (fun _ _ => ?_) _ _).trans ?_
    | with_reducible refine (foldl_fst_ctl (fun _ _ => ?_) _ _).trans ?_
    | (fail_if_no_progress with_reducible refine (ctl_upd _).trans ?_)
    | dsimp only
    | split
    | (fail_if_no_progress refine (ctl_upd2 _ ⟨rfl, rfl, rfl, rfl, rfl, rfl, rfl, rfl, rfl, rfl, rfl, rfl, rfl, rfl, rfl⟩).trans ?_)

theorem execVfEnable_ctl (f : Nat) (s : State) : keepsO s.ctl (execVfEnable f s) := by
  unfold execVfEnable
  repeat' first
    | with_reducible rfl
    | with_reducible refine keepsO_next ?_
    | with_reducible refine (State.modFn_ctl ..).trans ?_
    | (fail_if_no_progress with_reducible refine (ctl_upd _).trans ?_)
    | dsimp only
    | split
    | (fail_if_no_progress refine (ctl_upd2 _ ⟨rfl, rfl, rfl, rfl, rfl, rfl, rfl, rfl, rfl, rfl, rfl, rfl, rfl, rfl, rfl⟩).trans ?_)

theorem execBarChange_ctl (f : Nat) (bar4 : Nat) (s : State) : keepsO s.ctl (execBarChange f bar4 s) := by
  unfold execBarChange
  repeat' first
    | with_reducible rfl
    | with_reducible refine keepsO_next ?_
    | with_reducible refine (State.tdiError_ctl ..).trans ?_
    | with_reducible refine (State.modFn_ctl ..).trans ?_
    | (fail_if_no_progress with_reducible refine (ctl_upd _).trans ?_)
    | dsimp only
    | split

theorem execIdeFailure_ctl (f : Nat) (s : State) : keepsO s.ctl (execIdeFailure f s) := by
  unfold execIdeFailure
  repeat' first
    | with_reducible rfl
    | with_reducible refine keepsO_next ?_
    | with_reducible refine (State.modFn_ctl ..).trans ?_
    | with_reducible refine (State.tdiError_ctl ..).trans ?_
    | (fail_if_no_progress with_reducible refine (ctl_upd _).trans ?_)
    | dsimp only
    | split

theorem execTdispRequest_ctl (f : Nat) (req : Nat) (s : State) : keepsO s.ctl (execTdispRequest f req s) := by
  unfold execTdispRequest
  repeat' first
    | with_reducible rfl
    | with_reducible refine keepsO_next ?_
    | with_reducible refine (State.spdm_ctl ..).trans ?_
    | with_reducible refine (State.modPart_ctl ..).trans ?_
    | (fail_if_no_progress with_reducible refine (ctl_upd _).trans ?_)
    | dsimp only
    | split

theorem execIdeKmRequest_ctl (f : Nat) (sid : Nat) (s : State) : keepsO s.ctl (execIdeKmRequest f sid s) := by
  unfold execIdeKmRequest
  repeat' first
    | with_reducible rfl
    | with_reducible refine keepsO_next ?_
    | with_reducible refine (State.spdm_ctl ..).trans ?_
    | with_reducible refine (State.modFn_ctl ..).trans ?_
    | (fail_if_no_progress with_reducible refine (ctl_upd _).trans ?_)
    | dsimp only
    | split

theorem execGetVersion_ctl (f : Nat) (s : State) : keepsO s.ctl (execGetVersion f s) := by
  unfold execGetVersion
  repeat' first
    | with_reducible rfl
    | with_reducible refine keepsO_next ?_
    | with_reducible refine (State.spdm_ctl ..).trans ?_

theorem execGetCapabilities_ctl (f : Nat) (s : State) : keepsO s.ctl (execGetCapabilities f s) := by
  unfold execGetCapabilities
  repeat' first
    | with_reducible rfl
    | with_reducible refine keepsO_next ?_
    | with_reducible refine (State.spdm_ctl ..).trans ?_

theorem execNegotiateAlgorithms_ctl (f : Nat) (s : State) : keepsO s.ctl (execNegotiateAlgorithms f s) := by
  unfold execNegotiateAlgorithms
  repeat' first
    | with_reducible rfl
    | with_reducible refine keepsO_next ?_
    | with_reducible refine (State.spdm_ctl ..).trans ?_

theorem execGetDigests_ctl (f : Nat) (s : State) : keepsO s.ctl (execGetDigests f s) := by
  unfold execGetDigests
  repeat' first
    | with_reducible rfl
    | with_reducible refine keepsO_next ?_
    | with_reducible refine (State.spdm_ctl ..).trans ?_

theorem execGetCertificate_ctl (f : Nat) (s : State) : keepsO s.ctl (execGetCertificate f s) := by
  unfold execGetCertificate
  repeat' first
    | with_reducible rfl
    | with_reducible refine keepsO_next ?_
    | with_reducible refine (State.spdm_ctl ..).trans ?_

theorem execChallenge_ctl (f : Nat) (nonce : List Byte) (s : State) : keepsO s.ctl (execChallenge f nonce s) := by
  unfold execChallenge
  repeat' first
    | with_reducible rfl
    | with_reducible refine keepsO_next ?_
    | with_reducible refine (State.spdm_ctl ..).trans ?_

theorem execGetMeasurements_ctl (f : Nat) (nonce : List Byte) (s : State) : keepsO s.ctl (execGetMeasurements f nonce s) := by
  unfold execGetMeasurements
  repeat' first
    | with_reducible rfl
    | with_reducible refine keepsO_next ?_
    | with_reducible refine (State.spdm_ctl ..).trans ?_

theorem execKeyExchange_ctl (f : Nat) (s : State) : keepsO s.ctl (execKeyExchange f s) := by
  unfold execKeyExchange
  repeat' first
    | with_reducible rfl
    | with_reducible refine keepsO_next ?_
    | with_reducible refine (State.spdm_ctl ..).trans ?_

theorem execFinish_ctl (f : Nat) (s : State) : keepsO s.ctl (execFinish f s) := by
  unfold execFinish
  repeat' first
    | with_reducible rfl
    | with_reducible refine keepsO_next ?_
    | with_reducible refine (State.spdm_ctl ..).trans ?_
    | with_reducible refine (State.modFn_ctl ..).trans ?_
    | (fail_if_no_progress with_reducible refine (ctl_upd _).trans ?_)
    | dsimp only
    | split

theorem execSpdmHeartbeat_ctl (f : Nat) (s : State) : keepsO s.ctl (execSpdmHeartbeat f s) := by
  unfold execSpdmHeartbeat
  repeat' first
    | with_reducible rfl
    | with_reducible refine keepsO_next ?_
    | with_reducible refine (State.spdm_ctl ..).trans ?_

theorem execKeyUpdate_ctl (f : Nat) (s : State) : keepsO s.ctl (execKeyUpdate f s) := by
  unfold execKeyUpdate
  repeat' first
    | with_reducible rfl
    | with_reducible refine keepsO_next ?_
    | with_reducible refine (State.spdm_ctl ..).trans ?_
    | with_reducible refine (State.modFn_ctl ..).trans ?_
    | (fail_if_no_progress with_reducible refine (ctl_upd _).trans ?_)
    | dsimp only
    | split

theorem execEndSession_ctl (f : Nat) (s : State) : keepsO s.ctl (execEndSession f s) := by
  unfold execEndSession
  repeat' first
    | with_reducible rfl
    | with_reducible refine keepsO_next ?_
    | with_reducible refine (State.spdm_ctl ..).trans ?_

theorem execDeviceInfo_ctl (r : Nat) (t : Nat) (s : State) : keepsO s.ctl (execDeviceInfo r t s) := by
  unfold execDeviceInfo
  repeat' first
    | with_reducible rfl
    | with_reducible refine keepsO_next ?_
    | exact True.intro
    | intro _
    | with_reducible refine CmdRes.keeps_done ?_
    | with_reducible refine CmdRes.keeps_later ?_
    | with_reducible refine (State.runCmd_ctl _ _ _ _ _ _ _ ?_).trans ?_

theorem execPartitionQuery_ctl (r : Nat) (t : Nat) (s : State) : keepsO s.ctl (execPartitionQuery r t s) := by
  unfold execPartitionQuery
  repeat' first
    | with_reducible rfl
    | with_reducible refine keepsO_next ?_
    | exact True.intro
    | intro _
    | with_reducible refine CmdRes.keeps_done ?_
    | with_reducible refine CmdRes.keeps_later ?_
    | with_reducible refine (State.runCmd_ctl _ _ _ _ _ _ _ ?_).trans ?_

theorem execJobLoad_ctl (r : Nat) (t : Nat) (data : Dma) (im : Option Image) (s : State) : keepsO s.ctl (execJobLoad r t data im s) := by
  unfold execJobLoad
  repeat' first
    | with_reducible rfl
    | with_reducible refine keepsO_next ?_
    | exact True.intro
    | intro _
    | with_reducible refine CmdRes.keeps_done ?_
    | with_reducible refine CmdRes.keeps_later ?_
    | with_reducible refine (State.runCmd_ctl _ _ _ _ _ _ _ ?_).trans ?_
    | with_reducible refine (State.loadJob_ctl ..).trans ?_
    | (fail_if_no_progress with_reducible refine (ctl_upd _).trans ?_)
    | dsimp only
    | split

theorem execJobUnload_ctl (r : Nat) (t : Nat) (s : State) : keepsO s.ctl (execJobUnload r t s) := by
  unfold execJobUnload
  repeat' first
    | with_reducible rfl
    | with_reducible refine keepsO_next ?_
    | exact True.intro
    | intro _
    | with_reducible refine CmdRes.keeps_done ?_
    | with_reducible refine CmdRes.keeps_later ?_
    | with_reducible refine (State.runCmd_ctl _ _ _ _ _ _ _ ?_).trans ?_
    | with_reducible refine (State.unloadJob_ctl ..).trans ?_

theorem execJobInfo_ctl (r : Nat) (t : Nat) (s : State) : keepsO s.ctl (execJobInfo r t s) := by
  unfold execJobInfo
  repeat' first
    | with_reducible rfl
    | with_reducible refine keepsO_next ?_
    | exact True.intro
    | intro _
    | with_reducible refine CmdRes.keeps_done ?_
    | with_reducible refine CmdRes.keeps_later ?_
    | with_reducible refine (State.runCmd_ctl _ _ _ _ _ _ _ ?_).trans ?_

theorem execJobRanks_ctl (r : Nat) (t : Nat) (s : State) : keepsO s.ctl (execJobRanks r t s) := by
  unfold execJobRanks
  repeat' first
    | with_reducible rfl
    | with_reducible refine keepsO_next ?_
    | exact True.intro
    | intro _
    | with_reducible refine CmdRes.keeps_done ?_
    | with_reducible refine CmdRes.keeps_later ?_
    | with_reducible refine (State.runCmd_ctl _ _ _ _ _ _ _ ?_).trans ?_
    | with_reducible refine (State.modPart_ctl ..).trans ?_
    | with_reducible refine (State.placeBuddy_ctl ..).trans ?_

theorem execJobRun_ctl (r : Nat) (t : Nat) (refill : SMap (SMap HbmLine)) (s : State) : keepsO s.ctl (execJobRun r t refill s) := by
  unfold execJobRun
  repeat' first
    | with_reducible rfl
    | with_reducible refine keepsO_next ?_
    | exact True.intro
    | intro _
    | with_reducible refine CmdRes.keeps_done ?_
    | with_reducible refine CmdRes.keeps_later ?_
    | with_reducible refine (State.runCmd_ctl _ _ _ _ _ _ _ ?_).trans ?_
    | with_reducible refine (State.refillSet_ctl ..).trans ?_
    | with_reducible refine (State.startRun_ctl ..).trans ?_
    | (fail_if_no_progress with_reducible refine (ctl_upd _).trans ?_)
    | dsimp only
    | split

theorem execJobStop_ctl (r : Nat) (t : Nat) (s : State) : keepsO s.ctl (execJobStop r t s) := by
  unfold execJobStop
  repeat' first
    | with_reducible rfl
    | with_reducible refine keepsO_next ?_
    | exact True.intro
    | intro _
    | with_reducible refine CmdRes.keeps_done ?_
    | with_reducible refine CmdRes.keeps_later ?_
    | with_reducible refine (State.runCmd_ctl _ _ _ _ _ _ _ ?_).trans ?_
    | with_reducible refine (State.modPart_ctl ..).trans ?_
    | (fail_if_no_progress with_reducible refine (ctl_upd _).trans ?_)
    | dsimp only
    | split

theorem execJobQuery_ctl (r : Nat) (t : Nat) (s : State) : keepsO s.ctl (execJobQuery r t s) := by
  unfold execJobQuery
  repeat' first
    | with_reducible rfl
    | with_reducible refine keepsO_next ?_
    | exact True.intro
    | intro _
    | with_reducible refine CmdRes.keeps_done ?_
    | with_reducible refine CmdRes.keeps_later ?_
    | with_reducible refine (State.runCmd_ctl _ _ _ _ _ _ _ ?_).trans ?_

theorem execFrozenSet_ctl (r : Nat) (t : Nat) (s : State) : keepsO s.ctl (execFrozenSet r t s) := by
  unfold execFrozenSet
  repeat' first
    | with_reducible rfl
    | with_reducible refine keepsO_next ?_
    | exact True.intro
    | intro _
    | with_reducible refine CmdRes.keeps_done ?_
    | with_reducible refine CmdRes.keeps_later ?_
    | with_reducible refine (State.runCmd_ctl _ _ _ _ _ _ _ ?_).trans ?_
    | with_reducible refine (State.modPart_ctl ..).trans ?_

theorem execIntakeConfig_ctl (r : Nat) (t : Nat) (s : State) : keepsO s.ctl (execIntakeConfig r t s) := by
  unfold execIntakeConfig
  repeat' first
    | with_reducible rfl
    | with_reducible refine keepsO_next ?_
    | exact True.intro
    | intro _
    | with_reducible refine CmdRes.keeps_done ?_
    | with_reducible refine CmdRes.keeps_later ?_
    | with_reducible refine (State.runCmd_ctl _ _ _ _ _ _ _ ?_).trans ?_
    | with_reducible refine (State.modPart_ctl ..).trans ?_

theorem execIntakeShards_ctl (r : Nat) (t : Nat) (s : State) : keepsO s.ctl (execIntakeShards r t s) := by
  unfold execIntakeShards
  repeat' first
    | with_reducible rfl
    | with_reducible refine keepsO_next ?_
    | exact True.intro
    | intro _
    | with_reducible refine CmdRes.keeps_done ?_
    | with_reducible refine CmdRes.keeps_later ?_
    | with_reducible refine (State.runCmd_ctl _ _ _ _ _ _ _ ?_).trans ?_
    | with_reducible refine (State.modPart_ctl ..).trans ?_
    | with_reducible refine (State.settleIntake_ctl ..).trans ?_
    | (fail_if_no_progress with_reducible refine (ctl_upd _).trans ?_)
    | dsimp only
    | split

theorem execIntakeStart_ctl (r : Nat) (t : Nat) (s : State) : keepsO s.ctl (execIntakeStart r t s) := by
  unfold execIntakeStart
  repeat' first
    | with_reducible rfl
    | with_reducible refine keepsO_next ?_
    | exact True.intro
    | intro _
    | with_reducible refine CmdRes.keeps_done ?_
    | with_reducible refine CmdRes.keeps_later ?_
    | with_reducible refine (State.runCmd_ctl _ _ _ _ _ _ _ ?_).trans ?_
    | with_reducible refine (State.modPart_ctl ..).trans ?_
    | with_reducible refine (State.settleIntake_ctl ..).trans ?_
    | (fail_if_no_progress with_reducible refine (ctl_upd _).trans ?_)
    | dsimp only
    | split

theorem execIntakeStop_ctl (r : Nat) (t : Nat) (s : State) : keepsO s.ctl (execIntakeStop r t s) := by
  unfold execIntakeStop
  repeat' first
    | with_reducible rfl
    | with_reducible refine keepsO_next ?_
    | exact True.intro
    | intro _
    | with_reducible refine CmdRes.keeps_done ?_
    | with_reducible refine CmdRes.keeps_later ?_
    | with_reducible refine (State.runCmd_ctl _ _ _ _ _ _ _ ?_).trans ?_
    | with_reducible refine (State.stopIntake_ctl ..).trans ?_

theorem execIntakeQuery_ctl (r : Nat) (t : Nat) (s : State) : keepsO s.ctl (execIntakeQuery r t s) := by
  unfold execIntakeQuery
  repeat' first
    | with_reducible rfl
    | with_reducible refine keepsO_next ?_
    | exact True.intro
    | intro _
    | with_reducible refine CmdRes.keeps_done ?_
    | with_reducible refine CmdRes.keeps_later ?_
    | with_reducible refine (State.runCmd_ctl _ _ _ _ _ _ _ ?_).trans ?_

theorem execMemQuotaSet_ctl (r : Nat) (t : Nat) (s : State) : keepsO s.ctl (execMemQuotaSet r t s) := by
  unfold execMemQuotaSet
  repeat' first
    | with_reducible rfl
    | with_reducible refine keepsO_next ?_
    | exact True.intro
    | intro _
    | with_reducible refine CmdRes.keeps_done ?_
    | with_reducible refine CmdRes.keeps_later ?_
    | with_reducible refine (State.runCmd_ctl _ _ _ _ _ _ _ ?_).trans ?_
    | with_reducible refine (State.modPart_ctl ..).trans ?_
    | (fail_if_no_progress with_reducible refine (ctl_upd _).trans ?_)
    | dsimp only
    | split

theorem execMemQuotaQuery_ctl (r : Nat) (t : Nat) (s : State) : keepsO s.ctl (execMemQuotaQuery r t s) := by
  unfold execMemQuotaQuery
  repeat' first
    | with_reducible rfl
    | with_reducible refine keepsO_next ?_
    | exact True.intro
    | intro _
    | with_reducible refine CmdRes.keeps_done ?_
    | with_reducible refine CmdRes.keeps_later ?_
    | with_reducible refine (State.runCmd_ctl _ _ _ _ _ _ _ ?_).trans ?_

theorem execMemAlloc_ctl (r : Nat) (t : Nat) (s : State) : keepsO s.ctl (execMemAlloc r t s) := by
  unfold execMemAlloc
  repeat' first
    | with_reducible rfl
    | with_reducible refine keepsO_next ?_
    | exact True.intro
    | intro _
    | with_reducible refine CmdRes.keeps_done ?_
    | with_reducible refine CmdRes.keeps_later ?_
    | with_reducible refine (State.runCmd_ctl _ _ _ _ _ _ _ ?_).trans ?_
    | refine (State.takeTables_ctl _ _ _ _ (by assumption)).trans ?_
    | with_reducible refine (State.modPart_ctl ..).trans ?_
    | (fail_if_no_progress with_reducible refine (ctl_upd _).trans ?_)
    | dsimp only
    | split

theorem execMemFree_ctl (r : Nat) (t : Nat) (s : State) : keepsO s.ctl (execMemFree r t s) := by
  unfold execMemFree
  repeat' first
    | with_reducible rfl
    | with_reducible refine keepsO_next ?_
    | exact True.intro
    | intro _
    | with_reducible refine CmdRes.keeps_done ?_
    | with_reducible refine CmdRes.keeps_later ?_
    | with_reducible refine (State.runOrGoOn_ctl _ _ _ _ _ _ _ ?_ ?_).trans ?_
    | with_reducible refine (CmdRes.ctl_done (State.memFree_ctl ..) (by assumption)).trans ?_
    | with_reducible refine (CmdRes.ctl_later (State.memFree_ctl ..) (by assumption)).trans ?_
    | with_reducible refine CmdRes.keeps_trans (State.memFree_ctl ..) ?_
    | (fail_if_no_progress with_reducible refine (ctl_upd _).trans ?_)
    | dsimp only
    | split

theorem execMemFlush_ctl (r : Nat) (t : Nat) (s : State) : keepsO s.ctl (execMemFlush r t s) := by
  unfold execMemFlush
  repeat' first
    | with_reducible rfl
    | with_reducible refine keepsO_next ?_
    | exact True.intro
    | intro _
    | with_reducible refine CmdRes.keeps_done ?_
    | with_reducible refine CmdRes.keeps_later ?_
    | with_reducible refine (State.runOrGoOn_ctl _ _ _ _ _ _ _ ?_ ?_).trans ?_
    | with_reducible refine (CmdRes.ctl_done (State.memFlush_ctl ..) (by assumption)).trans ?_
    | with_reducible refine (CmdRes.ctl_later (State.memFlush_ctl ..) (by assumption)).trans ?_
    | with_reducible refine CmdRes.keeps_trans (State.memFlush_ctl ..) ?_
    | with_reducible refine (State.flushMore_ctl ..).trans ?_
    | with_reducible refine (foldl_ctl (fun _ _ => ?_) _ _).trans ?_

theorem execFarAttach_ctl (r : Nat) (t : Nat) (s : State) : keepsO s.ctl (execFarAttach r t s) := by
  unfold execFarAttach
  repeat' first
    | with_reducible rfl
    | with_reducible refine keepsO_next ?_
    | exact True.intro
    | intro _
    | with_reducible refine CmdRes.keeps_done ?_
    | with_reducible refine CmdRes.keeps_later ?_
    | with_reducible refine (State.runCmd_ctl _ _ _ _ _ _ _ ?_).trans ?_
    | with_reducible refine (State.modPart_ctl ..).trans ?_
    | (fail_if_no_progress with_reducible refine (ctl_upd _).trans ?_)
    | dsimp only
    | split

theorem execFarDetach_ctl (r : Nat) (t : Nat) (s : State) : keepsO s.ctl (execFarDetach r t s) := by
  unfold execFarDetach
  repeat' first
    | with_reducible rfl
    | with_reducible refine keepsO_next ?_
    | exact True.intro
    | intro _
    | with_reducible refine CmdRes.keeps_done ?_
    | with_reducible refine CmdRes.keeps_later ?_
    | with_reducible refine (State.runCmd_ctl _ _ _ _ _ _ _ ?_).trans ?_
    | with_reducible refine (State.modPart_ctl ..).trans ?_
    | (fail_if_no_progress with_reducible refine (ctl_upd _).trans ?_)
    | dsimp only
    | split

theorem execWindowSetVersion_ctl (r : Nat) (t : Nat) (s : State) : keepsO s.ctl (execWindowSetVersion r t s) := by
  unfold execWindowSetVersion
  repeat' first
    | with_reducible rfl
    | with_reducible refine keepsO_next ?_
    | exact True.intro
    | intro _
    | with_reducible refine CmdRes.keeps_done ?_
    | with_reducible refine CmdRes.keeps_later ?_
    | with_reducible refine (State.runCmd_ctl _ _ _ _ _ _ _ ?_).trans ?_
    | with_reducible refine (State.modPart_ctl ..).trans ?_
    | (fail_if_no_progress with_reducible refine (ctl_upd _).trans ?_)
    | dsimp only
    | split

theorem execMemPageQuery_ctl (r : Nat) (t : Nat) (s : State) : keepsO s.ctl (execMemPageQuery r t s) := by
  unfold execMemPageQuery
  repeat' first
    | with_reducible rfl
    | with_reducible refine keepsO_next ?_
    | exact True.intro
    | intro _
    | with_reducible refine CmdRes.keeps_done ?_
    | with_reducible refine CmdRes.keeps_later ?_
    | with_reducible refine (State.runCmd_ctl _ _ _ _ _ _ _ ?_).trans ?_

theorem execKvPoolCreate_ctl (r : Nat) (t : Nat) (s : State) : keepsO s.ctl (execKvPoolCreate r t s) := by
  unfold execKvPoolCreate
  repeat' first
    | with_reducible rfl
    | with_reducible refine keepsO_next ?_
    | exact True.intro
    | intro _
    | with_reducible refine CmdRes.keeps_done ?_
    | with_reducible refine CmdRes.keeps_later ?_
    | with_reducible refine (State.runCmd_ctl _ _ _ _ _ _ _ ?_).trans ?_
    | refine (State.addPoolPages_ctl _ _ _ _ _ (by assumption)).trans ?_
    | with_reducible refine (State.setPool_ctl ..).trans ?_
    | (fail_if_no_progress with_reducible refine (ctl_upd _).trans ?_)
    | dsimp only
    | split

theorem execKvSeqOpen_ctl (r : Nat) (t : Nat) (s : State) : keepsO s.ctl (execKvSeqOpen r t s) := by
  unfold execKvSeqOpen
  repeat' first
    | with_reducible rfl
    | with_reducible refine keepsO_next ?_
    | exact True.intro
    | intro _
    | with_reducible refine CmdRes.keeps_done ?_
    | with_reducible refine CmdRes.keeps_later ?_
    | with_reducible refine (State.runCmd_ctl _ _ _ _ _ _ _ ?_).trans ?_
    | with_reducible refine CmdRes.keeps_trans (State.slotCmd_ctl _ _ _ _ _ ?_) ?_
    | with_reducible refine (State.setPool_ctl ..).trans ?_

theorem execKvSeqPark_ctl (r : Nat) (t : Nat) (s : State) : keepsO s.ctl (execKvSeqPark r t s) := by
  unfold execKvSeqPark
  repeat' first
    | with_reducible rfl
    | with_reducible refine keepsO_next ?_
    | exact True.intro
    | intro _
    | with_reducible refine CmdRes.keeps_done ?_
    | with_reducible refine CmdRes.keeps_later ?_
    | with_reducible refine (State.runCmd_ctl _ _ _ _ _ _ _ ?_).trans ?_
    | with_reducible refine CmdRes.keeps_trans (State.slotCmd_ctl _ _ _ _ _ ?_) ?_
    | with_reducible refine (State.setPool_ctl ..).trans ?_
    | with_reducible refine (State.kvPump_ctl ..).trans ?_

theorem execKvSeqResume_ctl (r : Nat) (t : Nat) (s : State) : keepsO s.ctl (execKvSeqResume r t s) := by
  unfold execKvSeqResume
  repeat' first
    | with_reducible rfl
    | with_reducible refine keepsO_next ?_
    | exact True.intro
    | intro _
    | with_reducible refine CmdRes.keeps_done ?_
    | with_reducible refine CmdRes.keeps_later ?_
    | with_reducible refine (State.runCmd_ctl _ _ _ _ _ _ _ ?_).trans ?_
    | with_reducible refine CmdRes.keeps_trans (State.slotCmd_ctl _ _ _ _ _ ?_) ?_
    | with_reducible refine (State.setPool_ctl ..).trans ?_

theorem execKvSeqClose_ctl (r : Nat) (t : Nat) (s : State) : keepsO s.ctl (execKvSeqClose r t s) := by
  unfold execKvSeqClose
  repeat' first
    | with_reducible rfl
    | with_reducible refine keepsO_next ?_
    | exact True.intro
    | intro _
    | with_reducible refine CmdRes.keeps_done ?_
    | with_reducible refine CmdRes.keeps_later ?_
    | with_reducible refine (State.runOrGoOn_ctl _ _ _ _ _ _ _ ?_ ?_).trans ?_
    | with_reducible refine (CmdRes.ctl_done (State.seqClose_ctl ..) (by assumption)).trans ?_
    | with_reducible refine (CmdRes.ctl_later (State.seqClose_ctl ..) (by assumption)).trans ?_
    | with_reducible refine CmdRes.keeps_trans (State.seqClose_ctl ..) ?_

theorem execKvPoolQuery_ctl (r : Nat) (t : Nat) (s : State) : keepsO s.ctl (execKvPoolQuery r t s) := by
  unfold execKvPoolQuery
  repeat' first
    | with_reducible rfl
    | with_reducible refine keepsO_next ?_
    | exact True.intro
    | intro _
    | with_reducible refine CmdRes.keeps_done ?_
    | with_reducible refine CmdRes.keeps_later ?_
    | with_reducible refine (State.runCmd_ctl _ _ _ _ _ _ _ ?_).trans ?_
    | (fail_if_no_progress with_reducible refine (ctl_upd _).trans ?_)
    | dsimp only
    | split

theorem execKvPoolDestroy_ctl (r : Nat) (t : Nat) (s : State) : keepsO s.ctl (execKvPoolDestroy r t s) := by
  unfold execKvPoolDestroy
  repeat' first
    | with_reducible rfl
    | with_reducible refine keepsO_next ?_
    | exact True.intro
    | intro _
    | with_reducible refine CmdRes.keeps_done ?_
    | with_reducible refine CmdRes.keeps_later ?_
    | with_reducible refine (State.runCmd_ctl _ _ _ _ _ _ _ ?_).trans ?_
    | with_reducible refine (State.freePage_ctl ..).trans ?_
    | with_reducible refine (State.modPart_ctl ..).trans ?_
    | with_reducible refine (foldl_ctl (fun _ _ => ?_) _ _).trans ?_
    | with_reducible refine (foldl_fst_ctl (fun _ _ => ?_) _ _).trans ?_
    | (fail_if_no_progress with_reducible refine (ctl_upd _).trans ?_)
    | dsimp only
    | split

theorem execSatchelConfig_ctl (r : Nat) (t : Nat) (s : State) : keepsO s.ctl (execSatchelConfig r t s) := by
  unfold execSatchelConfig
  repeat' first
    | with_reducible rfl
    | with_reducible refine keepsO_next ?_
    | exact True.intro
    | intro _
    | with_reducible refine CmdRes.keeps_done ?_
    | with_reducible refine CmdRes.keeps_later ?_
    | with_reducible refine (State.runCmd_ctl _ _ _ _ _ _ _ ?_).trans ?_
    | with_reducible refine (State.setPart_ctl ..).trans ?_
    | with_reducible refine (State.placeBuddy_ctl ..).trans ?_
    | (fail_if_no_progress with_reducible refine (ctl_upd _).trans ?_)
    | dsimp only
    | split

theorem execSatchelQuery_ctl (r : Nat) (t : Nat) (s : State) : keepsO s.ctl (execSatchelQuery r t s) := by
  unfold execSatchelQuery
  repeat' first
    | with_reducible rfl
    | with_reducible refine keepsO_next ?_
    | exact True.intro
    | intro _
    | with_reducible refine CmdRes.keeps_done ?_
    | with_reducible refine CmdRes.keeps_later ?_
    | with_reducible refine (State.runCmd_ctl _ _ _ _ _ _ _ ?_).trans ?_
    | with_reducible refine (State.orFree_ctl ..).trans ?_

theorem execSatchelTake_ctl (r : Nat) (t : Nat) (s : State) : keepsO s.ctl (execSatchelTake r t s) := by
  unfold execSatchelTake
  repeat' first
    | with_reducible rfl
    | with_reducible refine keepsO_next ?_
    | exact True.intro
    | intro _
    | with_reducible refine CmdRes.keeps_done ?_
    | with_reducible refine CmdRes.keeps_later ?_
    | with_reducible refine (State.runCmd_ctl _ _ _ _ _ _ _ ?_).trans ?_
    | with_reducible refine (State.modPart_ctl ..).trans ?_

theorem execSatchelRestore_ctl (r : Nat) (t : Nat) (sources : List (Option RestoreSrc)) (s : State) : keepsO s.ctl (execSatchelRestore r t sources s) := by
  unfold execSatchelRestore
  repeat' first
    | with_reducible rfl
    | with_reducible refine keepsO_next ?_
    | exact True.intro
    | intro _
    | with_reducible refine CmdRes.keeps_done ?_
    | with_reducible refine CmdRes.keeps_later ?_
    | with_reducible refine (State.runCmd_ctl _ _ _ _ _ _ _ ?_).trans ?_
    | with_reducible refine (State.modPart_ctl ..).trans ?_
    | refine (CmdRes.ctl_done (State.tryRestore_ctl ..) (by assumption)).trans ?_
    | refine (CmdRes.ctl_later (State.tryRestore_ctl ..) (by assumption)).trans ?_
    | with_reducible refine CmdRes.keeps_trans (State.tryRestore_ctl ..) ?_
    | (fail_if_no_progress with_reducible refine (ctl_upd _).trans ?_)
    | dsimp only
    | split

theorem execSpareFill_ctl (r : Nat) (t : Nat) (fits : Bool) (rec : Option SchedRec) (arrived : SMap (SMap HbmLine)) (s : State) : keepsO s.ctl (execSpareFill r t fits rec arrived s) := by
  unfold execSpareFill
  repeat' first
    | with_reducible rfl
    | with_reducible refine keepsO_next ?_
    | exact True.intro
    | intro _
    | with_reducible refine CmdRes.keeps_done ?_
    | with_reducible refine CmdRes.keeps_later ?_
    | with_reducible refine (State.runOrGoOn_ctl _ _ _ _ _ _ _ ?_ ?_).trans ?_
    | with_reducible refine (State.fillsOn_ctl ..).trans ?_
    | with_reducible refine (State.modPart_ctl ..).trans ?_
    | with_reducible refine (CmdRes.ctl_done (State.fillOn_ctl ..) (by assumption)).trans ?_
    | with_reducible refine (CmdRes.ctl_later (State.fillOn_ctl ..) (by assumption)).trans ?_
    | with_reducible refine CmdRes.keeps_trans (State.fillOn_ctl ..) ?_
    | (fail_if_no_progress with_reducible refine (ctl_upd _).trans ?_)
    | dsimp only
    | split

theorem execSpareFillSourceFailure_ctl (p : Nat) (s : State) : keepsO s.ctl (execSpareFillSourceFailure p s) := by
  unfold execSpareFillSourceFailure
  repeat' first
    | with_reducible rfl
    | with_reducible refine keepsO_next ?_
    | with_reducible refine (State.modPart_ctl ..).trans ?_
    | (fail_if_no_progress with_reducible refine (ctl_upd _).trans ?_)
    | dsimp only
    | split

theorem execReshardRun_ctl (r : Nat) (t : Nat) (ok : Bool) (data : SMap (SMap HbmLine)) (s : State) : keepsO s.ctl (execReshardRun r t ok data s) := by
  unfold execReshardRun
  repeat' first
    | with_reducible rfl
    | with_reducible refine keepsO_next ?_
    | exact True.intro
    | intro _
    | with_reducible refine CmdRes.keeps_done ?_
    | with_reducible refine CmdRes.keeps_later ?_
    | with_reducible refine (State.runCmd_ctl _ _ _ _ _ _ _ ?_).trans ?_
    | with_reducible refine (State.modPart_ctl ..).trans ?_
    | with_reducible refine (State.takeMoves_ctl ..).trans ?_
    | with_reducible refine (State.placeBuddy_ctl ..).trans ?_
    | (fail_if_no_progress with_reducible refine (ctl_upd _).trans ?_)
    | dsimp only
    | split

theorem execFormSetup_ctl (r : Nat) (t : Nat) (links : SMap Nat) (hops : Bool) (s : State) : keepsO s.ctl (execFormSetup r t links hops s) := by
  unfold execFormSetup
  repeat' first
    | with_reducible rfl
    | with_reducible refine keepsO_next ?_
    | exact True.intro
    | intro _
    | with_reducible refine CmdRes.keeps_done ?_
    | with_reducible refine CmdRes.keeps_later ?_
    | with_reducible refine (State.runCmd_ctl _ _ _ _ _ _ _ ?_).trans ?_
    | with_reducible refine (State.formSetup_ctl ..).trans ?_
    | (fail_if_no_progress with_reducible refine (ctl_upd _).trans ?_)
    | dsimp only
    | split

theorem execFormQuery_ctl (r : Nat) (t : Nat) (s : State) : keepsO s.ctl (execFormQuery r t s) := by
  unfold execFormQuery
  repeat' first
    | with_reducible rfl
    | with_reducible refine keepsO_next ?_
    | exact True.intro
    | intro _
    | with_reducible refine CmdRes.keeps_done ?_
    | with_reducible refine CmdRes.keeps_later ?_
    | with_reducible refine (State.runCmd_ctl _ _ _ _ _ _ _ ?_).trans ?_

theorem execLinkStatus_ctl (r : Nat) (t : Nat) (s : State) : keepsO s.ctl (execLinkStatus r t s) := by
  unfold execLinkStatus
  repeat' first
    | with_reducible rfl
    | with_reducible refine keepsO_next ?_
    | exact True.intro
    | intro _
    | with_reducible refine CmdRes.keeps_done ?_
    | with_reducible refine CmdRes.keeps_later ?_
    | with_reducible refine (State.runCmd_ctl _ _ _ _ _ _ _ ?_).trans ?_

theorem execLinkMeasure_ctl (r : Nat) (t : Nat) (links : List (Nat × Nat × Nat)) (s : State) : keepsO s.ctl (execLinkMeasure r t links s) := by
  unfold execLinkMeasure
  repeat' first
    | with_reducible rfl
    | with_reducible refine keepsO_next ?_
    | exact True.intro
    | intro _
    | with_reducible refine CmdRes.keeps_done ?_
    | with_reducible refine CmdRes.keeps_later ?_
    | with_reducible refine (State.runCmd_ctl _ _ _ _ _ _ _ ?_).trans ?_
    | with_reducible refine (State.measurePort_ctl ..).trans ?_
    | with_reducible refine (State.portUp_ctl ..).trans ?_
    | with_reducible refine (foldl_ctl (fun _ _ => ?_) _ _).trans ?_
    | with_reducible refine (foldl_fst_ctl (fun _ _ => ?_) _ _).trans ?_
    | (fail_if_no_progress with_reducible refine (ctl_upd _).trans ?_)
    | dsimp only
    | split

theorem execRoleSet_ctl (r : Nat) (t : Nat) (s : State) : keepsO s.ctl (execRoleSet r t s) := by
  unfold execRoleSet
  repeat' first
    | with_reducible rfl
    | with_reducible refine keepsO_next ?_
    | exact True.intro
    | intro _
    | with_reducible refine CmdRes.keeps_done ?_
    | with_reducible refine CmdRes.keeps_later ?_
    | with_reducible refine (State.runCmd_ctl _ _ _ _ _ _ _ ?_).trans ?_
    | (fail_if_no_progress with_reducible refine (ctl_upd _).trans ?_)
    | dsimp only
    | split

theorem execFormLeave_ctl (r : Nat) (t : Nat) (s : State) : keepsO s.ctl (execFormLeave r t s) := by
  unfold execFormLeave
  repeat' first
    | with_reducible rfl
    | with_reducible refine keepsO_next ?_
    | exact True.intro
    | intro _
    | with_reducible refine CmdRes.keeps_done ?_
    | with_reducible refine CmdRes.keeps_later ?_
    | with_reducible refine (State.runCmd_ctl _ _ _ _ _ _ _ ?_).trans ?_
    | with_reducible refine (State.portDown_ctl ..).trans ?_
    | with_reducible refine (State.declareAbsent_ctl ..).trans ?_
    | with_reducible refine (foldl_ctl (fun _ _ => ?_) _ _).trans ?_
    | with_reducible refine (foldl_fst_ctl (fun _ _ => ?_) _ _).trans ?_
    | (fail_if_no_progress with_reducible refine (ctl_upd _).trans ?_)
    | dsimp only
    | split

theorem execNormRead_ctl (r : Nat) (t : Nat) (s : State) : keepsO s.ctl (execNormRead r t s) := by
  unfold execNormRead
  repeat' first
    | with_reducible rfl
    | with_reducible refine keepsO_next ?_
    | exact True.intro
    | intro _
    | with_reducible refine CmdRes.keeps_done ?_
    | with_reducible refine CmdRes.keeps_later ?_
    | with_reducible refine (State.runCmd_ctl _ _ _ _ _ _ _ ?_).trans ?_
    | (fail_if_no_progress with_reducible refine (ctl_upd _).trans ?_)
    | dsimp only
    | split

theorem execTelRead_ctl (r : Nat) (t : Nat) (s : State) : keepsO s.ctl (execTelRead r t s) := by
  unfold execTelRead
  repeat' first
    | with_reducible rfl
    | with_reducible refine keepsO_next ?_
    | exact True.intro
    | intro _
    | with_reducible refine CmdRes.keeps_done ?_
    | with_reducible refine CmdRes.keeps_later ?_
    | with_reducible refine (State.runCmd_ctl _ _ _ _ _ _ _ ?_).trans ?_
    | (fail_if_no_progress with_reducible refine (ctl_upd _).trans ?_)
    | dsimp only
    | split

theorem execTelStream_ctl (r : Nat) (t : Nat) (s : State) : keepsO s.ctl (execTelStream r t s) := by
  unfold execTelStream
  repeat' first
    | with_reducible rfl
    | with_reducible refine keepsO_next ?_
    | exact True.intro
    | intro _
    | with_reducible refine CmdRes.keeps_done ?_
    | with_reducible refine CmdRes.keeps_later ?_
    | with_reducible refine (State.runCmd_ctl _ _ _ _ _ _ _ ?_).trans ?_
    | with_reducible refine (State.modPart_ctl ..).trans ?_

theorem execOverflowRead_ctl (r : Nat) (t : Nat) (s : State) : keepsO s.ctl (execOverflowRead r t s) := by
  unfold execOverflowRead
  repeat' first
    | with_reducible rfl
    | with_reducible refine keepsO_next ?_
    | exact True.intro
    | intro _
    | with_reducible refine CmdRes.keeps_done ?_
    | with_reducible refine CmdRes.keeps_later ?_
    | with_reducible refine (State.runCmd_ctl _ _ _ _ _ _ _ ?_).trans ?_

theorem execRoleAuthChallenge_ctl (r : Nat) (t : Nat) (s : State) : keepsO s.ctl (execRoleAuthChallenge r t s) := by
  unfold execRoleAuthChallenge
  repeat' first
    | with_reducible rfl
    | with_reducible refine keepsO_next ?_
    | exact True.intro
    | intro _
    | with_reducible refine CmdRes.keeps_done ?_
    | with_reducible refine CmdRes.keeps_later ?_
    | with_reducible refine (State.roleAuth_ctl _ _ _ _ _ _ ?_).trans ?_
    | with_reducible refine (State.modRing_ctl ..).trans ?_
    | (fail_if_no_progress with_reducible refine (ctl_upd _).trans ?_)

theorem execRoleAuthResponse_ctl (r : Nat) (t : Nat) (s : State) : keepsO s.ctl (execRoleAuthResponse r t s) := by
  unfold execRoleAuthResponse
  repeat' first
    | with_reducible rfl
    | with_reducible refine keepsO_next ?_
    | exact True.intro
    | intro _
    | with_reducible refine CmdRes.keeps_done ?_
    | with_reducible refine CmdRes.keeps_later ?_
    | with_reducible refine (State.roleAuth_ctl _ _ _ _ _ _ ?_).trans ?_
    | with_reducible refine (State.modRing_ctl ..).trans ?_
    | (fail_if_no_progress with_reducible refine (ctl_upd _).trans ?_)
    | dsimp only
    | split

theorem execChallengeExpiry_ctl (r : Nat) (s : State) : keepsO s.ctl (execChallengeExpiry r s) := by
  unfold execChallengeExpiry
  repeat' first
    | with_reducible rfl
    | with_reducible refine keepsO_next ?_
    | with_reducible refine (State.dropChallenge_ctl ..).trans ?_
    | (fail_if_no_progress with_reducible refine (ctl_upd _).trans ?_)
    | dsimp only
    | split

theorem execJobKeys_ctl (r : Nat) (t : Nat) (s : State) : keepsO s.ctl (execJobKeys r t s) := by
  unfold execJobKeys
  repeat' first
    | with_reducible rfl
    | with_reducible refine keepsO_next ?_
    | exact True.intro
    | intro _
    | with_reducible refine CmdRes.keeps_done ?_
    | with_reducible refine CmdRes.keeps_later ?_
    | with_reducible refine (State.runCmd_ctl _ _ _ _ _ _ _ ?_).trans ?_
    | with_reducible refine (State.modPart_ctl ..).trans ?_
    | with_reducible refine (State.keyPort_ctl ..).trans ?_
    | with_reducible refine (foldl_ctl (fun _ _ => ?_) _ _).trans ?_
    | with_reducible refine (foldl_fst_ctl (fun _ _ => ?_) _ _).trans ?_
    | (fail_if_no_progress with_reducible refine (ctl_upd _).trans ?_)
    | dsimp only
    | split

theorem execReady_ctl (l : Nat) (s : State) : keepsO s.ctl (execReady l s) := by
  unfold execReady
  repeat' first
    | with_reducible rfl
    | with_reducible refine keepsO_next ?_
    | with_reducible refine (State.modPort_ctl ..).trans ?_
    | with_reducible refine (State.tryKeys_ctl ..).trans ?_
    | (fail_if_no_progress with_reducible refine (ctl_upd _).trans ?_)
    | dsimp only
    | split

theorem execJobKeysTimeout_ctl (p : Nat) (s : State) : keepsO s.ctl (execJobKeysTimeout p s) := by
  unfold execJobKeysTimeout
  repeat' first
    | with_reducible rfl
    | with_reducible refine keepsO_next ?_
    | with_reducible refine (State.endKeys_ctl ..).trans ?_
    | (fail_if_no_progress with_reducible refine (ctl_upd _).trans ?_)
    | dsimp only
    | split

theorem execMemKeyRotate_ctl (r : Nat) (t : Nat) (s : State) : keepsO s.ctl (execMemKeyRotate r t s) := by
  unfold execMemKeyRotate
  repeat' first
    | with_reducible rfl
    | with_reducible refine keepsO_next ?_
    | exact True.intro
    | intro _
    | with_reducible refine CmdRes.keeps_done ?_
    | with_reducible refine CmdRes.keeps_later ?_
    | with_reducible refine (State.runCmd_ctl _ _ _ _ _ _ _ ?_).trans ?_
    | with_reducible refine (State.modPart_ctl ..).trans ?_
    | with_reducible refine (State.drawKeys_ctl ..).trans ?_
    | (fail_if_no_progress with_reducible refine (ctl_upd _).trans ?_)
    | dsimp only
    | split

theorem execReKeyRetry_ctl (p : Nat) (ok : List Nat) (s : State) : keepsO s.ctl (execReKeyRetry p ok s) := by
  unfold execReKeyRetry
  repeat' first
    | with_reducible rfl
    | with_reducible refine keepsO_next ?_
    | with_reducible refine (State.modPart_ctl ..).trans ?_
    | with_reducible refine (State.settleRekey_ctl ..).trans ?_
    | (fail_if_no_progress with_reducible refine (ctl_upd _).trans ?_)
    | dsimp only
    | split

theorem execConsentIssue_ctl (r : Nat) (t : Nat) (s : State) : keepsO s.ctl (execConsentIssue r t s) := by
  unfold execConsentIssue
  repeat' first
    | with_reducible rfl
    | with_reducible refine keepsO_next ?_
    | exact True.intro
    | intro _
    | with_reducible refine CmdRes.keeps_done ?_
    | with_reducible refine CmdRes.keeps_later ?_
    | with_reducible refine (State.runCmd_ctl _ _ _ _ _ _ _ ?_).trans ?_
    | (fail_if_no_progress with_reducible refine (ctl_upd _).trans ?_)
    | dsimp only
    | split
    | (fail_if_no_progress refine (ctl_upd2 _ ⟨rfl, rfl, rfl, rfl, rfl, rfl, rfl, rfl, rfl, rfl, rfl, rfl, rfl, rfl, rfl⟩).trans ?_)

theorem execDiagOpen_ctl (r : Nat) (t : Nat) (s : State) : keepsO s.ctl (execDiagOpen r t s) := by
  unfold execDiagOpen
  repeat' first
    | with_reducible rfl
    | with_reducible refine keepsO_next ?_
    | exact True.intro
    | intro _
    | with_reducible refine CmdRes.keeps_done ?_
    | with_reducible refine CmdRes.keeps_later ?_
    | with_reducible refine (State.runCmd_ctl _ _ _ _ _ _ _ ?_).trans ?_
    | with_reducible refine (State.rawTest_ctl ..).trans ?_
    | (fail_if_no_progress with_reducible refine (ctl_upd _).trans ?_)
    | dsimp only
    | split
    | (fail_if_no_progress refine (ctl_upd2 _ ⟨rfl, rfl, rfl, rfl, rfl, rfl, rfl, rfl, rfl, rfl, rfl, rfl, rfl, rfl, rfl⟩).trans ?_)

theorem execDiagClose_ctl (r : Nat) (t : Nat) (s : State) : keepsO s.ctl (execDiagClose r t s) := by
  unfold execDiagClose
  repeat' first
    | with_reducible rfl
    | with_reducible refine keepsO_next ?_
    | exact True.intro
    | intro _
    | with_reducible refine CmdRes.keeps_done ?_
    | with_reducible refine CmdRes.keeps_later ?_
    | with_reducible refine (State.runCmd_ctl _ _ _ _ _ _ _ ?_).trans ?_
    | (fail_if_no_progress with_reducible refine (ctl_upd _).trans ?_)
    | dsimp only
    | split
    | (fail_if_no_progress refine (ctl_upd2 _ ⟨rfl, rfl, rfl, rfl, rfl, rfl, rfl, rfl, rfl, rfl, rfl, rfl, rfl, rfl, rfl⟩).trans ?_)

theorem execDiagExpiry_ctl (s : State) : keepsO s.ctl (execDiagExpiry s) := by
  unfold execDiagExpiry
  repeat' first
    | with_reducible rfl
    | with_reducible refine keepsO_next ?_
    | (fail_if_no_progress with_reducible refine (ctl_upd _).trans ?_)
    | dsimp only
    | split
    | (fail_if_no_progress refine (ctl_upd2 _ ⟨rfl, rfl, rfl, rfl, rfl, rfl, rfl, rfl, rfl, rfl, rfl, rfl, rfl, rfl, rfl⟩).trans ?_)

theorem execAuditRead_ctl (r : Nat) (t : Nat) (s : State) : keepsO s.ctl (execAuditRead r t s) := by
  unfold execAuditRead
  repeat' first
    | with_reducible rfl
    | with_reducible refine keepsO_next ?_
    | exact True.intro
    | intro _
    | with_reducible refine CmdRes.keeps_done ?_
    | with_reducible refine CmdRes.keeps_later ?_
    | with_reducible refine (State.runCmd_ctl _ _ _ _ _ _ _ ?_).trans ?_

theorem execAttest_ctl (r : Nat) (t : Nat) (s : State) : keepsO s.ctl (execAttest r t s) := by
  unfold execAttest
  repeat' first
    | with_reducible rfl
    | with_reducible refine keepsO_next ?_
    | exact True.intro
    | intro _
    | with_reducible refine CmdRes.keeps_done ?_
    | with_reducible refine CmdRes.keeps_later ?_
    | with_reducible refine (State.runCmd_ctl _ _ _ _ _ _ _ ?_).trans ?_

theorem execFwStage_ctl (r : Nat) (t : Nat) (s : State) : keepsO s.ctl (execFwStage r t s) := by
  unfold execFwStage
  repeat' first
    | with_reducible rfl
    | with_reducible refine keepsO_next ?_
    | exact True.intro
    | intro _
    | with_reducible refine CmdRes.keeps_done ?_
    | with_reducible refine CmdRes.keeps_later ?_
    | with_reducible refine (State.runCmd_ctl _ _ _ _ _ _ _ ?_).trans ?_
    | (fail_if_no_progress with_reducible refine (ctl_upd _).trans ?_)
    | dsimp only
    | split
    | (fail_if_no_progress refine (ctl_upd2 _ ⟨rfl, rfl, rfl, rfl, rfl, rfl, rfl, rfl, rfl, rfl, rfl, rfl, rfl, rfl, rfl⟩).trans ?_)

theorem execFwQuery_ctl (r : Nat) (t : Nat) (s : State) : keepsO s.ctl (execFwQuery r t s) := by
  unfold execFwQuery
  repeat' first
    | with_reducible rfl
    | with_reducible refine keepsO_next ?_
    | exact True.intro
    | intro _
    | with_reducible refine CmdRes.keeps_done ?_
    | with_reducible refine CmdRes.keeps_later ?_
    | with_reducible refine (State.runCmd_ctl _ _ _ _ _ _ _ ?_).trans ?_

theorem execSelftestRun_ctl (r : Nat) (t : Nat) (s : State) : keepsO s.ctl (execSelftestRun r t s) := by
  unfold execSelftestRun
  repeat' first
    | with_reducible rfl
    | with_reducible refine keepsO_next ?_
    | exact True.intro
    | intro _
    | with_reducible refine CmdRes.keeps_done ?_
    | with_reducible refine CmdRes.keeps_later ?_
    | with_reducible refine (State.runCmd_ctl _ _ _ _ _ _ _ ?_).trans ?_
    | (fail_if_no_progress with_reducible refine (ctl_upd _).trans ?_)

theorem execHbmSpare_ctl (r : Nat) (t : Nat) (s : State) : keepsO s.ctl (execHbmSpare r t s) := by
  unfold execHbmSpare
  repeat' first
    | with_reducible rfl
    | with_reducible refine keepsO_next ?_
    | exact True.intro
    | intro _
    | with_reducible refine CmdRes.keeps_done ?_
    | with_reducible refine CmdRes.keeps_later ?_
    | with_reducible refine (State.runCmd_ctl _ _ _ _ _ _ _ ?_).trans ?_
    | with_reducible refine (State.spareChannel_ctl ..).trans ?_
    | (fail_if_no_progress with_reducible refine (ctl_upd _).trans ?_)
    | dsimp only
    | split

theorem execSiteFence_ctl (r : Nat) (t : Nat) (s : State) : keepsO s.ctl (execSiteFence r t s) := by
  unfold execSiteFence
  repeat' first
    | with_reducible rfl
    | with_reducible refine keepsO_next ?_
    | exact True.intro
    | intro _
    | with_reducible refine CmdRes.keeps_done ?_
    | with_reducible refine CmdRes.keeps_later ?_
    | with_reducible refine (State.runCmd_ctl _ _ _ _ _ _ _ ?_).trans ?_
    | with_reducible refine (State.fenceSite_ctl ..).trans ?_

theorem execRepairQuery_ctl (r : Nat) (t : Nat) (s : State) : keepsO s.ctl (execRepairQuery r t s) := by
  unfold execRepairQuery
  repeat' first
    | with_reducible rfl
    | with_reducible refine keepsO_next ?_
    | exact True.intro
    | intro _
    | with_reducible refine CmdRes.keeps_done ?_
    | with_reducible refine CmdRes.keeps_later ?_
    | with_reducible refine (State.runCmd_ctl _ _ _ _ _ _ _ ?_).trans ?_

theorem execNoteQuery_ctl (r : Nat) (t : Nat) (s : State) : keepsO s.ctl (execNoteQuery r t s) := by
  unfold execNoteQuery
  repeat' first
    | with_reducible rfl
    | with_reducible refine keepsO_next ?_
    | exact True.intro
    | intro _
    | with_reducible refine CmdRes.keeps_done ?_
    | with_reducible refine CmdRes.keeps_later ?_
    | with_reducible refine (State.runCmd_ctl _ _ _ _ _ _ _ ?_).trans ?_
    | (fail_if_no_progress with_reducible refine (ctl_upd _).trans ?_)
    | dsimp only
    | split

theorem execCaretakerQuery_ctl (r : Nat) (t : Nat) (s : State) : keepsO s.ctl (execCaretakerQuery r t s) := by
  unfold execCaretakerQuery
  repeat' first
    | with_reducible rfl
    | with_reducible refine keepsO_next ?_
    | exact True.intro
    | intro _
    | with_reducible refine CmdRes.keeps_done ?_
    | with_reducible refine CmdRes.keeps_later ?_
    | with_reducible refine (State.runCmd_ctl _ _ _ _ _ _ _ ?_).trans ?_

theorem execCaretakerSet_ctl (r : Nat) (t : Nat) (s : State) : keepsO s.ctl (execCaretakerSet r t s) := by
  unfold execCaretakerSet
  repeat' first
    | with_reducible rfl
    | with_reducible refine keepsO_next ?_
    | exact True.intro
    | intro _
    | with_reducible refine CmdRes.keeps_done ?_
    | with_reducible refine CmdRes.keeps_later ?_
    | with_reducible refine (State.runCmd_ctl _ _ _ _ _ _ _ ?_).trans ?_
    | with_reducible refine (State.modDuty_ctl ..).trans ?_
    | with_reducible refine (foldl_ctl (fun _ _ => ?_) _ _).trans ?_

theorem execI3cPrivateWrite_ctl (bytes : List Byte) (s : State) : keepsO s.ctl (execI3cPrivateWrite bytes s) := by
  unfold execI3cPrivateWrite
  repeat' first
    | with_reducible rfl
    | with_reducible refine keepsO_next ?_
    | with_reducible refine (State.put_ctl ..).trans ?_
    | with_reducible refine (State.releaseAlert_ctl ..).trans ?_
    | with_reducible refine (State.frameGood_ctl ..).trans ?_
    | with_reducible refine (State.modRing_ctl ..).trans ?_
    | with_reducible refine (State.settleRings_ctl ..).trans ?_
    | (fail_if_no_progress with_reducible refine (ctl_upd _).trans ?_)
    | dsimp only
    | split

theorem execI3cPrivateRead_ctl (s : State) : keepsO s.ctl (execI3cPrivateRead s) := by
  unfold execI3cPrivateRead
  repeat' first
    | with_reducible rfl
    | with_reducible refine keepsO_next ?_
    | with_reducible refine (State.put_ctl ..).trans ?_
    | with_reducible refine (State.releaseAlert_ctl ..).trans ?_
    | (fail_if_no_progress with_reducible refine (ctl_upd _).trans ?_)
    | dsimp only
    | split

theorem execEntdaa_ctl (addr : Nat) (s : State) : keepsO s.ctl (execEntdaa addr s) := by
  unfold execEntdaa
  repeat' first
    | with_reducible rfl
    | with_reducible refine keepsO_next ?_
    | (fail_if_no_progress with_reducible refine (ctl_upd _).trans ?_)
    | dsimp only
    | split

theorem execSetdasa_ctl (addr : Nat) (s : State) : keepsO s.ctl (execSetdasa addr s) := by
  unfold execSetdasa
  repeat' first
    | with_reducible rfl
    | with_reducible refine keepsO_next ?_
    | (fail_if_no_progress with_reducible refine (ctl_upd _).trans ?_)
    | dsimp only
    | split

theorem execRstdaa_ctl (s : State) : keepsO s.ctl (execRstdaa s) := by
  unfold execRstdaa
  repeat' first
    | with_reducible rfl
    | with_reducible refine keepsO_next ?_
    | with_reducible refine (State.unbindI3c_ctl ..).trans ?_
    | (fail_if_no_progress with_reducible refine (ctl_upd _).trans ?_)
    | dsimp only
    | split

theorem execGetpid_ctl (s : State) : keepsO s.ctl (execGetpid s) := by
  unfold execGetpid
  repeat' first
    | with_reducible rfl
    | with_reducible refine keepsO_next ?_
    | with_reducible refine (State.i3cAnswer_ctl ..).trans ?_

theorem execGetbcr_ctl (s : State) : keepsO s.ctl (execGetbcr s) := by
  unfold execGetbcr
  repeat' first
    | with_reducible rfl
    | with_reducible refine keepsO_next ?_
    | with_reducible refine (State.i3cAnswer_ctl ..).trans ?_

theorem execGetdcr_ctl (s : State) : keepsO s.ctl (execGetdcr s) := by
  unfold execGetdcr
  repeat' first
    | with_reducible rfl
    | with_reducible refine keepsO_next ?_
    | with_reducible refine (State.i3cAnswer_ctl ..).trans ?_

theorem execGetstatus_ctl (s : State) : keepsO s.ctl (execGetstatus s) := by
  unfold execGetstatus
  repeat' first
    | with_reducible rfl
    | with_reducible refine keepsO_next ?_
    | with_reducible refine (State.i3cAnswer_ctl ..).trans ?_

theorem execEnec_ctl (s : State) : keepsO s.ctl (execEnec s) := by
  unfold execEnec
  repeat' first
    | with_reducible rfl
    | with_reducible refine keepsO_next ?_

theorem execDisec_ctl (s : State) : keepsO s.ctl (execDisec s) := by
  unfold execDisec
  repeat' first
    | with_reducible rfl
    | with_reducible refine keepsO_next ?_

theorem execPerstRelease_ctl (s : State) : keepsO s.ctl (execPerstRelease s) := by
  unfold execPerstRelease
  repeat' first
    | with_reducible rfl
    | with_reducible refine keepsO_next ?_
    | (fail_if_no_progress with_reducible refine (ctl_upd _).trans ?_)
    | dsimp only
    | split
    | (fail_if_no_progress refine (ctl_upd2 _ ⟨rfl, rfl, rfl, rfl, rfl, rfl, rfl, rfl, rfl, rfl, rfl, rfl, rfl, rfl, rfl⟩).trans ?_)

theorem execPerstAssert_ctl (s : State) : keepsO s.ctl (execPerstAssert s) := by
  unfold execPerstAssert
  extract_lets t
  have h : t.ctl = s.ctl := ctl_ite (State.flrAll_ctl ..) rfl
  clear_value t
  exact keepsO_next ((State.settleRings_ctl _).trans (Eq.trans rfl h))

theorem execSeatInChange_ctl (level : Bool) (s : State) : keepsO s.ctl (execSeatInChange level s) := by
  unfold execSeatInChange
  repeat' first
    | with_reducible rfl
    | with_reducible refine keepsO_next ?_
    | (fail_if_no_progress with_reducible refine (ctl_upd _).trans ?_)
    | dsimp only
    | split
    | (fail_if_no_progress refine (ctl_upd2 _ ⟨rfl, rfl, rfl, rfl, rfl, rfl, rfl, rfl, rfl, rfl, rfl, rfl, rfl, rfl, rfl⟩).trans ?_)

theorem execCartridgeLatchOpen_ctl (cart : Nat) (s : State) : keepsO s.ctl (execCartridgeLatchOpen cart s) := by
  unfold execCartridgeLatchOpen
  repeat' first
    | with_reducible rfl
    | with_reducible refine keepsO_next ?_
    | with_reducible refine (State.modPort_ctl ..).trans ?_
    | with_reducible refine (State.cartridgeDark_ctl ..).trans ?_
    | with_reducible refine (foldl_ctl (fun _ _ => ?_) _ _).trans ?_
    | with_reducible refine (foldl_fst_ctl (fun _ _ => ?_) _ _).trans ?_
    | (fail_if_no_progress with_reducible refine (ctl_upd _).trans ?_)
    | dsimp only
    | split
    | (fail_if_no_progress refine (ctl_upd2 _ ⟨rfl, rfl, rfl, rfl, rfl, rfl, rfl, rfl, rfl, rfl, rfl, rfl, rfl, rfl, rfl⟩).trans ?_)

theorem execCartridgeLatchClose_ctl (cart : Nat) (s : State) : keepsO s.ctl (execCartridgeLatchClose cart s) := by
  unfold execCartridgeLatchClose
  repeat' first
    | with_reducible rfl
    | with_reducible refine keepsO_next ?_
    | (fail_if_no_progress with_reducible refine (ctl_upd _).trans ?_)
    | dsimp only
    | split
    | (fail_if_no_progress refine (ctl_upd2 _ ⟨rfl, rfl, rfl, rfl, rfl, rfl, rfl, rfl, rfl, rfl, rfl, rfl, rfl, rfl, rfl⟩).trans ?_)

end Sys2Proof.Machine
end

