-- ==== Sys2Proof/Laws/CtlPower.lean ====
section
/-! SUPPORT. What the shared operations of power, start-up and time do to the fields of control: each lemma says it whole. -/

namespace Sys2Proof.Machine

open Sys2Proof

/-- Whether start-up has passed step 4, by the fields of control. -/
def Ctl.past (k : Ctl) : Bool := decide (5 ≤ k.stage) || (k.stage == 4 && (k.fwReady || k.restartCause != 0))

theorem pastStep4_ctl (s : State) : s.power.pastStep4 = s.ctl.past := rfl

@[simp] theorem State.mainOff_ctl (s : State) : s.mainOff.ctl = { s.ctl with mainOn := false, computeReady := false } := by
  have h : ((s.partList.foldl (fun s p => s.endStep p stHwFault) s).endCommands stHwFault).ctl = s.ctl :=
    (State.endCommands_ctl ..).trans (foldl_ctl (fun _ _ => State.endStep_ctl ..) _ _)
  unfold State.mainOff
  dsimp only
  generalize ((s.partList.foldl (fun s p => s.endStep p stHwFault) s).endCommands stHwFault) = t at h ⊢
  rw [← h]
  rfl

@[simp] theorem State.settleSeat_ctl (s : State) : s.settleSeat.ctl = { s.ctl with seatOut := s.ctl.phase == .run && s.ctl.past } := by
  unfold State.settleSeat
  dsimp only
  split
  · rename_i h
    have h : s.power.seatOut = (s.power.phase == .run && s.power.pastStep4) := by simpa using h
    show s.ctl = _
    simp only [pastStep4_ctl] at h
    simp only [State.ctl] at h ⊢
    rw [← h]
  · rfl

@[simp] theorem State.toStep_ctl (s : State) (k : Nat) :
    (s.toStep k).ctl = { s.ctl with stage := k, seatOut := s.ctl.phase == .run && ({ s.ctl with stage := k } : Ctl).past } :=
  State.settleSeat_ctl _

@[simp] theorem State.enterFault_ctl (s : State) (cls : Nat) :
    (s.enterFault cls).ctl =
      if s.ctl.phase == .fault then s.ctl else { s.ctl with mainOn := false, computeReady := false, phase := .fault, seatOut := false } := by
  unfold State.enterFault
  show State.ctl (if s.ctl.phase == .fault then _ else _) = _
  split
  · rfl
  · dsimp only
    refine (State.put_ctl ..).trans ?_
    rw [State.settleSeat_ctl]
    have h : (s.raise 0 9).mainOff.ctl = { s.ctl with mainOn := false, computeReady := false } := by simp
    generalize (s.raise 0 9).mainOff = t at h ⊢
    have h2 : State.ctl { t with power := { t.power with phase := .fault, faultClass := cls } } = { t.ctl with phase := .fault } := rfl
    rw [h2, h]
    rfl

@[simp] theorem State.powerLoss_ctl (s : State) :
    s.powerLoss.ctl = { s.ctl with phase := .off, stage := 0, fwReady := false, restartCause := 0, seatOut := false, mainOn := false
                                   computeReady := false, straps := 0, strapValid := false, recovery := false } := by
  unfold State.powerLoss
  dsimp only
  split <;> split <;> rfl

@[simp] theorem State.beginStart_ctl (s : State) (a b : Bool) :
    (s.beginStart a b).ctl = { s.powerLoss.ctl with tick := 0, sub := 0, phase := .strap, stage := 1 } := rfl

@[simp] theorem State.fwDown_ctl (s : State) (cause : Nat) : (s.fwDown cause).ctl = { s.ctl with fwReady := false, restartCause := cause } := rfl

@[simp] theorem State.intoBank_ctl (s : State) :
    s.intoBank.ctl = if s.ctl.recovery then { s.ctl with recovery := false, fwReady := false, phase := .run, stage := 3, restartCause := 0 }
      else { s.ctl with recovery := false, fwReady := false, restartCause := 2 } := by
  unfold State.intoBank
  show State.ctl (if s.ctl.recovery then _ else _) = _
  split <;> rfl

@[simp] theorem State.countSlot_ctl (s : State) :
    s.countSlot.ctl = if s.ctl.sub = 47 then { s.ctl with slot := s.ctl.slot + 1, tick := s.ctl.tick + 1, sub := 0 }
      else { s.ctl with slot := s.ctl.slot + 1, sub := s.ctl.sub + 1 } := by
  unfold State.countSlot
  show State.ctl (if s.ctl.sub = 47 then _ else _) = _
  split <;> rfl

@[simp] theorem State.strapTime_ctl (s : State) :
    s.strapTime.ctl = if s.ctl.phase == .strap && s.ctl.stage == 1 && decide (250000 ≤ s.ctl.tick) then { s.ctl with stage := 2 } else s.ctl := by
  unfold State.strapTime
  show State.ctl (if s.ctl.phase == .strap && s.ctl.stage == 1 && decide (250000 ≤ s.ctl.tick) then _ else _) = _
  split <;> rfl

/-- A slot that passes moves fabric time and the tick on, and takes start-up from step 1 to step 2 in its time. -/
theorem State.passSlot_ctl (s : State) : s.passSlot.ctl = if s.power.input then s.countSlot.strapTime.ctl else s.ctl := by
  unfold State.passSlot
  cases h : s.power.input <;> simp only [Bool.not_true, Bool.not_false, Bool.false_eq_true, if_true, if_false]
  refine (State.countThrottle_ctl ..).trans ((State.slotCores_ctl ..).trans ((foldl_ctl (fun _ _ => State.slotPart_ctl ..) _ _).trans
    ((foldl_ctl (fun _ _ => State.slotStack_ctl ..) _ _).trans (State.beatFirmware_ctl ..))))

@[simp] theorem State.partitionSet_ctl (s : State) (n : Nat) : (s.partitionSet n).ctl = { s.ctl with count := n } := by
  unfold State.partitionSet
  extract_lets draw
  have h : ∀ t : State, (draw t).ctl = t.ctl := fun t => ctl_ite (foldl_ctl (fun _ _ => State.drawKeys_ctl ..) _ _) rfl
  exact (h _).trans rfl

end Sys2Proof.Machine
end

