-- ==== Sys2Proof/Laws/Table.lean ====
section
/-! SUPPORT. The laws of the sparse tables: a read after a write to the same number gives the value written, a write leaves every other
number alone, and writing keeps the canonical form. -/

namespace Sys2Proof.Machine

variable {α : Type}

theorem tget_filter_self (d : α) (k : Nat) : ∀ m : SMap α, tget d (m.filter fun e => e.1 != k) k = d
  | [] => rfl
  | (i, v) :: m => by
    by_cases h : i = k
    · simpa [h] using tget_filter_self d k m
    · simp [h, tget, tget_filter_self d k m]

theorem tget_filter_ne (d : α) (k j : Nat) (h : j ≠ k) : ∀ m : SMap α, tget d (m.filter fun e => e.1 != k) j = tget d m j
  | [] => rfl
  | (i, v) :: m => by
    by_cases hi : i = k
    · subst hi
      simpa [tget, Ne.symm h] using tget_filter_ne d i j h m
    · simp [hi, tget, tget_filter_ne d k j h m]

theorem tget_tins_self (d v : α) (k : Nat) : ∀ m : SMap α, (∀ e ∈ m, e.1 ≠ k) → tget d (tins k v m) k = v
  | [], _ => by simp [tins, tget]
  | (i, w) :: m, h => by
    have hi : i ≠ k := h (i, w) (by simp)
    by_cases hk : k < i
    · simp [tins, hk, tget]
    · simpa [tins, hk, tget, hi] using tget_tins_self d v k m fun e he => h e (by simp [he])

theorem tget_tins_ne (d v : α) (k j : Nat) (h : j ≠ k) : ∀ m : SMap α, tget d (tins k v m) j = tget d m j
  | [] => by simp [tins, tget, Ne.symm h]
  | (i, w) :: m => by
    by_cases hk : k < i
    · simp [tins, hk, tget, Ne.symm h]
    · simp [tins, hk, tget, tget_tins_ne d v k j h m]

/-- A table in form from a number is in form from every number below it. -/
theorem twfFrom_mono [DecidableEq α] (d : α) :
    ∀ (m : SMap α) (lo lo' : Nat), twfFrom d lo m = true → lo' ≤ lo → twfFrom d lo' m = true
  | [], _, _, _, _ => rfl
  | (i, v) :: m, lo, lo', h, hl => by
    simp only [twfFrom, Bool.and_eq_true, decide_eq_true_eq] at h ⊢
    exact ⟨⟨by omega, h.1.2⟩, h.2⟩

theorem twfFrom_filter [DecidableEq α] (d : α) (p : Nat × α → Bool) :
    ∀ (m : SMap α) (lo : Nat), twfFrom d lo m = true → twfFrom d lo (m.filter p) = true
  | [], _, _ => rfl
  | (i, v) :: m, lo, h => by
    simp only [twfFrom, Bool.and_eq_true, decide_eq_true_eq] at h
    have hm := twfFrom_filter d p m (i + 1) h.2
    by_cases hp : p (i, v) = true
    · simp only [List.filter_cons, hp, if_true, twfFrom, Bool.and_eq_true, decide_eq_true_eq]
      exact ⟨h.1, hm⟩
    · simp only [List.filter_cons, hp, Bool.false_eq_true, if_false]
      exact twfFrom_mono d _ _ _ hm (by omega)

theorem twfFrom_tins [DecidableEq α] (d v : α) (hv : v ≠ d) (k : Nat) :
    ∀ (m : SMap α) (lo : Nat), twfFrom d lo m = true → (∀ e ∈ m, e.1 ≠ k) → lo ≤ k → twfFrom d lo (tins k v m) = true
  | [], lo, _, _, hk => by simp [tins, twfFrom, hv, hk]
  | (i, w) :: m, lo, h, hn, hk => by
    have hi : i ≠ k := hn (i, w) (by simp)
    simp only [twfFrom, Bool.and_eq_true, decide_eq_true_eq] at h
    by_cases h1 : k < i
    · simp only [tins, h1, if_true, twfFrom, Bool.and_eq_true, decide_eq_true_eq]
      exact ⟨⟨hk, hv⟩, ⟨by omega, h.1.2⟩, h.2⟩
    · simp only [tins, h1, if_false, twfFrom, Bool.and_eq_true, decide_eq_true_eq]
      exact ⟨h.1, twfFrom_tins d v hv k m (i + 1) h.2 (fun e he => hn e (by simp [he])) (by omega)⟩

theorem filter_keys (k : Nat) (m : SMap α) : ∀ e ∈ m.filter (fun e => e.1 != k), e.1 ≠ k := by
  intro e he
  simpa using (List.mem_filter.mp he).2

variable [DecidableEq α]

/-- A read after a write to the same number gives the value written. -/
theorem tget_tset_self (d : α) (m : SMap α) (k : Nat) (v : α) : tget d (tset d m k v) k = v := by
  by_cases h : v = d
  · simp [tset, h, tget_filter_self]
  · simp only [tset, h, if_false]
    exact tget_tins_self d v k _ (filter_keys k m)

/-- A write leaves every other number alone. -/
theorem tget_tset_ne (d : α) (m : SMap α) (k : Nat) (v : α) (j : Nat) (h : j ≠ k) : tget d (tset d m k v) j = tget d m j := by
  by_cases hv : v = d
  · simp [tset, hv, tget_filter_ne d k j h]
  · simp [tset, hv, tget_tins_ne d v k j h, tget_filter_ne d k j h]

/-- A write keeps the canonical form. -/
theorem twf_tset (d : α) (m : SMap α) (k : Nat) (v : α) (h : twf d m = true) : twf d (tset d m k v) = true := by
  have hf : twfFrom d 0 (m.filter fun e => e.1 != k) = true := twfFrom_filter d _ m 0 h
  by_cases hv : v = d
  · simpa [tset, twf, hv] using hf
  · simpa [tset, twf, hv] using twfFrom_tins d v hv k _ 0 hf (filter_keys k m) (Nat.zero_le k)

theorem twf_tmod (d : α) (m : SMap α) (k : Nat) (f : α → α) (h : twf d m = true) : twf d (tmod d m k f) = true :=
  twf_tset d m k _ h

theorem twf_tsetAll (d : α) : ∀ (l : List (Nat × α)) (m : SMap α), twf d m = true → twf d (tsetAll d m l) = true
  | [], _, h => h
  | (k, v) :: l, m, h => twf_tsetAll d l (tset d m k v) (twf_tset d m k v h)

/-- Leaving entries out keeps the canonical form. -/
theorem twf_filter (d : α) (p : Nat × α → Bool) (m : SMap α) (h : twf d m = true) : twf d (m.filter p) = true :=
  twfFrom_filter d p m 0 h

end Sys2Proof.Machine
end

