-- ==== Sys2Proof/Laws/State.lean ====
section
/-! SUPPORT. What each update of the state leaves: one lemma per field and per accessor for every update of a numbered part, and for an output. -/

namespace Sys2Proof.Machine

open Sys2Proof

section
variable (s : State) (k j : Nat) (v : Core) (g : Core → Core)

@[simp] theorem State.modCore_eq : s.modCore k g = s.setCore k (g (s.core k)) := rfl
@[simp] theorem State.setCore_cores : (s.setCore k v).cores = tset {} s.cores k v := rfl
@[simp] theorem State.setCore_slot : (s.setCore k v).slot = s.slot := rfl
@[simp] theorem State.setCore_tick : (s.setCore k v).tick = s.tick := rfl
@[simp] theorem State.setCore_sub : (s.setCore k v).sub = s.sub := rfl
@[simp] theorem State.setCore_power : (s.setCore k v).power = s.power := rfl
@[simp] theorem State.setCore_count : (s.setCore k v).count = s.count := rfl
@[simp] theorem State.setCore_parts : (s.setCore k v).parts = s.parts := rfl
@[simp] theorem State.setCore_sites : (s.setCore k v).sites = s.sites := rfl
@[simp] theorem State.setCore_slices : (s.setCore k v).slices = s.slices := rfl
@[simp] theorem State.setCore_cloaks : (s.setCore k v).cloaks = s.cloaks := rfl
@[simp] theorem State.setCore_edges : (s.setCore k v).edges = s.edges := rfl
@[simp] theorem State.setCore_hbm : (s.setCore k v).hbm = s.hbm := rfl
@[simp] theorem State.setCore_ports : (s.setCore k v).ports = s.ports := rfl
@[simp] theorem State.setCore_beat : (s.setCore k v).beat = s.beat := rfl
@[simp] theorem State.setCore_form : (s.setCore k v).form = s.form := rfl
@[simp] theorem State.setCore_bellIn : (s.setCore k v).bellIn = s.bellIn := rfl
@[simp] theorem State.setCore_pktIn : (s.setCore k v).pktIn = s.pktIn := rfl
@[simp] theorem State.setCore_rings : (s.setCore k v).rings = s.rings := rfl
@[simp] theorem State.setCore_fns : (s.setCore k v).fns = s.fns := rfl
@[simp] theorem State.setCore_sec : (s.setCore k v).sec = s.sec := rfl
@[simp] theorem State.setCore_care : (s.setCore k v).care = s.care := rfl
@[simp] theorem State.setCore_i3c : (s.setCore k v).i3c = s.i3c := rfl
@[simp] theorem State.setCore_fresh : (s.setCore k v).fresh = s.fresh := rfl
@[simp] theorem State.setCore_out : (s.setCore k v).out = s.out := rfl
@[simp] theorem State.setCore_pending : (s.setCore k v).pending = s.pending := rfl
@[simp] theorem State.setCore_part : (s.setCore k v).part j = s.part j := rfl
@[simp] theorem State.setCore_site : (s.setCore k v).site j = s.site j := rfl
@[simp] theorem State.setCore_slice : (s.setCore k v).slice j = s.slice j := rfl
@[simp] theorem State.setCore_cloak : (s.setCore k v).cloak j = s.cloak j := rfl
@[simp] theorem State.setCore_edge : (s.setCore k v).edge j = s.edge j := rfl
@[simp] theorem State.setCore_stack : (s.setCore k v).stack j = s.stack j := rfl
@[simp] theorem State.setCore_port : (s.setCore k v).port j = s.port j := rfl
@[simp] theorem State.setCore_ring : (s.setCore k v).ring j = s.ring j := rfl
@[simp] theorem State.setCore_fn : (s.setCore k v).fn j = s.fn j := rfl
@[simp] theorem State.setCore_core_self : (s.setCore k v).core k = v := tget_tset_self (α := Core) {} s.cores k v
theorem State.setCore_core_ne (h : j ≠ k) : (s.setCore k v).core j = s.core j := tget_tset_ne (α := Core) {} s.cores k v j h

end

section
variable (s : State) (k j : Nat) (v : Part) (g : Part → Part)

@[simp] theorem State.modPart_eq : s.modPart k g = s.setPart k (g (s.part k)) := rfl
@[simp] theorem State.setPart_parts : (s.setPart k v).parts = tset {} s.parts k v := rfl
@[simp] theorem State.setPart_slot : (s.setPart k v).slot = s.slot := rfl
@[simp] theorem State.setPart_tick : (s.setPart k v).tick = s.tick := rfl
@[simp] theorem State.setPart_sub : (s.setPart k v).sub = s.sub := rfl
@[simp] theorem State.setPart_power : (s.setPart k v).power = s.power := rfl
@[simp] theorem State.setPart_count : (s.setPart k v).count = s.count := rfl
@[simp] theorem State.setPart_cores : (s.setPart k v).cores = s.cores := rfl
@[simp] theorem State.setPart_sites : (s.setPart k v).sites = s.sites := rfl
@[simp] theorem State.setPart_slices : (s.setPart k v).slices = s.slices := rfl
@[simp] theorem State.setPart_cloaks : (s.setPart k v).cloaks = s.cloaks := rfl
@[simp] theorem State.setPart_edges : (s.setPart k v).edges = s.edges := rfl
@[simp] theorem State.setPart_hbm : (s.setPart k v).hbm = s.hbm := rfl
@[simp] theorem State.setPart_ports : (s.setPart k v).ports = s.ports := rfl
@[simp] theorem State.setPart_beat : (s.setPart k v).beat = s.beat := rfl
@[simp] theorem State.setPart_form : (s.setPart k v).form = s.form := rfl
@[simp] theorem State.setPart_bellIn : (s.setPart k v).bellIn = s.bellIn := rfl
@[simp] theorem State.setPart_pktIn : (s.setPart k v).pktIn = s.pktIn := rfl
@[simp] theorem State.setPart_rings : (s.setPart k v).rings = s.rings := rfl
@[simp] theorem State.setPart_fns : (s.setPart k v).fns = s.fns := rfl
@[simp] theorem State.setPart_sec : (s.setPart k v).sec = s.sec := rfl
@[simp] theorem State.setPart_care : (s.setPart k v).care = s.care := rfl
@[simp] theorem State.setPart_i3c : (s.setPart k v).i3c = s.i3c := rfl
@[simp] theorem State.setPart_fresh : (s.setPart k v).fresh = s.fresh := rfl
@[simp] theorem State.setPart_out : (s.setPart k v).out = s.out := rfl
@[simp] theorem State.setPart_pending : (s.setPart k v).pending = s.pending := rfl
@[simp] theorem State.setPart_core : (s.setPart k v).core j = s.core j := rfl
@[simp] theorem State.setPart_site : (s.setPart k v).site j = s.site j := rfl
@[simp] theorem State.setPart_slice : (s.setPart k v).slice j = s.slice j := rfl
@[simp] theorem State.setPart_cloak : (s.setPart k v).cloak j = s.cloak j := rfl
@[simp] theorem State.setPart_edge : (s.setPart k v).edge j = s.edge j := rfl
@[simp] theorem State.setPart_stack : (s.setPart k v).stack j = s.stack j := rfl
@[simp] theorem State.setPart_port : (s.setPart k v).port j = s.port j := rfl
@[simp] theorem State.setPart_ring : (s.setPart k v).ring j = s.ring j := rfl
@[simp] theorem State.setPart_fn : (s.setPart k v).fn j = s.fn j := rfl
@[simp] theorem State.setPart_part_self : (s.setPart k v).part k = v := tget_tset_self (α := Part) {} s.parts k v
theorem State.setPart_part_ne (h : j ≠ k) : (s.setPart k v).part j = s.part j := tget_tset_ne (α := Part) {} s.parts k v j h

end

section
variable (s : State) (k j : Nat) (v : Site) (g : Site → Site)

@[simp] theorem State.modSite_eq : s.modSite k g = s.setSite k (g (s.site k)) := rfl
@[simp] theorem State.setSite_sites : (s.setSite k v).sites = tset {} s.sites k v := rfl
@[simp] theorem State.setSite_slot : (s.setSite k v).slot = s.slot := rfl
@[simp] theorem State.setSite_tick : (s.setSite k v).tick = s.tick := rfl
@[simp] theorem State.setSite_sub : (s.setSite k v).sub = s.sub := rfl
@[simp] theorem State.setSite_power : (s.setSite k v).power = s.power := rfl
@[simp] theorem State.setSite_count : (s.setSite k v).count = s.count := rfl
@[simp] theorem State.setSite_parts : (s.setSite k v).parts = s.parts := rfl
@[simp] theorem State.setSite_cores : (s.setSite k v).cores = s.cores := rfl
@[simp] theorem State.setSite_slices : (s.setSite k v).slices = s.slices := rfl
@[simp] theorem State.setSite_cloaks : (s.setSite k v).cloaks = s.cloaks := rfl
@[simp] theorem State.setSite_edges : (s.setSite k v).edges = s.edges := rfl
@[simp] theorem State.setSite_hbm : (s.setSite k v).hbm = s.hbm := rfl
@[simp] theorem State.setSite_ports : (s.setSite k v).ports = s.ports := rfl
@[simp] theorem State.setSite_beat : (s.setSite k v).beat = s.beat := rfl
@[simp] theorem State.setSite_form : (s.setSite k v).form = s.form := rfl
@[simp] theorem State.setSite_bellIn : (s.setSite k v).bellIn = s.bellIn := rfl
@[simp] theorem State.setSite_pktIn : (s.setSite k v).pktIn = s.pktIn := rfl
@[simp] theorem State.setSite_rings : (s.setSite k v).rings = s.rings := rfl
@[simp] theorem State.setSite_fns : (s.setSite k v).fns = s.fns := rfl
@[simp] theorem State.setSite_sec : (s.setSite k v).sec = s.sec := rfl
@[simp] theorem State.setSite_care : (s.setSite k v).care = s.care := rfl
@[simp] theorem State.setSite_i3c : (s.setSite k v).i3c = s.i3c := rfl
@[simp] theorem State.setSite_fresh : (s.setSite k v).fresh = s.fresh := rfl
@[simp] theorem State.setSite_out : (s.setSite k v).out = s.out := rfl
@[simp] theorem State.setSite_pending : (s.setSite k v).pending = s.pending := rfl
@[simp] theorem State.setSite_core : (s.setSite k v).core j = s.core j := rfl
@[simp] theorem State.setSite_part : (s.setSite k v).part j = s.part j := rfl
@[simp] theorem State.setSite_slice : (s.setSite k v).slice j = s.slice j := rfl
@[simp] theorem State.setSite_cloak : (s.setSite k v).cloak j = s.cloak j := rfl
@[simp] theorem State.setSite_edge : (s.setSite k v).edge j = s.edge j := rfl
@[simp] theorem State.setSite_stack : (s.setSite k v).stack j = s.stack j := rfl
@[simp] theorem State.setSite_port : (s.setSite k v).port j = s.port j := rfl
@[simp] theorem State.setSite_ring : (s.setSite k v).ring j = s.ring j := rfl
@[simp] theorem State.setSite_fn : (s.setSite k v).fn j = s.fn j := rfl
@[simp] theorem State.setSite_site_self : (s.setSite k v).site k = v := tget_tset_self (α := Site) {} s.sites k v
theorem State.setSite_site_ne (h : j ≠ k) : (s.setSite k v).site j = s.site j := tget_tset_ne (α := Site) {} s.sites k v j h

end

section
variable (s : State) (k j : Nat) (v : Slice) (g : Slice → Slice)

@[simp] theorem State.modSlice_eq : s.modSlice k g = s.setSlice k (g (s.slice k)) := rfl
@[simp] theorem State.setSlice_slices : (s.setSlice k v).slices = tset {} s.slices k v := rfl
@[simp] theorem State.setSlice_slot : (s.setSlice k v).slot = s.slot := rfl
@[simp] theorem State.setSlice_tick : (s.setSlice k v).tick = s.tick := rfl
@[simp] theorem State.setSlice_sub : (s.setSlice k v).sub = s.sub := rfl
@[simp] theorem State.setSlice_power : (s.setSlice k v).power = s.power := rfl
@[simp] theorem State.setSlice_count : (s.setSlice k v).count = s.count := rfl
@[simp] theorem State.setSlice_parts : (s.setSlice k v).parts = s.parts := rfl
@[simp] theorem State.setSlice_cores : (s.setSlice k v).cores = s.cores := rfl
@[simp] theorem State.setSlice_sites : (s.setSlice k v).sites = s.sites := rfl
@[simp] theorem State.setSlice_cloaks : (s.setSlice k v).cloaks = s.cloaks := rfl
@[simp] theorem State.setSlice_edges : (s.setSlice k v).edges = s.edges := rfl
@[simp] theorem State.setSlice_hbm : (s.setSlice k v).hbm = s.hbm := rfl
@[simp] theorem State.setSlice_ports : (s.setSlice k v).ports = s.ports := rfl
@[simp] theorem State.setSlice_beat : (s.setSlice k v).beat = s.beat := rfl
@[simp] theorem State.setSlice_form : (s.setSlice k v).form = s.form := rfl
@[simp] theorem State.setSlice_bellIn : (s.setSlice k v).bellIn = s.bellIn := rfl
@[simp] theorem State.setSlice_pktIn : (s.setSlice k v).pktIn = s.pktIn := rfl
@[simp] theorem State.setSlice_rings : (s.setSlice k v).rings = s.rings := rfl
@[simp] theorem State.setSlice_fns : (s.setSlice k v).fns = s.fns := rfl
@[simp] theorem State.setSlice_sec : (s.setSlice k v).sec = s.sec := rfl
@[simp] theorem State.setSlice_care : (s.setSlice k v).care = s.care := rfl
@[simp] theorem State.setSlice_i3c : (s.setSlice k v).i3c = s.i3c := rfl
@[simp] theorem State.setSlice_fresh : (s.setSlice k v).fresh = s.fresh := rfl
@[simp] theorem State.setSlice_out : (s.setSlice k v).out = s.out := rfl
@[simp] theorem State.setSlice_pending : (s.setSlice k v).pending = s.pending := rfl
@[simp] theorem State.setSlice_core : (s.setSlice k v).core j = s.core j := rfl
@[simp] theorem State.setSlice_part : (s.setSlice k v).part j = s.part j := rfl
@[simp] theorem State.setSlice_site : (s.setSlice k v).site j = s.site j := rfl
@[simp] theorem State.setSlice_cloak : (s.setSlice k v).cloak j = s.cloak j := rfl
@[simp] theorem State.setSlice_edge : (s.setSlice k v).edge j = s.edge j := rfl
@[simp] theorem State.setSlice_stack : (s.setSlice k v).stack j = s.stack j := rfl
@[simp] theorem State.setSlice_port : (s.setSlice k v).port j = s.port j := rfl
@[simp] theorem State.setSlice_ring : (s.setSlice k v).ring j = s.ring j := rfl
@[simp] theorem State.setSlice_fn : (s.setSlice k v).fn j = s.fn j := rfl
@[simp] theorem State.setSlice_slice_self : (s.setSlice k v).slice k = v := tget_tset_self (α := Slice) {} s.slices k v
theorem State.setSlice_slice_ne (h : j ≠ k) : (s.setSlice k v).slice j = s.slice j := tget_tset_ne (α := Slice) {} s.slices k v j h

end

section
variable (s : State) (k j : Nat) (v : Cloak) (g : Cloak → Cloak)

@[simp] theorem State.modCloak_eq : s.modCloak k g = s.setCloak k (g (s.cloak k)) := rfl
@[simp] theorem State.setCloak_cloaks : (s.setCloak k v).cloaks = tset {} s.cloaks k v := rfl
@[simp] theorem State.setCloak_slot : (s.setCloak k v).slot = s.slot := rfl
@[simp] theorem State.setCloak_tick : (s.setCloak k v).tick = s.tick := rfl
@[simp] theorem State.setCloak_sub : (s.setCloak k v).sub = s.sub := rfl
@[simp] theorem State.setCloak_power : (s.setCloak k v).power = s.power := rfl
@[simp] theorem State.setCloak_count : (s.setCloak k v).count = s.count := rfl
@[simp] theorem State.setCloak_parts : (s.setCloak k v).parts = s.parts := rfl
@[simp] theorem State.setCloak_cores : (s.setCloak k v).cores = s.cores := rfl
@[simp] theorem State.setCloak_sites : (s.setCloak k v).sites = s.sites := rfl
@[simp] theorem State.setCloak_slices : (s.setCloak k v).slices = s.slices := rfl
@[simp] theorem State.setCloak_edges : (s.setCloak k v).edges = s.edges := rfl
@[simp] theorem State.setCloak_hbm : (s.setCloak k v).hbm = s.hbm := rfl
@[simp] theorem State.setCloak_ports : (s.setCloak k v).ports = s.ports := rfl
@[simp] theorem State.setCloak_beat : (s.setCloak k v).beat = s.beat := rfl
@[simp] theorem State.setCloak_form : (s.setCloak k v).form = s.form := rfl
@[simp] theorem State.setCloak_bellIn : (s.setCloak k v).bellIn = s.bellIn := rfl
@[simp] theorem State.setCloak_pktIn : (s.setCloak k v).pktIn = s.pktIn := rfl
@[simp] theorem State.setCloak_rings : (s.setCloak k v).rings = s.rings := rfl
@[simp] theorem State.setCloak_fns : (s.setCloak k v).fns = s.fns := rfl
@[simp] theorem State.setCloak_sec : (s.setCloak k v).sec = s.sec := rfl
@[simp] theorem State.setCloak_care : (s.setCloak k v).care = s.care := rfl
@[simp] theorem State.setCloak_i3c : (s.setCloak k v).i3c = s.i3c := rfl
@[simp] theorem State.setCloak_fresh : (s.setCloak k v).fresh = s.fresh := rfl
@[simp] theorem State.setCloak_out : (s.setCloak k v).out = s.out := rfl
@[simp] theorem State.setCloak_pending : (s.setCloak k v).pending = s.pending := rfl
@[simp] theorem State.setCloak_core : (s.setCloak k v).core j = s.core j := rfl
@[simp] theorem State.setCloak_part : (s.setCloak k v).part j = s.part j := rfl
@[simp] theorem State.setCloak_site : (s.setCloak k v).site j = s.site j := rfl
@[simp] theorem State.setCloak_slice : (s.setCloak k v).slice j = s.slice j := rfl
@[simp] theorem State.setCloak_edge : (s.setCloak k v).edge j = s.edge j := rfl
@[simp] theorem State.setCloak_stack : (s.setCloak k v).stack j = s.stack j := rfl
@[simp] theorem State.setCloak_port : (s.setCloak k v).port j = s.port j := rfl
@[simp] theorem State.setCloak_ring : (s.setCloak k v).ring j = s.ring j := rfl
@[simp] theorem State.setCloak_fn : (s.setCloak k v).fn j = s.fn j := rfl
@[simp] theorem State.setCloak_cloak_self : (s.setCloak k v).cloak k = v := tget_tset_self (α := Cloak) {} s.cloaks k v
theorem State.setCloak_cloak_ne (h : j ≠ k) : (s.setCloak k v).cloak j = s.cloak j := tget_tset_ne (α := Cloak) {} s.cloaks k v j h

end

section
variable (s : State) (k j : Nat) (v : Edge) (g : Edge → Edge)

@[simp] theorem State.modEdge_eq : s.modEdge k g = s.setEdge k (g (s.edge k)) := rfl
@[simp] theorem State.setEdge_edges : (s.setEdge k v).edges = tset {} s.edges k v := rfl
@[simp] theorem State.setEdge_slot : (s.setEdge k v).slot = s.slot := rfl
@[simp] theorem State.setEdge_tick : (s.setEdge k v).tick = s.tick := rfl
@[simp] theorem State.setEdge_sub : (s.setEdge k v).sub = s.sub := rfl
@[simp] theorem State.setEdge_power : (s.setEdge k v).power = s.power := rfl
@[simp] theorem State.setEdge_count : (s.setEdge k v).count = s.count := rfl
@[simp] theorem State.setEdge_parts : (s.setEdge k v).parts = s.parts := rfl
@[simp] theorem State.setEdge_cores : (s.setEdge k v).cores = s.cores := rfl
@[simp] theorem State.setEdge_sites : (s.setEdge k v).sites = s.sites := rfl
@[simp] theorem State.setEdge_slices : (s.setEdge k v).slices = s.slices := rfl
@[simp] theorem State.setEdge_cloaks : (s.setEdge k v).cloaks = s.cloaks := rfl
@[simp] theorem State.setEdge_hbm : (s.setEdge k v).hbm = s.hbm := rfl
@[simp] theorem State.setEdge_ports : (s.setEdge k v).ports = s.ports := rfl
@[simp] theorem State.setEdge_beat : (s.setEdge k v).beat = s.beat := rfl
@[simp] theorem State.setEdge_form : (s.setEdge k v).form = s.form := rfl
@[simp] theorem State.setEdge_bellIn : (s.setEdge k v).bellIn = s.bellIn := rfl
@[simp] theorem State.setEdge_pktIn : (s.setEdge k v).pktIn = s.pktIn := rfl
@[simp] theorem State.setEdge_rings : (s.setEdge k v).rings = s.rings := rfl
@[simp] theorem State.setEdge_fns : (s.setEdge k v).fns = s.fns := rfl
@[simp] theorem State.setEdge_sec : (s.setEdge k v).sec = s.sec := rfl
@[simp] theorem State.setEdge_care : (s.setEdge k v).care = s.care := rfl
@[simp] theorem State.setEdge_i3c : (s.setEdge k v).i3c = s.i3c := rfl
@[simp] theorem State.setEdge_fresh : (s.setEdge k v).fresh = s.fresh := rfl
@[simp] theorem State.setEdge_out : (s.setEdge k v).out = s.out := rfl
@[simp] theorem State.setEdge_pending : (s.setEdge k v).pending = s.pending := rfl
@[simp] theorem State.setEdge_core : (s.setEdge k v).core j = s.core j := rfl
@[simp] theorem State.setEdge_part : (s.setEdge k v).part j = s.part j := rfl
@[simp] theorem State.setEdge_site : (s.setEdge k v).site j = s.site j := rfl
@[simp] theorem State.setEdge_slice : (s.setEdge k v).slice j = s.slice j := rfl
@[simp] theorem State.setEdge_cloak : (s.setEdge k v).cloak j = s.cloak j := rfl
@[simp] theorem State.setEdge_stack : (s.setEdge k v).stack j = s.stack j := rfl
@[simp] theorem State.setEdge_port : (s.setEdge k v).port j = s.port j := rfl
@[simp] theorem State.setEdge_ring : (s.setEdge k v).ring j = s.ring j := rfl
@[simp] theorem State.setEdge_fn : (s.setEdge k v).fn j = s.fn j := rfl
@[simp] theorem State.setEdge_edge_self : (s.setEdge k v).edge k = v := tget_tset_self (α := Edge) {} s.edges k v
theorem State.setEdge_edge_ne (h : j ≠ k) : (s.setEdge k v).edge j = s.edge j := tget_tset_ne (α := Edge) {} s.edges k v j h

end

section
variable (s : State) (k j : Nat) (v : Stack) (g : Stack → Stack)

@[simp] theorem State.modStack_eq : s.modStack k g = s.setStack k (g (s.stack k)) := rfl
@[simp] theorem State.setStack_hbm : (s.setStack k v).hbm = tset {} s.hbm k v := rfl
@[simp] theorem State.setStack_slot : (s.setStack k v).slot = s.slot := rfl
@[simp] theorem State.setStack_tick : (s.setStack k v).tick = s.tick := rfl
@[simp] theorem State.setStack_sub : (s.setStack k v).sub = s.sub := rfl
@[simp] theorem State.setStack_power : (s.setStack k v).power = s.power := rfl
@[simp] theorem State.setStack_count : (s.setStack k v).count = s.count := rfl
@[simp] theorem State.setStack_parts : (s.setStack k v).parts = s.parts := rfl
@[simp] theorem State.setStack_cores : (s.setStack k v).cores = s.cores := rfl
@[simp] theorem State.setStack_sites : (s.setStack k v).sites = s.sites := rfl
@[simp] theorem State.setStack_slices : (s.setStack k v).slices = s.slices := rfl
@[simp] theorem State.setStack_cloaks : (s.setStack k v).cloaks = s.cloaks := rfl
@[simp] theorem State.setStack_edges : (s.setStack k v).edges = s.edges := rfl
@[simp] theorem State.setStack_ports : (s.setStack k v).ports = s.ports := rfl
@[simp] theorem State.setStack_beat : (s.setStack k v).beat = s.beat := rfl
@[simp] theorem State.setStack_form : (s.setStack k v).form = s.form := rfl
@[simp] theorem State.setStack_bellIn : (s.setStack k v).bellIn = s.bellIn := rfl
@[simp] theorem State.setStack_pktIn : (s.setStack k v).pktIn = s.pktIn := rfl
@[simp] theorem State.setStack_rings : (s.setStack k v).rings = s.rings := rfl
@[simp] theorem State.setStack_fns : (s.setStack k v).fns = s.fns := rfl
@[simp] theorem State.setStack_sec : (s.setStack k v).sec = s.sec := rfl
@[simp] theorem State.setStack_care : (s.setStack k v).care = s.care := rfl
@[simp] theorem State.setStack_i3c : (s.setStack k v).i3c = s.i3c := rfl
@[simp] theorem State.setStack_fresh : (s.setStack k v).fresh = s.fresh := rfl
@[simp] theorem State.setStack_out : (s.setStack k v).out = s.out := rfl
@[simp] theorem State.setStack_pending : (s.setStack k v).pending = s.pending := rfl
@[simp] theorem State.setStack_core : (s.setStack k v).core j = s.core j := rfl
@[simp] theorem State.setStack_part : (s.setStack k v).part j = s.part j := rfl
@[simp] theorem State.setStack_site : (s.setStack k v).site j = s.site j := rfl
@[simp] theorem State.setStack_slice : (s.setStack k v).slice j = s.slice j := rfl
@[simp] theorem State.setStack_cloak : (s.setStack k v).cloak j = s.cloak j := rfl
@[simp] theorem State.setStack_edge : (s.setStack k v).edge j = s.edge j := rfl
@[simp] theorem State.setStack_port : (s.setStack k v).port j = s.port j := rfl
@[simp] theorem State.setStack_ring : (s.setStack k v).ring j = s.ring j := rfl
@[simp] theorem State.setStack_fn : (s.setStack k v).fn j = s.fn j := rfl
@[simp] theorem State.setStack_stack_self : (s.setStack k v).stack k = v := tget_tset_self (α := Stack) {} s.hbm k v
theorem State.setStack_stack_ne (h : j ≠ k) : (s.setStack k v).stack j = s.stack j := tget_tset_ne (α := Stack) {} s.hbm k v j h

end

section
variable (s : State) (k j : Nat) (v : Port) (g : Port → Port)

@[simp] theorem State.modPort_eq : s.modPort k g = s.setPort k (g (s.port k)) := rfl
@[simp] theorem State.setPort_ports : (s.setPort k v).ports = tset {} s.ports k v := rfl
@[simp] theorem State.setPort_slot : (s.setPort k v).slot = s.slot := rfl
@[simp] theorem State.setPort_tick : (s.setPort k v).tick = s.tick := rfl
@[simp] theorem State.setPort_sub : (s.setPort k v).sub = s.sub := rfl
@[simp] theorem State.setPort_power : (s.setPort k v).power = s.power := rfl
@[simp] theorem State.setPort_count : (s.setPort k v).count = s.count := rfl
@[simp] theorem State.setPort_parts : (s.setPort k v).parts = s.parts := rfl
@[simp] theorem State.setPort_cores : (s.setPort k v).cores = s.cores := rfl
@[simp] theorem State.setPort_sites : (s.setPort k v).sites = s.sites := rfl
@[simp] theorem State.setPort_slices : (s.setPort k v).slices = s.slices := rfl
@[simp] theorem State.setPort_cloaks : (s.setPort k v).cloaks = s.cloaks := rfl
@[simp] theorem State.setPort_edges : (s.setPort k v).edges = s.edges := rfl
@[simp] theorem State.setPort_hbm : (s.setPort k v).hbm = s.hbm := rfl
@[simp] theorem State.setPort_beat : (s.setPort k v).beat = s.beat := rfl
@[simp] theorem State.setPort_form : (s.setPort k v).form = s.form := rfl
@[simp] theorem State.setPort_bellIn : (s.setPort k v).bellIn = s.bellIn := rfl
@[simp] theorem State.setPort_pktIn : (s.setPort k v).pktIn = s.pktIn := rfl
@[simp] theorem State.setPort_rings : (s.setPort k v).rings = s.rings := rfl
@[simp] theorem State.setPort_fns : (s.setPort k v).fns = s.fns := rfl
@[simp] theorem State.setPort_sec : (s.setPort k v).sec = s.sec := rfl
@[simp] theorem State.setPort_care : (s.setPort k v).care = s.care := rfl
@[simp] theorem State.setPort_i3c : (s.setPort k v).i3c = s.i3c := rfl
@[simp] theorem State.setPort_fresh : (s.setPort k v).fresh = s.fresh := rfl
@[simp] theorem State.setPort_out : (s.setPort k v).out = s.out := rfl
@[simp] theorem State.setPort_pending : (s.setPort k v).pending = s.pending := rfl
@[simp] theorem State.setPort_core : (s.setPort k v).core j = s.core j := rfl
@[simp] theorem State.setPort_part : (s.setPort k v).part j = s.part j := rfl
@[simp] theorem State.setPort_site : (s.setPort k v).site j = s.site j := rfl
@[simp] theorem State.setPort_slice : (s.setPort k v).slice j = s.slice j := rfl
@[simp] theorem State.setPort_cloak : (s.setPort k v).cloak j = s.cloak j := rfl
@[simp] theorem State.setPort_edge : (s.setPort k v).edge j = s.edge j := rfl
@[simp] theorem State.setPort_stack : (s.setPort k v).stack j = s.stack j := rfl
@[simp] theorem State.setPort_ring : (s.setPort k v).ring j = s.ring j := rfl
@[simp] theorem State.setPort_fn : (s.setPort k v).fn j = s.fn j := rfl
@[simp] theorem State.setPort_port_self : (s.setPort k v).port k = v := tget_tset_self (α := Port) {} s.ports k v
theorem State.setPort_port_ne (h : j ≠ k) : (s.setPort k v).port j = s.port j := tget_tset_ne (α := Port) {} s.ports k v j h

end

section
variable (s : State) (k j : Nat) (v : Ring) (g : Ring → Ring)

@[simp] theorem State.modRing_eq : s.modRing k g = s.setRing k (g (s.ring k)) := rfl
@[simp] theorem State.setRing_rings : (s.setRing k v).rings = tset {} s.rings k v := rfl
@[simp] theorem State.setRing_slot : (s.setRing k v).slot = s.slot := rfl
@[simp] theorem State.setRing_tick : (s.setRing k v).tick = s.tick := rfl
@[simp] theorem State.setRing_sub : (s.setRing k v).sub = s.sub := rfl
@[simp] theorem State.setRing_power : (s.setRing k v).power = s.power := rfl
@[simp] theorem State.setRing_count : (s.setRing k v).count = s.count := rfl
@[simp] theorem State.setRing_parts : (s.setRing k v).parts = s.parts := rfl
@[simp] theorem State.setRing_cores : (s.setRing k v).cores = s.cores := rfl
@[simp] theorem State.setRing_sites : (s.setRing k v).sites = s.sites := rfl
@[simp] theorem State.setRing_slices : (s.setRing k v).slices = s.slices := rfl
@[simp] theorem State.setRing_cloaks : (s.setRing k v).cloaks = s.cloaks := rfl
@[simp] theorem State.setRing_edges : (s.setRing k v).edges = s.edges := rfl
@[simp] theorem State.setRing_hbm : (s.setRing k v).hbm = s.hbm := rfl
@[simp] theorem State.setRing_ports : (s.setRing k v).ports = s.ports := rfl
@[simp] theorem State.setRing_beat : (s.setRing k v).beat = s.beat := rfl
@[simp] theorem State.setRing_form : (s.setRing k v).form = s.form := rfl
@[simp] theorem State.setRing_bellIn : (s.setRing k v).bellIn = s.bellIn := rfl
@[simp] theorem State.setRing_pktIn : (s.setRing k v).pktIn = s.pktIn := rfl
@[simp] theorem State.setRing_fns : (s.setRing k v).fns = s.fns := rfl
@[simp] theorem State.setRing_sec : (s.setRing k v).sec = s.sec := rfl
@[simp] theorem State.setRing_care : (s.setRing k v).care = s.care := rfl
@[simp] theorem State.setRing_i3c : (s.setRing k v).i3c = s.i3c := rfl
@[simp] theorem State.setRing_fresh : (s.setRing k v).fresh = s.fresh := rfl
@[simp] theorem State.setRing_out : (s.setRing k v).out = s.out := rfl
@[simp] theorem State.setRing_pending : (s.setRing k v).pending = s.pending := rfl
@[simp] theorem State.setRing_core : (s.setRing k v).core j = s.core j := rfl
@[simp] theorem State.setRing_part : (s.setRing k v).part j = s.part j := rfl
@[simp] theorem State.setRing_site : (s.setRing k v).site j = s.site j := rfl
@[simp] theorem State.setRing_slice : (s.setRing k v).slice j = s.slice j := rfl
@[simp] theorem State.setRing_cloak : (s.setRing k v).cloak j = s.cloak j := rfl
@[simp] theorem State.setRing_edge : (s.setRing k v).edge j = s.edge j := rfl
@[simp] theorem State.setRing_stack : (s.setRing k v).stack j = s.stack j := rfl
@[simp] theorem State.setRing_port : (s.setRing k v).port j = s.port j := rfl
@[simp] theorem State.setRing_fn : (s.setRing k v).fn j = s.fn j := rfl
@[simp] theorem State.setRing_ring_self : (s.setRing k v).ring k = v := tget_tset_self (α := Ring) {} s.rings k v
theorem State.setRing_ring_ne (h : j ≠ k) : (s.setRing k v).ring j = s.ring j := tget_tset_ne (α := Ring) {} s.rings k v j h

end

section
variable (s : State) (k j : Nat) (v : Fn) (g : Fn → Fn)

@[simp] theorem State.modFn_eq : s.modFn k g = s.setFn k (g (s.fn k)) := rfl
@[simp] theorem State.setFn_fns : (s.setFn k v).fns = tset {} s.fns k v := rfl
@[simp] theorem State.setFn_slot : (s.setFn k v).slot = s.slot := rfl
@[simp] theorem State.setFn_tick : (s.setFn k v).tick = s.tick := rfl
@[simp] theorem State.setFn_sub : (s.setFn k v).sub = s.sub := rfl
@[simp] theorem State.setFn_power : (s.setFn k v).power = s.power := rfl
@[simp] theorem State.setFn_count : (s.setFn k v).count = s.count := rfl
@[simp] theorem State.setFn_parts : (s.setFn k v).parts = s.parts := rfl
@[simp] theorem State.setFn_cores : (s.setFn k v).cores = s.cores := rfl
@[simp] theorem State.setFn_sites : (s.setFn k v).sites = s.sites := rfl
@[simp] theorem State.setFn_slices : (s.setFn k v).slices = s.slices := rfl
@[simp] theorem State.setFn_cloaks : (s.setFn k v).cloaks = s.cloaks := rfl
@[simp] theorem State.setFn_edges : (s.setFn k v).edges = s.edges := rfl
@[simp] theorem State.setFn_hbm : (s.setFn k v).hbm = s.hbm := rfl
@[simp] theorem State.setFn_ports : (s.setFn k v).ports = s.ports := rfl
@[simp] theorem State.setFn_beat : (s.setFn k v).beat = s.beat := rfl
@[simp] theorem State.setFn_form : (s.setFn k v).form = s.form := rfl
@[simp] theorem State.setFn_bellIn : (s.setFn k v).bellIn = s.bellIn := rfl
@[simp] theorem State.setFn_pktIn : (s.setFn k v).pktIn = s.pktIn := rfl
@[simp] theorem State.setFn_rings : (s.setFn k v).rings = s.rings := rfl
@[simp] theorem State.setFn_sec : (s.setFn k v).sec = s.sec := rfl
@[simp] theorem State.setFn_care : (s.setFn k v).care = s.care := rfl
@[simp] theorem State.setFn_i3c : (s.setFn k v).i3c = s.i3c := rfl
@[simp] theorem State.setFn_fresh : (s.setFn k v).fresh = s.fresh := rfl
@[simp] theorem State.setFn_out : (s.setFn k v).out = s.out := rfl
@[simp] theorem State.setFn_pending : (s.setFn k v).pending = s.pending := rfl
@[simp] theorem State.setFn_core : (s.setFn k v).core j = s.core j := rfl
@[simp] theorem State.setFn_part : (s.setFn k v).part j = s.part j := rfl
@[simp] theorem State.setFn_site : (s.setFn k v).site j = s.site j := rfl
@[simp] theorem State.setFn_slice : (s.setFn k v).slice j = s.slice j := rfl
@[simp] theorem State.setFn_cloak : (s.setFn k v).cloak j = s.cloak j := rfl
@[simp] theorem State.setFn_edge : (s.setFn k v).edge j = s.edge j := rfl
@[simp] theorem State.setFn_stack : (s.setFn k v).stack j = s.stack j := rfl
@[simp] theorem State.setFn_port : (s.setFn k v).port j = s.port j := rfl
@[simp] theorem State.setFn_ring : (s.setFn k v).ring j = s.ring j := rfl
@[simp] theorem State.setFn_fn_self : (s.setFn k v).fn k = v := tget_tset_self (α := Fn) {} s.fns k v
theorem State.setFn_fn_ne (h : j ≠ k) : (s.setFn k v).fn j = s.fn j := tget_tset_ne (α := Fn) {} s.fns k v j h

end

section
variable (s : State) (o : Output) (j : Nat)

@[simp] theorem State.put_out : (s.put o).out = s.out ++ [o] := rfl
@[simp] theorem State.put_slot : (s.put o).slot = s.slot := rfl
@[simp] theorem State.put_tick : (s.put o).tick = s.tick := rfl
@[simp] theorem State.put_sub : (s.put o).sub = s.sub := rfl
@[simp] theorem State.put_power : (s.put o).power = s.power := rfl
@[simp] theorem State.put_count : (s.put o).count = s.count := rfl
@[simp] theorem State.put_parts : (s.put o).parts = s.parts := rfl
@[simp] theorem State.put_cores : (s.put o).cores = s.cores := rfl
@[simp] theorem State.put_sites : (s.put o).sites = s.sites := rfl
@[simp] theorem State.put_slices : (s.put o).slices = s.slices := rfl
@[simp] theorem State.put_cloaks : (s.put o).cloaks = s.cloaks := rfl
@[simp] theorem State.put_edges : (s.put o).edges = s.edges := rfl
@[simp] theorem State.put_hbm : (s.put o).hbm = s.hbm := rfl
@[simp] theorem State.put_ports : (s.put o).ports = s.ports := rfl
@[simp] theorem State.put_beat : (s.put o).beat = s.beat := rfl
@[simp] theorem State.put_form : (s.put o).form = s.form := rfl
@[simp] theorem State.put_bellIn : (s.put o).bellIn = s.bellIn := rfl
@[simp] theorem State.put_pktIn : (s.put o).pktIn = s.pktIn := rfl
@[simp] theorem State.put_rings : (s.put o).rings = s.rings := rfl
@[simp] theorem State.put_fns : (s.put o).fns = s.fns := rfl
@[simp] theorem State.put_sec : (s.put o).sec = s.sec := rfl
@[simp] theorem State.put_care : (s.put o).care = s.care := rfl
@[simp] theorem State.put_i3c : (s.put o).i3c = s.i3c := rfl
@[simp] theorem State.put_fresh : (s.put o).fresh = s.fresh := rfl
@[simp] theorem State.put_pending : (s.put o).pending = s.pending := rfl
@[simp] theorem State.put_core : (s.put o).core j = s.core j := rfl
@[simp] theorem State.put_part : (s.put o).part j = s.part j := rfl
@[simp] theorem State.put_site : (s.put o).site j = s.site j := rfl
@[simp] theorem State.put_slice : (s.put o).slice j = s.slice j := rfl
@[simp] theorem State.put_cloak : (s.put o).cloak j = s.cloak j := rfl
@[simp] theorem State.put_edge : (s.put o).edge j = s.edge j := rfl
@[simp] theorem State.put_stack : (s.put o).stack j = s.stack j := rfl
@[simp] theorem State.put_port : (s.put o).port j = s.port j := rfl
@[simp] theorem State.put_ring : (s.put o).ring j = s.ring j := rfl
@[simp] theorem State.put_fn : (s.put o).fn j = s.fn j := rfl

end

end Sys2Proof.Machine
end

