-- ==== Sys2Proof/Laws/Issue.lean ====
section
/-! SUPPORT. What an operation that issues does (`State.complete`): it takes its effect whole, or it waits and only a stall counter moves. -/

namespace Sys2Proof.Machine

open Sys2Proof

/-! ### Writes change the store alone -/

/-- Two cores that differ in scratchpad, draft lines and stored types alone. -/
def StoreOnly (a b : Core) : Prop := b = { a with spad := b.spad, drafts := b.drafts, stored := b.stored }

theorem StoreOnly.refl (a : Core) : StoreOnly a a := rfl

theorem StoreOnly.trans {a b c : Core} (h : StoreOnly a b) (k : StoreOnly b c) : StoreOnly a c := by
  unfold StoreOnly at *
  rw [k, h]

theorem foldl_storeOnly {β : Type} {f : Core → β → Core} (h : ∀ c x, StoreOnly c (f c x)) :
    ∀ (l : List β) (c : Core), StoreOnly c (l.foldl f c)
  | [], c => StoreOnly.refl c
  | x :: l, c => (h c x).trans (foldl_storeOnly h l (f c x))

theorem putByte_storeOnly (c : Core) (d : Option Nat) (a : Nat) (b : Byte) : StoreOnly c (c.putByte d a b) := by
  cases d <;> rfl

theorem putNat_storeOnly (d : Option Nat) : ∀ (k : Nat) (c : Core) (a v : Nat), StoreOnly c (c.putNat d a v k)
  | 0, c, _, _ => StoreOnly.refl c
  | k + 1, c, a, v => (putByte_storeOnly c d a _).trans (putNat_storeOnly d k _ (a + 1) (v / 256))

theorem putWr_storeOnly (c : Core) (d : Option Nat) (view : List Nat) (w : Wr) : StoreOnly c (c.putWr d view w) := by
  unfold Core.putWr
  split
  · exact putByte_storeOnly ..
  · exact putNat_storeOnly ..

theorem putType_storeOnly (c : Core) (d : Option Nat) (st : Option SType) (w : Nat) : StoreOnly c (c.putType d st w) := by
  cases d <;> rfl

theorem putAll_storeOnly (c : Core) (d : Option Nat) (view : List Nat) (st : Option SType) (ws : List Wr) :
    StoreOnly c (c.putAll d view st ws) :=
  (foldl_storeOnly (fun c w => putWr_storeOnly c d view w) ws c).trans
    (foldl_storeOnly (fun c w => putType_storeOnly c d st w) _ _)

/-! ### Units -/

/-- Two cores that differ in the unfinished operations of their units alone. -/
structure UnitsOnly (a b : Core) : Prop where
  eq : b = { a with engines := b.engines, rowUnit := b.rowUnit, vecUnit := b.vecUnit, attn := b.attn }
  engines : ∀ k, (tget {} b.engines k).acc = (tget {} a.engines k).acc ∧ (tget {} b.engines k).live = (tget {} a.engines k).live
  kept : ∀ u x, x ∈ a.unfinOf u → x ∈ b.unfinOf u

theorem UnitsOnly.refl (a : Core) : UnitsOnly a a := ⟨rfl, fun _ => ⟨rfl, rfl⟩, fun _ _ h => h⟩

theorem UnitsOnly.trans {a b c : Core} (h : UnitsOnly a b) (k : UnitsOnly b c) : UnitsOnly a c :=
  ⟨by rw [k.eq, h.eq], fun x => ⟨(k.engines x).1.trans (h.engines x).1, (k.engines x).2.trans (h.engines x).2⟩,
    fun u x hx => k.kept u x (h.kept u x hx)⟩

theorem unfinOf_append {a b : Core} {u : Nat} {y : Unfin} (h : y ∈ a.unfinOf u) (he : b.engines = a.engines) (hr : ∀ y, y ∈ a.rowUnit → y ∈ b.rowUnit)
    (hv : ∀ y, y ∈ a.vecUnit → y ∈ b.vecUnit) (hn : ∀ y, y ∈ a.attn → y ∈ b.attn) : y ∈ b.unfinOf u := by
  unfold Core.unfinOf at *
  rw [he]
  by_cases h1 : u < 8
  · simpa [h1] using h
  · by_cases h2 : u = 8
    · subst h2; simpa using hr y (by simpa using h)
    · by_cases h3 : u = 9
      · subst h3; simpa using hv y (by simpa using h)
      · simp only [h1, h2, h3, if_false] at h ⊢; exact hn y h

theorem addUnfin_units (core : Core) (u : Unfin) (x : Nat × Nat) : UnitsOnly core (core.addUnfin u x) := by
  unfold Core.addUnfin
  split
  · rename_i h
    refine ⟨rfl, fun k => ?_, fun w y hy => ?_⟩
    · by_cases hk : k = x.1
      · subst hk; simp [tmod, tget_tset_self]
      · simp [tmod, tget_tset_ne _ _ _ _ _ hk]
    · unfold Core.unfinOf at *
      by_cases hw : w < 8
      · simp only [hw, if_true] at *
        by_cases hk : w = x.1
        · subst hk; simp [tmod, tget_tset_self, hy]
        · simpa [tmod, tget_tset_ne _ _ _ _ _ hk] using hy
      · simpa [hw] using hy
  · split
    · refine ⟨rfl, fun k => ⟨rfl, rfl⟩, fun w y hy => ?_⟩
      exact unfinOf_append (a := core) (u := w) (y := y) hy (by rfl) (fun _ h => by simp [h]) (fun _ h => by simp [h]) (fun _ h => by simp [h])
    · split
      · refine ⟨rfl, fun k => ⟨rfl, rfl⟩, fun w y hy => ?_⟩
        exact unfinOf_append (a := core) (u := w) (y := y) hy (by rfl) (fun _ h => by simp [h]) (fun _ h => by simp [h]) (fun _ h => by simp [h])
      · refine ⟨rfl, fun k => ⟨rfl, rfl⟩, fun w y hy => ?_⟩
        exact unfinOf_append (a := core) (u := w) (y := y) hy (by rfl) (fun _ h => by simp [h]) (fun _ h => by simp [h]) (fun _ h => by simp [h])

/-- A unit put to work holds the operation. -/
theorem addUnfin_holds (core : Core) (u : Unfin) (x : Nat × Nat) :
    ∃ v ∈ (core.addUnfin u x).unfinOf x.1, v.stream = u.stream ∧ v.task = u.task := by
  unfold Core.addUnfin Core.unfinOf
  by_cases h : x.1 < 8
  · exact ⟨{ u with blocks := x.2 }, by simp [h, tmod, tget_tset_self], rfl, rfl⟩
  · by_cases h8 : x.1 = 8
    · exact ⟨u, by simp [h8], rfl, rfl⟩
    · by_cases h9 : x.1 = 9
      · exact ⟨u, by simp [h9], rfl, rfl⟩
      · exact ⟨u, by simp [h, h8, h9], rfl, rfl⟩

theorem addUnfins (u : Unfin) : ∀ (l : List (Nat × Nat)) (core : Core),
    UnitsOnly core (l.foldl (fun c x => c.addUnfin u x) core)
      ∧ ∀ x ∈ l, ∃ v ∈ (l.foldl (fun c x => c.addUnfin u x) core).unfinOf x.1, v.stream = u.stream ∧ v.task = u.task
  | [], core => ⟨UnitsOnly.refl core, fun _ h => absurd h (List.not_mem_nil)⟩
  | y :: l, core => by
    have ih := addUnfins u l (core.addUnfin u y)
    refine ⟨(addUnfin_units core u y).trans ih.1, fun x hx => ?_⟩
    rcases List.mem_cons.mp hx with rfl | hx
    · obtain ⟨v, hv, e⟩ := addUnfin_holds core u x
      exact ⟨v, ih.1.kept _ _ hv, e⟩
    · exact ih.2 x hx

/-! ### Sequencers -/

@[simp] theorem Core.setSeq_seq (core : Core) (q : Stream) (x : Seq) : (core.setSeq q x).seq q = x := by cases q <;> rfl

theorem Core.setSeq_unfinOf (core : Core) (q : Stream) (x : Seq) (u : Nat) : (core.setSeq q x).unfinOf u = core.unfinOf u := by
  cases q <;> rfl

/-! ### An operation that issues -/

/-- Everything that `issueOf` says of the operation it answers. -/
theorem issueOf_some {s : State} {c : Nat} {q : Stream} {op : Nat} {i : Issue} (h : issueOf s c q op = some i) :
    i.c = c ∧ i.q = q ∧ i.core = s.core c ∧ i.p = s.partOfCore c ∧ i.part = s.part (s.partOfCore c) ∧ i.slot = s.slot
      ∧ ((s.core c).seq q).running = some i.task ∧ opcode i.n = op ∧ i.n = ((s.core c).seq q).instr i.task.pc
      ∧ (s.core c).runs = true ∧ (s.part (s.partOfCore c)).sect = .open := by
  unfold issueOf at h
  dsimp only at h
  split at h
  · cases h
  · rename_i task ht
    split at h
    · rename_i hc
      simp only [Bool.and_eq_true, beq_iff_eq] at hc
      cases h
      exact ⟨rfl, rfl, rfl, rfl, rfl, rfl, ht, hc.2, rfl, hc.1.1, hc.1.2⟩
    · cases h

/-- An operation admitted keeps its task but for what it has mapped and reserved (R79). -/
theorem admitLines_task {core : Core} {task k : Task} {ls : List Nat} (h : core.admitLines task ls = some k) :
    k = { task with mapped := k.mapped, reserved := k.reserved } := by
  unfold Core.admitLines at h
  split at h
  · split at h
    · cases h
    · dsimp only at h
      split at h
      · cases h; rfl
      · split at h
        · cases h; rfl
        · cases h
  · split at h
    · cases h
    · cases h; rfl

/-- Two cores that differ in the accesses that wait for banks, in idle cycles and in the number of operations issued alone. -/
theorem requestAll_eq (port : Bool) (units : List Nat) (ranges : List (Nat × Nat)) (core : Core) :
    ∃ b, core.requestAll port units ranges = { core with bankReqs := b } := by
  have hreq : ∀ (k : Core) (o : Nat) (ls : List Nat), ∃ b, k.request o ls = { k with bankReqs := b } := by
    intro k o ls
    unfold Core.request
    split
    · exact ⟨k.bankReqs, rfl⟩
    · exact ⟨_, rfl⟩
  have hfold : ∀ {β : Type} (f : Core → β → Core), (∀ k x, ∃ b, f k x = { k with bankReqs := b }) →
      ∀ (l : List β) (k : Core), ∃ b, l.foldl f k = { k with bankReqs := b } := by
    intro β f hf l
    induction l with
    | nil => exact fun k => ⟨k.bankReqs, rfl⟩
    | cons x l ih =>
      intro k
      obtain ⟨b, hb⟩ := hf k x
      obtain ⟨b', hb'⟩ := ih (f k x)
      exact ⟨b', by rw [List.foldl_cons, hb', hb]⟩
  unfold Core.requestAll
  refine hfold _ (fun k r => ?_) ranges core
  unfold Core.requestRange
  exact hfold _ (fun k o => hreq k _ _) _ k

/-- What an operation that lands leaves of its core (`Issue.landedCore`). -/
structure LandedCore (c : Core) (i : Issue) (e : Eff) (k : Task) : Prop where
  store : c.spad = (e.core.putAll i.draft i.view e.stype e.writes).spad ∧ c.drafts = (e.core.putAll i.draft i.view e.stype e.writes).drafts
    ∧ c.stored = (e.core.putAll i.draft i.view e.stype e.writes).stored
  task : (c.seq i.q).running = some { k with pc := i.task.pc + 1, flags := addFlags i.task.flags e.flags }
  units : ∀ x ∈ e.units, ∃ u ∈ c.unfinOf x.1, u.stream = i.q ∧ u.task = i.task.tag
  acc : ∀ n, (tget {} c.engines n).acc = (tget {} e.core.engines n).acc ∧ (tget {} c.engines n).live = (tget {} e.core.engines n).live
  taps : c.taps = e.core.taps ∧ c.tapDrafts = e.core.tapDrafts
  tokens : c.queues = e.core.queues ∧ c.credits = e.core.credits ∧ c.outToks = e.core.outToks

theorem landedCore_of (i : Issue) (e : Eff) (k : Task) : LandedCore (i.landedCore e k) i e k := by
  unfold Issue.landedCore
  dsimp only
  generalize hu : ({ stream := i.q, task := i.task.tag, id := i.core.issued, mask := (e.units.map Prod.fst).filter fun x => decide (x < 8),
                     port := e.port, base := e.base, reads := e.reads, writes := e.written } : Unfin) = u
  have hs := putAll_storeOnly e.core i.draft i.view e.stype e.writes
  obtain ⟨ha, hb⟩ := addUnfins u e.units (e.core.putAll i.draft i.view e.stype e.writes)
  generalize h1 : e.core.putAll i.draft i.view e.stype e.writes = c1 at *
  generalize h2 : e.units.foldl (fun c x => c.addUnfin u x) c1 = c2 at *
  have hn : u.stream = i.q ∧ u.task = i.task.tag := by subst hu; exact ⟨rfl, rfl⟩
  obtain ⟨b, hreq⟩ := requestAll_eq e.port (e.units.map Prod.fst) (e.reads ++ e.written)
    (c2.setSeq i.q { c2.seq i.q with running := some { k with pc := i.task.pc + 1, flags := addFlags i.task.flags e.flags }, issuedAt := cycleOf i.slot })
  rw [hreq]
  have e2 : c2.spad = c1.spad ∧ c2.drafts = c1.drafts ∧ c2.stored = c1.stored ∧ c2.taps = c1.taps
      ∧ c2.tapDrafts = c1.tapDrafts ∧ c2.queues = c1.queues ∧ c2.credits = c1.credits ∧ c2.outToks = c1.outToks := by
    rw [ha.eq]; exact ⟨rfl, rfl, rfl, rfl, rfl, rfl, rfl, rfl⟩
  have e1 : c1.taps = e.core.taps ∧ c1.tapDrafts = e.core.tapDrafts ∧ c1.queues = e.core.queues ∧ c1.credits = e.core.credits
      ∧ c1.outToks = e.core.outToks ∧ c1.engines = e.core.engines := by
    rw [show c1 = { e.core with spad := c1.spad, drafts := c1.drafts, stored := c1.stored } from hs]
    exact ⟨rfl, rfl, rfl, rfl, rfl, rfl⟩
  obtain ⟨b1, b2, b3, b5, b6, b7, b8, b9⟩ := e2
  obtain ⟨d1, d2, d3, d4, d5, d6⟩ := e1
  have hw : ∀ x ∈ e.units, ∃ v ∈ c2.unfinOf x.1, v.stream = i.q ∧ v.task = i.task.tag := fun x hx => by
    obtain ⟨v, hv, e1, e2⟩ := hb x hx
    exact ⟨v, hv, e1.trans hn.1, e2.trans hn.2⟩
  have hacc := fun n => d6 ▸ ha.engines n
  cases hq : i.q <;> simp only [hq] at hw ⊢
  all_goals exact
    { store := by rw [h1]; exact ⟨b1, b2, b3⟩
      task := by rw [hq]; rfl
      units := fun x hx => by rw [hq]; exact hw x hx
      acc := hacc
      taps := ⟨b5.trans d1, b6.trans d2⟩
      tokens := ⟨b7.trans d3, b8.trans d4, b9.trans d5⟩ }

/-! ### A work area left open (R170) -/

theorem putNat_none_only : ∀ (k : Nat) (a v : Nat) (c : Core), c.putNat none a v k = { c with spad := (c.putNat none a v k).spad }
  | 0, _, _, _ => rfl
  | k + 1, a, v, c => putNat_none_only k (a + 1) (v / 256) (c.putByte none a (BitVec.ofNat 8 v))

theorem putNat_none_spad : ∀ (k : Nat) (a v : Nat) (c d : Core), c.spad = d.spad → (c.putNat none a v k).spad = (d.putNat none a v k).spad
  | 0, _, _, _, _, h => h
  | k + 1, a, v, c, d, h => putNat_none_spad k (a + 1) (v / 256) (c.putByte none a (BitVec.ofNat 8 v)) (d.putByte none a (BitVec.ofNat 8 v)) (by
      show tset 0 c.spad a _ = tset 0 d.spad a _
      rw [h])

theorem landed_of {s t : State} {i : Issue} {e : Eff} {c : Core} {k : Task} (h : LandedCore c i e k)
    (hk : k = { i.task with mapped := k.mapped, reserved := k.reserved }) (ht : t.core i.c = { c with spad := (t.core i.c).spad })
    (hsp : (t.core i.c).spad = (i.stored e s.fresh).spad)
    (ho : (i.stored e s.fresh).drafts = (e.core.putAll i.draft i.view e.stype e.writes).drafts
      ∧ (i.stored e s.fresh).stored = (e.core.putAll i.draft i.view e.stype e.writes).stored)
    (hc : ∀ n, n ≠ i.c → t.core n = s.core n) (hp : ∀ n, n ≠ i.p → t.part n = s.part n)
    (hr : t = { s with cores := t.cores, parts := t.parts, fresh := t.fresh }) : Landed s t i e := by
  refine ⟨hsp, ?_, ?_, ⟨k.mapped, k.reserved, ?_⟩, ?_, ?_, ?_, ?_, hc, hp, hr⟩ <;> rw [ht]
  · rw [ho.1]; exact h.store.2.1
  · rw [ho.2]; exact h.store.2.2
  · have hseq : ({ c with spad := (t.core i.c).spad } : Core).seq i.q = c.seq i.q := by cases i.q <;> rfl
    rw [hseq, h.task, hk]
  · exact h.units
  · exact h.acc
  · exact h.taps
  · exact h.tokens

/-- A work area written over leaves the effect landed (R170): only bytes of the scratchpad change, and one free value is drawn. -/
theorem landed_scribble {s t : State} {i : Issue} {e : Eff} {c : Core} {k : Task} (h : LandedCore c i e k)
    (hk : k = { i.task with mapped := k.mapped, reserved := k.reserved }) (hcore : t.core i.c = c)
    (hc : ∀ n, n ≠ i.c → t.core n = s.core n) (hp : ∀ n, n ≠ i.p → t.part n = s.part n)
    (hr : t = { s with cores := t.cores, parts := t.parts }) : Landed s (t.scribble i.c e.work) i e := by
  have hf : t.fresh = s.fresh := (congrArg State.fresh hr).trans rfl
  unfold State.scribble
  cases hw : e.work with
  | none =>
    dsimp only
    have hs : i.stored e s.fresh = e.core.putAll i.draft i.view e.stype e.writes := by simp only [Issue.stored, hw]
    refine landed_of h hk ?_ ?_ (by rw [hs]; exact ⟨rfl, rfl⟩) hc hp ?_
    · rw [hcore]
    · rw [hcore, hs]; exact h.store.1
    · exact hr.trans (by rw [hf])
  | some w =>
    obtain ⟨a, n⟩ := w
    dsimp only
    rw [hf]
    have hs : i.stored e s.fresh = (e.core.putAll i.draft i.view e.stype e.writes).putNat none a (Config.freeValue (8 * n) s.fresh).toNat n := by
      simp only [Issue.stored, hw]
    generalize hv : (Config.freeValue (8 * n) s.fresh).toNat = v at hs ⊢
    have hself : (t.modCore i.c fun core => core.putNat none a v n).core i.c = c.putNat none a v n := by
      rw [State.modCore_eq, State.setCore_core_self, hcore]
    have hne : ∀ m, m ≠ i.c → (t.modCore i.c fun core => core.putNat none a v n).core m = s.core m := fun m hm => by
      rw [State.modCore_eq, State.setCore_core_ne _ _ _ _ hm]; exact hc m hm
    have hq : ∀ m, m ≠ i.p → (t.modCore i.c fun core => core.putNat none a v n).part m = s.part m := fun m hm => by
      rw [State.modCore_eq, State.setCore_part]; exact hp m hm
    have hrest : (t.modCore i.c fun core => core.putNat none a v n)
        = { s with cores := (t.modCore i.c fun core => core.putNat none a v n).cores, parts := t.parts } := by
      rw [State.modCore_eq]
      unfold State.setCore
      exact congrArg (fun u : State => ({ u with cores := tset {} t.cores i.c ((t.core i.c).putNat none a v n) } : State)) hr
    have hparts : (t.modCore i.c fun core => core.putNat none a v n).parts = t.parts := rfl
    generalize (t.modCore i.c fun core => core.putNat none a v n) = u at *
    have hu : ({ u with fresh := s.fresh + 1 } : State).core i.c = c.putNat none a v n := hself
    refine landed_of h hk ?_ ?_ ?_ (fun m hm => hne m hm) (fun m hm => hq m hm) ?_
    · rw [hu]; exact putNat_none_only ..
    · rw [hu, hs]; exact putNat_none_spad _ _ _ _ _ h.store.1
    · rw [hs, putNat_none_only]; exact ⟨rfl, rfl⟩
    · rw [hrest]

/-- An operation that nothing blocks takes its effect whole. -/
theorem complete_lands {s : State} {i : Issue} (e : Eff) (hf : i.blocked (.eff e) = none) : Landed s (s.complete i (.eff e)) i e := by
  have hz : i.held e = false := by
    cases hh : i.held e with
    | false => rfl
    | true => simp [Issue.blocked, hh] at hf
  obtain ⟨k, hk⟩ : ∃ k, e.core.admitLines i.task (writeLines e.writes) = some k := by
    cases hh : e.core.admitLines i.task (writeLines e.writes) with
    | some k => exact ⟨k, rfl⟩
    | none => simp [Issue.blocked, hz, hh] at hf
  unfold State.complete
  simp only [hz, hk, Bool.false_eq_true, if_false]
  refine landed_scribble (landedCore_of i e k) (admitLines_task hk) ?_ (fun n hn => ?_) (fun n hn => ?_) rfl
  · rw [State.setPart_core, State.setCore_core_self]
  · rw [State.setPart_core, State.setCore_core_ne _ _ _ _ hn]
  · rw [State.setPart_part_ne _ _ _ _ hn, State.setCore_part]

/-- An operation that waits changes nothing: its cycles of waiting are counted as they pass (R88). -/
theorem complete_waits (s : State) (i : Issue) (unit cause : Nat) : s.complete i (.wait unit cause) = s := rfl

theorem blocked_of_issues {s : State} {i : Issue} {e : Eff} (h : s.issues i (.eff e) = true) : i.blocked (.eff e) = none := by
  simp only [State.issues, Bool.and_eq_true, Option.isNone_iff_eq_none] at h
  exact h.1.2

/-- An operation that issues takes its effect whole. -/
theorem runOp_lands {s : State} {c : Nat} {q : Stream} {op : Nat} {f : Issue → Try} {i : Issue} {e : Eff} (h : issueOf s c q op = some i)
    (he : f i = .eff e) (hi : s.issues i (.eff e) = true) : Landed s (s.runOp c q op f) i e := by
  simp only [State.runOp, h, he, hi, if_true]
  exact complete_lands e (blocked_of_issues hi)

end Sys2Proof.Machine
end

