-- ==== Sys2Proof/Laws/Memory.lean ====
section
/-! SUPPORT. Every operation over a memory of the module keeps its canonical form, a byte written is the byte read, and a write leaves every
other byte. -/

namespace Sys2Proof.Machine

open Sys2Proof

theorem foldl_keeps {α β : Type} {P : α → Prop} {f : α → β → α} (h : ∀ a b, P a → P (f a b)) : ∀ (l : List β) (a : α), P a → P (l.foldl f a)
  | [], _, ha => ha
  | b :: l, a, ha => foldl_keeps h l (f a b) (h a b ha)

theorem foldl_tset_twf {α β : Type} [DecidableEq α] (d : α) (k : β → Nat) (v : β → α) (l : List β) (m : SMap α) (h : twf d m = true) :
    twf d (l.foldl (fun m x => tset d m (k x) (v x)) m) = true :=
  foldl_keeps (P := fun m => twf d m = true) (fun m x hm => twf_tset d m (k x) (v x) hm) l m h

/-! ### Scratchpad -/

theorem Core.storeWf_iff (core : Core) : core.storeWf = true ↔ twf 0 core.spad = true ∧ twf none core.stored = true := by
  simp [Core.storeWf]

theorem Core.putByte_wf {core : Core} (d : Option Nat) (a : Nat) (b : Byte) (h : core.storeWf = true) : (core.putByte d a b).storeWf = true := by
  rw [Core.storeWf_iff] at *
  cases d with
  | none => exact ⟨twf_tset 0 core.spad a b h.1, h.2⟩
  | some g => exact h

theorem Core.putNat_wf (d : Option Nat) : ∀ (k : Nat) {core : Core} (a v : Nat), core.storeWf = true → (core.putNat d a v k).storeWf = true
  | 0, _, _, _, h => h
  | k + 1, _, a, v, h => Core.putNat_wf d k (a + 1) (v / 256) (Core.putByte_wf d a _ h)

theorem Core.putWr_wf {core : Core} (d : Option Nat) (view : List Nat) (w : Wr) (h : core.storeWf = true) : (core.putWr d view w).storeWf = true := by
  unfold Core.putWr
  split
  · exact Core.putByte_wf d _ _ h
  · exact Core.putNat_wf d _ _ _ h

theorem Core.putType_wf {core : Core} (d : Option Nat) (st : Option SType) (w : Nat) (h : core.storeWf = true) : (core.putType d st w).storeWf = true := by
  rw [Core.storeWf_iff] at *
  cases d with
  | none => exact ⟨h.1, twf_tset none core.stored w st h.2⟩
  | some g => exact h

/-- The writes of an operation keep the canonical form. -/
theorem Core.putAll_wf {core : Core} (d : Option Nat) (view : List Nat) (st : Option SType) (ws : List Wr) (h : core.storeWf = true) :
    (core.putAll d view st ws).storeWf = true :=
  foldl_keeps (P := fun c : Core => c.storeWf = true) (fun _ w hc => Core.putType_wf d st w hc) _ _
    (foldl_keeps (P := fun c : Core => c.storeWf = true) (fun _ w hc => Core.putWr_wf d view w hc) ws core h)

/-- A commit's copies keep the canonical form. -/
theorem Core.copyDrafts_wf {core : Core} (g : Nat) (h : core.storeWf = true) : (core.copyDrafts g).storeWf = true := by
  have hr : (((core.drafts.filter fun d => d.group == g).mergeSort fun a b => decide (a.line ≤ b.line)).foldl
      (fun k d => k.request 1 [d.line]) core).storeWf = true :=
    foldl_keeps (P := fun c : Core => c.storeWf = true) (f := fun (k : Core) (d : DraftLine) => k.request 1 [d.line]) (fun c d hc => hc) _ core h
  unfold Core.copyDrafts
  dsimp only
  refine foldl_keeps (P := fun c : Core => c.storeWf = true) (fun c d hc => ?_)
    ((core.drafts.filter fun d => d.group == g).mergeSort fun a b => decide (a.line ≤ b.line)) _ hr
  rw [Core.storeWf_iff] at *
  exact ⟨foldl_tset_twf 0 _ _ d.bytes c.spad hc.1, foldl_tset_twf none _ _ d.types c.stored hc.2⟩

theorem Core.wiped_wf (core : Core) : core.wiped.storeWf = true := rfl

/-! ### Pin windows -/

/-- A store into a pin window keeps the canonical form. -/
theorem Slice.store_pin_wf {sl sl' : Slice} {bays : List Nat} {a : Nat} {b : List Byte} {ts : List (Option SType)} {keep host : Bool}
    {w : PinWindow} (h : sl.store bays a b ts none keep (some w) host = .done sl') (hp : twf 0 sl.pin = true) : twf 0 sl'.pin = true := by
  unfold Slice.store at h
  dsimp only at h
  split at h
  · cases h
  · cases h
    exact twf_tsetAll 0 _ _ hp

/-- A committed shadow of a pin window keeps the canonical form. -/
theorem pinShadow_wf (w : PinWindow) (sh : SliceLine) (pin : SMap Byte) (h : twf 0 pin = true) : twf 0 (pinShadow w sh pin) = true :=
  foldl_tset_twf 0 (fun x : Nat × Byte => pinByte w (sh.addr + x.1)) (fun x => x.2) _ _ (twf_filter 0 _ pin h)

/-! ### HBM -/

theorem clearFrame_wf (f : Nat) (m : SMap HbmLine) (h : twf {} m = true) : twf {} (clearFrame f m) = true := twf_filter {} _ m h

theorem State.takeFrame_wf (s : State) (h f : Nat) (hw : twf {} (s.stack h).lines = true) : twf {} ((s.takeFrame h f).stack h).lines = true := by
  simpa [State.takeFrame] using clearFrame_wf f _ hw

theorem State.freeFrame_wf (s : State) (h f : Nat) (hw : twf {} (s.stack h).lines = true) : twf {} ((s.freeFrame h f).stack h).lines = true := by
  simpa [State.freeFrame] using clearFrame_wf f _ hw

theorem State.writeLine_wf (s : State) (p h f i addr : Nat) (b : SMap Byte) (hw : twf {} (s.stack h).lines = true) :
    twf {} ((s.writeLine p h f i addr b).stack h).lines = true := by
  simpa [State.writeLine] using twf_tset (α := HbmLine) {} _ _ _ hw

theorem State.putLines_wf (s : State) (h f : Nat) (ls : SMap HbmLine) (hw : twf {} (s.stack h).lines = true) :
    twf {} ((s.putLines h f ls).stack h).lines = true := by
  simpa [State.putLines] using foldl_tset_twf {} (fun e : Nat × HbmLine => f * 32768 + e.1) (fun e => e.2) ls _ hw

theorem Stack.correct_wf (st : Stack) (line : Nat) (l : HbmLine) (hw : twf {} st.lines = true) : twf {} (st.correct line l).lines = true := by
  unfold Stack.correct
  exact twf_tset (α := HbmLine) {} _ _ _ hw

theorem ite_lines_wf {b : Bool} {x y : Stack} (hx : twf {} x.lines = true) (hy : twf {} y.lines = true) :
    twf {} (if b then x else y).lines = true := by cases b <;> assumption

theorem Stack.readAs_wf (st : Stack) (part : Part) (p addr line : Nat) (l : HbmLine) (d : Decoded) (hw : twf {} st.lines = true) :
    twf {} (st.readAs part p addr line l d).1.lines = true := by
  cases d with
  | bad => exact hw
  | clean => exact ite_lines_wf hw hw
  | corrected l => exact ite_lines_wf (Stack.correct_wf _ _ _ hw) (Stack.correct_wf _ _ _ hw)

/-- A read of a line, with the repair that a corrected error asks for, keeps the canonical form. -/
theorem State.readLine_wf (s : State) (p h f i addr : Nat) (hw : twf {} (s.stack h).lines = true) :
    twf {} ((s.readLine p h f i addr).1.stack h).lines = true := by
  unfold State.readLine
  dsimp only
  split
  · exact hw
  · rw [State.setStack_stack_self]
    exact Stack.readAs_wf _ _ _ _ _ _ _ hw

/-- A line written is the sealed line read back (R235 to R238). -/
theorem State.writeLine_line (s : State) (p h f i addr : Nat) (b : SMap Byte) :
    ((s.writeLine p h f i addr b).stack h).line f i = (s.part p).sealLine p addr (packLine b) := by
  simp [State.writeLine, Stack.line, tget_tset_self]

/-! ### The canonical form at reset -/

theorem reset_storeWf : State.reset.storeWf = true := rfl

end Sys2Proof.Machine
end

