-- ==== Sys2Proof/Tests/Slice0.lean ====
section
/-! SUPPORT. Tests: ill-formed commands that the check refuses, and, for the statements of Slice 0, a state that meets the hypotheses of each
clause together. No opaque function of Config is evaluated: a clause whose hypothesis is the outcome of a check of a signature or of a decapsulation
has no witness that Lean can compute, and says so where it stands. -/

namespace Sys2Proof.Tests

-- One test after another: their kernel evaluations side by side would hold a large stack each.
set_option Elab.async false

open Sys2Proof Sys2Proof.Machine

/-! ### Operations of a task -/

/-- A core whose F sequencer runs a task that stands at the instruction `n`. -/
def opCore (n : Nat) : Core :=
  { power := .running, valid := true, seated := true, seqF := { prog := [BitVec.ofNat 128 n], running := some { st := .running } } }

/-- A job that runs, with its section open. -/
def opPart : Part := { job := .running, sect := .open }

/-- Core 0 at the instruction `n`, its attention pipe in use. -/
def opState (n : Nat) : State := { cores := [(0, opCore n)], parts := [(0, opPart)], sites := [(0, { fused := false })] }

/-- Whether core 0 of `s` comes next to an operation of opcode `op` that meets `h`, that takes an effect of `f` now, and that nothing keeps from issuing:
the hypothesis `Ready` of the statements. -/
def ready (s : State) (op : Nat) (f : Issue → Try) (h : Issue → Bool := fun _ => true) : Bool :=
  match issueOf s 0 .F op with
  | some i => h i && match f i with | .eff e => s.issues i (.eff e) | _ => false
  | none => false

/-- What `ready` computes is `Ready`. -/
theorem ready_met (s : State) (op : Nat) (f : Issue → Try) (h : Issue → Bool) (hr : ready s op f h = true) : ∃ i e, Ready s 0 .F op f i e ∧ h i = true := by
  unfold ready at hr
  cases hi : issueOf s 0 .F op with
  | none => simp [hi] at hr
  | some i =>
    simp only [hi, Bool.and_eq_true] at hr
    cases he : f i with
    | wait u k => simp [he] at hr
    | eff e => exact ⟨i, e, ⟨hi, he, by simpa [he] using hr.2⟩, hr.1⟩

/-- The engine's conditions of the matrix operations. -/
def engineFree (port : Bool) (i : Issue) : Bool :=
  i.core.enginesAccept (opEngines i.n) port && (i.core.needSlots (opAcc i.n / 8) (opEngines i.n)).isSome

theorem test_MatrixOperationsLand_met :
    ready (opState (0x10 + 2 ^ 10)) 0x10 (cubeTry false false) (engineFree false) = true ∧
    ready (opState (0x11 + 2 ^ 10)) 0x11 (cubeTry true false) (engineFree false) = true ∧
    ready (opState (0x12 + 2 ^ 10)) 0x12 (cubeTry false true) (engineFree false) = true ∧
    ready (opState (0x13 + 2 ^ 10)) 0x13 (cubeTry true true) (engineFree false) = true ∧
    ready (opState (0x14 + 2 ^ 10)) 0x14 accLoadTry (engineFree true) = true ∧
    ready (opState (0x18 + 2 ^ 10)) 0x18 drainTry (engineFree true) = true ∧
    ready (opState (0x19 + 2 ^ 10)) 0x19 drainAddTry (engineFree true) = true := by decide +kernel

/-- The hypotheses of MatrixProductIsExactSum on the first tile of engine 0. -/
def oneTile (i : Issue) : Bool := engineFree false i && decide (opEngines i.n = [0] ∧ opM i.n = 8 ∧ opN i.n = 8)

theorem test_MatrixProductIsExactSum_met :
    ready (opState (0x10 + 2 ^ 10)) 0x10 (cubeTry false false) oneTile = true ∧
    ready (opState (0x11 + 2 ^ 10)) 0x11 (cubeTry true false) oneTile = true := by decide +kernel

theorem test_RowOperationsLand_met :
    ready (opState 0x40) 0x40 (rowReduce · rowSum) (fun i => decide (i.core.rowUnit.length < 2)) = true ∧
    ready (opState 0x41) 0x41 (rowReduce · rowMax) = true ∧ ready (opState 0x42) 0x42 (rowReduce · rowSumSquares) = true ∧
    ready (opState 0x43) 0x43 rowFn = true ∧ ready (opState 0x44) 0x44 softmax = true ∧ ready (opState 0x45) 0x45 softmaxBwd = true ∧
    ready (opState 0x46) 0x46 Sys2Proof.Machine.norm = true ∧ ready (opState 0x47) 0x47 normBwd = true := by decide +kernel

theorem test_VectorOperationsLand_met :
    ready (opState 0x60) 0x60 (vecBinary · Val.add) (fun i => decide (i.core.vecUnit.length < 2 ∧ opTap i.n = 0)) = true ∧
    ready (opState 0x61) 0x61 (vecBinary · Val.sub) = true ∧ ready (opState 0x62) 0x62 (vecBinary · Val.mul) = true ∧
    ready (opState 0x63) 0x63 vecMad = true ∧ ready (opState 0x64) 0x64 (vecBinary · Val.max2) = true ∧
    ready (opState 0x65) 0x65 (vecBinary · Val.min2) = true ∧ ready (opState 0x67) 0x67 vecAffine = true := by decide +kernel

/-- Layer 0 of the job of partition 0 frozen. -/
def frozenState (n : Nat) : State := { opState n with parts := [(0, { opPart with frozen := 1 })] }

theorem test_VectorSpecialsLand_met :
    ready (opState 0x66) 0x66 vecCvt (fun i => !i.frozenU && !scaledType i.zType) = true ∧
    ready (opState (0x66 + 4 * 2 ^ 18)) 0x66 vecCvt (fun i => scaledType i.zType) = true ∧
    ready (opState 0x68) 0x68 vecAddLs (fun i => !i.frozenU) = true ∧ ready (opState 0x6A) 0x6A vecRand = true ∧
    ready (opState 0x6B) 0x6B vecDrop = true ∧ ready (opState 0x6C) 0x6C vecPut = true := by decide +kernel

theorem test_OptimiserOperationsLand_met :
    ready (frozenState 0x70) 0x70 (optTry · true) (fun i => i.part.frozenLayer (opLayer i.n)) = true ∧
    ready (frozenState 0x71) 0x71 (optTry · false) (fun i => i.part.frozenLayer (opLayer i.n)) = true ∧
    ready (opState 0x70) 0x70 (optTry · true) (fun i => !i.part.frozenLayer (opLayer i.n)) = true ∧
    ready (opState 0x71) 0x71 (optTry · false) (fun i => !i.part.frozenLayer (opLayer i.n)) = true ∧
    ready (opState 0x72) 0x72 optStep = true := by decide +kernel

/-- Core 0 at the instruction `n`, its site fused. -/
def fusedState (n : Nat) : State := { opState n with sites := [] }

theorem test_AttentionOperationsLand_met :
    ready (opState 0x20) 0x20 (attnFwd · false) (fun i => !useFused (opState 0x20) false i && decide (i.core.attn.length < 2)) = true ∧
    ready (opState 0x21) 0x21 (attnRecomp · false) (fun i => !useFused (opState 0x21) false i) = true ∧
    ready (opState 0x22) 0x22 (attnDs · false) (fun i => !useFused (opState 0x22) false i) = true ∧
    ready (opState 0x23) 0x23 (rope · false) (fun i => !useFused (opState 0x23) false i) = true ∧
    ready (fusedState 0x20) 0x20 (attnFwd · true) (useFused (fusedState 0x20) false) = true ∧
    ready (opState 0x28) 0x28 (attnFwd · true)
      (fun i => i.core.enginesAccept (upFrom 0 8) false && decide (i.core.rowUnit.length < 2) && (i.core.lendSlots (upFrom 0 8)).isSome) = true ∧
    ready (opState 0x29) 0x29 (attnRecomp · true) = true ∧ ready (opState 0x2A) 0x2A (attnDs · true) = true ∧
    ready (opState 0x2B) 0x2B (rope · true) = true := by decide +kernel

/-- Core 0 at the instruction `n`, in a partition with a key-value pool. -/
def poolState (n : Nat) : State := { opState n with parts := [(0, { opPart with pool := some {} })] }

theorem test_KvOperationsIssue_met :
    ready (poolState 0x24) 0x24 (kvTry false) (fun i => i.part.pool.isSome && decide (i.core.attn.length < 2)) = true ∧
    ready (poolState 0x25) 0x25 (kvTry true) (fun i => i.part.pool.isSome) = true := by decide +kernel

/-! ### Sequencers, tokens, verdicts, sections -/

/-- Core 0 with its F sequencer `sq`, in a running job whose section is open. -/
def seqState (sq : Seq) (part : Part := opPart) (core : Core := {}) : State :=
  { cores := [(0, { core with power := .running, valid := true, seated := true, seqF := sq })], parts := [(0, part)], slot := 8 }

/-- A sequencer that reads the instruction `n`, and one whose task reads it. -/
def readSeq (n : Nat) : Seq := { prog := [BitVec.ofNat 128 n] }
def bodySeq (n : Nat) (t : Task := {}) : Seq := { readSeq n with running := some { t with st := .running } }

/-- The first token, credit, control message or closure on its way. -/
def msgState (up : List UpMsg) (inbox : List DownMsg) : State := seqState {} { opPart with up := up } { inbox := inbox }

theorem test_TasksRunFromOpenToClose_met :
    ((seqState (readSeq 0xF0)).readAt 0 .F 0xF0).isSome = true ∧ opPart.holdsOpen .F false = false ∧ (readSeq 0xF0).room = true ∧
    (seqState { window := [{}] }).seqRuns 0 = true ∧
    (takeFirst (((seqState { window := [{}] }).core 0).mayFire opPart .F) [({} : Task)]).isSome = true ∧
    ((seqState (bodySeq 0xF1)).bodyAt 0 .F 0xF1).isSome = true ∧
    ((seqState (bodySeq 0xF1)).core 0).unfinished .F {} = false ∧
    (seqState (bodySeq 0xF1)).edgesReady 0 (maskList 16 0) [] = true ∧
    ((seqState (bodySeq 0xF1 { draft := true })).bodyAt 0 .F 0xF1).isSome = true ∧
    ((seqState (bodySeq 0xF1 { flags := [(4, 0)] })).bodyAt 0 .F 0xF1).isSome = true := by decide

theorem test_LoopsAndRegistersOfASequencer_met :
    ((seqState (readSeq 0xF2)).readAt 0 .F 0xF2).isSome = true ∧ ((seqState (bodySeq 0xF2)).bodyAt 0 .F 0xF2).isSome = true ∧
    ((seqState (readSeq 0xF3)).readAt 0 .F 0xF3).isSome = true ∧ ((seqState (readSeq 0xF7)).readAt 0 .F 0xF7).isSome = true := by decide

theorem test_BellOperationsOfASequencer_met :
    ((seqState (readSeq 0xF4)).readAt 0 .F 0xF4).isSome = true ∧ ((seqState (readSeq 0xF5)).readAt 0 .F 0xF5).isSome = true ∧
    ((seqState (readSeq 0xF6)).readAt 0 .F 0xF6).isSome = true ∧
    ({ readSeq 0xF6 with arms := [{ answered := true }] } : Seq).waitOver (ctlBell 0xF6) = true ∧
    ((seqState (bodySeq 0xF4)).bodyAt 0 .F 0xF4).isSome = true ∧ ((seqState (bodySeq 0xF5)).bodyAt 0 .F 0xF5).isSome = true ∧
    ((seqState (bodySeq 0xF6)).bodyAt 0 .F 0xF6).isSome = true := by decide

/-- Core 0 with an operation in engine 0. -/
def enginePair (busy : Bool) : Core :=
  { engines := [(0, { unfin := [{ id := 1, port := true, blocks := 1 }, { id := 2, port := busy, blocks := 1 }] })] }

theorem test_UnitOperationsEnd_met :
    (seqState {}).kvWaits 0 = false ∧ ((enginePair true).oldest 0 true).any (fun x => !(enginePair true).opWaits 0 x) = true ∧
    ((enginePair false).oldest 0 false).any (fun x => (enginePair false).opWaits 0 x) = true := by decide

/-- A token of epoch 0, for generation `g`, and a credit that have reached core 0 of a partition in epoch `epoch`. -/
def flightState (g epoch : Nat) : State :=
  seqState {} { opPart with epoch := epoch, toks := [{ tok := { gen := g } }], credits := [{}] }

/-- A running job at a period of 65,536 slots from slot 0. -/
def longPart : Part := { opPart with image := some { sections := [{ entries := [0xFFFF] }] } }

/-- A token that waits for the occurrence of edge 0 of core 0, and a credit that core 1 owes edge 0 of core 0. -/
def edgeState : State :=
  { slot := 8, parts := [(0, longPart)]
    cores := [(0, { power := .running, cfg := { edges := [(0, 0)], routes := [(0, 1 <<< 64)], consumers := [(0, (1, 0))] }, outToks := [{}] }),
      (1, { owed := [(0, 3)] })] }

theorem test_TokensArriveAndLeave_met :
    ((flightState 0 0).part 0).toks.length = 1 ∧ ((flightState 0 0).part 0).credits.length = 1 ∧ tagEpoch 0 = 0 ∧
    ((flightState 0 1).core 0).gen = 0 ∧ (tagEpoch 0 + 1) % 64 = ((flightState 0 1).part 0).epoch ∧
    (tagEpoch 0 + 1) % 64 ≠ ((flightState 0 2).part 0).epoch ∧
    edgeLocal (tget 0 (edgeState.core 0).cfg.edges 0).toNat = false ∧
    (let r := cfgRoute (edgeState.core 0).cfg 0
     longPart.routeOccurs r (routePhase r) (8 + 3 + routeHops r) 8 = true ∧ longPart.tokenReady (8 + 3 + routeHops r) { edge := 0 } = true ∧
     longPart.routeOccurs r (routeCreditPhase r) (8 + 2 + routeCreditHops r) 8 = true) ∧
    (takeFirst (fun o : OutTok => o.edge == 0) (edgeState.core 0).outToks).isSome = true ∧
    cfgDest (edgeState.core 0).cfg 0 = 1 ∧ tget 0 (edgeState.core 1).owed 0 = 3 := by decide

theorem test_VerdictsReachCoresAndSlices_met :
    (msgState [.closure 0 0 0 0 [] 0] [] |>.part 0).up.length = 1 ∧
    takeVerdict ((msgState [] [.verdict 1 true false]).core 0).inbox = some ((1, true, false), []) ∧
    takeVerdict ((msgState [] [.verdict 1 false false]).core 0).inbox = some ((1, false, false), []) ∧
    (msgState [] []).slicesFirst 0 1 = true ∧ ((msgState [] []).core 0).power = .running ∧
    (({ slices := [(3, { inbox := [(1, true)] })] } : State).slice 3).inbox.length = 1 := by decide

theorem test_CommitCopiesDrafts_met :
    let d : DraftLine := { line := 2, group := 1, bytes := [(0, some 5)] }
    ([d].map DraftLine.line).Nodup ∧ twf none d.bytes = true ∧ ∀ b ∈ d.bytes, b.1 < 64 := by decide

theorem test_BellTreeMessages_met :
    (msgState [.ring 1 1 0] [] |>.part 0).up.length = 1 ∧ (msgState [.arm 1 0 .F] [] |>.part 0).up.length = 1 ∧
    (msgState [.fin 0] [] |>.part 0).up.length = 1 ∧
    (takeFirst DownMsg.isCount ((msgState [] [.count 1 1 (some .F)]).core 0).inbox).isSome = true ∧
    (takeFirst DownMsg.isCount ((msgState [] [.count 1 1 none]).core 0).inbox).isSome = true ∧
    (takeFirst DownMsg.isClose ((msgState [] [.close 0 0]).core 0).inbox).isSome = true ∧
    (takeFirst DownMsg.isGen ((msgState [] [.gen 1 1]).core 0).inbox).isSome = true ∧
    (msgState [] []).partOfCore 0 = 0 := by decide

/-- A partition whose section stands in the phase `st` of a change, at slot 4,096. -/
def sectState (st : SectSt) : State := { slot := 4096, parts := [(0, { opPart with sect := st })] }

/-- A section that has been open and stuck for 1,048,576 slots. -/
def stuckState : State := seqState { window := [{}] } { opPart with watchdog := 2 ^ 20 }

theorem test_SectionsSwitchInOrder_met :
    ((sectState .closing).part 0).switchAt ≤ 4096 ∧ ((sectState .windowA).part 0).switchAt + 256 ≤ 4096 ∧ (sectState .windowA).cfgsGood 0 = true ∧
    ((sectState .windowB).part 0).switchAt + 256 + ((sectState .windowB).part 0).sec.load ≤ 4096 ∧
    ((sectState .windowC).part 0).startAt ≤ 4096 ∧
    ((sectState .open).part 0).timetableRuns 4096 = true ∧ ((sectState .open).part 0).entryAt + periodLen ((sectState .open).part 0).period ≤ 4096 ∧
    (stuckState.coresOf 0).any (fun c => (stuckState.core c).holdsWork) = true := by decide

/-- Stream 0 of the open section, of kind `kind`, with a launched block. -/
def streamState (kind : Nat) (l : Launch := {}) (moving : List (Launch × Nat) := []) (st : PageSt := .unmapped) : State :=
  { slot := 8, parts := [(0, { longPart with
      pages := [(0, { st := st })]
      image := some { sections := [{ entries := [0xFFFF], streams := [(0, BitVec.ofNat 256 (kind + 2 ^ 11))] }] }
      streams := [(0, { pending := [l], moving := moving })] })] }

/-- What became of the first unit of stream 0. -/
def unitOf (s : State) (kind : Nat) : UnitRes :=
  let s1 := s.modPart 0 fun part => { part with streams := tset {} part.streams 0 { tget {} part.streams 0 with last := s.slot + 1 } }
  if kind = 0 then s1.unitFromSlice 0 0 {} 0 0 else if kind = 1 then s1.unitToSlice 0 0 {} 0 else s1.unitVector 0 0 {} 0

theorem test_StreamsMoveUnits_met :
    stKind ((streamState 0).part 0 |>.stream 0) = 0 ∧ stKind ((streamState 3).part 0 |>.stream 0) = 3 ∧
    ((streamState 0).part 0).streamOccurs ((streamState 0).part 0 |>.stream 0) 8 = true ∧
    (((streamState 0).part 0).sec.streams.find? fun e => e.1 == 0).isSome = true ∧
    (match unitOf (streamState 0) 0 with | .ended _ => true | _ => false) = true ∧
    (match unitOf (streamState 0 {} [] .inn) 0 with | .held _ _ => true | _ => false) = true ∧
    (match unitOf (streamState 3) 3 with | .moved _ => true | _ => false) = true ∧
    ({} : Launch).at' < (streamState 0).slot ∧ (tget {} ((streamState 3 {} [({}, 0)]).part 0).streams 0).moving.length = 1 ∧
    stBellEn ((streamState 3).part 0 |>.stream 0) = false := by decide +kernel

theorem test_CorePowerStates_met :
    (seqState { ended := true } { opPart with sect := .closed } { idle := 64, seqB := { ended := true }, seqU := { ended := true } }).quiet 0 = true ∧
    ({ cores := [(0, { power := .clockStop, wake := some 0 })], slot := 48 } : State).slot = 48 ∧
    ({ cores := [(0, { power := .running })] } : State).mayGate 0 = true ∧
    ({ power := { mainOn := true } } : State).core 0 = { power := .gated } ∧
    opPart.loads = true ∧ ({ parts := [(0, opPart)] } : State).cfgRead 0 0 = some {} ∧ (76800 : Nat) ≤ ({ cores := [(0, { rollCall := some 0 })], slot := 76800 } : State).slot := by decide

/-- A pool with one request that waits for a frame. -/
def waitPool (grow : Bool) (desc : SMap SeqDesc) : KvPool := { grow := grow, desc := desc, reqs := [{ noFrame := true }] }
def waitState (k : KvPool) (quota : Nat) : State :=
  { power := { fwReady := true }, tick := 250000, parts := [(0, { opPart with pool := some k, quota := [0, 0, quota, 0] })] }

theorem test_KvRequestsAreServed_met :
    (waitPool false []).reqs.length = 1 ∧ (waitPool false [(0, { st := 2 })]).reclaim = some 0 ∧ (waitPool false []).reclaim = none ∧
    ((waitState (waitPool true []) 1).part 0).useOf 2 < ((waitState (waitPool true []) 1).part 0).quotaOf 2 := by decide

/-- A stack with at most one frame taken gives another, whatever the allocator's choice is (R221). -/
theorem pickFrame_some (h : Nat) (st : Stack) (hu : st.used = [] ∨ ∃ x, st.used = [x]) : ∃ f, st.pickFrame h = some f := by
  have hm : Config.frameChoice h st.used % framesPerStack < framesPerStack := Nat.mod_lt _ (by decide)
  rcases hu with hu | ⟨x, hu⟩ <;> rw [hu] at hm <;> simp only [Stack.pickFrame, hu]
  · simp [hm]
  · by_cases hx : Config.frameChoice h [x] % framesPerStack = x
    · by_cases h0 : (0 : Nat) = x
      · subst h0
        have e : lowestFree [0] 1 0 = 1 := rfl
        simp [hx, e, show 1 < framesPerStack by decide]
      · have e : lowestFree [x] 1 0 = 0 := if_neg (by simp [h0])
        simp [hx, e, h0, show 0 < framesPerStack by decide]
    · simp [hx, hm]

/-- A new table of pages finds a frame where the stacks are empty, whichever frame the allocator picks, and each stack still has frames (R221, R245). -/
theorem test_takeTables_met (s : State) (p : Nat) (l : List Nat) (hl : l.length ≤ 1) (h : s.hbm = []) :
    ∃ t, s.takeTables p l = some t ∧ ∀ x, (t.stack x).used = [] ∨ ∃ f, (t.stack x).used = [f] := by
  have e : ∀ x, s.stack x = {} := fun x => by simp [State.stack, h, tget]
  match l, hl with
  | [], _ => exact ⟨s, rfl, fun x => by simp [e]⟩
  | [k], _ =>
    let y := (s.stacksOf p).getD (k % (s.stacksOf p).length) 0
    obtain ⟨f, hf⟩ := pickFrame_some y (s.stack y) (by simp [e])
    refine ⟨((s.takeFrame y f).modPart p fun part => { part.charge 2 1 with tables := tset none part.tables k (some (y, f)) }), ?_, fun x => ?_⟩
    · simp only [State.takeTables, hf, y]
    · show ((s.takeFrame y f).stack x).used = [] ∨ _
      by_cases hx : x = y
      · subst hx; right; exact ⟨f, by simp [State.takeFrame, State.modStack, e, addOnce]⟩
      · left; simp [State.takeFrame, State.modStack, State.setStack_stack_ne _ _ _ _ hx, e]

/-- A pool's page finds a frame and, where it needs one, a table, whichever frames the allocator picks (R221, R245). -/
theorem test_poolPage_met (s : State) (p : Nat) (k : KvPool) (h : s.hbm = []) (hq : (s.part p).useOf 2 + 2 ≤ (s.part p).quotaOf 2) :
    (s.addPoolPage p k).isSome = true := by
  have hl : ((s.part p).newTables (s.part p).freePoolPage 1).length ≤ 1 := by
    refine Nat.le_trans (List.length_filter_le _ _) ?_
    simp [upFrom]
  obtain ⟨t, ht, hs⟩ := test_takeTables_met s p _ hl h
  obtain ⟨f, hf⟩ := pickFrame_some (s.stackOfPage p (s.part p).freePoolPage) _ (hs (s.stackOfPage p (s.part p).freePoolPage))
  have q : ¬ (s.part p).quotaOf 2 < (s.part p).useOf 2 + ((s.part p).newTables (s.part p).freePoolPage 1).length + 1 := by omega
  simp [State.addPoolPage, ht, hf, q]

/-- The pages of a new pool of one page. -/
theorem test_poolPages_met (s : State) (p : Nat) (k : KvPool) (h : s.hbm = []) (hq : (s.part p).useOf 2 + 2 ≤ (s.part p).quotaOf 2) :
    (s.addPoolPages p 1 k).isSome = true := by
  obtain ⟨x, hx⟩ := Option.isSome_iff_exists.mp (test_poolPage_met s p k h hq)
  simp [State.addPoolPages, hx]

theorem test_SliceCacheMovesLines_met :
    ({ parts := [(0, {})] } : State).cacheSlot 0 = some 0 ∧
    ([({ addr := 256, sent := true } : Fill)].any fun f => f.addr == 256 && f.holds && f.data.isNone) = true ∧
    ([({ addr := 256, arriving := true, data := some [] } : Fill)].find? fun f => f.arriving).isSome = true ∧
    (match ({} : Slice).install (({} : State).cacheBays 0) 256 0 [] with | .got _ _ => true | _ => false) = true ∧
    (({ slices := [(0, { wbSent := [{}] })] } : State).slice 0).wbSent.length = 1 ∧
    (({ parts := [(0, { pages := [(2, { boundary := some 1 })] })] } : State).part 0 |>.page 2).boundary = some 1 := by decide

/-! ### Pages, steps, links and the Form -/

/-- A page 0 that is moving in (`true`) or out, on host memory, with 64 MiB of frames. -/
def moveState (inwards : Bool) (tries : Nat) : State :=
  { tick := 10 ^ 9, parts := [(0, { pages := [(0, { st := if inwards then .inn else .out, tries := tries })], transfers := [{ page := 0, inward := inwards }], quota := [0, 0, 16, 0] })] }

/-- The first packet that has come, on port 0. -/
def pktState (k : Packet) (part : Part := {}) : State := { pktIn := [(0, k)], parts := [(0, part)] }

/-- A partition whose page 0, a far page of region 5 of device 1, moves in or out. -/
def farPart (inwards : Bool) : Part :=
  { transfers := [{ page := 0, inward := inwards, drain := false }], backends := [(0, some { kind := 1, target := 1, region := 5 })]
    allocs := [{ base := 0, len := 2097152 }] }

/-- A partition that lends its first page as region 5. -/
def lender : Part := { exports := [(5, 0, 2097152)], pages := [(0, { st := .hbm })] }

theorem test_FarTierTransfersMovePages_met :
    ((moveState true 0).part 0).inTransfer 0 true = true ∧ (((moveState true 0).part 0).backendOf 0).kind = 0 ∧
    (((moveState true 2).part 0).page 0).tries = 2 ∧ ((moveState false 0).part 0).inTransfer 0 false = true ∧ ((moveState false 0).part 0).sending 0 = true ∧
    ((moveState false 0).part 0).inTransfer 0 true = false ∧
    (((moveState true 0).part 0).page 0).started + (((moveState true 0).part 0).backendOf 0).timeoutMs * 25000 ≤ 10 ^ 9 ∧
    ((({ prefetch := [0], pages := [(0, { st := .far })] } : Part)).page 0).st = .far ∧
    (match ({ parts := [(0, { pages := [(0, { st := .far })] })] } : State).startIn 0 0 true with | .fail _ => true | _ => false) = true ∧
    (takePacket 0x01 (pktState { cls := 0x01, arg := 5 } lender).pktIn).isSome = true ∧ lender.exported { arg := 5 } = some (0, 0) ∧
    lender.exported { arg := 6 } = none ∧ (takePacket 0x02 (pktState { cls := 0x02 }).pktIn).isSome = true ∧
    ((lender.page 0).st = .hbm ∧ ({ lender with pages := [] } : Part).exported { arg := 5 } = some (0, 0)) ∧
    (farPart true).farPageOf { src := 1, arg := 5 } true = some 0 ∧ (farPart false).farPageOf { src := 1, arg := 5 } false = some 0 ∧
    (takePacket 0x03 (pktState { cls := 0x03 }).pktIn).isSome = true ∧ ((pktState {} lender).frameForWrite 0 0).2 = 0 ∧
    (takePacket 0x04 (pktState { cls := 0x04 }).pktIn).isSome = true := by decide +kernel

/-- A transfer in starts where the partition has frames left, whatever frame the allocator picks (R221, R247). -/
theorem test_startIn_met (s : State) (pg : Nat) (hm : s.hbm = []) (ht : (s.part 0).transfers = []) (hq : (s.part 0).useOf 2 < (s.part 0).frameLimit) :
    (match s.startIn 0 pg true with | .got _ _ => true | _ => false) = true := by
  have e : ∀ x, s.stack x = {} := fun x => by simp [State.stack, hm, tget]
  have f : ∀ x, ∃ y, ({} : Stack).pickFrame x = some y := fun x => by
    simp [Stack.pickFrame]; exact Nat.mod_lt _ (by decide)
  obtain ⟨y, hy⟩ := f (s.stackOfPage 0 pg)
  simp [State.startIn, State.needFrame, e, hy, ht, hq]

/-- A partition whose step may end, and one whose intake has a record of 0 bytes to copy. -/
def endState : State := { parts := [(0, { job := .running, stepClosed := true, bells := [(0, 1)] })] }
def intakeState (retried : Bool) : State :=
  { parts := [(0, { intake := { configured := true, st := 1, slots := 4, shards := [{ len := 4 }], epochs := 1, retried := retried } })] }

theorem test_StepsAdvanceAndSamplesLand_met :
    endState.boundaryFalls 0 = true ∧ (((intakeState false).settleIntake 0).part 0).intakeReady = true ∧
    (((intakeState false).settleIntake 0).part 0).intake.recordBytes = ([] : List Byte).length ∧
    (((intakeState false).settleIntake 0).writeFields 0 0 [] []).2 = (0, 0) ∧
    (({ parts := [(0, { pages := [(0, { st := .out })] })] } : State).writeFields 0 0 [7] [3 * 2 ^ 26 + 2 ^ 32]).2.1 = stBusy ∧
    ((intakeState true).part 0).intake.retried = true := by decide +kernel

/-- Port 0 in the state `st`, with all its lanes, at slot `slot`. -/
def portState (st : Nat) (slot : Nat := 8) : State :=
  { slot := slot, ports := [(0, { st := st, lanes := 15, idle := true })], parts := [(0, opPart)], form := { set := true } }

/-- A device at place `index` of a collective of kind `kind` that has come to the layer's last U task. -/
def collState (index kind : Nat) (dest : Nat := 0) : State :=
  { portState 2 with parts := [(0, { opPart with
      pages := [(0, { st := .hbm }), (1, { st := .out })], memKeys := true
      colls := [(0, some { coll := { index := index, kind := kind, chunk := 64, dest := dest, rings := [{}] } })] })] }

/-- What the edge router does at `s` with a partial sum of two words. -/
def sumOf (s : State) (fl : ReduceFlit) : Option UnitRes :=
  let s1 := s.modPart 0 Part.startColls
  match (s1.part 0).reduceOf fl, s1.readMem 0 fl.off 8 with
  | some (k, r), .ok u _ => some (u.sumOn 0 k r fl (List.replicate 8 1))
  | _, _ => none

theorem test_LinksAndEdgeRouters_met :
    (portState 2).carries 0 = true ∧ ((portState 2).port 0).parked = false ∧ flitSlot ((portState 2).port 0).onThree ((portState 2).port 0).flit ≤ 8 ∧
    ((portState 2).port 0).lanes.testBit 0 = true ∧ ((portState 1).port 0).st = 1 ∧
    (takeFirst (fun (e : Nat × List W64 × Nat) => decide (e.2.2 + 2400 ≤ 2400)) [(0, [], 0)]).isSome = true ∧
    (takeFirst (fun (e : Packet × Nat × Nat) => decide (e.2.2 + 4800 ≤ 4800)) [(({} : Packet), 0, 0)]).isSome = true ∧
    ({ (portState 2) with beat := { lockPort := 4, altPort := 8 } } : State).mayPark 0 = true ∧
    (takeFirst (fun k : Nat × Packet => k.1 == 0 && k.2.ctl == some .park) (portState 2).pktIn).isNone = true := by decide +kernel

theorem test_TimedFlitsAndBells_met :
    (match (portState 2).handOn 0 {} with | .moved _ => true | _ => false) = true ∧
    (match (portState 2).handOn 0 { bytes := [1] } with | .ended _ => true | _ => false) = true ∧
    (match (({ portState 2 with parts := [(0, { opPart with pages := [(0, { st := .out })] })] } : State).countHandOn 0 { bytes := [1] }).handOn 0 { bytes := [1] } with
      | .held _ _ => true | _ => false) = true ∧
    (match ({ portState 2 with parts := [(0, { opPart with pages := [(0, { st := .out })] })] } : State).handOn 0 { bytes := [1] } with
      | .held _ _ => true | _ => false) = true ∧
    ({ sent := 0, arrived := 1 } : TimedFlit).sent + ((portState 2).port 0).compiled < ({ sent := 0, arrived := 1 } : TimedFlit).arrived ∧
    (portState 2).relayFrom 0 = none ∧
    ({ portState 2 with form := { set := true, pos := 1, routes := [{ port := 0, relay := 1, relayPort := 3 }] } } : State).relayFrom 0 = some 3 := by
  decide +kernel

theorem test_EdgeRouterAdds_met :
    (collState 1 2).carries 0 = true ∧ ((collState 1 2).part 0).job = .running ∧ ((collState 1 2).part 0).layoutEpoch = 0 ∧
    (match sumOf (collState 1 2) {} with | some (.moved _) => true | _ => false) = true ∧
    (match sumOf (collState 0 0) {} with | some (.moved _) => true | _ => false) = true ∧
    (match sumOf (collState 0 2) {} with | some (.moved _) => true | _ => false) = true ∧
    (match sumOf (collState 0 2 2097152) {} with | some (.held _ _) => true | _ => false) = true ∧ (0 / 64 ≠ 1) ∧ ((collState 0 0).writePages 0 2 0 (List.replicate 8 1)).2 = 0 := by decide +kernel

/-- A member of a Form at position `pos`, led by position 0 with position 1 as its deputy, and the first bell message that has come to it. -/
def formState (pos : Nat) (m : W64) (part : Part := {}) : State :=
  { form := { set := true, pos := pos, prefect := 0, deputy := some 1, members := [0, 1, 2] }, bellIn := [(2, 0, m)], parts := [(0, part)] }

/-- A partition whose section takes tokens of layer 0 from device 1. -/
def consumerPart : Part := { opPart with image := some { sections := [{ inbound := [{ srcDev := 1 }] }] } }

theorem test_FormBellMessages_met :
    (takeBell 1 (formState 0 1).bellIn).isSome = true ∧ (formState 0 1).isRoot 0 = true ∧ (formState 1 1).isRoot 0 = false ∧
    (formState 1 1).isDeputy = true ∧ (formState 2 1).isRoot 0 = false ∧ ((formState 2 1).isDeputy || (formState 2 1).isDeputyHead && (formState 2 1).spans 0) = false ∧
    (takeBell 2 (formState 2 2).bellIn).isSome = true ∧ (formState 2 2).isPrefect = false ∧
    (takeFirst (fun (x : Nat × Nat × W64) => x.2.2.toNat % 256 == 3 && !(let k := (bits x.2.2.toNat 32 32 + 2 ^ 32 - opPart.openStep % 2 ^ 32) % 2 ^ 32
        decide (0 < k) && decide (k < 2 ^ 31))) (formState 0 3).bellIn).isSome = true ∧ opPart.openStep = 0 ∧
    (takeBell 4 (formState 0 4).bellIn).isSome = true ∧ (((formState 0 4).part 0).layerSources 0).filter (· != (formState 0 4).self) = [] ∧
    (consumerPart.layerSources 0).filter (· != (formState 0 4).self) ≠ [] ∧ bits 4 32 32 = consumerPart.step % 2 ^ 32 ∧ (takeBell 5 (formState 0 5).bellIn).isSome = true ∧
    (takeBell 6 (formState 1 6 { job := .running }).bellIn).isSome = true ∧ (formState 1 6).isPrefect = false ∧
    special32 (bits 6 32 32) = false ∧ special32 (bits (6 + 0x7F800000 * 2 ^ 32) 32 32) = true := by decide

/-- Member 2 as Deputy Head under the Head Prefect 64, which has sent a heartbeat. -/
def headState : State :=
  { form := { set := true, pos := 2, prefect := 0, head := some 64, deputyHead := some 2 }, bellIn := [(64, 0, 7)] }

/-- A member in holdover since tick 0, with four heartbeats missed. -/
def lostState : State :=
  { form := { set := true, pos := 2, prefect := 0, deputy := some 1, missedBeats := 4 }, tick := 25000000
    beat := { holdover := true, holdSince := some 0 } }

theorem test_FormLeadershipAndTime_met :
    (takeBell 7 (formState 2 7).bellIn).isSome = true ∧ (formState 2 7).form.prefect = 0 ∧ (formState 2 7).form.head ≠ some 0 ∧
    (headState.form.head = some 64 ∧ headState.form.prefect ≠ 64 ∧ (takeBell 7 headState.bellIn).isSome = true) ∧
    (takeBell 8 (formState 1 8).bellIn).isSome = true ∧ (formState 1 8).isDeputy = true ∧
    bits 8 16 14 = (formState 1 8).form.prefect ∧ headState.isDeputyHead = true ∧ headState.isDeputy = false ∧
    headState.form.head = some (bits (8 + 64 * 2 ^ 16) 16 14) ∧ bits 9 16 14 / 64 = (formState 2 9).form.form ∧
    bits (9 + 64 * 2 ^ 16) 16 14 / 64 ≠ (formState 2 9).form.form ∧ (takeBell 9 (formState 2 9).bellIn).isSome = true ∧
    (formState 2 0).isPrefect = false ∧ (formState 2 0).isDeputy = false ∧ (formState 2 0).form.deputy = some 1 ∧
    4 ≤ lostState.form.missedBeats ∧ lostState.form.missingSent = false ∧ lostState.isPrefect = false ∧ lostState.isDeputy = false ∧
    lostState.beat.holdSince = some 0 ∧ 0 + 25000000 ≤ lostState.tick ∧ lostState.beat.timedEnded = false ∧
    ({ aligning := true } : Beat).phaseSet = false ∧ ({} : Beat).root = false ∧ ({} : Beat).holdover = false ∧
    ({} : State).beat.last ≠ beatOf ({} : State).slot + 1 ∧ (formState 2 0).portIsUp 0 = false ∧ (portState 2).portIsUp 0 = true := by decide

/-- A satchel of step 7 in progress, its copies sent; its source and its buddy. -/
def satState : State :=
  { pktIn := [(0, { cls := 0x11, arg := 7 })]
    parts := [(0, { satchel := { inProgress := some 7, buddyEn := true, farInProgress := some 7 }, bells := [(0, 1)], spareFill := some (0, 2, []) })] }

theorem test_SatchelsAreStoredAndCommitted_met :
    (takePacket 0x10 (pktState { cls := 0x10, arg := 7 }).pktIn).isSome = true ∧ (takePacket 0x11 satState.pktIn).isSome = true ∧
    (satState.part 0).satchel.inProgress = some 7 ∧ (satState.part 0).satchel.toSend = [] ∧ (satState.part 0).satchel.recordLeft = false ∧
    (satState.part 0).deviceCount ≤ (tget 0 (satState.part 0).bells 0 - 0).toNat ∧ (satState.part 0).satchel.farInProgress = some 7 ∧
    (satState.part 0).spareFill = some (0, 2, []) := by decide

/-- The control packet `c` on port 0 of the Prefect, or of member 2. -/
def ctlState (pos : Nat) (c : FormCtl) : State := { formState pos 0 with pktIn := [(0, { cls := 0x20, ctl := some c })] }

/-- The Prefect with a member that several notes make a suspect. -/
def suspectState : State :=
  { form := { set := true, prefect := 0, members := [0, 1, 2], probes := [(2, 4)], notes := [({ key := { dev := 2, cls := 0x40 } }, 0, none, 0)] } }

theorem test_FormPacketsActOnce_met :
    (takePacket 0x21 (pktState { cls := 0x21, note := some {} }).pktIn).isSome = true ∧ suspectState.isPrefect = true ∧
    ({ suspectState with form := { suspectState.form with head := some 9 } } : State).isHead = false ∧
    (({ suspectState with form := { suspectState.form with head := some 0 } } : State).isHead && 64 / 64 != suspectState.form.form) = true ∧
    ({ suspectState with slot := 120000000 } : State).form.noteWindow ≠ noteWindowOf 120000000 ∧ 2 ∈ suspectState.suspects ∧
    tget 0 suspectState.form.probes 2 = 4 ∧
    (takeCtl FormCtl.isHold (ctlState 2 (.hold {})).pktIn).isSome = true ∧
    (ctlState 2 (.hold {})).isPrefect = false ∧
    (takeFirst (fun (x : Nat × Packet) => x.1 == 0 && x.2.cls == 0x20 && x.2.ctl == some FormCtl.ready) (ctlState 2 .ready).pktIn).isSome = true ∧
    (takePacket 0x22 (pktState { cls := 0x22 } { image := some {} }).pktIn).isSome = true ∧
    ({ suspectState with parts := [(0, { image := some {} })] } : State).isNormRoot 0 = true ∧
    (takeCtl FormCtl.isProbe (ctlState 0 .probe).pktIn).isSome = true ∧
    (takeCtl FormCtl.isProbe (ctlState 0 .probeAnswer).pktIn).isSome = true ∧
    (takeCtl FormCtl.isPosition (ctlState 0 (.position 0 0 0 0)).pktIn).isSome = true := by decide

theorem test_FaultyUnitsAreTakenOut_met :
    8 ≤ ({ corrected := [0, 1, 2, 3, 4, 5, 6, 7] } : Site).corrected.length ∧
    ({ power := { mainOn := true, fwReady := true } } : State).power.mainOn = true ∧
    ({ rowErrs := [(rowKey 1 2 3, [0, 1])] } : Stack).rowDue 1 2 3 = true ∧ ({ hourErrs := [(1, 256)] } : Stack).channelDue 1 = true ∧
    ({ st := .spare, spareFor := 2 } : Stack).spareFor ≠ 1 ∧ ({ st := .sparing } : Stack).st = .sparing := by decide

/-- A powered module with core 0 running and not seated. -/
def mainState : State := { power := { mainOn := true, fwReady := true, stage := 9 }, cores := [(0, { power := .running })], tick := 2160000000000 }

theorem test_ScrubsAndSelfChecks_met :
    (({} : Stack).st ≠ .fenced ∧ ({} : HbmEvent).parity < 2 ∧ 0 / 32768 < framesPerStack ∧ mainState.pageOfFrame 0 (0 / 32768) = none) ∧
    (match decodeLine (tget {} (mainState.stack 0 |>.meet 0 1 { flips := [(3, 0x11)] }).lines 0) with | .corrected l => l == {} | _ => false) = true ∧
    (match decodeLine (tget {} (mainState.stack 0 |>.meet 0 1 { flips := [(3, 0x11), (9, 0x22)] }).lines 0) with | .bad => true | _ => false) = true ∧
    ((mainState.core 0).power = .running ∨ (mainState.core 0).power = .clockStop) ∧
    ((upFrom 0 32).all fun k => (mainState.stack k).st == .fenced || (mainState.stack k).progress == 65536) = false ∧
    ((mainState.duty 6).lastDone < 90000000000 * mainState.care.hourWindow ∨ (mainState.duty 6).lastDone = 0) ∧
    mainState.coreAt (mainState.siteOf 0) = some 0 ∧ mainState.care.dayWindow ≠ mainState.tick / 2160000000000 ∧
    mainState.care.hourWindow ≠ mainState.tick / 90000000000 ∧ (mainState.core 0).seated = false ∧
    (mainState.site (mainState.siteOf 0)).fenced = false := by decide +kernel

theorem test_CaretakerCalibrates_met :
    (({ mainState with care := { latest := [(192, 400)] } } : State).duty 4).period ≤ ((400 : Int) - ((mainState.stack 0).trainedAt)).natAbs ∧
    (0 / 4) ∉ mainState.power.cartsOut ∧ ((15 : Int) - tget 0 mainState.care.offsets 3).natAbs < 16 ∧
    16 ≤ ((16 : Int) - tget 0 mainState.care.offsets 3).natAbs := by decide

theorem test_PowerIsLimitedAndFirmwareRestarts_met :
    2 ≤ mainState.power.stage ∧ mainState.care.windows < mainState.tick / 25000 ∧ 1 ∉ mainState.care.limited ∧
    1 ∈ ({ limited := [1] } : Care).limited ∧ tget 0 mainState.care.shed 2 < 2 ∧ ({ rekey := true } : Part).rekey = true ∧
    ({ restartCause := 1 } : Power).restartCause ≠ 0 := by decide

/-! ### Rings, registers and the endpoint -/

/-- Ring 0 of 16 entries, enabled, with the command `c` in it. -/
def ringState (g : Ring) : State := { rings := [(0, { g with sizeLog2 := 4, enable := true })], power := { fwReady := true }, tick := 2500000 }

theorem test_RingsMoveCommandsAndCompletions_met :
    (ringState {}).ringOf 0 0 = some 0 ∧ (readDescs 16 0 1 0 [(some 0, .ok [])]).2 = false ∧ (1 + 16 - 0) % 16 = 1 ∧ isCmdRing 0 = true ∧
    (ringState {}).ringOf 0 40 = some 40 ∧ isCmdRing 40 = false ∧ bit 0x14 4 = true ∧ bits 0x14 0 4 = 4 ∧ bit 0x04 4 = false ∧
    (({ inflight := [{}] } : Ring).find 0).isSome = true ∧ (({ inflight := [{}] } : Ring).find 0).isSome = true ∧
    ({ sizeLog2 := 4, waiting := [{}] } : Ring).free = true ∧
    (tget none ({ inHoldoff := [(1, some 0)] } : Fn).inHoldoff 1).isSome = true := by decide +kernel

theorem test_ClearsLoseNoEvent_met :
    ({} : State).fnLive 0 = true ∧ Reg.rc (.mbxIntakeSamples 0) = true ∧ Reg.rc (.lnkFrameFail) = true ∧
    (∀ p < 8, ({} : State).locked p = false) ∧ (match ({} : State).selected 0 with | some (_, some _) => true | _ => false) = true ∧
    (({} : State).windowPart 0 0).isSome = true := by decide

/-- A partition with page 0 in HBM; its job is `job`. -/
def pageState (job : JobSt) : State := { parts := [(0, { job := job, pages := [(0, { st := .hbm })], memKeys := true })] }

theorem test_HostReachesRegistersAndMemory_met :
    ({} : State).fnLive 0 = true ∧ ({} : State).windowPart 0 0 = some 0 ∧ Reg.rc .intApertureErrStatus = true ∧ Reg.rc (.coreDropGen) = true ∧
    Reg.rc .aonSide = false ∧ (match (pageState .none).touchLink.apTarget 0 0 with | .part 0 => true | _ => false) = true ∧
    (match (pageState .none).touchLink.readMem 0 0 4 with | .ok _ _ => true | _ => false) = true ∧
    ((pageState .none).writeMem 0 0 [1, 2, 3, 4]).2 = 0 ∧ ((pageState .running).part 0).job = .running := by decide +kernel

/-- Function 1 in use by partition 0, its SPDM session in the state `st`. -/
def vfState (st : Nat) : State := { fns := [(1, { enabled := true, spdm := st })], power := { fwReady := true, perst := true, pwrOk := true } }

theorem test_EndpointResetsAndSessions_met :
    ((vfState 5).fn 1).enabled = true ∧ (vfState 5).isPart 0 = true ∧ (vfState 5).fnLive 1 = true ∧ ((vfState 5).fn 2).enabled = false ∧
    tdiNext ((vfState 5).part 0).tdi 0x83 = some 1 ∧ ((vfState 4).fn 1).spdm = 4 ∧ ((vfState 0).fn 1).spdm < 3 ∧
    (vfState 5).power.linkUp = false ∧ (vfState 5).power.perst = true ∧ (vfState 5).power.pwrOk = true := by decide

/-! ### Commands of a ring -/

/-- The command of opcode `op`, tag 7, with the arguments `vals` and the payload `pay`, with room for a result of 4,096 bytes. -/
def cmdOf (op : Nat) (vals : List Nat) (pay : List Byte) : Cmd :=
  { desc := BitVec.ofNat 512 (op + 7 * 2 ^ 32 + pay.length * 2 ^ 128 + 4096 * 2 ^ 160 +
      leNat (packList (((cmdSpec op).getD {}).args.zip vals)) * 2 ^ 256)
    payload := .ok pay }

/-- The module ready, with the command in a device ring of the role that it needs, and partition 0 as given. -/
def cmdState (op : Nat) (vals : List Nat) (pay : List Byte) (part : Part) : State :=
  { power := { fwReady := true, computeReady := true }, parts := [(0, part)]
    rings := [(0, { sizeLog2 := 4, enable := true, role := ((cmdSpec op).getD {}).role, inflight := [cmdOf op vals pay] })] }

/-- Whether the command starts in the state that `f` makes of that one, passes the common checks, and meets `h`, said of the state and of the command
as its meaning finds them. -/
def starts (op : Nat) (vals : List Nat := []) (pay : List Byte := []) (part : Part := {}) (h : State → Job → Bool := fun _ _ => true)
    (f : State → State := id) : Bool :=
  let s := f (cmdState op vals pay part)
  let c := cmdOf op vals pay
  s.starts 0 7 op c && h (s.markStarted 0 c) (s.job 0 c)

def loadedPart : Part := { job := .loaded, image := some {} }

/-- A Form of which this device is the Prefect. -/
def asPrefect (s : State) : State := { s with form := { set := true, members := [0, 1], norms := [(24, [])], links := [(0, { peer := 1, valid := true })] } }

def queryPart : Part :=
  { loadedPart with pool := some {}, tel := { windows := [(0, [])] } }

theorem test_QueriesAnswerTheState_met :
    starts 0x0101 = true ∧ starts 0x0202 = true ∧ starts 0x0303 = true ∧ starts 0x0503 = true ∧ starts 0x0514 = true ∧ starts 0x0402 = true ∧
    starts 0x0409 [0, 1] [] {} (fun _ j => decide (1 ≤ j.arg 1 ∧ j.arg 1 ≤ 512 ∧ j.arg 0 + j.arg 1 ≤ rangePages)) = true ∧
    starts 0x0415 [1] [0, 0] queryPart (fun s j => (s.part j.p).pool.isSome && decide (2 * j.arg 0 ≤ j.c.payLen ∧
      ∀ i < j.arg 0, leNat ((j.pay.drop (2 * i)).take 2) < 1)) = true ∧
    starts 0x0602 = true ∧ starts 0x0702 = true ∧ starts 0x0704 [3] = true ∧
    starts 0x0707 [3] [] {} (fun s j => (s.isPrefect || s.isDeputy) && s.form.norms.any fun e => e.1 == j.arg 0 * 8 + j.p) asPrefect = true ∧
    starts 0x0801 [0] [] queryPart (fun s j => decide (j.arg 0 < (s.part j.p).tel.windows.length)) = true ∧ starts 0x0803 [0] = true ∧
    starts 0x0905 [0, 4] = true ∧ starts 0x0906 [] (List.replicate 33 0) {} (fun _ j => decide (33 ≤ j.c.payLen ∧ j.num 32 1 ≤ 1)) = true ∧
    starts 0x0A03 = true ∧ starts 0x0B03 = true ∧ starts 0x0B12 = true ∧
    starts 0x0B13 [] [] {} (fun s _ => s.isPrefect) asPrefect = true ∧ starts 0x0C01 = true := by decide +kernel

/-- An image of one section, with nothing in it but the cache slots that each of the 32 slices of a partition of one eighth needs, over four phases. -/
def testImage : Image :=
  { devices := [0]
    sections := [{ entries := [0xFFFF], phases := [(0, 4)]
                   streams := (upFrom 0 32).map fun k => (k, BitVec.ofNat 256 (2 + 4 * k + 2 ^ (11 + k / 8) + k / 4 % 2 * 2 ^ 66 + k % 4 * 2 ^ 71)) }] }

/-- BL1 is always among the levels supported (R340). -/
theorem test_levelOne : bit levelMask (1 - 1) = true := by
  simp [bit, levelMask]

theorem test_JobCommandsTakeEffect_met :
    starts 0x0108 [1] [] {} (fun _ j => decide (j.arg 0 = 1)) = true ∧
    starts 0x0201 [2] [] {} (fun s j => decide (j.arg 0 ∈ [1, 2, 4, 8] ∧ ∀ p ∈ s.partList, s.locked p = false)) = true ∧
    starts 0x0301 [] [] { quota := [8, 0, 64, 0] } (fun s j => s.imageOk j.p testImage && !s.overQuota j.p testImage && !s.formMismatch testImage
      && !(s.part j.p).left && !s.stackFenced j.p && !(s.loadJob j.p testImage 0 0 0).crossesTwo j.p fun _ => []) (fun s => { s with count := 8 }) = true ∧
    starts 0x0301 [] [] {} (fun s j => !s.imageOk j.p {}) = true ∧
    starts 0x0302 [] [] loadedPart = true ∧
    starts 0x0304 [1] [5, 0] loadedPart (fun _ j => decide (2 * j.arg 0 ≤ j.c.payLen ∧ ∀ k < j.arg 0, leNat ((j.pay.drop (2 * k)).take 2) < 2 ^ 14)) = true ∧
    starts 0x0501 [1] [] { loadedPart with satchel := { configured := true } } (fun s j => !s.namesOthers j.p && (s.part j.p).satchel.configured
      && !s.needsKeys j.p && s.sec.diag.isNone && !(s.part j.p).left && !s.stackFenced j.p) = true ∧
    starts 0x0502 [] [] { job := .running } = true ∧ starts 0x0504 [] (List.replicate 512 0) loadedPart (fun _ j => decide (512 ≤ j.c.payLen)) = true := by
  decide +kernel

/-- A Form whose port 0 leads to device 1 and port 1 to far node 4. -/
def linked (s : State) : State :=
  { s with
    form := { set := true, links := [(0, { peer := 1, valid := true }), (1, { peer := 4, node := true, valid := true })] }
    ports := [(0, { st := 2 }), (1, { st := 2 })] }

def filledPart : Part :=
  { image := some { windows := [{ pages := 1 }] }, job := .loaded, quota := [8, 0, 64, 0], intake := { configured := true }
    allocs := [{ base := 0, len := 2097152 }], backends := [(0, some {})], pages := [(0, { st := .hbm, farValid := true })] }

theorem test_IntakeAndMemoryCommandsTakeEffect_met :
    starts 0x0511 [0, 1] (List.replicate 24 0) loadedPart (fun s j => decide (j.arg 0 ≤ 1 ∧ j.arg 1 ≤ 4096 ∧ 24 * j.arg 1 ≤ j.c.payLen ∧
      (∀ k < j.arg 1, (s.part j.p).intake.recordBytes ≤ (shardAt j.pay k).stride ∧ (shardAt j.pay k).len ≤ 2 ^ 36))) = true ∧
    starts 0x0512 [] [] filledPart = true ∧ starts 0x0513 [] [] filledPart = true ∧
    starts 0x0802 [0, 2, 1] [] {} (fun _ j => decide (j.arg 2 = 1 ∧ 2 ≤ j.arg 1 ∧ j.arg 1 ≤ 65536)) = true ∧
    starts 0x0401 [8, 0, 0, 0] [] {} (fun s j => decide (8 ≤ j.arg 0 ∧ j.arg 0 ≤ 24) && !s.locked j.p) = true ∧
    starts 0x0403 [2097152, 2097152, 0, 0] [] filledPart (fun s j => (rangeBad (j.arg 0) (j.arg 1)).isNone && decide (j.arg 2 ≤ 2 ∧ j.arg 3 ≤ 3 ∧
      (tget none (s.part j.p).backends (j.arg 3)).isSome = true ∧ j.arg 0 + j.arg 1 ≤ 2 ^ 44 ∧
      (∀ a ∈ (s.part j.p).allocs, j.arg 0 + j.arg 1 ≤ a.base ∨ a.base + a.len ≤ j.arg 0) ∧
      (∀ e ∈ (s.part j.p).pages, e.2.st = .pin → e.1 < j.arg 0 / pageBytes ∨ (j.arg 0 + j.arg 1) / pageBytes ≤ e.1) ∧
      (s.part j.p).useOf 2 + ((s.part j.p).newTables (j.arg 0 / pageBytes) (j.arg 1 / pageBytes)).length ≤ (s.part j.p).quotaOf 2)) = true ∧
    starts 0x0404 [0, 2097152] [] filledPart (fun s j => (rangeBad (j.arg 0) (j.arg 1)).isNone && !((s.ring 0).find 7).isNone &&
      !(((rangeOf (j.arg 0) (j.arg 1)).filter fun pg => ((s.part j.p).allocOf pg).isSome).any fun pg => s.pageWaits j.p pg)) = true ∧
    starts 0x0405 [0, 2097152] [] { filledPart with pages := [] } (fun s j => match s.memFlush j with
      | .done _ { status := 0, detail := 0, value := 0, result := [], .. } => true | _ => false) = true ∧
    starts 0x0405 [0, 2097152] [] { filledPart with pages := [(0, { st := .hbm })] } (fun s j => match s.memFlush j with | .later _ => true | _ => false) = true ∧
    starts 0x0406 [1, 1, 1, 5, 0, 0, 0] [] {} (fun s j => (s.portTo (j.arg 2)).isSome) linked = true ∧
    starts 0x0406 [2, 1, 4, 5, 0, 0, 0] [] {} (fun s j => (s.portToNode (j.arg 2)).isSome) linked = true ∧
    starts 0x0406 [3, 0, 0, 5, 0, 0, 0] [] {} (fun _ j => decide (j.arg 0 = 3 ∧ j.arg 4 ≤ 10000)) = true ∧
    starts 0x0406 [0, 1, 0, 5, 0, 0, 0] [] {} (fun s j => decide (j.arg 1 ≤ 3) && (tget none (s.part j.p).backends (j.arg 1)).isNone) = true ∧
    starts 0x0407 [0] [] { backends := [(0, some {})] } (fun s j => (tget none (s.part j.p).backends (j.arg 0)).isSome) = true ∧
    starts 0x0408 [0, 5] [] filledPart (fun s j => !s.pageDirty j.p 0 && ((s.part j.p).page 0).farValid) = true ∧
    starts 0x0903 [] [] {} (fun s j => decide (j.c.payLen = 0) && !(s.part j.p).rekey && !s.locked j.p) = true := by decide +kernel

theorem test_intakeConfig_met :
    starts 0x0510 [] (packList [(8, 0), (8, 0), (4, 1), (4, 256), (4, 2), (2, 1024), (2, 1024), (2, 1), (1, 0), (29, 0)])
      { loadedPart with allocs := [{ base := 0, len := 2097152, policy := 1 }] } (fun s j => (s.intakeConfigBad j).isNone) = true := by decide +kernel

def poolPart (st : Nat) : Part := { pool := some { desc := [(0, { st := st })] } }

theorem test_KvPoolCommandsTakeEffect_met :
    starts 0x0410 [1, 0, 0, 0, 0, 0, 1, 0] (List.replicate 12 0) { quota := [8, 0, 64, 0] } (fun s j => s.hbm.isEmpty && decide (j.arg 0 ∈ [1, 3, 4] ∧ j.arg 6 ≠ 0 ∧
      12 * (j.arg 2 + 1) ≤ j.c.payLen ∧ s.otherSlots j.p + (j.arg 5 + 1) ≤ 1024 ∧
      (∀ l < j.arg 2 + 1, (kvLayerEntry j.pay l).getD 0 0 < 4096 ∧ (kvLayerEntry j.pay l).getD 1 0 = 0) ∧
      (s.part j.p).useOf 2 + 2 ≤ (s.part j.p).quotaOf 2)) = true ∧
    starts 0x0416 [] [] (poolPart 0) = true ∧ starts 0x0411 [0, 9] [] (poolPart 0) = true ∧ starts 0x0412 [0] [] (poolPart 1) = true ∧
    starts 0x0413 [0] [] (poolPart 2) = true ∧ starts 0x0414 [0] [] (poolPart 1) (fun s _ => ((s.ring 0).find 7).isSome) = true := by decide +kernel

/-- The module powered, port 0 calibrated. -/
def calibrated (s : State) : State := { s with power := { s.power with mainOn := true }, ports := [(0, { cal := true })] }

def statePart : Part :=
  { image := some { state := [0] }, job := .held, quota := [8, 0, 64, 0], ranks := [1], allocs := [{ base := 0, len := 2097152, policy := 1 }], record := some {} }

/-- The record of a satchel of step 0 that restores `statePart`. -/
def testSource : RestoreSrc := { record := { level := 1 } }

/-- What a restore from `testSource` takes of the job. -/
def restores (s : State) (j : Job) : Bool :=
  let part := s.part j.p
  testSource.record.pages.all (fun pg => testSource.pages.any fun e => e.1 == pg) && testSource.record.digest == part.digest
    && testSource.record.level == (match part.image with | some im => im.level | none => 0)
    && (upFrom 0 4).all fun k => decide (testSource.record.use.getD k 0 ≤ part.quotaOf k)

/-- Whether SPARE_FILL of rank 0 by this device goes on with `rec` to the end (`true`), or waits for more. -/
def fills (rec : Option SchedRec) (ends : Bool) (s : State) (j : Job) : Bool :=
  let t := s.modPart j.p fun part => part.startFill (j.arg 0) (j.arg 1) false
  match t.fillOn rec [] j with
  | .done _ { status := 0, detail := 0, value := 0, result := [], .. } => ends
  | .later _ => !ends
  | _ => false

theorem test_FormAndSatchelCommandsTakeEffect_met :
    starts 0x0601 [1, 0, 0, 0, 0, 0, 1] (List.replicate 8 0) statePart (fun s j => decide (j.arg 0 ≠ 0 ∧ j.arg 2 ≤ 1023 ∧ j.arg 3 = 0 ∧
      (s.part j.p).deviceCount ≤ 1 ∧ j.arg 6 = 1 ∧ 8 * j.arg 6 ≤ j.c.payLen ∧ (s.part j.p).useOf 2 + 3 ≤ (s.part j.p).quotaOf 2) && ((s.part j.p).badSetBase (setBases j)).isNone) = true ∧
    starts 0x0603 [] [] statePart = true ∧ starts 0x0604 [0] [] statePart (fun s j => s.ownStateHolds j.p) = true ∧
    starts 0x0604 [1] [] { statePart with satchel := { committed := some 0 } } (fun s j =>
      (s.part j.p).satchel.committed == some testSource.record.step && restores s j) = true ∧
    starts 0x0604 [0] [] { statePart with record := none } (fun s j => !s.ownStateHolds j.p && restores s j) = true ∧
    starts 0x0604 [2] [] { statePart with satchel := { far := some 0 } } restores = true ∧
    starts 0x0606 [0, 1, 0] (List.replicate 72 0) statePart (fun s j => ((s.part j.p).badPlan j).isNone && s.isPrefect &&
      decide (movesAt (j.arg 1) + 24 * j.arg 2 ≤ j.c.payLen ∧ j.arg 0 = (s.part j.p).layoutEpoch ∧
        leNat (j.pay.take 64) = (s.part j.p).digest.toNat)) asPrefect = true ∧
    starts 0x0703 [1] [] {} (fun s _ => s.canTrain 0 && !((s.part 0).usesPort 0)) calibrated = true ∧
    ([1, 2, 3].all fun k => starts 0x0705 [0, k] [] {} (fun s j => s.form.set && decide (j.arg 0 / 64 = s.form.form)) asPrefect) = true ∧
    starts 0x0706 [0] [] {} (fun s j => s.form.set && decide (j.arg 0 = s.self)) asPrefect = true ∧
    starts 0x0706 [1] [] {} (fun s j => s.isPrefect && decide (j.arg 0 ∈ s.members)) asPrefect = true := by decide +kernel

/-- The Prefect of a Form whose member 1 is absent; port 0 leads to device 2. -/
def shortForm (s : State) : State :=
  { s with form := { set := true, members := [0, 1], absent := [1], links := [(0, { peer := 2, valid := true })] }, ports := [(0, { st := 2 })] }

theorem test_spareFill_met :
    starts 0x0605 [0, 2] [] statePart (fun s j => decide (j.arg 0 < (s.part j.p).ranks.length ∧ j.arg 1 < 2 ^ 14 ∧ j.arg 1 ∉ s.form.absent ∧
      (s.part j.p).spareFill = none ∧ (s.part j.p).ranks.getD (j.arg 0) 0 ∈ s.form.absent) && s.isPrefect && (s.portTo (j.arg 1)).isSome
        && fills (some {}) true s j && fills none false s j) shortForm = true := by decide +kernel

theorem test_formSetup_met :
    starts 0x0701 [0, 0, 0, 0, 0, 0] (leBytes 256 (2 ^ 15)) {} (fun s j => (badSetup j.pay (j.arg 5)).isNone && !s.strapsDiffer (j.arg 0) (j.arg 1)
      && (peerOf (linkMap j.pay) (j.arg 3)).isSome && (linkMap j.pay).all fun e => !e.2.valid || s.canTrain e.1 && e.1 == 0) calibrated = true := by
  decide +kernel

/-- Device ring 0 with ROLE_AUTH of the type and payload given; `f` sets the role and the credentials. -/
def auth (type len : Nat) (h : State → Job → Bool) (f : State → State := id) : Bool :=
  starts 0x0901 [2] (BitVec.ofNat 8 type :: List.replicate (len - 1) 0) {} h f
    && ((f (cmdState 0x0901 [2] (BitVec.ofNat 8 type :: List.replicate (len - 1) 0) {})).dropChallenge 0).authDue 0 7 type

/-- The module with two credentials, its ring that of the owner. -/
def owned (s : State) : State :=
  { s with sec := { s.sec with creds := [(0, some (1, 1)), (1, some (2, 2))] }, rings := s.rings.map fun e => (e.1, { e.2 with role := 2 }) }

theorem test_roleAuth_met :
    auth 1 1 (fun _ j => decide (j.arg 0 = 2)) = true ∧ auth 2 3375 (fun _ j => decide (3375 ≤ j.c.payLen ∧ j.num 1 1 ≤ 3)) = true ∧
    auth 3 1986 (fun s j => s.unowned && decide (1986 ≤ j.c.payLen ∧ j.num 1 1 ≤ 3)) = true ∧
    auth 4 2 (fun s j => (tget none s.sec.creds (j.num 1 1)).isSome && decide (s.roleOf 0 = 2 ∧ 1 < (s.sec.creds.filter fun e => e.2.isSome).length))
      owned = true := by decide +kernel

def goodImage : FwImage := { present := true, magic := true, keysMatch := true, sigs := true, body := true }

/-- No witness of JOB_KEYS, nor of DIAG_OPEN: both rest on the outcome of an opaque function, the decapsulation and the check of a signature (log entry 4). -/
theorem test_SecurityCommandsTakeEffect_met :
    starts 0x0904 [] (packList [(4, 1), (4, 60), (32, 0)]) {} (fun _ j => decide (40 ≤ j.c.payLen ∧ j.num 0 4 ≤ 15 ∧ 1 ≤ j.num 4 4 ∧ j.num 4 4 ≤ 86400)) = true ∧
    starts 0x0A01 [0, 2] [1, 2] {} (fun _ j => decide (j.arg 0 = 0 ∧ j.arg 0 + j.c.payLen ≤ j.arg 1)) = true ∧
    starts 0x0A02 [] [] {} (fun s _ => (s.sec.bankFails s.sec.otherBank).isNone) (fun s => { s with sec := { s.sec with bank1 := goodImage } }) = true ∧
    starts 0x0B02 = true ∧ starts 0x0B10 [31, 30] [] {} (fun _ j => decide (j.arg 0 ≤ 31 ∧ j.arg 1 ≤ 30)) = true ∧
    starts 0x0B11 [31, 49] [] {} (fun _ j => decide (j.arg 0 ≤ 31 ∧ j.arg 1 ≤ 49)) = true ∧ starts 0x0C02 = true ∧
    starts 0x0C02 [] (leBytes 8 (3 + 100 * 2 ^ 32)) {} (fun _ j => decide (j.c.payLen % 8 = 0) && (badDuty j 0).isNone) = true ∧
    ({ diag := some (0, 5) } : Sec).diag = some (0, 5) ∧
    (({ rings := [(0, { challenge := some (1, 0) })], tick := challengeTicks } : State).ring 0).challenge = some (1, 0) ∧
    (match ({ rings := [(0, { inflight := [{ cmdOf 0x0902 [] [] with running := true }] })] } : State).keysCmd 0 with | some _ => true | _ => false) = true := by
  decide +kernel

/-- A private write of a command frame without payload. -/
def testFrame : List Byte := let b := padTo 66 [0xA1]; b ++ leBytes 4 (crc32 b)

theorem test_I3cChannelAnswers_met :
    ({ i3c := { addr := some 9 }, power := { phase := .run } } : State).i3cHears = true ∧ Sys2Proof.Machine.frameGood testFrame = true ∧
    Sys2Proof.Machine.frameGood [0] = false ∧ ({} : State).i3cHears = false ∧ ({ power := { phase := .run } } : State).i3cOn = true := by decide +kernel

theorem test_pid_met (s : State) : s.pid.getLast?.isSome = true := by simp [State.pid]

theorem test_PowerPinsAct_met :
    State.reset.power.input = false ∧ State.reset.power.emergOff = false ∧ ({ emergOff := true } : Power).input = false ∧
    ({ input := true } : Power).overVolt = false ∧ ({ overVolt := true } : Power).emergOff = false ∧
    ({ input := true } : Power).emergOff = false ∧ 5 ≤ ({ phase := .run, stage := 5 } : Power).stage ∧
    ({ phase := .run, stage := 4, fwReady := true } : Power).pastStep4 = true := by decide

/-- The run phase at step `k`, with bank 0 good. -/
def atStage (k : Nat) : State := { power := { phase := .run, stage := k }, sec := { bank0 := goodImage, bank1 := { present := false } } }

theorem test_StartUpGoesStepByStep_met :
    (atStage 3).atStep 3 = true ∧ (atStage 3).sec.bankFails (atStage 3).runningBank = none ∧ (atStage 3).sec.bankFails (atStage 3).sec.otherBank ≠ none ∧
    ({ atStage 3 with sec := { bank0 := { present := false } } } : State).sec.bankFails ({ atStage 3 with sec := { bank0 := { present := false } } } : State).runningBank ≠ none ∧
    (atStage 4).power.fwReady = false ∧ (atStage 4).power.restartCause = 0 ∧ (atStage 5).atStep 5 = true ∧ (atStage 6).atStep 6 = true ∧
    (atStage 7).atStep 7 = true ∧ (atStage 8).atStep 8 = true := by decide

/-! ### The invariants and the commands without hypotheses of their own -/

/-- What the statements of steps and of single writers take: a step from reset, a command that enrols and one that fills a queue. -/
theorem test_steps_met :
    PowerLegal State.reset ∧ State.reset.pending = [] ∧ State.reset.power.input = false ∧ (match step State.reset with | .next _ => true | _ => false) = true ∧
    (match exec .perstRelease State.reset with | .next t => t.power.perst | _ => false) = true ∧
    ({ State.reset with power := { State.reset.power with input := true } } : State).power.input = true := by
  refine ⟨⟨?_, ?_, ?_, ?_, ?_, ?_⟩, ?_⟩ <;> decide

/-- A start-up with a newer image raises the floor; regulators and fabric time have the writers that the statements name. -/
theorem test_writers_met :
    (match exec (.opticalCalibrationDone []) { atStage 8 with sec := { bank0 := { goodImage with svn := 5 } } } with | .next t => t.sec.svnMin | _ => 0) = 5 ∧
    (match exec (.mainRegulatorsUp true) (atStage 5) with | .next t => t.power.mainOn | _ => false) = true ∧
    (match exec (.beatEdge 0) { State.reset with slot := 2 ^ 20 + 1, beat := { aligning := true } } with | .next t => t.slot | _ => 0) = 2 ^ 20 := by
  decide +kernel

/-- The hypotheses on numbers of the statements of formats and of stochastic rounding, at boundary values of BF16 and of E4M3, whose next value above 448
would be 480. -/
theorem test_rounding_met :
    bits 0x7F (fracBits 0) (expBits 0) = 0 ∧ leadExp 1 (-127) < minExp 0 ∧ decodeFloat 1 0x7F = .nan ∧ decodeFloat 1 0x7E ≠ .nan ∧
    exceeds 1 449 0 = true ∧ exceeds 1 447 0 = false ∧ (0 : Int) < leadExp 447 0 - fracBits 1 ∧ 447 % 2 ^ 5 ≠ 0 ∧
    dyGt (roundGrid (maxFinite 1).1 (maxFinite 1).2 (leadExp (maxFinite 1).1 (maxFinite 1).2 - fracBits 1) + 1)
      (leadExp (maxFinite 1).1 (maxFinite 1).2 - fracBits 1) 449 0 = true ∧
    dyGt (roundGrid (maxFinite 1).1 (maxFinite 1).2 (leadExp (maxFinite 1).1 (maxFinite 1).2 - fracBits 1) + 1)
      (leadExp (maxFinite 1).1 (maxFinite 1).2 - fracBits 1) 480 0 = false := by decide +kernel

/-! ### Values that the manual states -/

/-- R29, Table 4: 0, 0.5, 1, 1.5, 2, 3, 4 and 6, in halves. -/
theorem test_fp4_values : ((upFrom 0 8).map fun n => (decodeFloat 3 n).onGrid (-1)) = [0, 1, 2, 3, 4, 6, 8, 12] := by decide

/-- R27, Table 3: the canonical NaNs, and the NaNs of E4M3. -/
theorem test_canonical_nans : [0, 1, 2, 5, 6].map canonNan = [0x7FC0, 0x7F, 0x7E, 0x7FC00000, 0x7FC000000000] ∧
    decodeFloat 1 0xFF = .nan ∧ decodeFloat 2 0x7C = .inf false := by decide

/-- R27, Table 3: the largest finite values, as encodings. -/
theorem test_largest_finite : [0, 1, 2, 3, 5, 6].map (fun t => (convert t (.fin false (maxFinite t).1 (maxFinite t).2)).bits) =
    [0x7F7F, 0x7E, 0x7B, 0x7, 0x7F7FFFFF, 0x7F7FFFFFFFFF] := by decide +kernel

/-- R26, Table 2: the largest finite E4M3 is 448 and the largest finite E5M2 is 57,344. -/
theorem test_fp8_limits : (decodeFloat 1 0x7E).onGrid 0 = 448 ∧ (decodeFloat 2 0x7B).onGrid 0 = 57344 := by decide

/-- R28: ∞ − ∞ and 0 × ∞ are NaN; −0 + +0 is +0, −0 + −0 is −0, and −3.0 × +0 is −0. -/
theorem test_specials : Val.add (.inf false) (.inf true) = .nan ∧ Val.mul (.fin false 0 0) (.inf false) = .nan ∧
    Val.add (.fin true 0 0) (.fin false 0 0) = .fin false 0 0 ∧ Val.add (.fin true 0 0) (.fin true 0 0) = .fin true 0 0 ∧
    Val.mul (.fin true 3 0) (.fin false 0 0) = .fin true 0 0 := by decide

/-- R30: the largest subnormal of BF16 reads as zero; half the smallest normal is written as zero. -/
theorem test_flush : decodeFloat 0 0x807F = .fin true 0 0 ∧ (convert 0 (.fin false 1 (-127))).bits = 0 ∧ (convert 0 (.fin false 1 (-126))).bits = 0x80 := by
  decide +kernel

/-! ### Ill-formed commands -/

/-- One command past the range of each kind of unit: the check refuses each. -/
theorem test_wf_refuses_units :
    [Instr.taskOpen 1536 .F, .coreSiteFence 1600 .corrected, .prefetch 8, .edgeRouterAddition 32 {}, .engineOperationDone 0 8 false, .tokenOccurrence 0 16,
     .commitVerdict 0 256, .streamOccurrence 0 4096 0, .writeBack 256, .fillReady 0 (2 ^ 44) {}, .lineCopyDone 0 (2 ^ 23), .spareCopyComplete 32,
     .pseudoChannelSparing 0 32, .rowRepair 0 0 64 0, .rowRepair 0 0 0 24576, .hbmScrub 0 805306368 {}, .flitTime 64, .laneFailure 0 4,
     .cartridgeLatchClose 16, .memberAbsent 16384, .computeUnitOperationDone 0 10, .computeUnitOperationDone 0 14].any Instr.wf = false := by decide

theorem test_wf_refuses_others :
    [Instr.thermalSensorCalibration 336 0, .engineCurrentLimit 160 true, .phaseShed 32, .hotReset, .intMaskWrite 9 0, .challengeExpiry 64, .deviceInfo 0 65536,
     .cqHeadDoorbell 0 0 4096, .holdoffExpiry 0 16, .entdaa 128, .ideKmRequest 0 9, .vfEnable 0, .vfEnable 9, .blockWake (.slice 256),
     .sramScrub (.sliceLine 0 0 4) 1, .sramScrub (.pinLine 256 0) 1, .sramScrub (.site 1600 0) 1, .reKeyRetry 0 [2 ^ 23], .hbmTrainingDone [32],
     .selfTestDone [1600] [] [], .opticalCalibrationDone [64]].filter Instr.wf = [.hotReset] := by decide

end Sys2Proof.Tests
end

section
/-! PROOFS. A step on an empty queue: what a slot of time moves, and what it leaves (R8, R184, R412, R447; log entry 1). -/

namespace Sys2Proof.Machine

open Sys2Proof

/-- The always-on tick after a slot: one later at the end of each 48 slots. -/
def Ctl.tickNext (k : Ctl) : Nat := if k.sub = 47 then k.tick + 1 else k.tick

/-- Start-up's step after a slot: from 1 to 2 when the strap phase has lasted 250,000 ticks. -/
def Ctl.stageNext (k : Ctl) : Nat := if k.phase = .strap ∧ k.stage = 1 ∧ 250000 ≤ k.tickNext then 2 else k.stage

/-- Without a good input no clock runs. -/
theorem State.passSlot_of_no_input {s : State} (h : s.power.input = false) : s.passSlot = s := by
  simp [State.passSlot, h]

/-- With a good input a slot changes, of the fields of control, the three counts of time and the step of start-up alone. -/
theorem State.passSlot_ctl_of_input {s : State} (h : s.power.input = true) :
    s.passSlot.ctl = { s.ctl with
      slot := s.slot + 1, tick := s.ctl.tickNext, sub := if s.sub = 47 then 0 else s.sub + 1, stage := s.ctl.stageNext } := by
  have hcount : s.countSlot.ctl =
      { s.ctl with slot := s.slot + 1, tick := s.ctl.tickNext, sub := if s.sub = 47 then 0 else s.sub + 1 } := by
    rw [State.countSlot_ctl]
    by_cases hsub : s.sub = 47 <;> simp [Ctl.tickNext, State.ctl, hsub]
  rw [State.passSlot_ctl, if_pos h, State.strapTime_ctl, hcount]
  by_cases hs : s.ctl.phase = .strap ∧ s.ctl.stage = 1 ∧ 250000 ≤ s.ctl.tickNext
  · simp [Ctl.stageNext, hs]
  · rw [Ctl.stageNext, if_neg hs, if_neg (by simpa [and_assoc] using hs)]

/-- Settles O2: of the fields of control a slot moves the counts of time, and start-up's step, alone. -/
theorem emptyQueueLetsASlotPass : Obligations.EmptyQueueLetsASlotPass := by
  unfold Obligations.EmptyQueueLetsASlotPass
  intro s hq
  refine ⟨by simp [step, hq], State.passSlot_of_no_input, fun hin => ?_⟩
  have hk := State.passSlot_ctl_of_input hin
  intro t
  have htick : t.tick = s.ctl.tickNext := congrArg Ctl.tick hk
  have hsub : t.sub = if s.sub = 47 then 0 else s.sub + 1 := congrArg Ctl.sub hk
  have hstage : t.power.stage = s.ctl.stageNext := congrArg Ctl.stage hk
  refine ⟨congrArg Ctl.slot hk, fun h => ⟨htick.trans (if_pos h), hsub.trans (if_pos h)⟩,
    fun h => ⟨htick.trans (if_neg h), hsub.trans (if_neg h)⟩, ?_, congrArg Ctl.phase hk, congrArg Ctl.seatOut hk,
    congrArg Ctl.mainOn hk, congrArg Ctl.fwReady hk, congrArg Ctl.computeReady hk, congrArg Ctl.straps hk,
    congrArg Ctl.svnMin hk, congrArg Ctl.revoked hk, congrArg Ctl.creds hk, congrArg Ctl.count hk,
    (congrArg Ctl.pending hk).trans hq⟩
  rw [hstage, htick]
  rfl

end Sys2Proof.Machine
end

section
/-! PROOFS. Bytes and numbers written into scratchpad and into draft lines, and who reads them (R6, R61, R78). -/

namespace Sys2Proof.Machine

open Sys2Proof

/-- The byte that a draft line shows at byte address `a` to a reader who sees the drafts of the groups `view`. -/
def DraftLine.seen (view : List Nat) (a : Nat) (d : DraftLine) : Option Byte :=
  if d.line = a / 64 ∧ d.group ∈ view then tget none d.bytes (a % 64) else none

/-- A byte is read from the first draft line that shows it, or else from the scratchpad. -/
theorem Core.byteAt_eq (core : Core) (view : List Nat) (a : Nat) :
    core.byteAt view a = (core.drafts.findSome? (DraftLine.seen view a)).getD (tget 0 core.spad a) := by
  unfold Core.byteAt
  induction core.drafts with
  | nil => rfl
  | cons d l ih =>
    by_cases hd : d.line = a / 64 ∧ d.group ∈ view
    · cases hb : tget none d.bytes (a % 64) with
      | none => simpa [DraftLine.seen, hd, hb] using ih
      | some b => simp [DraftLine.seen, hd, hb]
    · have hs : d.seen view a = none := if_neg hd
      have hf : (d.line == a / 64 && decide (d.group ∈ view)) = false := by simpa using hd
      simpa [hs, hf] using ih

/-- A reader who sees no drafts reads the scratchpad. -/
theorem Core.byteAt_nil (core : Core) (a : Nat) : core.byteAt [] a = tget 0 core.spad a := by
  have h : core.drafts.findSome? (DraftLine.seen [] a) = none :=
    List.findSome?_eq_none_iff.mpr fun d _ => by simp [DraftLine.seen]
  rw [Core.byteAt_eq, h]
  rfl

/-- A byte put into a group's draft line is not seen at another address, nor by a reader who does not see the group's drafts. -/
theorem findSome_putDraftByte_of_unseen {view : List Nat} {g a c : Nat} (b : Byte) (h : c ≠ a ∨ g ∉ view) (l : List DraftLine) :
    (putDraftByte g (a / 64) (a % 64) b l).findSome? (DraftLine.seen view c) = l.findSome? (DraftLine.seen view c) := by
  have hoff : a / 64 = c / 64 → g ∈ view → c % 64 ≠ a % 64 := fun hl hg =>
    h.elim (fun hc => by omega) (fun hn => absurd hg hn)
  have hput (d : DraftLine) (hd : d.line = a / 64) (hg : d.group = g) :
      DraftLine.seen view c { d with bytes := tset none d.bytes (a % 64) (some b) } = d.seen view c := by
    unfold DraftLine.seen
    by_cases hs : d.line = c / 64 ∧ d.group ∈ view
    · simp only [hs, and_self, if_true]
      exact tget_tset_ne none d.bytes _ _ _ (hoff (hd ▸ hs.1) (hg ▸ hs.2))
    · simp only [hs, if_false]
  induction l with
  | nil =>
    have := hput { line := a / 64, group := g } rfl rfl
    have hnil : DraftLine.seen view c { line := a / 64, group := g } = none := by simp [DraftLine.seen, tget]
    simp only [putDraftByte, List.findSome?_cons, List.findSome?_nil]
    simp only [this.trans hnil]
  | cons d l ih =>
    by_cases hd : d.line = a / 64 ∧ d.group = g
    · simp [putDraftByte, hd, List.findSome?_cons, ← hput d hd.1 hd.2]
    · have hf : (decide (d.line = a / 64) && decide (d.group = g)) = false := by simpa using hd
      simp [putDraftByte, hf, List.findSome?_cons, ih]

/-- A byte put into a group's draft line is what a reader of that group's drafts sees. -/
theorem findSome_putDraftByte_own (g a : Nat) (b : Byte) (l : List DraftLine) :
    (putDraftByte g (a / 64) (a % 64) b l).findSome? (DraftLine.seen [g] a) = some b := by
  induction l with
  | nil => simp [putDraftByte, DraftLine.seen, tget_tset_self]
  | cons d l ih =>
    by_cases hd : d.line = a / 64 ∧ d.group = g
    · simp [putDraftByte, DraftLine.seen, hd, tget_tset_self]
    · have hf : (decide (d.line = a / 64) && decide (d.group = g)) = false := by simpa using hd
      have hs : d.seen [g] a = none := if_neg (by simpa using hd)
      simp [putDraftByte, hf, hs, ih]

/-- A byte written is the byte that the writer reads: a fair task without drafts, a draft task with its own group's. -/
theorem Core.byteAt_putByte_self (core : Core) (d : Option Nat) (a : Nat) (b : Byte) : (core.putByte d a b).byteAt d.toList a = b := by
  cases d with
  | none => exact (Core.byteAt_nil _ a).trans (tget_tset_self 0 core.spad a b)
  | some g => simp [Core.byteAt_eq, Core.putByte, findSome_putDraftByte_own]

/-- A byte written leaves the byte at every other address, whatever drafts the reader sees. -/
theorem Core.byteAt_putByte_ne (core : Core) (d : Option Nat) (view : List Nat) {a c : Nat} (b : Byte) (h : c ≠ a) :
    (core.putByte d a b).byteAt view c = core.byteAt view c := by
  cases d with
  | none => simp [Core.byteAt_eq, Core.putByte, tget_tset_ne, h]
  | some g => simp [Core.byteAt_eq, Core.putByte, findSome_putDraftByte_of_unseen b (.inl h)]

/-- A number written leaves every byte outside it, whatever drafts the reader sees. -/
theorem Core.byteAt_putNat_outside (d : Option Nat) (view : List Nat) {c : Nat} :
    ∀ (k : Nat) (core : Core) (a v : Nat), (c < a ∨ a + k ≤ c) → (core.putNat d a v k).byteAt view c = core.byteAt view c
  | 0, _, _, _, _ => rfl
  | k + 1, core, a, v, h =>
    (Core.byteAt_putNat_outside d view k _ (a + 1) (v / 256) (by omega)).trans
      (Core.byteAt_putByte_ne core d view _ (by omega))

/-- A number written by a draft task is not seen by a reader who does not see the group's drafts. -/
theorem Core.byteAt_putNat_hidden {g : Nat} {view : List Nat} (h : g ∉ view) (c : Nat) :
    ∀ (k : Nat) (core : Core) (a v : Nat), (core.putNat (some g) a v k).byteAt view c = core.byteAt view c
  | 0, _, _, _ => rfl
  | k + 1, core, a, v => by
    refine (Core.byteAt_putNat_hidden h c k _ (a + 1) (v / 256)).trans ?_
    simp [Core.byteAt_eq, Core.putByte, findSome_putDraftByte_of_unseen _ (.inr h)]

/-- A number written by a draft task leaves the scratchpad itself. -/
theorem Core.putNat_draft_spad (g : Nat) : ∀ (k : Nat) (core : Core) (a v : Nat), (core.putNat (some g) a v k).spad = core.spad
  | 0, _, _, _ => rfl
  | k + 1, _, a, v => Core.putNat_draft_spad g k _ (a + 1) (v / 256)

/-- A number written reads back, for the writer, least significant byte first. -/
theorem Core.readNat_putNat_self (d : Option Nat) :
    ∀ (k : Nat) (core : Core) (a v : Nat), (core.putNat d a v k).readNat d.toList a k = v % 256 ^ k
  | 0, _, _, v => by simp [Core.readNat, Nat.mod_one]
  | k + 1, core, a, v => by
    have hlow : (core.putNat d a v (k + 1)).byteAt d.toList a = BitVec.ofNat 8 v :=
      (Core.byteAt_putNat_outside d d.toList k _ (a + 1) (v / 256) (by omega)).trans (Core.byteAt_putByte_self core d a _)
    calc (core.putNat d a v (k + 1)).readNat d.toList a (k + 1)
        = (BitVec.ofNat 8 v).toNat + 256 * (core.putNat d a v (k + 1)).readNat d.toList (a + 1) k := by rw [← hlow]; rfl
      _ = v % 256 + 256 * (v / 256 % 256 ^ k) := by
          rw [BitVec.toNat_ofNat]
          exact congrArg (v % 256 + 256 * ·) (Core.readNat_putNat_self d k (core.putByte d a _) (a + 1) (v / 256))
      _ = v % 256 ^ (k + 1) := by rw [pow_succ', Nat.mod_mul]

/-- Settles O60, by induction on the bytes written. -/
theorem scratchpadWritesReadBack : Obligations.ScratchpadWritesReadBack := by
  unfold Obligations.ScratchpadWritesReadBack
  intro core a v k
  refine ⟨⟨core.byteAt_nil, Core.readNat_putNat_self none k core a v,
    fun b view h => Core.byteAt_putNat_outside none view k core a v h⟩, fun g => ?_⟩
  exact ⟨Core.readNat_putNat_self (some g) k core a v, fun b h => Core.byteAt_putNat_outside (some g) [g] k core a v h,
    fun b view h => Core.byteAt_putNat_hidden h b k core a v, Core.putNat_draft_spad g k core a v⟩

end Sys2Proof.Machine
end

section
/-! PROOFS. What a host's accesses to the registers and the aperture do (R12, R13, R15, R346, R349, R358). -/

namespace Sys2Proof.Machine

open Sys2Proof

/-! ### Interrupts (R13, R349) -/

theorem State.message_fn_cause (s : State) (f v : Nat) : ((s.message f v).fn f).cause = (s.fn f).cause := by
  have hset (fn : Fn) (h : fn.cause = (s.fn f).cause) (b : Bool) :
      ((if b then (s.setFn f fn).put (.msix f v) else s.setFn f { fn with linkHeld := addOnce fn.linkHeld v }).fn f).cause = (s.fn f).cause := by
    cases b <;> simp [h]
  unfold State.message
  exact hset _ (by split <;> rfl) _

theorem State.notify_fn_cause (s : State) (f v : Nat) : ((s.notify f v).fn f).cause = (s.fn f).cause := by
  unfold State.notify
  split
  · simp
  · exact State.message_fn_cause s f v

/-- Messages asked for leave the causes as they are. -/
theorem State.notifyAll_fn_cause (s : State) (f : Nat) (vs : List Nat) : ((s.notifyAll f vs).fn f).cause = (s.fn f).cause := by
  unfold State.notifyAll
  induction vs generalizing s with
  | nil => rfl
  | cons v vs ih => exact (ih _).trans (State.notify_fn_cause s f v)

/-- After a clear a cause is set where the same cycle sets it, or where it was set and is not cleared (R13). -/
theorem State.clearCause_cause (s : State) (f : Nat) (w : W32) (same : BitVec 16) {v : Nat} (hv : v < 16) :
    ((s.clearCause f w same).fn f).cause.getLsbD v = (same.getLsbD v || ((s.fn f).cause.getLsbD v && !w.getLsbD v)) := by
  have h : ((s.clearCause f w same).fn f).cause = ((s.fn f).cause &&& ~~~(w.setWidth 16)) ||| same := by
    unfold State.clearCause
    dsimp only
    rw [State.notifyAll_fn_cause, State.setFn_fn_self]
  simp [h, hv, Bool.or_comm]

/-- A write that is not of a whole register has no effect (R15). -/
theorem exec_registerWrite_part (s : State) (f : Nat) (reg : Reg) (w : W32) (descs : List (Option (BitVec 512) × Dma)) :
    exec (.registerWrite f reg w false descs) s = .next s := by
  show execRegisterWrite f reg w false descs s = _
  simp [execRegisterWrite]

/-! ### What each access of a live function comes to -/

section
variable {s : State} {f : Nat} (hlive : s.fnLive f = true)
include hlive

theorem exec_intCauseClear_live (w : W32) (same : BitVec 16) :
    exec (.intCauseClear f w same) s = .next (s.clearCause f w same).touchLink := by
  show execIntCauseClear f w same s = _
  simp [execIntCauseClear, hlive]

theorem exec_intMaskWrite_live (w : W32) : exec (.intMaskWrite f w) s = .next (s.writeMask f w).touchLink := by
  show execIntMaskWrite f w s = _
  simp [execIntMaskWrite, hlive]

theorem exec_intakeAppend_live (k : Nat) (w : W32) : exec (.intakeAppend f k w) s = .next (s.intakeAppend f k w).touchLink := by
  show execIntakeAppend f k w s = _
  simp [execIntakeAppend, hlive]

theorem exec_registerWrite_live (reg : Reg) (w : W32) (descs : List (Option (BitVec 512) × Dma)) :
    exec (.registerWrite f reg w true descs) s = .next (s.writeReg f reg w descs).touchLink := by
  show execRegisterWrite f reg w true descs s = _
  simp [execRegisterWrite, hlive]

theorem exec_counterReadClear_live {reg : Reg} (hrc : Reg.rc reg = true) (same : Nat) :
    exec (.counterReadClear f reg same true) s =
      .next (((s.put (.read f (s.readReg f reg))).putCounter f reg (sat32 same)).touchLink) := by
  show execCounterReadClear f reg same true s = _
  simp [execCounterReadClear, hlive, hrc]

/-- A whole read of a register that clears nothing answers its value, and latches the high half of a low half (R15). -/
theorem exec_lowHalfRead_live {reg : Reg} (hrc : Reg.rc reg = false) :
    ∃ u : State, exec (.lowHalfRead f reg true) s = .next u ∧ u.out = s.out ++ [.read f (s.readReg f reg)] ∧
      ∀ k v, s.latchOf f reg = some (k, v) → tget 0 (u.fn f).latch k = BitVec.ofNat 32 v := by
  refine ⟨_, rfl, ?_⟩
  cases hl : s.latchOf f reg with
  | none => simp [hlive, hrc, State.touchLink]
  | some x =>
    simp only [hlive, hrc, Bool.not_true, Bool.or_self, Bool.false_eq_true, if_false, State.modFn_eq]
    refine ⟨rfl, fun k v h => ?_⟩
    obtain rfl : x = (k, v) := Option.some.inj h
    rw [State.setFn_fn_self]
    exact tget_tset_self 0 _ k _

/-- A read that is not of the whole register answers all ones, and leaves the register as it is. -/
theorem exec_partRead_live (reg : Reg) :
    (if Reg.rc reg then exec (.counterReadClear f reg 0 false) s else exec (.lowHalfRead f reg false) s) =
      .next (s.put (.read f 0xFFFFFFFF)).touchLink := by
  show (if Reg.rc reg then execCounterReadClear f reg 0 false s else execLowHalfRead f reg false s) = _
  cases hrc : Reg.rc reg <;> simp [execCounterReadClear, execLowHalfRead, hlive, hrc]

/-- A read through the aperture, within a page of a partition, answers the bytes of its memory (R346). -/
theorem exec_apertureRead_live {off len p a : Nat} (ha : a = ((s.fn f).apBase + off) % 2 ^ 44)
    (hfit : off + len ≤ 2 ^ (s.fn f).bar4Log2) (hlen : 0 < len) (hpage : a % pageBytes + len ≤ pageBytes)
    (hpart : s.touchLink.apTarget f a = .part p) {u : State} {b : List Byte} (hread : s.touchLink.readMem p a len = .ok u b) :
    exec (.apertureRead f off len) s = .next (u.put (.apRead f (some b))) := by
  subst ha
  show execApertureRead f off len s = _
  simp only [execApertureRead, hlive, hpart, hread, Nat.not_lt.mpr hfit, Nat.not_lt.mpr hpage, Nat.pos_iff_ne_zero.mp hlen, decide_false,
    beq_iff_eq, Bool.not_true, Bool.or_false, Bool.false_or, if_false]

/-- A write through the aperture to a partition whose job runs fails, and reaches no memory (R346, R347). -/
theorem exec_apertureWrite_running {off p a : Nat} {bytes : List Byte} (ha : a = ((s.fn f).apBase + off) % 2 ^ 44)
    (hfit : off + bytes.length ≤ 2 ^ (s.fn f).bar4Log2) (hne : bytes ≠ []) (hpage : a % pageBytes + bytes.length ≤ pageBytes)
    (hpart : s.touchLink.apTarget f a = .part p) (hjob : (s.part p).job = .running) :
    exec (.apertureWrite f off bytes) s = .next (s.touchLink.apFail f a true stNotPermitted) := by
  subst ha
  have hjob' : (s.touchLink.part p).job = .running := hjob
  show execApertureWrite f off bytes s = _
  simp only [execApertureWrite, hlive, hpart, Nat.not_lt.mpr hfit, Nat.not_lt.mpr hpage, List.isEmpty_eq_false_iff.mpr hne, hjob',
    decide_false, beq_self_eq_true, Bool.not_true, Bool.or_self, Bool.false_eq_true, if_false, if_true]

/-- A write through the aperture, within a page of a partition whose job does not run, reaches its memory (R346). -/
theorem exec_apertureWrite_live {off p a : Nat} {bytes : List Byte} (ha : a = ((s.fn f).apBase + off) % 2 ^ 44)
    (hfit : off + bytes.length ≤ 2 ^ (s.fn f).bar4Log2) (hne : bytes ≠ []) (hpage : a % pageBytes + bytes.length ≤ pageBytes)
    (hpart : s.touchLink.apTarget f a = .part p) (hjob : (s.part p).job ≠ .running) {u v : State} {b : List Byte}
    (hread : s.touchLink.readMem p a bytes.length = .ok u b) (hwrite : u.writeMem p a bytes = (v, stOK)) :
    exec (.apertureWrite f off bytes) s = .next (v.put (.apWrite f true)) := by
  subst ha
  have hjob' : (s.touchLink.part p).job ≠ .running := hjob
  show execApertureWrite f off bytes s = _
  simp only [execApertureWrite, hlive, hpart, hread, hwrite, Nat.not_lt.mpr hfit, Nat.not_lt.mpr hpage, List.isEmpty_eq_false_iff.mpr hne,
    beq_iff_eq, hjob', decide_false, Bool.not_true, Bool.or_self, Bool.false_eq_true, if_false, if_true]

end

/-- An append through a window lengthens the shard it names of the partition that the window reaches (R358). -/
theorem State.intakeAppend_of_window {s : State} {f k p : Nat} (w : W32) (h : s.windowPart f k = some p) :
    s.intakeAppend f k w = (s.setPart p { s.part p with intake := (s.part p).intake.append w }).settleIntake p := by
  simp [State.intakeAppend, h]

/-- Settles O47, one access at a time. -/
theorem hostReachesRegistersAndMemory : Obligations.HostReachesRegistersAndMemory := by
  unfold Obligations.HostReachesRegistersAndMemory
  intro s f hlive
  refine ⟨exec_intMaskWrite_live hlive, fun k p w hp => ?_, fun reg hrc => exec_lowHalfRead_live hlive hrc, exec_partRead_live hlive,
    fun reg w descs => ⟨exec_registerWrite_live hlive reg w descs, ?_⟩, fun w => ⟨?_, ?_⟩,
    fun off len p hfit hlen hpage hpart u b => exec_apertureRead_live hlive rfl hfit hlen hpage hpart,
    fun off bytes p hfit hne hpage hpart => ⟨exec_apertureWrite_running hlive rfl hfit hne hpage hpart,
      fun hjob u b v => exec_apertureWrite_live hlive rfl hfit hne hpage hpart hjob⟩⟩
  · rw [exec_intakeAppend_live hlive, State.intakeAppend_of_window w hp]
  · exact exec_registerWrite_part s f reg w descs
  · rw [exec_registerWrite_live hlive, exec_intMaskWrite_live hlive]
    rfl
  · rw [exec_registerWrite_live hlive, exec_intCauseClear_live hlive]
    rfl

end Sys2Proof.Machine
end

section
/-! PROOFS. Registers that a read clears (R12, R13, R90, R409): whether a function's access reaches the counter, and what it reads of it. -/

namespace Sys2Proof.Machine

open Sys2Proof

/-- PF0 with nothing hidden from it: no partition is locked, and the selectors and the window of the register name units there are. -/
structure State.FullView (s : State) (f : Nat) (reg : Reg) : Prop where
  pf0 : f = 0
  unlocked : ∀ p, s.locked p = false
  core : ∃ x c, s.selected (s.fn 0).coreSel = some (x, some c)
  sensor : (s.fn 0).sensorSel < 160
  window : ∀ k, reg ∈ [Reg.mbxIntakeSamples k, .mbxIntakeRange k, .mbxIntakeWaitHost k, .mbxIntakeWaitRing k, .mbxIntakeIgnored k] →
    (s.windowPart 0 k).isSome = true

/-- What a function reads of a counter that its access does not reach: 0, or all ones through PF0 where a partition is locked or a VF's. -/
def State.Veiled (s : State) (f v : Nat) : Prop :=
  v = 0 ∨ f = 0 ∧ v = 2 ^ 32 - 1 ∧ ∃ p, s.locked p = true ∨ (s.fn (p + 1)).enabled = true

/-- A register that a read clears is either reached by a function, and then shows what is put into it, or it is not, and then nothing is
put into it. A count put in is one below 1,024, of no more slots than have passed. -/
inductive State.Gate (s : State) (f : Nat) (reg : Reg) : Prop
  | reached (h : ∀ n < 1024, n ≤ s.slot → (s.putCounter f reg n).out = s.out ∧ (s.putCounter f reg n).regValue f reg = n)
  | veiled (hput : ∀ n, s.putCounter f reg n = s) (hval : s.Veiled f (s.regValue f reg)) (hview : ¬ s.FullView f reg)

section
variable {s : State} {f : Nat} {reg : Reg}

theorem State.viewOf_of_reaches {p : Nat} (h : s.reaches f p = true) (v : Nat) : s.viewOf f p v = v := by
  unfold State.reaches at h
  unfold State.viewOf
  by_cases hf : f = 0 <;> simp_all

theorem State.veiled_viewOf {p : Nat} (h : s.reaches f p = false) (v : Nat) : s.Veiled f (s.viewOf f p v) := by
  unfold State.reaches at h
  unfold State.viewOf
  by_cases hf : f = 0
  · have hp : s.locked p = true := by simpa [hf] using h
    exact .inr ⟨hf, by simp [hf, hp], p, .inl hp⟩
  · simp only [hf, if_false] at h
    exact .inl (by simp [hf, h])

theorem State.FullView.reaches (h : s.FullView f reg) (p : Nat) : s.reaches f p = true := by
  simp [State.reaches, h.pf0, h.unlocked p]

/-- A register read in the view of one partition, and put into where the function reaches that partition. -/
theorem State.Gate.of_view {p v : Nat} {set : Nat → State} (hread : s.regValue f reg = s.viewOf f p v)
    (hput : ∀ n, s.putCounter f reg n = if s.reaches f p then set n else s)
    (hset : ∀ n < 1024, n ≤ s.slot → (set n).out = s.out ∧ (set n).regValue f reg = s.viewOf f p n) : s.Gate f reg := by
  cases hp : s.reaches f p with
  | true =>
    refine .reached fun n hn hslot => ?_
    rw [hput, if_pos hp, (hset n hn hslot).2]
    exact ⟨(hset n hn hslot).1, State.viewOf_of_reaches hp n⟩
  | false =>
    refine .veiled (fun n => by rw [hput, hp]; rfl) (hread ▸ State.veiled_viewOf hp v) fun hview => ?_
    rw [hview.reaches p] at hp
    cases hp

/-! ### Counters of the numbered units -/

theorem State.gate_slice (k : Nat)
    (hread : ∀ t : State, t.regValue f reg = t.viewOf f (t.partOfSlice (t.fn f).slcSel) (tget 0 (t.slice (t.fn f).slcSel).counts k))
    (hput : ∀ n, s.putCounter f reg n = if s.reaches f (s.partOfSlice (s.fn f).slcSel) then
      s.modSlice (s.fn f).slcSel fun sl => { sl with counts := tset 0 sl.counts k n } else s) : s.Gate f reg :=
  .of_view (hread s) hput fun n _ _ => ⟨rfl, by
    rw [hread, State.modSlice_eq, State.setSlice_fn, State.setSlice_slice_self, tget_tset_self]
    rfl⟩

theorem State.gate_cloak (k : Nat)
    (hread : ∀ t : State, t.regValue f reg = t.viewOf f (t.lowest ((t.fn f).cloakSel / 4)) (tget 0 (t.cloak (t.fn f).cloakSel).counts k))
    (hput : ∀ n, s.putCounter f reg n = if s.reaches f (s.lowest ((s.fn f).cloakSel / 4)) then
      s.modCloak (s.fn f).cloakSel fun x => { x with counts := tset 0 x.counts k n } else s) : s.Gate f reg :=
  .of_view (hread s) hput fun n _ _ => ⟨rfl, by
    rw [hread, State.modCloak_eq, State.setCloak_fn, State.setCloak_cloak_self, tget_tset_self]
    rfl⟩

theorem State.gate_port (k : Nat)
    (hread : ∀ t : State, t.regValue f reg = t.viewOf f (t.partOfPort (t.fn f).portSel) (tget 0 (t.port (t.fn f).portSel).counts k))
    (hput : ∀ n, s.putCounter f reg n = if s.reaches f (s.partOfPort (s.fn f).portSel) then
      s.modPort (s.fn f).portSel fun l => { l with counts := tset 0 l.counts k n } else s) : s.Gate f reg :=
  .of_view (hread s) hput fun n _ _ => ⟨rfl, by
    rw [hread, State.modPort_eq, State.setPort_fn, State.setPort_port_self, tget_tset_self]
    rfl⟩

/-- A counter of an edge router that is read by `get`; the slot counter reads the slots since the one that it holds. -/
theorem State.gate_edge (get : Edge → Nat → Nat) (set : Nat → Edge → Edge)
    (hread : ∀ t : State, t.regValue f reg = t.viewOf f (t.partOfEdge (t.fn f).edgeSel) (get (t.edge (t.fn f).edgeSel) t.slot))
    (hput : ∀ n, s.putCounter f reg n = if s.reaches f (s.partOfEdge (s.fn f).edgeSel) then s.modEdge (s.fn f).edgeSel (set n) else s)
    (hget : ∀ n < 1024, n ≤ s.slot → ∀ e, get (set n e) s.slot = n) : s.Gate f reg :=
  .of_view (hread s) hput fun n hn hslot => ⟨rfl, by
    rw [hread, State.modEdge_eq, State.setEdge_fn, State.setEdge_edge_self, State.setEdge_slot, hget n hn hslot]
    rfl⟩

theorem State.gate_edgeCount (k : Nat)
    (hread : ∀ t : State, t.regValue f reg = t.viewOf f (t.partOfEdge (t.fn f).edgeSel) (tget 0 (t.edge (t.fn f).edgeSel).counts k))
    (hput : ∀ n, s.putCounter f reg n = if s.reaches f (s.partOfEdge (s.fn f).edgeSel) then
      s.modEdge (s.fn f).edgeSel fun e => { e with counts := tset 0 e.counts k n } else s) : s.Gate f reg :=
  State.gate_edge (fun e _ => tget 0 e.counts k) (fun n e => { e with counts := tset 0 e.counts k n }) hread hput
    fun _ _ _ _ => tget_tset_self ..

/-- A counter of a pseudo-channel of an HBM stack. -/
theorem State.gate_stack (get : Stack → SMap Nat) (set : Nat → Nat → Stack → Stack)
    (hread : ∀ t : State, t.regValue f reg = t.viewOf f (t.partOfStack ((t.fn f).hbmSel % 32))
      (tget 0 (get (t.stack ((t.fn f).hbmSel % 32))) ((t.fn f).hbmSel / 32)))
    (hput : ∀ n, s.putCounter f reg n = if s.reaches f (s.partOfStack ((s.fn f).hbmSel % 32)) then
      s.modStack ((s.fn f).hbmSel % 32) (set ((s.fn f).hbmSel / 32) n) else s)
    (hget : ∀ pc n st, get (set pc n st) = tset 0 (get st) pc n) : s.Gate f reg :=
  .of_view (hread s) hput fun n _ _ => ⟨rfl, by
    rw [hread, State.modStack_eq, State.setStack_fn, State.setStack_stack_self, hget, tget_tset_self]
    rfl⟩

/-! ### Counters of an intake, read through a window (R345, R357) -/

theorem State.windowRead_of_some {k p : Nat} (h : s.windowPart f k = some p) (v : Intake → Nat) :
    s.windowRead f k v = v (s.part p).intake := by
  simp [State.windowRead, h]

/-- A window that reaches no partition reads 0, or all ones through PF0 where a VF drives the partition or it is locked. -/
theorem State.veiled_windowRead {k : Nat} (h : s.windowPart f k = none) (v : Intake → Nat) : s.Veiled f (s.windowRead f k v) := by
  have hread : s.windowRead f k v = if f == 0 && s.isPart k then 2 ^ 32 - 1 else 0 := by simp [State.windowRead, h]
  rw [hread]
  split
  · rename_i hc
    obtain ⟨hf, hk⟩ : f = 0 ∧ s.isPart k = true := by simpa using hc
    have hcause : (s.fn (k + 1)).enabled = false → s.locked k = true := by simpa [State.windowPart, hf, hk] using h
    refine .inr ⟨hf, rfl, k, ?_⟩
    cases hen : (s.fn (k + 1)).enabled with
    | true => exact .inr rfl
    | false => exact .inl (hcause hen)
  · exact .inl rfl

/-- A change of a partition's intake leaves the partitions that the windows reach. -/
theorem State.windowPart_setIntake (s : State) (f k p : Nat) (it : Intake) :
    (s.setPart p { s.part p with intake := it }).windowPart f k = s.windowPart f k := by
  have hlocked : (s.setPart p { s.part p with intake := it }).locked k = s.locked k := by
    unfold State.locked
    by_cases hk : k = p
    · rw [hk, State.setPart_part_self]
    · rw [State.setPart_part_ne _ _ _ _ hk]
  simp only [State.windowPart, hlocked, State.setPart_fn]
  rfl

theorem State.gate_intake (k i : Nat) (hread : ∀ t : State, t.regValue f reg = t.windowRead f k fun it => tget 0 it.counts i)
    (hput : ∀ n, s.putCounter f reg n = s.putIntake f k i n)
    (hreg : reg ∈ [Reg.mbxIntakeSamples k, .mbxIntakeRange k, .mbxIntakeWaitHost k, .mbxIntakeWaitRing k, .mbxIntakeIgnored k]) :
    s.Gate f reg := by
  cases hw : s.windowPart f k with
  | some p =>
    refine .reached fun n _ _ => ?_
    have hset : s.putIntake f k i n =
        s.setPart p { s.part p with intake := { (s.part p).intake with counts := tset 0 (s.part p).intake.counts i n } } := by
      simp [State.putIntake, hw]
    rw [hput, hset, hread, State.windowRead_of_some ((State.windowPart_setIntake ..).trans hw), State.setPart_part_self]
    exact ⟨rfl, tget_tset_self ..⟩
  | none =>
    refine .veiled (fun n => by simp [hput, State.putIntake, hw]) (hread s ▸ State.veiled_windowRead hw _) fun hview => ?_
    have := hview.window k hreg
    rw [← hview.pf0, hw] at this
    cases this

/-! ### Counters of the selected core and its site (R90) -/

/-- A field of the shown core that a fence leaves is that of the core which sits there, or an empty core's. -/
theorem State.shownCore_field {β : Type} (g : Core → β) (hg : ∀ core power, g { core with power := power } = g core) (s : State)
    (x : Nat × Option Nat) : g (s.shownCore x) = x.2.elim (g {}) fun c => g (s.core c) := by
  have hfence (fenced : Bool) (core : Core) : g (if fenced then { core with power := .fenced } else core) = g core := by
    cases fenced with
    | false => rfl
    | true => exact hg core .fenced
  obtain ⟨x, _ | c⟩ := x
  · exact hfence _ {}
  · exact hfence _ (s.core c)

/-- A CORE register reads 0 for a selection that names no place (R90). -/
theorem State.readCore_of_none (h : s.selected (s.fn f).coreSel = none) (reg : Reg) : s.readCore f reg = 0 := by
  simp [State.readCore, h]

theorem State.readCore_of_some {x : Nat × Option Nat} (h : s.selected (s.fn f).coreSel = some x) (reg : Reg) :
    s.readCore f reg = s.viewOf f (s.partOfSite x.1) (s.coreReg reg (bits (s.fn f).coreSel 12 4) x) := by
  simp [State.readCore, h]

/-- A counter of a core, read by `get` for the selected unit. -/
theorem State.gate_core (get : Nat → Core → Nat) (set : Nat → Nat → Core → Core) (hread : ∀ t : State, t.regValue f reg = t.readCore f reg)
    (hreg : ∀ (t : State) unit x, t.coreReg reg unit x = x.2.elim 0 fun c => get unit (t.core c))
    (hput : ∀ n, s.putCounter f reg n = s.putCore f (set (bits (s.fn f).coreSel 12 4) n))
    (hget : ∀ unit n core, get unit (set unit n core) = n) : s.Gate f reg := by
  cases hsel : s.selected (s.fn f).coreSel with
  | none =>
    refine .veiled (fun n => by simp [hput, State.putCore, hsel]) (.inl ((hread s).trans (State.readCore_of_none hsel reg)))
      fun hview => ?_
    obtain ⟨x, c, h⟩ := hview.core
    rw [← hview.pf0, hsel] at h
    cases h
  | some x =>
    obtain ⟨x, _ | c⟩ := x
    · have hval : s.regValue f reg = s.viewOf f (s.partOfSite x) 0 := by
        rw [hread, State.readCore_of_some hsel, hreg]
        rfl
      refine .veiled (fun n => by simp [hput, State.putCore, hsel]) (hval ▸ ?_) fun hview => ?_
      · cases hp : s.reaches f (s.partOfSite x) with
        | true => exact .inl (State.viewOf_of_reaches hp 0)
        | false => exact State.veiled_viewOf hp 0
      · obtain ⟨y, c, h⟩ := hview.core
        rw [← hview.pf0, hsel] at h
        cases h
    · refine .of_view (p := s.partOfSite x) (set := fun n => s.modCore c (set (bits (s.fn f).coreSel 12 4) n))
        ((hread s).trans (State.readCore_of_some hsel reg)) (fun n => by simp [hput, State.putCore, hsel]) fun n _ _ => ⟨rfl, ?_⟩
      have hsel' : (s.modCore c (set (bits (s.fn f).coreSel 12 4) n)).selected (s.fn f).coreSel = some (x, some c) := hsel
      rw [hread, State.readCore_of_some hsel', hreg]
      simp only [State.modCore_eq, Option.elim, State.setCore_core_self, State.setCore_fn, hget]
      rfl

/-- The fused runs of the selected site. -/
theorem State.gate_attnFused (s : State) (f : Nat) : s.Gate f .coreAttnFused := by
  cases hsel : s.selected (s.fn f).coreSel with
  | none =>
    refine .veiled (fun n => by simp [State.putCounter, hsel]) (.inl (State.readCore_of_none hsel _)) fun hview => ?_
    obtain ⟨x, c, h⟩ := hview.core
    rw [← hview.pf0, hsel] at h
    cases h
  | some x =>
    refine .of_view (p := s.partOfSite x.1) (set := fun n => s.modSite x.1 fun t => { t with fusedRuns := n })
      (State.readCore_of_some hsel _) (fun n => by simp [State.putCounter, hsel]) fun n _ _ => ⟨rfl, ?_⟩
    have hsel' : (s.modSite x.1 fun t => { t with fusedRuns := n }).selected (s.fn f).coreSel = some x := hsel
    refine (State.readCore_of_some hsel' _).trans ?_
    simp only [State.coreReg, State.modSite_eq, State.setSite_site_self]
    rfl

/-! ### Counters that one function or the module holds -/

theorem toNat_bit (n i : Nat) : (bit n i).toNat = n / 2 ^ i % 2 := by
  rcases Nat.mod_two_eq_zero_or_one (n / 2 ^ i) with h | h <;> simp [bit, h]

/-- The status of a function's failed aperture access. -/
theorem State.gate_apertureErr (s : State) (f : Nat) : s.Gate f .intApertureErrStatus := by
  refine .reached fun n hn _ => ⟨rfl, ?_⟩
  simp only [State.putCounter, State.regValue, State.modFn_eq, State.setFn_fn_self, toNat_bit]
  omega

/-- The cycles withheld from the engines of the selected sensor's group. -/
theorem State.gate_throttle (s : State) (f : Nat) : s.Gate f .telThrottle := by
  by_cases hk : (s.fn f).sensorSel < 160
  · have hview (t : State) (v : Nat) :
        t.sensorView f (s.fn f).sensorSel v = t.viewOf f (t.lowest ((s.fn f).sensorSel / 20)) v := by
      simp [State.sensorView, sensorPart, hk]
    refine .of_view (p := s.lowest ((s.fn f).sensorSel / 20)) (v := tget 0 s.care.throttle (s.fn f).sensorSel)
      (set := fun n => { s with care := { s.care with throttle := tset 0 s.care.throttle (s.fn f).sensorSel n } })
      ?_ (fun n => by simp [State.putCounter, hk]) fun n _ _ => ⟨rfl, ?_⟩
    · exact (if_pos hk).trans (hview s _)
    · refine (if_pos hk).trans ((hview _ _).trans ?_)
      exact congrArg (s.viewOf f _) (tget_tset_self ..)
  · exact .veiled (fun n => by simp [State.putCounter, hk]) (.inl (if_neg hk)) fun hview => hk (hview.pf0 ▸ hview.sensor)

/-- The errors of the beat, which PF0 alone reads. -/
theorem State.gate_beatErrors (s : State) (f : Nat) : s.Gate f .lnkBeatErrors := by
  by_cases hf : f = 0
  · exact .reached fun n _ _ => by simp [State.putCounter, State.regValue, hf]
  · exact .veiled (fun n => if_neg hf) (.inl (if_neg hf)) fun hview => hf hview.pf0

end

/-- Every register that a read clears is reached, or veiled. -/
theorem State.gate (s : State) (f : Nat) (reg : Reg) (hrc : Reg.rc reg = true) (hstall : ∀ n, reg = .coreStall n → n < 7) :
    s.Gate f reg := by
  cases reg with
  | mbxIntakeSamples k => exact State.gate_intake k 0 (fun _ => rfl) (fun _ => rfl) (by simp)
  | mbxIntakeRange k => exact State.gate_intake k 1 (fun _ => rfl) (fun _ => rfl) (by simp)
  | mbxIntakeWaitHost k => exact State.gate_intake k 2 (fun _ => rfl) (fun _ => rfl) (by simp)
  | mbxIntakeWaitRing k => exact State.gate_intake k 3 (fun _ => rfl) (fun _ => rfl) (by simp)
  | mbxIntakeIgnored k => exact State.gate_intake k 4 (fun _ => rfl) (fun _ => rfl) (by simp)
  | intApertureErrStatus => exact State.gate_apertureErr s f
  | coreStall i =>
    have hi := hstall i rfl
    exact State.gate_core (fun unit core => tget 0 core.stalls (unit * 8 + i))
      (fun unit n core => { core with stalls := tset 0 core.stalls (unit * 8 + i) n }) (fun _ => rfl)
      (fun t unit x => (if_pos hi).trans
        (State.shownCore_field (fun core => tget 0 core.stalls (unit * 8 + i)) (fun _ _ => rfl) t x))
      (fun _ => if_pos hi) (fun _ _ _ => tget_tset_self ..)
  | coreDropGen =>
    exact State.gate_core (fun _ => Core.dropGen) (fun _ n core => { core with dropGen := n }) (fun _ => rfl)
      (fun t _ x => State.shownCore_field Core.dropGen (fun _ _ => rfl) t x) (fun _ => rfl) (fun _ _ _ => rfl)
  | coreDropDraft =>
    exact State.gate_core (fun _ => Core.dropDraft) (fun _ n core => { core with dropDraft := n }) (fun _ => rfl)
      (fun t _ x => State.shownCore_field Core.dropDraft (fun _ _ => rfl) t x) (fun _ => rfl) (fun _ _ _ => rfl)
  | coreDropGroup =>
    exact State.gate_core (fun _ => Core.dropGroup) (fun _ n core => { core with dropGroup := n }) (fun _ => rfl)
      (fun t _ x => State.shownCore_field Core.dropGroup (fun _ _ => rfl) t x) (fun _ => rfl) (fun _ _ _ => rfl)
  | coreWallDrops =>
    exact State.gate_core (fun _ => Core.wallDrops) (fun _ n core => { core with wallDrops := n }) (fun _ => rfl)
      (fun t _ x => State.shownCore_field Core.wallDrops (fun _ _ => rfl) t x) (fun _ => rfl) (fun _ _ _ => rfl)
  | coreAttnFused => exact State.gate_attnFused s f
  | slcHits => exact State.gate_slice 0 (fun _ => rfl) (fun _ => rfl)
  | slcFills => exact State.gate_slice 1 (fun _ => rfl) (fun _ => rfl)
  | slcWritebacks => exact State.gate_slice 2 (fun _ => rfl) (fun _ => rfl)
  | slcBankCap => exact State.gate_slice 3 (fun _ => rfl) (fun _ => rfl)
  | slcOwnerDrops => exact State.gate_slice 4 (fun _ => rfl) (fun _ => rfl)
  | slcSramCe => exact State.gate_slice 5 (fun _ => rfl) (fun _ => rfl)
  | slcSramRefill => exact State.gate_slice 6 (fun _ => rfl) (fun _ => rfl)
  | slcCloakSpilled => exact State.gate_cloak 0 (fun _ => rfl) (fun _ => rfl)
  | slcCloakReinjected => exact State.gate_cloak 1 (fun _ => rfl) (fun _ => rfl)
  | slcCloakDiscarded => exact State.gate_cloak 2 (fun _ => rfl) (fun _ => rfl)
  | slcCloakOverflow => exact State.gate_cloak 3 (fun _ => rfl) (fun _ => rfl)
  | slcCloakLate => exact State.gate_cloak 4 (fun _ => rfl) (fun _ => rfl)
  | hbmCe =>
    exact State.gate_stack Stack.ce (fun pc n st => { st with ce := tset 0 st.ce pc n }) (fun _ => rfl) (fun _ => rfl)
      fun _ _ _ => rfl
  | hbmUe =>
    exact State.gate_stack Stack.ue (fun pc n st => { st with ue := tset 0 st.ue pc n }) (fun _ => rfl) (fun _ => rfl)
      fun _ _ _ => rfl
  | hbmTagFail =>
    exact State.gate_stack Stack.tagFail (fun pc n st => { st with tagFail := tset 0 st.tagFail pc n }) (fun _ => rfl) (fun _ => rfl)
      fun _ _ _ => rfl
  | telEdgeVecIn => exact State.gate_edgeCount 0 (fun _ => rfl) (fun _ => rfl)
  | telEdgeVecOut => exact State.gate_edgeCount 1 (fun _ => rfl) (fun _ => rfl)
  | telEdgeXbarIn => exact State.gate_edgeCount 2 (fun _ => rfl) (fun _ => rfl)
  | telEdgeXbarOut => exact State.gate_edgeCount 3 (fun _ => rfl) (fun _ => rfl)
  | telEdgeXbarHbm => exact State.gate_edgeCount 4 (fun _ => rfl) (fun _ => rfl)
  | telEdgeSlots =>
    refine State.gate_edge Edge.slots (fun n e => { e with counts := tset 0 e.counts 5 (s.slot - n) }) (fun _ => rfl) (fun _ => rfl)
      fun n hn hslot e => ?_
    rw [Edge.slots, tget_tset_self]
    omega
  | telThrottle => exact State.gate_throttle s f
  | lnkFecCorrected => exact State.gate_port 0 (fun _ => rfl) (fun _ => rfl)
  | lnkFrameFail => exact State.gate_port 1 (fun _ => rfl) (fun _ => rfl)
  | lnkBellResent => exact State.gate_port 2 (fun _ => rfl) (fun _ => rfl)
  | lnkBellHeld => exact State.gate_port 3 (fun _ => rfl) (fun _ => rfl)
  | lnkLate => exact State.gate_port 4 (fun _ => rfl) (fun _ => rfl)
  | lnkUnused => exact State.gate_port 5 (fun _ => rfl) (fun _ => rfl)
  | lnkInboundDrops => exact State.gate_port 6 (fun _ => rfl) (fun _ => rfl)
  | lnkBeatErrors => exact State.gate_beatErrors s f
  | _ => cases hrc

/-! ### The read itself (R13) -/

/-- An answer put out leaves every register. -/
theorem State.regValue_put (s : State) (o : Output) (f : Nat) (reg : Reg) : (s.put o).regValue f reg = s.regValue f reg := rfl

/-- Traffic on the host link leaves every register. -/
theorem State.regValue_touchLink (s : State) (f : Nat) (reg : Reg) : s.touchLink.regValue f reg = s.regValue f reg := rfl

/-- A read that clears answers the value before the events of its cycle; then the register shows those events, or the function's access does
not reach it, and what it reads stays. -/
theorem exec_counterReadClear_shows {s : State} {f : Nat} {reg : Reg} (hlive : s.fnLive f = true) (hrc : Reg.rc reg = true)
    (hstall : ∀ n, reg = .coreStall n → n < 7) {same : Nat} (hsame : same < 1024) (hslot : same ≤ s.slot) :
    ∃ u : State, exec (.counterReadClear f reg same true) s = .next u ∧ u.out = s.out ++ [.read f (s.readReg f reg)] ∧
      (u.regValue f reg = same ∨ u.regValue f reg = s.regValue f reg ∧ s.Veiled f (s.regValue f reg) ∧ ¬ s.FullView f reg) := by
  refine ⟨_, exec_counterReadClear_live hlive hrc same, ?_⟩
  have hsat : sat32 same = same := if_pos (by omega)
  rw [hsat, State.regValue_touchLink]
  cases (s.put (.read f (s.readReg f reg))).gate f reg hrc hstall with
  | reached h => exact ⟨(h same hsame hslot).1, .inl (h same hsame hslot).2⟩
  | veiled hput hval hview =>
    refine ⟨congrArg State.out (hput same),
      .inr ⟨(congrArg (State.regValue · f reg) (hput same)).trans (State.regValue_put ..), hval, fun hs => hview ?_⟩⟩
    exact ⟨hs.pf0, hs.unlocked, hs.core, hs.sensor, hs.window⟩

/-- Settles O46: a cause is set by its cycle or kept, and an RC register shows the events of its cycle wherever the access reaches it. -/
theorem clearsLoseNoEvent : Obligations.ClearsLoseNoEvent := by
  unfold Obligations.ClearsLoseNoEvent
  intro s f hlive
  refine ⟨fun w same => ⟨_, exec_intCauseClear_live hlive w same, fun v hv => State.clearCause_cause s f w same hv⟩,
    fun reg hrc hstall => ⟨?_, fun hf hlock hcore hsensor hwindow same hsame hslot => ?_⟩⟩
  · obtain ⟨u, hu, hout, hval | ⟨hsame, hzero | ⟨hf, hones, hp⟩, -⟩⟩ :=
      exec_counterReadClear_shows hlive hrc hstall (same := 0) (by decide) (Nat.zero_le _)
    · exact ⟨u, hu, hout, .inl (congrArg (BitVec.ofNat 32) hval)⟩
    · exact ⟨u, hu, hout, .inl (congrArg (BitVec.ofNat 32) (hsame.trans hzero))⟩
    · exact ⟨u, hu, hout, .inr ⟨hf, congrArg (BitVec.ofNat 32) hones, congrArg (BitVec.ofNat 32) (hsame.trans hones), hp⟩⟩
  · obtain ⟨u, hu, hout, hval | ⟨-, -, hview⟩⟩ := exec_counterReadClear_shows hlive hrc hstall hsame hslot
    · exact ⟨u, hu, hout, congrArg (BitVec.ofNat 32) hval⟩
    · exact absurd ⟨hf, hlock, hcore, hsensor, hwindow⟩ hview

end Sys2Proof.Machine
end

section
/-! PROOFS. The commands of partitions and jobs (R24, R124, R297, R338, R372, R379, R380, R387): each meets its own rules, and has its effect. -/

namespace Sys2Proof.Machine

open Sys2Proof

theorem mem_upFrom {x : Nat} : ∀ {n a : Nat}, x ∈ upFrom a n ↔ a ≤ x ∧ x < a + n
  | 0, a => by simp [upFrom]
  | n + 1, a => by
    simp only [upFrom, List.mem_cons, mem_upFrom (n := n)]
    omega

/-! ### How a command that starts ends -/

section
variable {s s1 : State} {r t op : Nat} {c : Cmd} {rules : CmdRules} {f : State → Job → CmdRes} {digest : Option (BitVec 512)} {cmd : Instr}

/-- A command that starts stands at the front of its ring. -/
theorem startable_of_starts (h : s.starts r t op c = true) : s.startable r = some c := by
  simp only [State.starts, Bool.and_eq_true, decide_eq_true_eq] at h
  obtain ⟨⟨⟨⟨⟨⟨⟨hst, -⟩, -⟩, -⟩, -⟩, -⟩, -⟩, -⟩ := h
  exact hst

/-- A row of the command tables completes once it starts, where its rules are met and its work is done. -/
theorem completes_of_done {a : Answer} (hcmd : exec cmd s = .next (s.runCmd r t op rules f digest)) (h : s.starts r t op c = true)
    (hi : rules.inline (s.markStarted r c) (s.job r c) = none) (hn : rules.need (s.job r c) ≤ c.payLen)
    (hp : rules.pay (s.markStarted r c) (s.job r c) = none) (hf : f (s.markStarted r c) (s.job r c) = .done s1 a) :
    Completes cmd s r c s1 a digest := fun ha => by rw [hcmd, runCmd_done h hi hn hp hf ha]

end

/-! ### Each command -/

section
variable {s : State} {r t : Nat} {c : Cmd}

/-- A level that firmware supports is pinned (R338). -/
theorem behaviourPin_completes (h : s.starts r t 0x0108 c = true) (hne : (s.job r c).arg 0 ≠ 0)
    (hbit : bit levelMask ((s.job r c).arg 0 - 1) = true) :
    let s0 := s.markStarted r c
    Completes (.behaviourPin r t) s r c { s0 with sec := { s0.sec with level := (s.job r c).arg 0 } } {} :=
  completes_of_done rfl h (if_pos ⟨hne, hbit⟩) (Nat.zero_le _) rfl rfl

/-- The configurations of 1, 2, 4 and 8 partitions are made where no partition is locked (R387, R409). -/
theorem partitionSet_completes (h : s.starts r t 0x0201 c = true) (hn : (s.job r c).arg 0 ∈ [1, 2, 4, 8])
    (hfree : ∀ p ∈ (s.markStarted r c).partList, (s.markStarted r c).locked p = false) :
    Completes (.partitionSet r t) s r c ((s.markStarted r c).partitionSet ((s.job r c).arg 0)) {} := by
  refine completes_of_done rfl h (if_pos hn) (Nat.zero_le _) rfl (if_neg ?_)
  simpa using hfree

/-- An image that passes every check is loaded, and its digest answered (R24, R249, R275, R295, R318). -/
theorem jobLoad_completes {b : List Byte} {im : Image} (h : s.starts r t 0x0301 c = true) (hpay : 16 * (s.job r c).arg 2 ≤ c.payLen)
    (hok : (s.markStarted r c).imageOk (s.job r c).p im = true) (hquota : (s.markStarted r c).overQuota (s.job r c).p im = false)
    (hform : (s.markStarted r c).formMismatch im = false) (hleft : ((s.markStarted r c).part (s.job r c).p).left = false)
    (hfenced : (s.markStarted r c).stackFenced (s.job r c).p = false) {s1 : State}
    (hs1 : s1 = (s.markStarted r c).loadJob (s.job r c).p im (Config.sha512 b) ((s.job r c).arg 0) ((s.job r c).arg 1))
    (hcross : s1.crossesTwo (s.job r c).p (fun k => (s1.part (s.job r c).p).plan k) = false) :
    Completes (.jobLoad r t (.ok b) (some im)) s r c s1 { result := leBytes 64 (Config.sha512 b).toNat } (some (Config.sha512 b)) := by
  subst hs1
  refine completes_of_done rfl h rfl hpay rfl ?_
  simp only [hok, hquota, hform, hleft, hfenced, hcross, Bool.not_true, Bool.or_self, Bool.false_eq_true, if_false]

/-- Bytes that are no image, or one that breaks a rule, are answered with BAD_ARG (R24; log entry 5). -/
theorem jobLoad_of_bad {b : List Byte} {im : Option Image} (h : s.starts r t 0x0301 c = true) (hpay : 16 * (s.job r c).arg 2 ≤ c.payLen)
    (hbad : ∀ i, im = some i → (s.markStarted r c).imageOk (s.job r c).p i = false) :
    let s0 := s.markStarted r c
    Completes (.jobLoad r t (.ok b) im) s r c { s0 with fresh := s0.fresh + 1 } { status := 0x11, detail := imageDetail s0.fresh }
      (some (Config.sha512 b)) := by
  refine completes_of_done rfl h rfl hpay rfl ?_
  cases im with
  | none => rfl
  | some i => exact if_pos (by simp [hbad i rfl])

/-- A job is unloaded, and the digest of its image is the one that its audit entry names (R380, R394). -/
theorem jobUnload_completes (h : s.starts r t 0x0302 c = true) :
    Completes (.jobUnload r t) s r c ((s.markStarted r c).unloadJob (s.job r c).p) {}
      (some ((s.markStarted r c).part (s.job r c).p).digest) := by
  refine completes_of_done (rules := {}) (f := fun s j => .done (s.unloadJob j.p) {}) ?_ h rfl (Nat.zero_le _) rfl rfl
  show execJobUnload r t s = _
  rw [execJobUnload, startable_of_starts h]
  rfl

/-- Ranks of 14 bits each are set (R278, R297). -/
theorem jobRanks_completes (h : s.starts r t 0x0304 c = true) (hpay : 2 * (s.job r c).arg 0 ≤ c.payLen)
    (hrank : ∀ k < (s.job r c).arg 0, leNat (((s.job r c).pay.drop (2 * k)).take 2) < 2 ^ 14) :
    Completes (.jobRanks r t) s r c (((s.markStarted r c).modPart (s.job r c).p fun part =>
      { part with ranks := readList (s.job r c).pay (List.replicate ((s.job r c).arg 0) 2) }).placeBuddy (s.job r c).p) {} := by
  refine completes_of_done rfl h rfl hpay ?_ rfl
  refine Option.map_eq_none_iff.mpr (List.find?_eq_none.mpr fun k hk => ?_)
  simpa using hrank k (by simpa using (mem_upFrom.mp hk).2)

/-- What keeps JOB_RUN from starting a run on a partition: none of it holds (R243, R280, R293, R323, R393, R408). -/
structure State.MayRun (s : State) (p : Nat) : Prop where
  form : s.namesOthers p = true → s.form.set = true ∧ s.beat.epochValid = true
  satchel : (s.part p).satchel.configured = true
  keys : s.needsKeys p = true → (s.part p).jobKeysDone = true
  diag : s.sec.diag = none
  left : (s.part p).left = false
  stack : s.stackFenced p = false

/-- A run starts and its command stays at work (R379). -/
theorem exec_jobRun_of_mayRun (h : s.starts r t 0x0501 c = true) (hrun : (s.markStarted r c).MayRun (s.job r c).p)
    (refill : SMap (SMap HbmLine)) :
    exec (.jobRun r t refill) s = .next
      (((((s.markStarted r c).refillSet (s.job r c).p refill).startRun (s.job r c).p r t ((s.job r c).arg 0)).modRing r fun g =>
        { g with inflight := g.inflight.map fun x => if x.idx == c.idx then { x with running := true } else x }).settleRings) := by
  obtain ⟨hform, hsat, hkeys, hdiag, hleft, hstack⟩ := hrun
  refine congrArg Host.Outcome.next (runCmd_later h rfl (Nat.zero_le _) rfl ?_)
  have hset : ((s.markStarted r c).namesOthers (s.job r c).p &&
      !((s.markStarted r c).form.set && (s.markStarted r c).beat.epochValid)) = false := by
    cases hn : (s.markStarted r c).namesOthers (s.job r c).p with
    | false => rfl
    | true => simp [hform hn]
  have hkeyed : ((s.markStarted r c).needsKeys (s.job r c).p && !((s.markStarted r c).part (s.job r c).p).jobKeysDone) = false := by
    cases hn : (s.markStarted r c).needsKeys (s.job r c).p with
    | false => rfl
    | true => simp [hkeys hn]
  simp only [hset, hkeyed, hsat, hdiag, hleft, hstack, Option.isSome_none, Bool.not_true, Bool.or_self, Bool.false_eq_true, if_false]

/-- A running job is asked to stop; one that does not run is left as it is (R379; log entry 56). -/
theorem jobStop_completes (h : s.starts r t 0x0502 c = true) :
    let s0 := s.markStarted r c
    let part := s0.part (s.job r c).p
    Completes (.jobStop r t) s r c (if part.job = .running then s0.setPart (s.job r c).p { part with stopAsked := true } else s0) {} := by
  refine completes_of_done rfl h rfl (Nat.zero_le _) rfl ?_
  simp only [beq_iff_eq, State.modPart_eq]

/-- The map of frozen tensors of the next step is set (R124). -/
theorem frozenSet_completes (h : s.starts r t 0x0504 c = true) (hpay : 512 ≤ c.payLen) :
    let s0 := s.markStarted r c
    Completes (.frozenSet r t) s r c (s0.setPart (s.job r c).p
      { s0.part (s.job r c).p with frozenNext := BitVec.ofNat 4096 (leNat ((s.job r c).pay.take 512)) }) {} :=
  completes_of_done rfl h rfl hpay rfl rfl

end

/-- Settles O50, one command at a time. -/
theorem jobCommandsTakeEffect : Obligations.JobCommandsTakeEffect := by
  unfold Obligations.JobCommandsTakeEffect
  intro s r t c s0 j part
  refine ⟨behaviourPin_completes, partitionSet_completes, fun b im h hpay hok hquota hform hleft hfenced hcross =>
    jobLoad_completes h hpay hok hquota hform hleft hfenced rfl hcross, fun b im h hpay hbad => jobLoad_of_bad h hpay ?_,
    jobUnload_completes, jobRanks_completes, fun h hform hsat hkeys hdiag hleft hstack =>
    exec_jobRun_of_mayRun h ⟨hform, hsat, hkeys, hdiag, hleft, hstack⟩, jobStop_completes, frozenSet_completes⟩
  rintro i rfl
  exact hbad

end Sys2Proof.Machine
end

section
/-! PROOFS. The boundary of a step (R22, R321, R322, R379), and a sample's way into its slot (R355, R357). -/

namespace Sys2Proof.Machine

open Sys2Proof

/-- A part without its page table. -/
def Part.unpaged (part : Part) : Part := { part with pages := [] }

/-- What a step leaves to the next does not rest on the page table. -/
theorem Part.nextStep_unpaged {a b : Part} (h : a.unpaged = b.unpaged) : a.nextStep.unpaged = b.nextStep.unpaged := by
  have key (x : Part) : x.nextStep.unpaged = x.unpaged.nextStep := rfl
  rw [key, key, h]

/-- From `s` to `t` no core, no power and, of the partition `p`, nothing but its page table has changed. -/
structure State.PagesOnly (p : Nat) (s t : State) : Prop where
  part : (t.part p).unpaged = (s.part p).unpaged
  cores : t.cores = s.cores
  power : t.power = s.power

namespace State.PagesOnly
variable {p : Nat} {s t u : State}

theorem refl (p : Nat) (s : State) : State.PagesOnly p s s := ⟨rfl, rfl, rfl⟩

theorem trans (h : State.PagesOnly p s t) (k : State.PagesOnly p t u) : State.PagesOnly p s u :=
  ⟨k.part.trans h.part, k.cores.trans h.cores, k.power.trans h.power⟩

theorem foldl {α : Type} {g : State → α → State} (h : ∀ s a, State.PagesOnly p s (g s a)) (l : List α) (s : State) :
    State.PagesOnly p s (l.foldl g s) := by
  induction l generalizing s with
  | nil => exact refl p s
  | cons a l ih => exact (h s a).trans (ih (g s a))

end State.PagesOnly

/-! ### What the boundary does before its satchel -/

/-- A packet goes into a queue of this device or of a port. -/
theorem State.sendPacket_pagesOnly (p : Nat) (s : State) (d : Nat) (k : Packet) : State.PagesOnly p s (s.sendPacket d k) := by
  unfold State.sendPacket
  dsimp only
  split
  · exact ⟨rfl, rfl, rfl⟩
  · split
    · exact .refl p s
    · exact ⟨rfl, rfl, rfl⟩

theorem State.sendPackets_pagesOnly (p : Nat) (s : State) (devs : List Nat) (k : Packet) :
    State.PagesOnly p s (s.sendPackets devs k) :=
  .foldl (fun s d => s.sendPacket_pagesOnly p d k) devs s

theorem State.sendOverflow_pagesOnly (p : Nat) (s : State) : State.PagesOnly p s (s.sendOverflow p) := by
  unfold State.sendOverflow
  dsimp only
  split
  · exact .refl p s
  · split
    · exact ⟨rfl, rfl, rfl⟩
    · exact s.sendPacket_pagesOnly p _ _

theorem State.setPage_pagesOnly (p : Nat) (s : State) (pg : Nat) (e : Page) : State.PagesOnly p s (s.setPage p pg e) :=
  ⟨(congrArg Part.unpaged (s.setPart_part_self p ((s.part p).setPage pg e))).trans rfl, rfl, rfl⟩

theorem State.freeFrame_pagesOnly (p : Nat) (s : State) (h f : Nat) : State.PagesOnly p s (s.freeFrame h f) := ⟨rfl, rfl, rfl⟩

theorem State.putLines_pagesOnly (p : Nat) (s : State) (h f : Nat) (ls : SMap HbmLine) : State.PagesOnly p s (s.putLines h f ls) :=
  ⟨rfl, rfl, rfl⟩

/-- The boundary version of a page is released in HBM and in the page table (R321). -/
theorem State.releaseKeep_pagesOnly (p : Nat) (s : State) (pg : Nat) : State.PagesOnly p s (s.releaseKeep p pg) := by
  unfold State.releaseKeep
  dsimp only
  split
  · exact .refl p s
  · refine .trans ?_ (State.setPage_pagesOnly p _ pg _)
    split
    · exact s.putLines_pagesOnly p _ _ _
    · exact (s.putLines_pagesOnly p _ _ _).trans (State.freeFrame_pagesOnly p _ _ _)

/-- Lines are marked in the slices alone (R322). -/
theorem State.markOld_pagesOnly (p : Nat) (s : State) : State.PagesOnly p s (s.markOld p) := by
  refine .foldl (fun s k => ?_) _ s
  dsimp only
  split
  · exact .refl p s
  · exact ⟨rfl, rfl, rfl⟩

/-! ### The boundary's parts, in their order -/

/-- What the step that ends reports: its norm and overflow records, and its position where this device keeps positions (R56, R155, R302). -/
def State.stepReported (s : State) (p : Nat) : State :=
  let old := s.part p
  let s := (s.sendPackets s.superiors { cls := 0x22, part := p, norm := old.normRecords, arg := BitVec.ofNat 64 old.step }).sendOverflow p
  if s.isPrefect || s.isDeputy then
    { s with form := { s.form with positions := s.form.positions ++ [(jobDev p s.self, old.step, old.dataPos, old.dataPos)] } }
  else s

/-- What is let go of the boundary before: its versions of pages, and the marks of the lines that the step wrote (R321, R322). -/
def State.boundaryReleased (s : State) (p : Nat) : State :=
  (((s.part p).satPages).foldl (fun s pg => s.releaseKeep p pg) s).markOld p

/-- The schedule record of the step that begins kept (R328). -/
def State.stepRecorded (s : State) (p : Nat) : State := s.modPart p fun part => { part with record := some (s.schedRecord p []) }

/-- The position of the step that begins sent to the Form (R302). -/
def State.positionSent (s : State) (p : Nat) : State :=
  s.sendPackets s.superiors
    { cls := 0x20, part := p, ctl := some (.position (s.rankOf p) (s.part p).step (s.part p).dataPos (s.part p).dataPos) }

/-- The new step as the boundary's satchel finds it. -/
def State.stepBegun (s : State) (p : Nat) : State :=
  ((((s.stepReported p).modPart p Part.nextStep).boundaryReleased p).stepRecorded p).positionSent p

/-- Where the boundary falls the new step begins; its satchel, a handover of the Prefect and the run's end or its next section follow (R22). -/
theorem exec_stepBoundary_of_falls {s : State} {p : Nat} (h : s.boundaryFalls p = true) :
    exec (.stepBoundary p) s = .next ((((s.stepBegun p).satchelAt p).handOver).afterBoundary p (s.part p).goesOn) :=
  congrArg Host.Outcome.next (if_neg (by simp [h]))

theorem State.stepReported_pagesOnly (p : Nat) (s : State) : State.PagesOnly p s (s.stepReported p) := by
  unfold State.stepReported
  extract_lets old u
  have hu : State.PagesOnly p s u := .trans (s.sendPackets_pagesOnly p _ _) (State.sendOverflow_pagesOnly p _)
  split
  · exact hu.trans ⟨rfl, rfl, rfl⟩
  · exact hu

theorem State.boundaryReleased_pagesOnly (p : Nat) (s : State) : State.PagesOnly p s (s.boundaryReleased p) :=
  .trans (.foldl (State.releaseKeep_pagesOnly p) _ s) (State.markOld_pagesOnly p _)

theorem State.positionSent_pagesOnly (p : Nat) (s : State) : State.PagesOnly p s (s.positionSent p) := s.sendPackets_pagesOnly p _ _

/-- But for its page table, the new step's part is what the step that ended leaves, with a schedule record. -/
theorem State.stepBegun_part (s : State) (p : Nat) : ∃ record,
    ((s.stepBegun p).part p).unpaged = { (s.part p).nextStep.unpaged with record := some record } := by
  have hreported := (s.stepReported_pagesOnly p).part
  set a := s.stepReported p
  have hreleased := ((a.modPart p Part.nextStep).boundaryReleased_pagesOnly p).part
  set b := (a.modPart p Part.nextStep).boundaryReleased p
  have hsent := ((b.stepRecorded p).positionSent_pagesOnly p).part
  rw [State.modPart_eq, State.setPart_part_self, Part.nextStep_unpaged hreported] at hreleased
  refine ⟨b.schedRecord p [], hsent.trans ?_⟩
  rw [State.stepRecorded, State.modPart_eq, State.setPart_part_self]
  exact congrArg (fun x : Part => { x with record := some (b.schedRecord p []) }) hreleased

theorem State.stepBegun_cores (s : State) (p : Nat) : (s.stepBegun p).cores = s.cores :=
  calc (s.stepBegun p).cores
    _ = (((s.stepReported p).modPart p Part.nextStep).boundaryReleased p).cores := (State.positionSent_pagesOnly p _).cores
    _ = (s.stepReported p).cores := (State.boundaryReleased_pagesOnly p _).cores
    _ = s.cores := (s.stepReported_pagesOnly p).cores

theorem State.stepBegun_power (s : State) (p : Nat) : (s.stepBegun p).power = s.power :=
  calc (s.stepBegun p).power
    _ = (((s.stepReported p).modPart p Part.nextStep).boundaryReleased p).power := (State.positionSent_pagesOnly p _).power
    _ = (s.stepReported p).power := (State.boundaryReleased_pagesOnly p _).power
    _ = s.power := (s.stepReported_pagesOnly p).power

/-! ### Samples -/

/-- A sample that is due and has its record's length is stored and counted, or waits for its slot's pages (R355). -/
theorem exec_sampleWrite_of_ready {s : State} {p : Nat} {rec : List Byte} (hready : ((s.settleIntake p).part p).intakeReady = true)
    (hlen : rec.length = ((s.settleIntake p).part p).intake.recordBytes) {u : State} {c range : Nat}
    (hwrite : let it := ((s.settleIntake p).part p).intake
      (s.settleIntake p).writeFields p (it.ringBase + it.k % it.slots * it.slotBytes) rec (it.fields.map fun x => x.toNat) = (u, c, range)) :
    exec (.sampleWrite p rec) s = .next
      (if c = stOK then u.sampleDone p range else if c = stBusy then u else (u.endJobAccess p c 0 0).stopIntake p c) := by
  show execSampleWrite p rec s = _
  simp only [execSampleWrite, hready, hlen, hwrite, beq_self_eq_true, Bool.and_self, Bool.not_true, Bool.false_eq_true, if_false]

section
variable {s : State} {p : Nat} (hconf : (s.part p).intake.configured = true) (hst : (s.part p).intake.st = 1)
include hconf hst

/-- A first failed read is tried again. -/
theorem exec_intakeDmaFailure_first (hretried : (s.part p).intake.retried = false) :
    exec (.intakeDmaFailure p false) s = .next
      ((s.modPart p fun part => { part with intake := { part.intake with retried := true } }).put
        (.hostRead (s.part p).intake.recordAddr (s.part p).intake.recordBytes)) := by
  show execIntakeDmaFailure p false s = _
  simp only [execIntakeDmaFailure, hconf, hst, hretried, beq_self_eq_true, Bool.and_self, Bool.not_true, Bool.false_eq_true, if_false]

/-- A second failed read ends the step, and the intake stops. -/
theorem exec_intakeDmaFailure_second (hretried : (s.part p).intake.retried = true) :
    exec (.intakeDmaFailure p false) s = .next ((s.endJobAccess p stDataError 0 0).stopIntake p stDataError) := by
  show execIntakeDmaFailure p false s = _
  simp only [execIntakeDmaFailure, hconf, hst, hretried, beq_self_eq_true, Bool.and_self, Bool.not_true, Bool.false_eq_true, if_false, if_true]

/-- A read that times out is not tried again. -/
theorem exec_intakeDmaFailure_timeout :
    exec (.intakeDmaFailure p true) s = .next ((s.endJobAccess p stTimeout 0 0).stopIntake p stTimeout) := by
  show execIntakeDmaFailure p true s = _
  simp only [execIntakeDmaFailure, hconf, hst, beq_self_eq_true, Bool.and_self, Bool.not_true, Bool.false_eq_true, if_false, if_true]

end

/-- Settles O35: the boundary by its parts in their order, then the samples of the intake. -/
theorem stepsAdvanceAndSamplesLand : Obligations.StepsAdvanceAndSamplesLand := by
  unfold Obligations.StepsAdvanceAndSamplesLand
  intro s p
  refine ⟨fun h => ?_, fun rec => ?_, fun hconf hst => ⟨exec_intakeDmaFailure_first hconf hst, exec_intakeDmaFailure_second hconf hst,
    exec_intakeDmaFailure_timeout hconf hst⟩⟩
  · obtain ⟨record, hpart⟩ := s.stepBegun_part p
    have field {α : Type} (g : Part → α) (hg : ∀ x : Part, g x = g x.unpaged) :
        g ((s.stepBegun p).part p) = g { (s.part p).nextStep.unpaged with record := some record } := (hg _).trans (congrArg g hpart)
    exact ⟨s.stepBegun p, exec_stepBoundary_of_falls h, field Part.step fun _ => rfl, field Part.stepsDone fun _ => rfl,
      field Part.dataPos fun _ => rfl, field Part.frozen fun _ => rfl, field Part.escalated fun _ => rfl, field Part.rungs fun _ => rfl,
      field Part.widened fun _ => rfl, field Part.clip fun _ => rfl, field Part.replay fun _ => rfl,
      field (fun x => x.record.isSome) fun _ => rfl, s.stepBegun_cores p, s.stepBegun_power p⟩
  · intro s1 it hready hlen
    refine ⟨fun u range hwrite => (exec_sampleWrite_of_ready hready hlen hwrite).trans (congrArg Host.Outcome.next (if_pos rfl)),
      fun u range hwrite => (exec_sampleWrite_of_ready hready hlen hwrite).trans (congrArg Host.Outcome.next ?_)⟩
    exact (if_neg (by decide)).trans (if_pos rfl)

end Sys2Proof.Machine
end

section
/-! PROOFS. Decoding, rounding and encoding of the floating-point formats: what an encoding reads as, what rounding to nearest gives, and
that a value read from an encoding is written back as it (R26 to R30, R40, R41, R48). -/

namespace Sys2Proof.Machine

open Sys2Proof

/-! ### Magnitudes as powers of two -/

/-- A magnitude is no greater than another whose fraction holds it at an exponent that is less by `j` at most. -/
theorem dyGt_eq_false_of_le {m n j : Nat} {e f : Int} (he : e ≤ f + j) (hm : m * 2 ^ j ≤ n) : dyGt m e n f = false := by
  have hexp : (e - min e f).toNat ≤ j + (f - min e f).toNat := by omega
  have : m * 2 ^ (e - min e f).toNat ≤ n * 2 ^ (f - min e f).toNat :=
    calc m * 2 ^ (e - min e f).toNat
        ≤ m * 2 ^ (j + (f - min e f).toNat) := Nat.mul_le_mul_left _ (Nat.pow_le_pow_right two_pos hexp)
      _ = m * 2 ^ j * 2 ^ (f - min e f).toNat := by rw [pow_add, mul_assoc]
      _ ≤ n * 2 ^ (f - min e f).toNat := Nat.mul_le_mul_right _ hm
  simpa [dyGt] using this

/-- A magnitude is no greater than one whose leading bit stands higher. -/
theorem dyGt_eq_false_of_leadExp_lt {m n : Nat} {e f : Int} (hn : n ≠ 0) (h : leadExp m e < leadExp n f) : dyGt m e n f = false := by
  unfold leadExp at h
  have hexp : m.log2 + 1 + (e - min e f).toNat ≤ n.log2 + (f - min e f).toNat := by omega
  have : m * 2 ^ (e - min e f).toNat ≤ n * 2 ^ (f - min e f).toNat :=
    calc m * 2 ^ (e - min e f).toNat
        ≤ 2 ^ (m.log2 + 1) * 2 ^ (e - min e f).toNat := Nat.mul_le_mul_right _ Nat.lt_log2_self.le
      _ = 2 ^ (m.log2 + 1 + (e - min e f).toNat) := (pow_add ..).symm
      _ ≤ 2 ^ (n.log2 + (f - min e f).toNat) := Nat.pow_le_pow_right two_pos hexp
      _ = 2 ^ n.log2 * 2 ^ (f - min e f).toNat := pow_add ..
      _ ≤ n * 2 ^ (f - min e f).toNat := Nat.mul_le_mul_right _ (Nat.log2_self_le hn)
  simpa [dyGt] using this

/-- The leading bit of a fraction with its hidden bit. -/
theorem log2_hidden {fb fr : Nat} (h : fr < 2 ^ fb) : (2 ^ fb + fr).log2 = fb := by
  rw [Nat.log2_eq_iff (by positivity)]
  exact ⟨by omega, by rw [pow_succ]; omega⟩

/-! ### Encodings and their fields -/

/-- The formats whose subnormals are flushed (R30): all of the floating-point ones but FP4-E2M1. -/
def flushing : List Nat := [0, 1, 2, 5, 6]

theorem ne_fp4_of_flushing {t : Nat} (ht : t ∈ flushing) : (t == 3) = false := by
  revert t; decide

theorem flushing_of_ne_fp4 {t : Nat} (ht : t ∈ [0, 1, 2, 3, 5, 6]) (h : t ≠ 3) : t ∈ flushing := by
  revert t; decide

/-- An encoding is its sign, its exponent field and its fraction. -/
theorem encoding_eq_fields {t n : Nat} (ht : t ∈ flushing) (hn : n < 2 ^ typeBits t) :
    n = signBit t (bit n (typeBits t - 1)) + bits n (fracBits t) (expBits t) * 2 ^ fracBits t + bits n 0 (fracBits t) := by
  have hw : ∀ t ∈ flushing, typeBits t = fracBits t + expBits t + 1 := by decide
  obtain ⟨fb, hfb⟩ : ∃ fb, fb = fracBits t := ⟨_, rfl⟩
  obtain ⟨eb, heb⟩ : ∃ eb, eb = expBits t := ⟨_, rfl⟩
  have hs : signBit t (bit n (typeBits t - 1)) = n / 2 ^ fb / 2 ^ eb * (2 ^ fb * 2 ^ eb) := by
    have hlt : n / 2 ^ (fb + eb) < 2 := by
      rw [Nat.div_lt_iff_lt_mul (by positivity)]
      calc n < 2 ^ (fb + eb + 1) := by rw [hfb, heb, ← hw t ht]; exact hn
        _ = 2 * 2 ^ (fb + eb) := by rw [pow_succ, mul_comm]
    rw [hw t ht, Nat.add_sub_cancel, ← hfb, ← heb, Nat.div_div_eq_div_mul, ← pow_add]
    rcases Nat.le_one_iff_eq_zero_or_eq_one.mp (Nat.le_of_lt_succ hlt) with h | h <;>
      simp [signBit, bit, h, hw t ht, ← hfb, ← heb]
  have hlow := Nat.div_add_mod n (2 ^ fb)
  have hhigh := Nat.div_add_mod (n / 2 ^ fb) (2 ^ eb)
  rw [hs, ← hfb, ← heb]
  simp only [bits, pow_zero, Nat.div_one]
  calc n = 2 ^ fb * (2 ^ eb * (n / 2 ^ fb / 2 ^ eb) + n / 2 ^ fb % 2 ^ eb) + n % 2 ^ fb := by rw [hhigh, hlow]
    _ = _ := by ring

/-- What an encoding of a flushed format reads as, by its fields (R26, R27, R30). -/
inductive ReadsAs (t n : Nat) : Val → Prop
  | nan : ReadsAs t n .nan
  | inf (ht : t ≠ 1) (hex : bits n (fracBits t) (expBits t) = 2 ^ expBits t - 1) (hfr : bits n 0 (fracBits t) = 0) :
      ReadsAs t n (.inf (bit n (typeBits t - 1)))
  | zero (hex : bits n (fracBits t) (expBits t) = 0) : ReadsAs t n (.fin (bit n (typeBits t - 1)) 0 0)
  | normal (hex : 0 < bits n (fracBits t) (expBits t)) (htop : t ≠ 1 → bits n (fracBits t) (expBits t) < 2 ^ expBits t - 1)
      (hmax : exceeds t (2 ^ fracBits t + bits n 0 (fracBits t)) (bits n (fracBits t) (expBits t) - bias t - fracBits t) = false) :
      ReadsAs t n (.fin (bit n (typeBits t - 1)) (2 ^ fracBits t + bits n 0 (fracBits t))
        (bits n (fracBits t) (expBits t) - bias t - fracBits t))

/-- The largest finite magnitude of a format with infinities: all ones below the highest exponent field. -/
theorem maxFinite_eq {t : Nat} (ht : t ∈ flushing) (h1 : t ≠ 1) :
    maxFinite t = (2 ^ (fracBits t + 1) - 1, (2 ^ expBits t - 2 : Nat) - bias t - fracBits t) := by
  revert t; decide

/-- Every encoding of a flushed format reads as a NaN, an infinity, a zero or a normal number within range. -/
theorem decodeFloat_readsAs {t : Nat} (ht : t ∈ flushing) (n : Nat) : ReadsAs t n (decodeFloat t n) := by
  have hfr : bits n 0 (fracBits t) < 2 ^ fracBits t := Nat.mod_lt _ (by positivity)
  have hex : bits n (fracBits t) (expBits t) < 2 ^ expBits t := Nat.mod_lt _ (by positivity)
  simp only [decodeFloat, ne_fp4_of_flushing ht, Bool.false_eq_true, if_false]
  split
  · exact .nan
  split
  · rename_i h
    simp only [Bool.and_eq_true, bne_iff_ne, beq_iff_eq] at h
    split
    · rename_i hz
      exact .inf h.1 h.2 (by simpa using hz)
    · exact .nan
  split
  · rename_i hz
    exact .zero (by simpa using hz)
  rename_i hnan htop hz
  simp only [Bool.and_eq_true, bne_iff_ne, beq_iff_eq, not_and] at hnan htop hz
  refine .normal (Nat.pos_of_ne_zero hz) (fun h1 => by have := htop h1; omega) ?_
  by_cases h1 : t = 1
  · subst h1
    have hfr7 : bits n 0 (fracBits 1) < 8 := hfr
    have hex15 : bits n (fracBits 1) (expBits 1) < 16 := hex
    by_cases h15 : bits n (fracBits 1) (expBits 1) = 15
    · have h7 := hnan ⟨rfl, h15⟩
      exact dyGt_eq_false_of_le (j := 0) (by rw [h15]; decide) (show (8 + bits n 0 (fracBits 1)) * 1 ≤ 14 by omega)
    · refine dyGt_eq_false_of_leadExp_lt (by decide) ?_
      rw [leadExp, log2_hidden hfr]
      show _ < (8 : Int)
      simp only [bias, fracBits] at h15 hex15 ⊢
      omega
  · have htop := htop h1
    rw [exceeds, maxFinite_eq ht h1]
    exact dyGt_eq_false_of_le (j := 0) (by omega) (by rw [pow_succ]; omega)

/-- An encoding with exponent field 0 reads as a zero of its sign (R30). -/
theorem decodeFloat_of_exp_zero {t n : Nat} (ht : t ∈ flushing) (h : bits n (fracBits t) (expBits t) = 0) :
    decodeFloat t n = .fin (bit n (typeBits t - 1)) 0 0 := by
  have htop : ∀ t ∈ flushing, (0 == 2 ^ expBits t - 1) = false := by decide
  simp [decodeFloat, ne_fp4_of_flushing ht, h, htop t ht]

/-! ### Rounding to nearest -/

/-- `m` over 2^sh rounded to nearest with ties to even. -/
def nearest (m sh : Nat) : Nat :=
  if decide (2 * (m % 2 ^ sh) > 2 ^ sh) || (decide (2 * (m % 2 ^ sh) = 2 ^ sh) && m / 2 ^ sh % 2 == 1) then m / 2 ^ sh + 1 else m / 2 ^ sh

/-- The nearest integer lies within half a unit, and is the even one of two. -/
theorem nearest_spec (m sh : Nat) :
    2 * m ≤ 2 * nearest m sh * 2 ^ sh + 2 ^ sh ∧ 2 * nearest m sh * 2 ^ sh ≤ 2 * m + 2 ^ sh ∧
      (2 * m = 2 * nearest m sh * 2 ^ sh + 2 ^ sh ∨ 2 * nearest m sh * 2 ^ sh = 2 * m + 2 ^ sh → nearest m sh % 2 = 0) := by
  have hpos : 0 < 2 ^ sh := by positivity
  have hlt := Nat.mod_lt m hpos
  have hdiv := Nat.div_add_mod m (2 ^ sh)
  have hdown : 2 * (m / 2 ^ sh) * 2 ^ sh = 2 * (2 ^ sh * (m / 2 ^ sh)) := by ring
  have hup : 2 * (m / 2 ^ sh + 1) * 2 ^ sh = 2 * (2 ^ sh * (m / 2 ^ sh)) + 2 * 2 ^ sh := by ring
  unfold nearest
  split <;> rename_i h <;> simp only [Bool.or_eq_true, Bool.and_eq_true, decide_eq_true_eq, beq_iff_eq, not_or, not_and] at h
  · rw [hup]; omega
  · rw [hdown]; omega

/-- A fraction that fits the precision is not rounded. -/
theorem roundTo_of_lt {p m : Nat} {e : Int} (h : m < 2 ^ p) : roundTo p m e = (m, e) := by
  have hz : (if m = 0 then 0 else m.log2 + 1) - p = 0 := by
    split
    · omega
    · have := (Nat.log2_lt ‹_›).mpr h; omega
  simp only [roundTo, hz, if_true]

/-- A longer one loses the bits below the precision, to nearest. -/
theorem roundTo_of_ge {p m : Nat} {e : Int} (h : 2 ^ p ≤ m) :
    roundTo p m e = (nearest m (m.log2 + 1 - p), e + (m.log2 + 1 - p : Nat)) := by
  have hm : m ≠ 0 := ((Nat.two_pow_pos p).trans_le h).ne'
  have hlog : p ≤ m.log2 := (Nat.le_log2 hm).mpr h
  have hsh : ¬ m.log2 + 1 - p = 0 := by omega
  simp only [roundTo, hm, if_false, hsh, nearest]

/-- A fraction rounded to a precision fits it, or is the power of two after it. -/
theorem nearest_le {p m : Nat} (h : 2 ^ p ≤ m) : nearest m (m.log2 + 1 - p) ≤ 2 ^ p := by
  have hm : m ≠ 0 := ((Nat.two_pow_pos p).trans_le h).ne'
  have hlog : p ≤ m.log2 := (Nat.le_log2 hm).mpr h
  have hq : m / 2 ^ (m.log2 + 1 - p) < 2 ^ p := by
    rw [Nat.div_lt_iff_lt_mul (by positivity), ← pow_add, show p + (m.log2 + 1 - p) = m.log2 + 1 by omega]
    exact Nat.lt_log2_self
  unfold nearest
  split <;> omega

/-- Rounding to a precision, with an unbounded exponent, to nearest with ties to even (R30, R40). -/
theorem roundTo_spec (p m : Nat) (e : Int) :
    let r := roundTo p m e
    let sh := (r.2 - e).toNat
    e ≤ r.2 ∧ r.1 ≤ 2 ^ p ∧ 2 * m ≤ 2 * r.1 * 2 ^ sh + 2 ^ sh ∧ 2 * r.1 * 2 ^ sh ≤ 2 * m + 2 ^ sh ∧
      (2 * m = 2 * r.1 * 2 ^ sh + 2 ^ sh ∨ 2 * r.1 * 2 ^ sh = 2 * m + 2 ^ sh → r.1 % 2 = 0) ∧ (m < 2 ^ p → r = (m, e)) := by
  rcases Nat.lt_or_ge m (2 ^ p) with h | h
  · have hsh : (e - e).toNat = 0 := by omega
    simp only [roundTo_of_lt h, hsh]
    exact ⟨le_rfl, h.le, by omega, by omega, by omega, fun _ => trivial⟩
  · have hsh : (e + (m.log2 + 1 - p : Nat) - e).toNat = m.log2 + 1 - p := by omega
    simp only [roundTo_of_ge h, hsh]
    obtain ⟨hlow, hhigh, htie⟩ := nearest_spec m (m.log2 + 1 - p)
    exact ⟨by omega, nearest_le h, hlow, hhigh, htie, fun hlt => absurd h (by omega)⟩

/-! ### Encoding -/

/-- A zero is written as one of its sign. -/
theorem encodeFin_zero (t : Nat) (neg : Bool) (e : Int) : encodeFin t neg 0 e = ⟨signBit t neg, false, false⟩ := rfl

/-- A magnitude below the smallest normal is written as a zero of its sign, with no flag (R30). -/
theorem encodeFin_flushed {t m : Nat} {e : Int} (ht : t ∈ flushing) (neg : Bool) (h : leadExp m e < minExp t) :
    encodeFin t neg m e = ⟨signBit t neg, false, false⟩ := by
  have hmax : ∀ t ∈ flushing, (maxFinite t).1 ≠ 0 ∧ minExp t ≤ leadExp (maxFinite t).1 (maxFinite t).2 := by decide
  have hin : exceeds t m e = false := dyGt_eq_false_of_leadExp_lt (hmax t ht).1 (by have := (hmax t ht).2; omega)
  by_cases hm : m = 0
  · rw [hm, encodeFin_zero]
  · simp [encodeFin, hm, hin, h, ne_fp4_of_flushing ht]

/-- A normal magnitude that the fraction holds is written with the exponent field `x` of its leading bit (R26). -/
theorem encodeFin_normal {t m x : Nat} {e : Int} (neg : Bool) (hm : m ≠ 0) (hin : exceeds t m e = false) (hx : 0 < x)
    (hlead : leadExp m e = x - bias t) (hfit : m.log2 ≤ fracBits t) :
    encodeFin t neg m e = ⟨signBit t neg + x * 2 ^ fracBits t + (m * 2 ^ (fracBits t - m.log2) - 2 ^ fracBits t), false, false⟩ := by
  have hlow : ¬ leadExp m e < minExp t := by unfold minExp; omega
  have hgrid : roundGrid m e (leadExp m e - fracBits t) = m * 2 ^ (fracBits t - m.log2) := by
    have hg : leadExp m e - fracBits t ≤ e := by unfold leadExp; omega
    have hk : (e - (leadExp m e - fracBits t)).toNat = fracBits t - m.log2 := by unfold leadExp; omega
    simp only [roundGrid, hg, if_true, hk]
  have hfield : (leadExp m e + bias t).toNat = x := by omega
  simp only [encodeFin, hm, if_false, hin, Bool.false_eq_true, hlow, hgrid, hfield]

/-- A value read from a normal encoding is written as that encoding. -/
theorem encodeFin_fields {t n : Nat} (ht : t ∈ flushing) (hn : n < 2 ^ typeBits t) (hex : 0 < bits n (fracBits t) (expBits t))
    (hmax : exceeds t (2 ^ fracBits t + bits n 0 (fracBits t)) (bits n (fracBits t) (expBits t) - bias t - fracBits t) = false) :
    (encodeFin t (bit n (typeBits t - 1)) (2 ^ fracBits t + bits n 0 (fracBits t))
      (bits n (fracBits t) (expBits t) - bias t - fracBits t)).bits = n := by
  have hlog := log2_hidden (fb := fracBits t) (fr := bits n 0 (fracBits t)) (Nat.mod_lt _ (by positivity))
  rw [encodeFin_normal _ (by positivity) hmax hex (by rw [leadExp, hlog]; omega) hlog.le, hlog, Nat.sub_self, pow_zero, mul_one,
    Nat.add_sub_cancel_left]
  exact (encoding_eq_fields ht hn).symm

/-- An infinity read from an encoding is written as it. -/
theorem infBits_fields {t n : Nat} (ht : t ∈ flushing) (h1 : t ≠ 1) (hn : n < 2 ^ typeBits t)
    (hex : bits n (fracBits t) (expBits t) = 2 ^ expBits t - 1) (hfr : bits n 0 (fracBits t) = 0) :
    infBits t (bit n (typeBits t - 1)) = n := by
  have hinf : ∀ t ∈ flushing, t ≠ 1 → ∀ neg, infBits t neg = signBit t neg + (2 ^ expBits t - 1) * 2 ^ fracBits t := by decide
  conv_rhs => rw [encoding_eq_fields ht hn, hex, hfr]
  rw [hinf t ht h1]
  rfl

/-- A fraction that fits the format is encoded as it is. -/
theorem convert_of_lt {t m : Nat} {e : Int} (ht : t ∈ flushing) (neg : Bool) (h : m < 2 ^ (fracBits t + 1)) :
    convert t (.fin neg m e) = encodeFin t neg m e := by
  simp only [convert, roundFin, ne_fp4_of_flushing ht, Bool.false_eq_true, if_false, roundTo_of_lt h]

/-- Converting a value read from an encoding, but for a NaN and a flushed subnormal, gives the encoding. -/
theorem convert_decodeFloat {t n : Nat} (ht : t ∈ flushing) (hn : n < 2 ^ typeBits t) (hnan : decodeFloat t n ≠ .nan)
    (hkept : bits n (fracBits t) (expBits t) ≠ 0 ∨ bits n 0 (fracBits t) = 0) : (convert t (decodeFloat t n)).bits = n := by
  have hread := decodeFloat_readsAs ht n
  generalize decodeFloat t n = v at hread hnan
  cases hread with
  | nan => exact absurd rfl hnan
  | inf h1 hex hfr => exact infBits_fields ht h1 hn hex hfr
  | zero hex =>
    have hfr := hkept.resolve_left (not_not_intro hex)
    rw [convert_of_lt ht _ (by positivity), encodeFin_zero]
    simpa [hex, hfr] using (encoding_eq_fields ht hn).symm
  | normal hex _ hmax =>
    have hfr : bits n 0 (fracBits t) < 2 ^ fracBits t := Nat.mod_lt _ (by positivity)
    rw [convert_of_lt ht _ (by rw [pow_succ]; omega)]
    exact encodeFin_fields ht hn hex hmax

/-- The sixteen encodings of FP4-E2M1, which has neither flushed subnormals nor infinities (R29, R32). -/
theorem convert_decodeFloat_fp4 : ∀ n < 16, (convert 3 (decodeFloat 3 n)).bits = n := by decide

/-- FP32 to W48 is exact: the fraction and the sign move up by 16 bits. -/
theorem convert_w48_decodeFloat_fp32 {n : Nat} (hn : n < 2 ^ 32) (hex : bits n 23 8 ≠ 0) (hnan : decodeFloat 5 n ≠ .nan) :
    (convert 6 (decodeFloat 5 n)).bits = n * 2 ^ 16 := by
  have hfields : n = signBit 5 (bit n 31) + bits n 23 8 * 2 ^ 23 + bits n 0 23 := encoding_eq_fields (by decide) hn
  have hsign : ∀ neg, signBit 6 neg = signBit 5 neg * 2 ^ 16 := by decide
  have hread := decodeFloat_readsAs (t := 5) (by decide) n
  generalize decodeFloat 5 n = v at hread hnan
  cases hread with
  | nan => exact absurd rfl hnan
  | inf _ hall hfr =>
    have hall : bits n 23 8 = 255 := hall
    have hfr : bits n 0 23 = 0 := hfr
    show signBit 6 (bit n 31) + 0x7F8000000000 = n * 2 ^ 16
    rw [hsign]; omega
  | zero hz => exact absurd hz hex
  | normal _ htop _ =>
    have hfr : bits n 0 23 < 2 ^ 23 := Nat.mod_lt _ (by positivity)
    have hx : bits n 23 8 < 255 := htop (by decide)
    have hlog := log2_hidden hfr
    show (convert 6 (.fin (bit n 31) (2 ^ 23 + bits n 0 23) (bits n 23 8 - 127 - (23 : Nat)))).bits = n * 2 ^ 16
    have hin : exceeds 6 (2 ^ 23 + bits n 0 23) (bits n 23 8 - 127 - (23 : Nat)) = false :=
      dyGt_eq_false_of_le (j := 16) (f := 88) (by omega) (show _ ≤ 2 ^ 40 - 1 by omega)
    rw [convert_of_lt (by decide) _ (show _ < 2 ^ 40 by omega),
      encodeFin_normal (x := bits n 23 8) _ (by omega) hin (by omega) (by rw [leadExp, hlog]; show _ = _ - (127 : Int); omega)
        (by rw [hlog]; decide), hlog, hsign]
    show _ + bits n 23 8 * 2 ^ 39 + ((2 ^ 23 + bits n 0 23) * 2 ^ 16 - 2 ^ 39) = _
    omega

/-- Settles O58: by the reading of each encoding, the encoding of each reading, and rounding to nearest between them. -/
theorem subnormalsFlushAndFormatsRoundTrip : Obligations.SubnormalsFlushAndFormatsRoundTrip := by
  unfold Obligations.SubnormalsFlushAndFormatsRoundTrip
  refine ⟨fun t (ht : t ∈ flushing) => ⟨fun n hex => decodeFloat_of_exp_zero ht hex, fun neg m e _ => ⟨roundTo_spec _ m e, fun hlow => ?_⟩⟩,
    fun t ht n hn => ⟨fun hnan => by rw [hnan]; rfl, fun hnan hkept => ?_⟩, fun n hn hex hnan => convert_w48_decodeFloat_fp32 hn hex hnan⟩
  · simp only [convert, roundFin, ne_fp4_of_flushing ht, Bool.false_eq_true, if_false]
    exact encodeFin_flushed ht neg hlow
  · by_cases h3 : t = 3
    · subst h3
      exact convert_decodeFloat_fp4 n hn
    · exact convert_decodeFloat (flushing_of_ne_fp4 ht h3) hn hnan (hkept.resolve_left h3)

/-! ### Stochastic rounding (R48) -/

/-- The exponent of the grid on which a magnitude within range is rounded: that of its binade, and that of the subnormals in FP4-E2M1. -/
def binadeGrid (t m : Nat) (e : Int) : Int := (if t = 3 then max (leadExp m e) 0 else leadExp m e) - fracBits t

/-- The exponent of the grid of the largest finite value. -/
def topGrid (t : Nat) : Int := leadExp (maxFinite t).1 (maxFinite t).2 - fracBits t

/-- One unit above the largest finite value, in units of its grid: `hi` of R48. -/
def hiUnit (t : Nat) : Nat := roundGrid (maxFinite t).1 (maxFinite t).2 (topGrid t) + 1

/-- A magnitude within range that its grid holds is encoded as it is, whatever the draw. -/
theorem stochastic_of_grid_le {t m : Nat} {e : Int} (r : Nat) (neg : Bool) (hm : m ≠ 0) (hin : exceeds t m e = false)
    (hg : binadeGrid t m e ≤ e) :
    stochastic t r (.fin neg m e) = encodeFin t neg (m * 2 ^ (e - binadeGrid t m e).toNat) (binadeGrid t m e) := by
  unfold binadeGrid at *
  simp only [stochastic, hm, if_false, hin, Bool.false_eq_true, beq_iff_eq, hg, if_true]

/-- A magnitude within range between two units of its grid takes the upper one where the draw is below its fraction of 65,536, and the lower
one otherwise. -/
theorem stochastic_between {t m : Nat} {e : Int} (r : Nat) (neg : Bool) (hm : m ≠ 0) (hin : exceeds t m e = false)
    (hg : e < binadeGrid t m e) (hrest : m % 2 ^ (binadeGrid t m e - e).toNat ≠ 0) :
    let sh := (binadeGrid t m e - e).toNat
    stochastic t r (.fin neg m e) =
      encodeFin t neg (if r < m % 2 ^ sh * 65536 / 2 ^ sh then m / 2 ^ sh + 1 else m / 2 ^ sh) (binadeGrid t m e) := by
  unfold binadeGrid at *
  simp only [stochastic, hm, if_false, hin, Bool.false_eq_true, beq_iff_eq, Bool.false_and, not_le.mpr hg, hrest]

/-- The units around a magnitude that is no multiple of its grid, and its fraction of 65,536. -/
theorem between_units {m sh : Nat} (h : m % 2 ^ sh ≠ 0) :
    m / 2 ^ sh * 2 ^ sh < m ∧ m < (m / 2 ^ sh + 1) * 2 ^ sh ∧ m % 2 ^ sh * 65536 / 2 ^ sh < 65536 := by
  have hpos : 0 < 2 ^ sh := by positivity
  have hlt := Nat.mod_lt m hpos
  have hdiv := Nat.div_add_mod' m (2 ^ sh)
  refine ⟨by omega, by rw [add_mul]; omega, ?_⟩
  rw [Nat.div_lt_iff_lt_mul hpos, mul_comm]
  exact Nat.mul_lt_mul_of_pos_left hlt (by decide)

/-- A magnitude out of range that is not below `hi` becomes `hi`, whatever the draw. -/
theorem stochastic_of_hi_le {t m : Nat} {e : Int} (r : Nat) (neg : Bool) (hm : m ≠ 0) (hout : exceeds t m e = true)
    (hhi : dyGt (hiUnit t) (topGrid t) m e = false) : stochastic t r (.fin neg m e) = encodeFin t neg (hiUnit t) (topGrid t) := by
  have hle : hiUnit t * 2 ^ (topGrid t - min (topGrid t) e).toNat ≤ m * 2 ^ (e - min (topGrid t) e).toNat := by simpa [dyGt] using hhi
  unfold hiUnit topGrid at *
  simp only [stochastic, hm, if_false, hout, if_true, Bool.true_and, decide_eq_true_eq]
  split
  · rename_i hg
    have htop : (roundGrid (maxFinite t).1 (maxFinite t).2 (leadExp (maxFinite t).1 (maxFinite t).2 - fracBits t) + 1) ≤
        m * 2 ^ (e - (leadExp (maxFinite t).1 (maxFinite t).2 - fracBits t)).toNat := by simpa [min_eq_left hg] using hle
    rw [if_pos htop]
  · rename_i hg
    have htop : (roundGrid (maxFinite t).1 (maxFinite t).2 (leadExp (maxFinite t).1 (maxFinite t).2 - fracBits t) + 1) ≤
        m / 2 ^ (leadExp (maxFinite t).1 (maxFinite t).2 - fracBits t - e).toNat :=
      (Nat.le_div_iff_mul_le (by positivity)).mpr (by simpa [min_eq_right (not_le.mp hg).le] using hle)
    rw [if_pos htop, min_eq_right htop]
    exact ite_self _

/-- An encoding that is neither special nor flushed rounds to itself, whatever the draw. -/
theorem stochastic_decodeFloat {t n : Nat} (ht : t ∈ flushing) (hn : n < 2 ^ typeBits t) (r : Nat)
    (hfin : ∃ neg m e, decodeFloat t n = .fin neg m e)
    (hkept : bits n (fracBits t) (expBits t) ≠ 0 ∨ bits n 0 (fracBits t) = 0) : (stochastic t r (decodeFloat t n)).bits = n := by
  obtain ⟨neg, m, e, hv⟩ := hfin
  have hread := decodeFloat_readsAs ht n
  rw [hv] at hread ⊢
  cases hread with
  | zero hex =>
    have hfr := hkept.resolve_left (not_not_intro hex)
    show signBit t (bit n (typeBits t - 1)) = n
    simpa [hex, hfr] using (encoding_eq_fields ht hn).symm
  | normal hex _ hmax =>
    have hlog := log2_hidden (fb := fracBits t) (fr := bits n 0 (fracBits t)) (Nat.mod_lt _ (by positivity))
    have hgrid : binadeGrid t (2 ^ fracBits t + bits n 0 (fracBits t)) (bits n (fracBits t) (expBits t) - bias t - fracBits t)
        = bits n (fracBits t) (expBits t) - bias t - fracBits t := by
      rw [binadeGrid, if_neg (by simpa using ne_fp4_of_flushing ht), leadExp, hlog]
      omega
    rw [stochastic_of_grid_le r _ (by positivity) hmax hgrid.le, hgrid, Int.sub_self, Int.toNat_zero, pow_zero, mul_one]
    exact encodeFin_fields ht hn hex hmax

/-- So do the sixteen encodings of FP4-E2M1. -/
theorem stochastic_decodeFloat_fp4 (r : Nat) : ∀ n < 16, (stochastic 3 r (decodeFloat 3 n)).bits = n := by
  intro n hn
  interval_cases n <;> rfl

/-- Settles O59: an encoding's value lies on its own grid, a value between two units takes one of them, and one past `hi` takes `hi`. -/
theorem stochasticRounding : Obligations.StochasticRounding := by
  unfold Obligations.StochasticRounding
  intro t ht
  refine ⟨fun n hn hfin hkept r => ?_, fun neg m e hm => ⟨?_, ?_⟩⟩
  · by_cases h3 : t = 3
    · subst h3
      exact stochastic_decodeFloat_fp4 r n hn
    · exact stochastic_decodeFloat (flushing_of_ne_fp4 ht h3) hn r hfin (hkept.resolve_left h3)
  · intro hin g sh lo f hg hrest
    obtain ⟨hlow, hhigh, hf⟩ := between_units hrest
    exact ⟨hlow, hhigh, hf, fun r => stochastic_between r neg hm.ne' hin hg hrest⟩
  · exact fun hout hhi r => stochastic_of_hi_le r neg hm.ne' hout hhi

end Sys2Proof.Machine
end

section
/-! PROOFS. A cube-class operation over one block: the words of the virtual accumulator that it leaves, and the block's record (R37, R44 to
R46, R113). -/

namespace Sys2Proof.Machine

open Sys2Proof

/-! ### Accumulator words and block records -/

@[simp] theorem Core.engine_setEngine_self (core : Core) (e : Nat) (x : Engine) : (core.setEngine e x).engine e = x :=
  tget_tset_self (α := Engine) {} core.engines e x

/-- A word set is the word read, modulo its 32 bits. -/
@[simp] theorem Core.accAt_setAcc_self (core : Core) (e w v : Nat) : (core.setAcc e w v).accAt e w = v % 2 ^ 32 := by
  simp [Core.accAt, Core.setAcc, tget_tset_self]

/-- A word set leaves the engine's other words. -/
theorem Core.accAt_setAcc_ne (core : Core) (e v : Nat) {w u : Nat} (h : u ≠ w) : (core.setAcc e w v).accAt e u = core.accAt e u := by
  simp [Core.accAt, Core.setAcc, tget_tset_ne _ _ _ _ _ h]

/-- A block's record leaves the words. -/
@[simp] theorem Core.accAt_setBlock (core : Core) (e b : Nat) (r : Option Block8) (w : Nat) :
    (core.setBlock e b r).accAt e w = core.accAt e w := by
  simp [Core.accAt, Core.setBlock]

/-- A block's record set is the record read. -/
@[simp] theorem Core.block_setBlock_self (core : Core) (e b : Nat) (r : Option Block8) : (core.setBlock e b r).block e b = r := by
  simp [Core.block, Core.setBlock, tget_tset_self]

/-- Of a list of words set one after the other, a word that is listed with one value alone holds that value. -/
theorem Core.accAt_setAccs {e w v : Nat} {l : List (Nat × Nat × Bool × Bool)} (core : Core) (hmem : ∃ x ∈ l, x.1 = w)
    (hval : ∀ x ∈ l, x.1 = w → x.2.1 = v) : (l.foldl (fun c x => c.setAcc e x.1 x.2.1) core).accAt e w = v % 2 ^ 32 := by
  induction l using List.reverseRecOn with
  | nil => obtain ⟨x, hx, _⟩ := hmem; exact absurd hx List.not_mem_nil
  | append_singleton l y ih =>
    rw [List.foldl_concat]
    by_cases hy : w = y.1
    · rw [hy, Core.accAt_setAcc_self, hval y (by simp) hy.symm]
    · rw [Core.accAt_setAcc_ne _ _ _ hy]
      obtain ⟨x, hx, hw⟩ := hmem
      have hx : x ∈ l := (List.mem_append.mp hx).resolve_right fun h => hy (by rw [← hw, List.mem_singleton.mp h])
      exact ih ⟨x, hx, hw⟩ fun z hz => hval z (List.mem_append_left _ hz)

/-! ### The words of one block -/

/-- The words of a block are told apart by row and column. -/
theorem blockWord_inj {b r c r' c' : Nat} (hr : r < 8) (hc : c < 8) (hr' : r' < 8) (hc' : c' < 8)
    (h : blockWord b r c = blockWord b r' c') : r = r' ∧ c = c' := by
  unfold blockWord at h
  omega

section
variable (i : Issue) (core : Core) (acc : Bool) (fb : Option Nat) (split : Bool) (a b : List (List Elem)) (blk : Nat × Nat × Nat × Nat)

/-- The accumulated sum of element (r, c) of a block: from the accumulator where the operation accumulates and the block is live, from zero
otherwise (R44 to R46, R113). -/
def Issue.cubeSum (r c : Nat) : Nat × Bool × Bool :=
  accSteps fb (chunks8 (opK i.n) (((a.getD (8 * blk.2.2.1 + r) []).zip (b.getD (8 * blk.2.2.2 + c) [])).map fun p => productTerms split p.1 p.2))
    (if acc && (core.block blk.1 blk.2.1).isSome then core.accAt blk.1 (blockWord blk.2.1 r c) else 0)

/-- What a cube-class operation sets in a block: for each element, its word and its sum. -/
theorem mem_cubeBlock {x : Nat × Nat × Bool × Bool} : x ∈ i.cubeBlock core acc fb split a b blk ↔
    ∃ r < 8, ∃ c < 8, x = (blockWord blk.2.1 r c, i.cubeSum core acc fb split a b blk r c) := by
  simp only [Issue.cubeBlock, Issue.cubeSum, List.mem_flatMap, List.mem_map, mem_upFrom, Nat.zero_le, true_and, Nat.zero_add, eq_comm]

/-- The words of a block once set are the sums. -/
theorem accAt_cubeBlock {r c : Nat} (hr : r < 8) (hc : c < 8) :
    ((i.cubeBlock core acc fb split a b blk).foldl (fun k x => k.setAcc blk.1 x.1 x.2.1) core).accAt blk.1 (blockWord blk.2.1 r c) =
      (i.cubeSum core acc fb split a b blk r c).1 % 2 ^ 32 := by
  refine Core.accAt_setAccs core ⟨_, (mem_cubeBlock ..).mpr ⟨r, hr, c, hc, rfl⟩, rfl⟩ fun x hx hw => ?_
  obtain ⟨r', hr', c', hc', rfl⟩ := (mem_cubeBlock ..).mp hx
  obtain ⟨rfl, rfl⟩ := blockWord_inj hr' hc' hr hc hw
  rfl

end

/-! ### One engine, one block -/

/-- The region of an 8 × 8 operation of one engine is one block. -/
theorem region_of_one {i : Issue} {e0 : Nat} (he : opEngines i.n = [e0]) (hm : opM i.n = 8) (hn : opN i.n = 8) :
    i.region = [(e0, opAcc i.n * 8, 0, 0)] := by
  simp [Issue.region, he, hm, hn, upFrom]

/-- Over one block a cube-class operation sets the block's words and then its record. -/
theorem cubeEff_core_of_one {i : Issue} {blk : Nat × Nat × Nat × Nat} (acc : Bool) (core : Core) (h : i.region = [blk]) :
    let pair := widenPair i.ownPair (core.typeAt i.view i.tileA) (core.typeAt i.view i.tileB)
    let split := pair.1 == 8
    ∃ old, (cubeEff acc false i core).core =
      ((i.cubeBlock core acc (pairFrac pair.1 pair.2) split (i.matA split) (i.matB split) blk).foldl (fun k x => k.setAcc blk.1 x.1 x.2.1)
        core).setBlock blk.1 blk.2.1 (some (i.cubeRecord false old)) := by
  simp only [cubeEff, h, Bool.false_and, Bool.false_eq_true, if_false, List.map_cons, List.map_nil, List.foldl_cons, List.foldl_nil]
  exact ⟨_, rfl⟩

/-- An operation whose engines accept it and hold its slot has its effect (R109, R114). -/
theorem onEngines_eff {i : Issue} {port : Bool} {core : Core} (f : Core → Eff) (hroom : i.core.enginesAccept (opEngines i.n) port = true)
    (hslot : i.core.needSlots (opAcc i.n / 8) (opEngines i.n) = some core) : i.onEngines port f = .eff (f core) := by
  simp [Issue.onEngines, hroom, hslot]

/-- Settles O13: the block's words are the sums of the operands' products, and its record is the operation's. -/
theorem matrixProductIsExactSum : Obligations.MatrixProductIsExactSum := by
  unfold Obligations.MatrixProductIsExactSum
  intro s c q i core e0 acc _ he hm hn hroom hslot blk pair split sum
  have hregion := region_of_one he hm hn
  obtain ⟨old, hcore⟩ := cubeEff_core_of_one acc core hregion
  refine ⟨cubeEff acc false i core, onEngines_eff _ (he ▸ hroom) (he ▸ hslot), hregion, fun r k hr hk => ?_, i.cubeRecord false old, ?_,
    rfl, rfl, rfl, rfl⟩
  · rw [hcore, Core.accAt_setBlock, accAt_cubeBlock (blk := (e0, opAcc i.n * 8, 0, 0)) (hr := hr) (hc := hk)]
    simp only [Issue.cubeSum, Nat.mul_zero, Nat.zero_add]
    rfl
  · rw [hcore]
    exact Core.block_setBlock_self ..

end Sys2Proof.Machine
end

section
/-! PROOFS. The vector unit's conversions, long sums, draws and payloads: what each writes, and that it waits for nothing but room in its unit
where it feeds no tap (R48, R49, R129, R138, R139, R143, R145, R154, R261, R453). -/

namespace Sys2Proof.Machine

open Sys2Proof

/-! ### What an operation of the vector unit leaves -/

/-- An operation that is ready lands as its command runs. -/
theorem Ready.lands {s : State} {c : Nat} {q : Stream} {op : Nat} {f : Issue → Try} {i : Issue} {e : Eff} (h : Ready s c q op f i e) :
    Landed s (s.runOp c q op f) i e := runOp_lands h.next h.effect h.issues

/-- The taps keep the store. -/
theorem feedTaps_sameStore {i : Issue} {core : Core} {fs : List TapFeed} {x : Core × List (Nat × Nat)} (h : i.feedTaps core fs = some x) :
    SameStore x.1 core := by
  unfold Issue.feedTaps at h
  split at h
  · cases h; exact ⟨rfl, rfl, rfl⟩
  · dsimp only at h
    split at h
    · split at h
      · cases h; exact ⟨rfl, rfl, rfl⟩
      · cases h
    · split at h <;> (cases h; exact ⟨rfl, rfl, rfl⟩)

/-- An effect of the vector unit is the operation's on a core whose taps alone have changed, with the taps' flags added. -/
theorem onVector_eff {i : Issue} {fs : List TapFeed} {f : Core → Eff} {e : Eff} (h : i.onVector fs f = .eff e) :
    ∃ core flags, SameStore core i.core ∧ e = { f core with flags := addFlags (f core).flags flags } := by
  unfold Issue.onVector at h
  split at h
  · cases h
  · split at h
    · cases h
    · rename_i x hx
      cases h
      exact ⟨x.1, x.2, feedTaps_sameStore hx, rfl⟩

/-- An operation that feeds no tap has an effect where the unit has room (R129). -/
theorem onVector_accepts {i : Issue} (f : Core → Eff) (h : i.core.vecUnit.length < 2) : ∃ e, i.onVector [] f = .eff e := by
  simp [Issue.onVector, not_le.mpr h, Issue.feedTaps]

section
variable {i : Issue} {enc : List (List (Nat × Bool × Bool))} {more : List Wr} {flags : List (Nat × Nat)} {reads : List (Nat × Nat)}

/-- The encodings are written to Z, with what more the operation writes. -/
theorem vecTry_writes {e : Eff} (h : vecTry i enc more flags reads = .eff e) :
    e.writes = i.zWrites (enc.map fun r => r.map Prod.fst) ++ more ∧ SameStore e.core i.core := by
  unfold vecTry at h
  obtain ⟨core, fl, hcore, rfl⟩ := onVector_eff h
  exact ⟨rfl, hcore⟩

theorem vecTry_accepts (htap : opTap i.n = 0) (h : i.core.vecUnit.length < 2) : ∃ e, vecTry i enc more flags reads = .eff e := by
  unfold vecTry
  dsimp only
  rw [if_pos htap]
  exact onVector_accepts _ h

end

/-! ### The operation with its tap field cleared (R261) -/

/-- An operation of another word finds the same core and task. -/
theorem Issue.withWord_fields (i : Issue) (n : Nat) :
    ({ i with n := n } : Issue).core = i.core ∧ ({ i with n := n } : Issue).q = i.q ∧ ({ i with n := n } : Issue).task = i.task ∧
      ({ i with n := n } : Issue).part = i.part := ⟨rfl, rfl, rfl, rfl⟩

theorem noTap_fields (i : Issue) : i.noTap.core = i.core ∧ i.noTap.q = i.q ∧ i.noTap.task = i.task ∧ i.noTap.part = i.part :=
  i.withWord_fields _

theorem noTap_n (i : Issue) : i.noTap.n = i.n - i.n / 2 ^ 46 % 2 ^ 2 * 2 ^ 46 := by
  simp only [Issue.noTap, bits]

/-- Clearing TAP leaves every field that does not overlap it. -/
theorem bits_noTap (i : Issue) {lo w : Nat} (h : lo + w ≤ 46 ∨ 48 ≤ lo) : bits i.noTap.n lo w = bits i.n lo w := by
  have hn := noTap_n i
  unfold bits
  rcases h with h | h
  · have hlow : i.noTap.n % 2 ^ 46 = i.n % 2 ^ 46 := by omega
    have hdvd : 2 ^ lo * 2 ^ w ∣ 2 ^ 46 := by rw [← pow_add]; exact pow_dvd_pow 2 h
    rw [← Nat.mod_mul_right_div_self, ← Nat.mod_mul_right_div_self, ← Nat.mod_mod_of_dvd i.noTap.n hdvd, hlow, Nat.mod_mod_of_dvd _ hdvd]
  · have hhigh : i.noTap.n / 2 ^ 48 = i.n / 2 ^ 48 := by omega
    obtain ⟨k, rfl⟩ := Nat.exists_eq_add_of_le h
    rw [pow_add, ← Nat.div_div_eq_div_mul, ← Nat.div_div_eq_div_mul, hhigh]

theorem opTap_noTap (i : Issue) : opTap i.noTap.n = 0 := by
  have hn := noTap_n i
  unfold opTap bits
  omega

/-- Nor does it change where and how Z is written. -/
theorem zWrites_noTap (i : Issue) (vals : List (List Nat)) : i.noTap.zWrites vals = i.zWrites vals := by
  have hlinear : opLinear i.noTap.n = opLinear i.n := by
    have hbit := bits_noTap i (lo := 50) (w := 1) (by decide)
    simp only [bits, pow_one] at hbit
    rw [opLinear, opLinear, bit, bit, hbit]
  have hlen : opLen i.noTap.n = opLen i.n := congrArg (· + 1) (bits_noTap i (by decide))
  have hz : opZType i.noTap.n = opZType i.n := bits_noTap i (by decide)
  have hlayer : opLayer i.noTap.n = opLayer i.n := bits_noTap i (by decide)
  have hc : opC i.noTap.n = opC i.n := bits_noTap i (by decide)
  have hctx : opCtx i.noTap.n = opCtx i.n := bits_noTap i (by decide)
  obtain ⟨hcore, hq, htask, hpart⟩ := noTap_fields i
  have haddr : i.noTap.addrZ = i.addrZ := by rw [Issue.addrZ, Issue.addrZ, Issue.ctx, Issue.ctx, hc, hctx, hcore, hq, htask]
  have htype : i.noTap.zType = i.zType := by rw [Issue.zType, Issue.zType, Issue.rung, Issue.rung, hz, hlayer, hpart]
  simp only [Issue.zWrites, hlinear, hlen, haddr, htype]

/-! ### The five operations -/

section
variable {i : Issue} {e : Eff}

/-- A frozen layer's U task fills Z with one encoding. -/
theorem frozen_writes {n : Nat} (h : vecTry i.noTap (i.fill n) [] [] [] = .eff e) :
    e.writes = i.zWrites ((i.fill n).map fun r => r.map Prod.fst) ∧ SameStore e.core i.core := by
  obtain ⟨hw, hs⟩ := vecTry_writes h
  rw [(noTap_fields i).1] at hs
  exact ⟨by rw [hw, List.append_nil, zWrites_noTap], hs⟩

/-- It feeds no tap, whatever its tap field names. -/
theorem frozen_accepts {n : Nat} (h : i.core.vecUnit.length < 2) : ∃ e, vecTry i.noTap (i.fill n) [] [] [] = .eff e :=
  vecTry_accepts (opTap_noTap i) (by rw [(noTap_fields i).1]; exact h)

/-- VCVT: the fill of a frozen layer, or the conversions of X, with the block scales computed where Z is scaled. -/
theorem vecCvt_writes (he : vecCvt i = .eff e) :
    let h := i.scaleHead (ctxScale i.ctx)
    let arr := scaleArrays (ctxScale i.ctx) (if scaledType (opXType i.n) then scaleSize (bit h 122) (opRows i.n) (opLen i.n) else 0) 0
    e.writes = (if i.frozenU then i.zWrites ((i.fill (if i.zType == 4 then unsignedOf 8 (headZero h 2) else 0)).map fun r => r.map Prod.fst)
      else if scaledType i.zType then
        i.zWrites ((cvtScaled i h arr.2.2 (cvtInput i h arr.1)).1.map fun r => r.map Prod.fst) ++ (cvtScaled i h arr.2.2 (cvtInput i h arr.1)).2.1
      else i.zWrites ((cvtPlain i (cvtInput i h arr.1)).map fun r => r.map Prod.fst)) ∧ SameStore e.core i.core := by
  intro h arr
  unfold vecCvt at he
  by_cases hf : i.frozenU = true
  · rw [if_pos hf] at he ⊢
    exact frozen_writes he
  rw [if_neg hf] at he ⊢
  by_cases hs : scaledType i.zType = true
  · rw [if_pos hs] at he ⊢
    exact vecTry_writes he
  · rw [if_neg hs] at he ⊢
    obtain ⟨hw, hcore⟩ := vecTry_writes he
    exact ⟨hw.trans (List.append_nil _), hcore⟩

/-- VADD_LS: the fill of a frozen layer, or the sums rounded under their draws. -/
theorem vecAddLs_writes (he : vecAddLs i = .eff e) :
    let x := i.rows i.addrX (opXType i.n)
    e.writes = (if i.frozenU then i.zWrites ((i.fill 0).map fun r => r.map Prod.fst)
      else i.zWrites (((x.zip (i.rows i.addrZ 5)).zip (upFrom 0 x.length)).map fun r => ((r.1.1.zip r.1.2).zip (upFrom 0 r.1.1.length)).map
        fun y => (stochastic 5 (roundDraw i.part.roundKey.toNat i.part.position (opLayer i.n) (bits (i.record 1) 0 1) 0
          (ctxAddend i.ctx i.task.passes) (i.elemIndex r.2 y.2)) (y.1.2.v.add y.1.1.v)).bits)) ∧ SameStore e.core i.core := by
  intro x
  unfold vecAddLs at he
  by_cases hf : i.frozenU = true
  · rw [if_pos hf] at he ⊢
    exact frozen_writes he
  · rw [if_neg hf] at he ⊢
    obtain ⟨hw, hcore⟩ := vecTry_writes he
    exact ⟨by rw [hw, List.append_nil]; simp only [List.map_map, Function.comp_def]; rfl, hcore⟩

/-- VRAND: the draws as fractions of 2^24. -/
theorem vecRand_writes (he : vecRand i = .eff e) :
    e.writes = i.zWrites ((upFrom 0 (opRows i.n)).map fun r => (upFrom 0 (opLen i.n)).map fun k =>
      (vecStore i.zType (.fin false (i.draw r k / 256) (-24))).1) ∧ SameStore e.core i.core := by
  obtain ⟨hw, hcore⟩ := vecTry_writes he
  exact ⟨by rw [hw, List.append_nil]; simp only [List.map_map, Function.comp_def], hcore⟩

/-- VDROP: X kept and scaled, or dropped, by the draws. -/
theorem vecDrop_writes (he : vecDrop i = .eff e) :
    let x := i.rows i.addrX (opXType i.n)
    e.writes = i.zWrites ((x.zip (upFrom 0 x.length)).map fun p => (p.1.zip (upFrom 0 p.1.length)).map fun y =>
      (vecStore i.zType (if i.draw p.2 y.2 ≥ bits (i.record 8) 0 32 then y.1.v.mul (decodeFloat 5 (bits (i.record 8) 32 32))
        else dropZero y.1.v)).1) ∧ SameStore e.core i.core := by
  obtain ⟨hw, hcore⟩ := vecTry_writes he
  exact ⟨by rw [hw, List.append_nil]; simp only [List.map_map, Function.comp_def], hcore⟩

/-- VPUT: the low bytes of the payload held from the queue, where one is held. -/
theorem vecPut_writes (he : vecPut i = .eff e) :
    e.writes = (match i.payload (opB i.n % 16) with
      | none => []
      | some p => [(i.addrZ * 128 + 8 * (opA i.n % 16), 8 * opLen i.n, p.toNat % 2 ^ (8 * opLen i.n))]) ∧ SameStore e.core i.core := by
  unfold vecPut at he
  obtain ⟨core, fl, hcore, rfl⟩ := onVector_eff he
  exact ⟨rfl, hcore⟩

/-- VCVT feeds no tap where its field names none, and of a frozen layer. -/
theorem vecCvt_accepts (htap : opTap i.n = 0) (h : i.core.vecUnit.length < 2) : ∃ e, vecCvt i = .eff e := by
  unfold vecCvt
  dsimp only
  split
  · exact frozen_accepts h
  · split <;> exact vecTry_accepts htap h

theorem vecAddLs_accepts (htap : opTap i.n = 0) (h : i.core.vecUnit.length < 2) : ∃ e, vecAddLs i = .eff e := by
  unfold vecAddLs
  dsimp only
  split
  · exact frozen_accepts h
  · exact vecTry_accepts htap h

end

/-- Settles O16, one operation at a time. -/
theorem vectorSpecialsLand : Obligations.VectorSpecialsLand := by
  unfold Obligations.VectorSpecialsLand
  intro s c q i e writes z h arr x
  exact ⟨fun hr => ⟨_, rfl, hr.lands, vecCvt_writes hr.effect⟩, fun hr => ⟨_, rfl, hr.lands, vecAddLs_writes hr.effect⟩,
    fun hr => ⟨_, rfl, hr.lands, vecRand_writes hr.effect⟩, fun hr => ⟨_, rfl, hr.lands, vecDrop_writes hr.effect⟩,
    fun hr => ⟨_, rfl, hr.lands, vecPut_writes hr.effect⟩,
    fun hroom htap => ⟨vecCvt_accepts htap hroom, vecAddLs_accepts htap hroom, vecTry_accepts htap hroom, vecTry_accepts htap hroom,
      by unfold vecPut; exact onVector_accepts _ hroom⟩⟩

end Sys2Proof.Machine
end

section
/-! PROOFS. The messages of the Form's bells: what each does where it is the first of its type (R53, R87, R267, R302, R303, R307). -/

namespace Sys2Proof.Machine

open Sys2Proof

/-- A field of 32 bits as a word has the field's value. -/
theorem toNat_word_bits (n lo : Nat) : (BitVec.ofNat 32 (bits n lo 32)).toNat = bits n lo 32 := by
  rw [BitVec.toNat_ofNat]
  exact Nat.mod_eq_of_lt (Nat.mod_lt _ (by decide))

theorem State.bellIn_part (s : State) (l : List (Nat × Nat × W64)) (p : Nat) : ({ s with bellIn := l } : State).part p = s.part p := rfl

/-- The state in which a Prefect has passed a ring of its own Form to the heads (R302). -/
def State.ringPassed (s : State) (d p : Nat) (m : W64) : State :=
  if s.isPrefect && s.spans p && d / 64 == s.form.form then s.sendBells s.heads p m else s

/-- The state in which a bell's count that is ahead of the one held has been taken (R302). -/
def State.countTaken (s : State) (p : Nat) (m : W64) : State :=
  if (BitVec.ofNat 32 (bits m.toNat 32 32) - tget 0 (s.part p).bells (bits m.toNat 16 10)).toNat < 2 ^ 31 then
    s.setBell p (bits m.toNat 16 10) (BitVec.ofNat 32 (bits m.toNat 32 32))
  else s

/-- Whether a flag is of a step that this device has not opened. -/
def State.flagAhead (s : State) (x : Nat × Nat × W64) : Bool :=
  let k := (bits x.2.2.toNat 32 32 + 2 ^ 32 - (s.part x.2.1).openStep % 2 ^ 32) % 2 ^ 32
  decide (0 < k) && decide (k < 2 ^ 31)

/-- The state in which a Prefect has passed a rung to the rest of its Form (R267). -/
def State.rungPassed (s : State) (d p : Nat) (m : W64) : State :=
  if s.isPrefect && d / 64 == s.form.form then s.sendBells (s.members.filter (· != d)) p m else s

/-- The other devices whose output of the layer that a rung names this device consumes (R267). -/
def State.rungSources (s : State) (p : Nat) (m : W64) : List Nat := ((s.part p).layerSources (bits m.toNat 16 12)).filter (· != s.self)

/-- The state in which the layer's rung is at least the message's (R267). -/
def State.rungRaised (s : State) (p : Nat) (m : W64) : State :=
  s.modPart p fun part => { part with rungs := tmod 0 part.rungs (bits m.toNat 16 12) fun r => max r (bits m.toNat 28 2) }

/-- The state in which a Prefect has passed a clip scalar of another device to its members (R307). -/
def State.clipPassed (s : State) (d p : Nat) (m : W64) : State :=
  if s.isPrefect && d != s.self then s.sendBells s.members p m else s

/-- Raising a layer's rung changes one partition's rungs alone. -/
theorem rungRaised_spec (s : State) (p : Nat) (m : W64) :
    s.rungRaised p m = { s with parts := (s.rungRaised p m).parts } ∧ (∀ q, q ≠ p → (s.rungRaised p m).part q = s.part q) ∧
      tget 0 ((s.rungRaised p m).part p).rungs (bits m.toNat 16 12) =
        max (tget 0 (s.part p).rungs (bits m.toNat 16 12)) (bits m.toNat 28 2) := by
  refine ⟨rfl, fun q hq => State.setPart_part_ne s p q _ hq, ?_⟩
  rw [State.rungRaised, State.modPart_eq, State.setPart_part_self]
  exact tget_tset_self ..

section
variable {s : State} {d p : Nat} {m : W64} {rest : List (Nat × Nat × W64)}

/-- RING: passed on, and then added at the root, kept at a deputy, or left. -/
theorem exec_ring_of_take (h : takeBell 0x01 s.bellIn = some ((d, p, m), rest)) :
    let s2 := ({ s with bellIn := rest } : State).ringPassed d p m
    exec .ring s = .next (
      if s2.isRoot p then s2.rootRing p (bits m.toNat 16 10) (BitVec.ofNat 32 (bits m.toNat 32 32))
      else if s2.isDeputy || (s2.isDeputyHead && s2.spans p) then
        s2.keepRing p (bits m.toNat 16 10) (BitVec.ofNat 32 (bits m.toNat 32 32))
      else s2) := by
  show execRing s = _
  rw [execRing, h]
  rfl

/-- COUNT: taken where it is ahead, and passed on by a Prefect that is not the root. -/
theorem exec_count_of_take (h : takeBell 0x02 s.bellIn = some ((d, p, m), rest)) :
    let s2 := ({ s with bellIn := rest } : State).countTaken p m
    exec .count s = .next (if s2.isPrefect && !s2.isRoot p then s2.sendBells s2.members p m else s2) := by
  show execCount s = _
  rw [execCount, h]
  rfl

/-- FLAG of the open step: added to its group, whose verdict is looked at again. -/
theorem exec_flag_of_take (h : takeFirst (fun x => x.2.2.toNat % 256 == 0x03 && !s.flagAhead x) s.bellIn = some ((d, p, m), rest))
    (hstep : bits m.toNat 32 32 = (s.part p).openStep % 2 ^ 32) :
    exec .flag s = .next ((({ s with bellIn := rest } : State).modPart p fun part => part.modGroup (bits m.toNat 16 8) fun x =>
      { x with flags := x.flags ++ [(d, bits m.toNat 25 7, bit m.toNat 24)] }).tryVerdicts p 1024 [bits m.toNat 16 8]) := by
  show execFlag s = _
  unfold State.flagAhead at h
  rw [execFlag, h]
  exact congrArg Host.Outcome.next (if_pos hstep)

section
variable {s2 : State} (h : takeBell 0x04 s.bellIn = some ((d, p, m), rest)) (hs2 : ({ s with bellIn := rest } : State).rungPassed d p m = s2)
include h hs2

/-- RUNG: passed on; and where this device consumes the layer, its rung is raised if the step is current, and the sources are answered. -/
theorem exec_rung_of_take : exec .rung s = .next (match s2.rungSources p m with
    | [] => s2
    | srcs => (if bits m.toNat 32 32 = (s2.part p).step % 2 ^ 32 then s2.rungRaised p m else s2).sendBells srcs p
        (msgRungAck (bits m.toNat 16 12) (bits m.toNat 28 2) (bits m.toNat 32 32))) := by
  subst hs2
  show execRung s = _
  rw [execRung, h]
  rfl

/-- A rung at a device that does not consume the layer is passed on alone. -/
theorem exec_rung_of_no_source (hsrc : s2.rungSources p m = []) : exec .rung s = .next s2 := by
  rw [exec_rung_of_take h hs2, hsrc]

/-- A rung of the current step at a device that consumes the layer raises the layer's rung and answers the sources. -/
theorem exec_rung_of_sources (hsrc : s2.rungSources p m ≠ []) (hstep : bits m.toNat 32 32 = (s2.part p).step % 2 ^ 32) :
    exec .rung s = .next ((s2.rungRaised p m).sendBells (s2.rungSources p m) p
      (msgRungAck (bits m.toNat 16 12) (bits m.toNat 28 2) (bits m.toNat 32 32))) := by
  rw [exec_rung_of_take h hs2]
  cases hs : s2.rungSources p m with
  | nil => exact absurd hs hsrc
  | cons a l => simp only [if_pos hstep]

end

/-- RUNG_ACK: the device is no longer waited for, and the verdicts are looked at again. -/
theorem exec_rungAck_of_take (h : takeBell 0x05 s.bellIn = some ((d, p, m), rest)) :
    exec .rungAck s = .next ((({ s with bellIn := rest } : State).modPart p fun part =>
      { part with rungWait := part.rungWait.filter fun w => w != (bits m.toNat 16 12, d) }).allVerdicts p) := by
  show execRungAck s = _
  rw [execRungAck, h]

/-- CLIP of the current step while none is held: a finite scalar is taken, and any other ends the step. -/
theorem exec_clip_of_take (h : takeBell 0x06 s.bellIn = some ((d, p, m), rest)) :
    let s2 := ({ s with bellIn := rest } : State).clipPassed d p m
    (s2.part p).job = .running → (s2.part p).clip = none → bits m.toNat 16 16 = (s2.part p).step % 2 ^ 16 →
      exec .clip s = .next (if special32 (BitVec.ofNat 32 (bits m.toNat 32 32)).toNat then s2.endStep p stExhausted
        else (s2.modPart p fun part => { part with clip := some (BitVec.ofNat 32 (bits m.toNat 32 32)) }).allVerdicts p) := by
  intro s2 hjob hclip hstep
  show execClip s = _
  have hopen : ((s2.part p).job != .running || (s2.part p).clip.isSome || bits m.toNat 16 16 != (s2.part p).step % 2 ^ 16) = false := by
    simp [hjob, hclip, hstep]
  rw [execClip, h]
  exact congrArg Host.Outcome.next (if_neg (ne_true_of_eq_false hopen))

end

/-- Settles O37, one message at a time. -/
theorem formBellMessages : Obligations.FormBellMessages := by
  unfold Obligations.FormBellMessages
  intro s d p m rest s1 b v part
  refine ⟨fun h => ?_, fun h => ?_, fun h hstep => ?_, fun h => ?_, fun h => exec_rungAck_of_take h, fun h => ?_⟩
  · have hring := exec_ring_of_take h
    intro s2
    refine ⟨fun hroot => hring.trans (congrArg _ (if_pos hroot)), fun hroot hkeep => hring.trans (congrArg _ ?_),
      fun hroot hkeep => hring.trans (congrArg _ ?_)⟩
    · exact (if_neg (ne_true_of_eq_false hroot)).trans (if_pos hkeep)
    · exact (if_neg (ne_true_of_eq_false hroot)).trans (if_neg (ne_true_of_eq_false hkeep))
  · have hcount := exec_count_of_take h
    rw [State.countTaken, State.bellIn_part] at hcount
    exact hcount
  · exact exec_flag_of_take h ((toNat_word_bits m.toNat 32).symm.trans hstep)
  · intro s2 layer rung srcs
    refine ⟨exec_rung_of_no_source h rfl, fun hsrc hstep => ⟨s2.rungRaised p m, ?_, rungRaised_spec s2 p m⟩⟩
    rw [show v.toNat = bits m.toNat 32 32 from toNat_word_bits m.toNat 32] at hstep ⊢
    exact exec_rung_of_sources h rfl hsrc hstep
  · intro s2 hjob hclip hstep
    have hscalar := exec_clip_of_take h hjob hclip hstep
    exact ⟨fun hfin => hscalar.trans (congrArg _ (if_neg (ne_true_of_eq_false hfin))), fun hspec => hscalar.trans (congrArg _ (if_pos hspec))⟩

end Sys2Proof.Machine
end

section
/-! PROOFS. The frame of the operations of a task: what one leaves alone, whether it lands or waits (R60, R88, R129, R169). -/

namespace Sys2Proof.Machine

open Sys2Proof

/-! ### Operations that leave no work area open (R170) -/

/-- No effect of what is tried leaves a work area at a free value. -/
def Try.Definite : Try → Prop
  | .eff e => e.work = none
  | .wait _ _ => True

section
variable (i : Issue)

theorem onEngines_definite (port : Bool) {f : Core → Eff} (h : ∀ core, (f core).work = none) : (i.onEngines port f).Definite := by
  unfold Issue.onEngines
  dsimp only
  split
  · exact trivial
  · split
    · exact trivial
    · exact h _

theorem cubeTry_definite (accumulate wg : Bool) : (cubeTry accumulate wg i).Definite := by
  refine onEngines_definite i false fun core => ?_
  unfold cubeEff
  dsimp only
  split <;> rfl

theorem accLoadTry_definite : (accLoadTry i).Definite := onEngines_definite i true fun _ => rfl

theorem drainTry_definite : (drainTry i).Definite := by
  refine onEngines_definite i true fun core => ?_
  unfold drainEff
  split <;> rfl

theorem drainAddTry_definite : (drainAddTry i).Definite := by
  refine onEngines_definite i true fun core => ?_
  unfold drainAddEff
  split <;> rfl

theorem onRow_definite {e : Eff} (h : e.work = none) : (i.onRow e).Definite := by
  unfold Issue.onRow
  split
  · exact trivial
  · exact h

theorem rowTry_definite (z : List (List FV)) (sideWrites : List Wr) (side : List (Nat × Bool × Bool)) (reads : List (Nat × Nat)) :
    (rowTry i z sideWrites side reads).Definite := onRow_definite i rfl

theorem rowReduce_definite (f : List FV → FV) : (rowReduce i f).Definite := onRow_definite i rfl

theorem onVector_definite (feeds : List TapFeed) {f : Core → Eff} (h : ∀ core, (f core).work = none) : (i.onVector feeds f).Definite := by
  unfold Issue.onVector
  split
  · exact trivial
  · split
    · exact trivial
    · exact h _

theorem vecTry_definite (enc : List (List (Nat × Bool × Bool))) (more : List Wr) (flags : List (Nat × Nat)) (reads : List (Nat × Nat)) :
    (vecTry i enc more flags reads).Definite := by
  unfold vecTry
  exact onVector_definite i _ fun _ => rfl

theorem vecBinary_definite (f : Val → Val → Val) : (vecBinary i f).Definite := vecTry_definite ..

theorem vecCvt_definite : (vecCvt i).Definite := by
  unfold vecCvt
  dsimp only
  split
  · exact vecTry_definite ..
  · split <;> exact vecTry_definite ..

theorem vecAddLs_definite : (vecAddLs i).Definite := by
  unfold vecAddLs
  dsimp only
  split <;> exact vecTry_definite ..

theorem vecPut_definite : (vecPut i).Definite := by
  unfold vecPut
  exact onVector_definite i _ fun _ => rfl

theorem optTry_definite (adam : Bool) : (optTry i adam).Definite := by
  unfold optTry
  dsimp only
  split <;> exact onVector_definite i _ fun _ => rfl

theorem optStep_definite : (optStep i).Definite := by
  unfold optStep
  exact onVector_definite i _ fun _ => rfl

end

/-! ### What an operation changes -/

/-- From `s` to `t` nothing has changed but the records of core `c` and of its partition, and the number of free values drawn. -/
structure State.CoreOnly (s t : State) (c : Nat) : Prop where
  rest : t = { s with cores := t.cores, parts := t.parts, fresh := t.fresh }
  cores : ∀ k, k ≠ c → t.core k = s.core k
  parts : ∀ k, k ≠ s.partOfCore c → t.part k = s.part k

theorem State.CoreOnly.refl (s : State) (c : Nat) : s.CoreOnly s c := ⟨rfl, fun _ _ => rfl, fun _ _ => rfl⟩

/-- An operation that lands changes its core and its core's partition. -/
theorem Landed.coreOnly {s t : State} {i : Issue} {e : Eff} {c : Nat} (h : Landed s t i e) (hc : i.c = c) (hp : i.p = s.partOfCore c) :
    s.CoreOnly t c := ⟨h.rest, hc ▸ h.cores, hp ▸ h.parts⟩

/-- An operation that leaves no work area open draws no free value. -/
theorem complete_fresh (s : State) (i : Issue) {t : Try} (h : t.Definite) : (s.complete i t).fresh = s.fresh := by
  unfold State.complete
  cases t with
  | wait => rfl
  | eff e =>
    dsimp only
    split
    · rfl
    · split
      · rfl
      · rw [show e.work = none from h]
        rfl

/-- What issues has an effect, which lands. -/
theorem complete_coreOnly {s : State} {c : Nat} {q : Stream} {op : Nat} {i : Issue} {t : Try} (hi : issueOf s c q op = some i)
    (h : s.issues i t = true) : s.CoreOnly (s.complete i t) c := by
  obtain ⟨hc, -, -, hp, -⟩ := issueOf_some hi
  cases t with
  | wait unit cause => exact State.CoreOnly.refl s c
  | eff e => exact (complete_lands e (blocked_of_issues h)).coreOnly hc hp

/-- The operation that a sequencer comes to issues and is carried out, or nothing changes. -/
theorem runOp_cases (s : State) (c : Nat) (q : Stream) (op : Nat) (f : Issue → Try) : s.runOp c q op f = s ∨
    ∃ i, issueOf s c q op = some i ∧ s.issues i (f i) = true ∧ s.runOp c q op f = s.complete i (f i) := by
  unfold State.runOp
  cases hi : issueOf s c q op with
  | none => exact .inl rfl
  | some i =>
    dsimp only
    split
    · rename_i h
      exact .inr ⟨i, rfl, h, rfl⟩
    · exact .inl rfl

/-- An attention command issues, as the pipe form or the fused form, and may be counted at the core's site; or nothing changes. -/
theorem runAttn_cases (s : State) (c : Nat) (q : Stream) (op : Nat) (f : Issue → Bool → Try) : s.runAttn c q op f = s ∨
    ∃ i t, issueOf s c q op = some i ∧ s.issues i t = true ∧
      (s.runAttn c q op f = s.complete i t ∨ ∃ x, s.runAttn c q op f = (s.complete i t).setSite (s.siteOf c) x) := by
  unfold State.runAttn
  cases hi : issueOf s c q op with
  | none => exact .inl rfl
  | some i =>
    dsimp only
    split
    · rename_i h
      refine .inr ⟨i, _, rfl, h, ?_⟩
      split
      · exact .inr ⟨_, rfl⟩
      · exact .inl rfl
    · exact .inl rfl

theorem runOp_coreOnly (s : State) (c : Nat) (q : Stream) (op : Nat) (f : Issue → Try) : s.CoreOnly (s.runOp c q op f) c := by
  obtain h | ⟨i, hi, hiss, h⟩ := runOp_cases s c q op f <;> rw [h]
  · exact State.CoreOnly.refl s c
  · exact complete_coreOnly hi hiss

theorem runOp_fresh (s : State) (c : Nat) (q : Stream) (op : Nat) {f : Issue → Try} (hf : ∀ i, (f i).Definite) :
    (s.runOp c q op f).fresh = s.fresh := by
  obtain h | ⟨i, -, -, h⟩ := runOp_cases s c q op f <;> rw [h]
  exact complete_fresh s i (hf i)

/-- An attention command changes the site of its core besides what any operation changes. -/
theorem runAttn_frame (s : State) (c : Nat) (q : Stream) (op : Nat) (f : Issue → Bool → Try) {t : State} (ht : s.runAttn c q op f = t) :
    t = { s with cores := t.cores, parts := t.parts, sites := t.sites, fresh := t.fresh } ∧ (∀ k, k ≠ c → t.core k = s.core k) ∧
      (∀ k, k ≠ s.partOfCore c → t.part k = s.part k) ∧ ∀ x, x ≠ s.siteOf c → t.site x = s.site x := by
  subst ht
  have hkeep {u : State} (hu : s.CoreOnly u c) : u = { s with cores := u.cores, parts := u.parts, sites := u.sites, fresh := u.fresh } ∧
      u.site = s.site := by
    rw [hu.rest]
    exact ⟨rfl, rfl⟩
  obtain h | ⟨i, t, hi, hiss, h | ⟨x, h⟩⟩ := runAttn_cases s c q op f <;> rw [h]
  · exact ⟨rfl, fun _ _ => rfl, fun _ _ => rfl, fun _ _ => rfl⟩
  · have hu := complete_coreOnly hi hiss
    exact ⟨(hkeep hu).1, hu.cores, hu.parts, fun k _ => congrFun (hkeep hu).2 k⟩
  · have hu := complete_coreOnly hi hiss
    refine ⟨?_, hu.cores, hu.parts, fun k hk => (State.setSite_site_ne _ _ _ _ hk).trans (congrFun (hkeep hu).2 k)⟩
    exact congrArg (fun v : State => v.setSite (s.siteOf c) x) (hkeep hu).1

/-! ### The commands -/

/-- A command of core `c` and stream `q` that carries out an operation which leaves no work area open. -/
def OpOf (c : Nat) (q : Stream) (cmd : Instr) : Prop :=
  ∃ (op : Nat) (f : Issue → Try), (∀ i, (f i).Definite) ∧ ∀ s, exec cmd s = .next (s.runOp c q op f)

/-- A command of core `c` and stream `q` that carries out an attention command. -/
def AttnOf (c : Nat) (q : Stream) (cmd : Instr) : Prop :=
  ∃ (op : Nat) (f : Issue → Bool → Try), ∀ s, exec cmd s = .next (s.runAttn c q op f)

theorem opOf_of_mem {c : Nat} {q : Stream} : ∀ cmd ∈ [Instr.mma c q, .mmaAcc c q, .mmaWg c q, .mmaAccWg c q, .accLoad c q, .drain c q,
    .drainAdd c q, .rowSum c q, .rowMax c q, .rowSumsq c q, .rowFn c q, .softmax c q, .softmaxBwd c q, .norm c q, .normBwd c q, .vadd c q,
    .vsub c q, .vmul c q, .vmad c q, .vmax c q, .vmin c q, .vcvt c q, .vaffine c q, .vaddLs c q, .vrand c q, .vdrop c q, .vput c q,
    .optAdamw c q, .optSgdm c q, .optStep c q], OpOf c q cmd := by
  simp only [List.forall_mem_cons]
  exact ⟨
    ⟨_, _, fun i => cubeTry_definite i false false, fun _ => rfl⟩,
    ⟨_, _, fun i => cubeTry_definite i true false, fun _ => rfl⟩,
    ⟨_, _, fun i => cubeTry_definite i false true, fun _ => rfl⟩,
    ⟨_, _, fun i => cubeTry_definite i true true, fun _ => rfl⟩,
    ⟨_, _, accLoadTry_definite, fun _ => rfl⟩,
    ⟨_, _, drainTry_definite, fun _ => rfl⟩,
    ⟨_, _, drainAddTry_definite, fun _ => rfl⟩,
    ⟨_, _, fun i => rowReduce_definite i rowSum, fun _ => rfl⟩,
    ⟨_, _, fun i => rowReduce_definite i rowMax, fun _ => rfl⟩,
    ⟨_, _, fun i => rowReduce_definite i rowSumSquares, fun _ => rfl⟩,
    ⟨_, rowFn, fun i => rowTry_definite i .., fun _ => rfl⟩,
    ⟨_, softmax, fun i => rowTry_definite i .., fun _ => rfl⟩,
    ⟨_, softmaxBwd, fun i => rowTry_definite i .., fun _ => rfl⟩,
    ⟨_, Sys2Proof.Machine.norm, fun i => rowTry_definite i .., fun _ => rfl⟩,
    ⟨_, normBwd, fun i => rowTry_definite i .., fun _ => rfl⟩,
    ⟨_, _, fun i => vecBinary_definite i Val.add, fun _ => rfl⟩,
    ⟨_, _, fun i => vecBinary_definite i Val.sub, fun _ => rfl⟩,
    ⟨_, _, fun i => vecBinary_definite i Val.mul, fun _ => rfl⟩,
    ⟨_, vecMad, fun i => vecTry_definite i .., fun _ => rfl⟩,
    ⟨_, _, fun i => vecBinary_definite i Val.max2, fun _ => rfl⟩,
    ⟨_, _, fun i => vecBinary_definite i Val.min2, fun _ => rfl⟩,
    ⟨_, _, vecCvt_definite, fun _ => rfl⟩,
    ⟨_, vecAffine, fun i => vecTry_definite i .., fun _ => rfl⟩,
    ⟨_, _, vecAddLs_definite, fun _ => rfl⟩,
    ⟨_, vecRand, fun i => vecTry_definite i .., fun _ => rfl⟩,
    ⟨_, vecDrop, fun i => vecTry_definite i .., fun _ => rfl⟩,
    ⟨_, _, vecPut_definite, fun _ => rfl⟩,
    ⟨_, _, fun i => optTry_definite i true, fun _ => rfl⟩,
    ⟨_, _, fun i => optTry_definite i false, fun _ => rfl⟩,
    ⟨_, _, optStep_definite, fun _ => rfl⟩,
    List.forall_mem_nil _⟩

theorem attnOf_of_mem {c : Nat} {q : Stream} : ∀ cmd ∈ [Instr.attnFwd c q, .attnRecomp c q, .attnDs c q, .rope c q, .attnFwdFused c q,
    .attnRecompFused c q, .attnDsFused c q, .ropeFused c q], AttnOf c q cmd := by
  simp only [List.forall_mem_cons]
  exact ⟨⟨_, attnFwd, fun _ => rfl⟩, ⟨_, attnRecomp, fun _ => rfl⟩, ⟨_, attnDs, fun _ => rfl⟩, ⟨_, rope, fun _ => rfl⟩,
    ⟨_, attnFwd, fun _ => rfl⟩, ⟨_, attnRecomp, fun _ => rfl⟩, ⟨_, attnDs, fun _ => rfl⟩, ⟨_, rope, fun _ => rfl⟩, List.forall_mem_nil _⟩

/-- Settles O20: an operation that lands keeps to its core and partition, and one that waits changes nothing. -/
theorem operationsTouchTheirCoreAlone : Obligations.OperationsTouchTheirCoreAlone := by
  unfold Obligations.OperationsTouchTheirCoreAlone
  intro s t c q cmd
  refine ⟨fun hmem hexec => ?_, fun hmem hexec => ?_⟩
  · obtain ⟨op, f, hf, hcmd⟩ := opOf_of_mem cmd hmem
    obtain rfl : s.runOp c q op f = t := Host.Outcome.next.inj ((hcmd s).symm.trans hexec)
    have h := runOp_coreOnly s c q op f
    refine ⟨?_, h.cores, h.parts⟩
    have hrest := h.rest
    rw [runOp_fresh s c q op hf] at hrest
    exact hrest
  · obtain ⟨op, f, hcmd⟩ := attnOf_of_mem cmd hmem
    exact runAttn_frame s c q op f (Host.Outcome.next.inj ((hcmd s).symm.trans hexec))

end Sys2Proof.Machine
end

section
/-! PROOFS. The control operations of a sequencer between bodies and in the running one, the firing of a task and its close (R66 to R69, R76, R79, R81,
R87, R103, R204, R264, R452). -/

namespace Sys2Proof.Machine

open Sys2Proof

/-! ### Sequencers of a core -/

theorem State.modSeq_eq (s : State) (c : Nat) (q : Stream) (f : Seq → Seq) : s.modSeq c q f = s.setSeq c q (f ((s.core c).seq q)) := rfl

/-! ### Loops and registers (R67, R103) -/

/-- A LOOP branches back and counts a pass while its level's pass number is below COUNT, and goes on from pass 0 otherwise. -/
theorem loopStep_eq (n pc : Nat) (passes : SMap Nat) :
    let lv := bits n 38 2
    let again := decide (tget 0 passes lv < bits n 21 16)
    loopStep n pc passes =
      (if again then bits n 10 11 else pc + 1, tset 0 passes lv (if again then tget 0 passes lv + 1 else 0), again) := by
  unfold loopStep
  dsimp only
  split <;> rename_i h <;> simp [h]

section
variable {s : State} {c : Nat} {q : Stream} {n : Nat} {t : Task}

theorem exec_loop_of_readAt (h : s.readAt c q 0xF2 = some n) : exec (.loop c q false) s = .next (s.modSeq c q fun sq =>
    let r := loopStep n sq.pc sq.passes
    { sq with pc := r.1, passes := r.2.1, mb := if r.2.2 && bit n 37 then (sq.mb + 1) % 4096 else sq.mb }) := by
  show execLoop c q false s = _
  simp only [execLoop, State.loopRead, h, Bool.false_eq_true, if_false]

theorem exec_loop_of_bodyAt (h : s.bodyAt c q 0xF2 = some (t, n)) : exec (.loop c q true) s = .next (s.modSeq c q fun sq =>
    { sq with running := some { t with pc := (loopStep n t.pc t.passes).1, passes := (loopStep n t.pc t.passes).2.1 } }) := by
  show execLoop c q true s = _
  simp only [execLoop, State.loopRead, h, if_true]

theorem exec_setMb_of_readAt (h : s.readAt c q 0xF3 = some n) :
    exec (.setMb c q) s = .next (s.modSeq c q fun sq => { sq with mb := bits n 10 12, pc := sq.pc + 1 }) := by
  show execSetMb c q s = _
  rw [execSetMb, h]

theorem exec_sectionEnd_of_readAt (h : s.readAt c q 0xF7 = some n) :
    exec (.sectionEnd c q) s = .next ((s.modSeq c q fun sq => { sq with ended := true }).tryEnd c) := by
  show execSectionEnd c q s = _
  rw [execSectionEnd, h]

end

/-- Settles O22, one operation at a time. -/
theorem loopsAndRegistersOfASequencer : Obligations.LoopsAndRegistersOfASequencer := by
  unfold Obligations.LoopsAndRegistersOfASequencer
  intro s c q n sq lv again next
  refine ⟨fun h => (exec_loop_of_readAt h).trans ?_, fun t h => (exec_loop_of_bodyAt h).trans ?_, exec_setMb_of_readAt,
    exec_sectionEnd_of_readAt⟩
  · rw [State.modSeq_eq]
    simp only [loopStep_eq]
    rfl
  · rw [State.modSeq_eq]
    simp only [loopStep_eq]
    rfl

/-! ### Bells (R67, R203, R204, R452) -/

section
variable {s : State} {c : Nat} {q : Stream} {n : Nat} {t : Task}

theorem exec_bellRing_of_readAt (h : s.readAt c q 0xF4 = some n) : exec (.bellRing c q false) s = .next ((s.modSeq c q fun sq =>
    { sq with
      pc := sq.pc + 1
      held := sq.held ++ [{ bell := ctlBell n, amount := BitVec.ofNat 32 (ctlAmount n), before := sq.posted, body := false }] }).releaseRings c q) := by
  show execBellRing c q false s = _
  simp only [execBellRing, State.ringRead, h, Bool.false_eq_true, if_false]

theorem exec_bellRing_of_bodyAt (h : s.bodyAt c q 0xF4 = some (t, n)) : exec (.bellRing c q true) s = .next ((s.modSeq c q fun sq =>
    { sq with
      running := some { t with pc := t.pc + 1 }
      held := sq.held ++
        [{ bell := ctlBell n, amount := BitVec.ofNat 32 (ctlAmount n), before := t.order + 1, body := true }] }).releaseRings c q) := by
  show execBellRing c q true s = _
  simp only [execBellRing, State.ringRead, h, if_true]

theorem exec_bellArm_of_readAt (h : s.readAt c q 0xF5 = some n) (hroom : 0 < s.upRoom c) :
    exec (.bellArm c q false) s = .next ((s.modSeq c q fun sq =>
      { sq with pc := sq.pc + 1, arms := armBell (ctlBell n) (BitVec.ofNat 32 (ctlAmount n)) sq.arms }).sendUp c (.arm (ctlBell n) c q)) := by
  show execBellArm c q false s = _
  simp only [execBellArm, State.armRead, h, hroom.ne', Bool.false_eq_true, if_false]

theorem exec_bellArm_of_bodyAt (h : s.bodyAt c q 0xF5 = some (t, n)) (hroom : 0 < s.upRoom c) :
    exec (.bellArm c q true) s = .next ((s.modSeq c q fun sq =>
      { sq with
        running := some { t with pc := t.pc + 1 }
        arms := armBell (ctlBell n) (BitVec.ofNat 32 (ctlAmount n)) sq.arms }).sendUp c (.arm (ctlBell n) c q)) := by
  show execBellArm c q true s = _
  simp only [execBellArm, State.armRead, h, hroom.ne', if_true, if_false]

theorem exec_bellWait_of_readAt (h : s.readAt c q 0xF6 = some n) (hover : ((s.core c).seq q).waitOver (ctlBell n) = true) :
    exec (.bellWait c q false) s = .next (s.setSeq c q { (s.core c).seq q with pc := ((s.core c).seq q).pc + 1, waiting := none }) := by
  show execBellWait c q false s = _
  simp only [execBellWait, State.waitRead, h, hover, Bool.false_eq_true, if_false, if_true]

theorem exec_bellWait_of_bodyAt (h : s.bodyAt c q 0xF6 = some (t, n)) (hover : ((s.core c).seq q).waitOver (ctlBell n) = true) :
    exec (.bellWait c q true) s =
      .next (s.setSeq c q { (s.core c).seq q with running := some { t with pc := t.pc + 1 }, waitingBody := none }) := by
  show execBellWait c q true s = _
  simp only [execBellWait, State.waitRead, h, hover, if_true]

end

/-- Settles O23, one operation at a time. -/
theorem bellOperationsOfASequencer : Obligations.BellOperationsOfASequencer := by
  unfold Obligations.BellOperationsOfASequencer
  intro s c q n sq ring arms sent
  exact ⟨exec_bellRing_of_readAt, exec_bellArm_of_readAt, exec_bellWait_of_readAt,
    fun t => ⟨exec_bellRing_of_bodyAt, exec_bellArm_of_bodyAt, exec_bellWait_of_bodyAt⟩⟩

/-! ### Posting and firing (R66, R68, R69, R79, R87) -/

/-- TASK_OPEN posts where nothing keeps the sequencer from posting. -/
theorem exec_taskOpen_of_readAt {s : State} {c : Nat} {q : Stream} {n : Nat} (h : s.readAt c q 0xF0 = some n) :
    let sq := (s.core c).seq q
    let part := s.part (s.partOfCore c)
    sq.waitsBell = false → part.holdsOpen q (bit n 10) = false → sq.room = true →
      sq.hasTag (mkTag (streamPass q) part.epoch (ctlLayer n) sq.mb) = false →
      exec (.taskOpen c q) s = .next (s.setSeq c q
        { sq with window := sq.window ++ [openTask part q sq n], pc := sq.closeOf sq.pc + 1, posted := sq.posted + 1 }) := by
  intro sq part hbell hhold hroom htag
  show execTaskOpen c q s = _
  have hopen : (sq.waitsBell || part.holdsOpen q (openTask part q sq n).draft || !sq.room || sq.hasTag (openTask part q sq n).tag) = false := by
    simp [openTask, hbell, hhold, hroom, htag]
  rw [execTaskOpen, State.postTask, h]
  exact congrArg Host.Outcome.next (if_neg (ne_true_of_eq_false hopen))

/-- The state in which the group mismatches of a sequencer's posted tasks have been dropped. -/
def State.mismatchesDropped (s : State) (c : Nat) (q : Stream) : State :=
  ((s.core c).seq q).window.foldl (fun u t => if t.reposted then u else u.dropMismatches c t ((s.part (s.partOfCore c)).taskView t)) s

/-- TASK_FIRE fires the first posted task that may fire. -/
theorem exec_taskFire_of_takeFirst {s : State} {c : Nat} {q : Stream} {t : Task} {rest : List Task} (hruns : s.seqRuns c = true)
    (hidle : ((s.core c).seq q).running = none) (hwin : ((s.core c).seq q).window ≠ [])
    (ht : takeFirst (((s.mismatchesDropped c q).core c).mayFire (s.part (s.partOfCore c)) q) ((s.core c).seq q).window = some (t, rest)) :
    exec (.taskFire c q) s = .next ((s.mismatchesDropped c q).fireTask c q t rest) := by
  show execTaskFire c q s = _
  have hgo : ¬ (!s.seqRuns c || ((s.core c).seq q).running.isSome || decide (((s.core c).seq q).window = [])) = true := by
    simp [hruns, hidle, hwin]
  unfold State.mismatchesDropped at ht ⊢
  rw [execTaskFire, State.fire]
  refine congrArg Host.Outcome.next ((if_neg hgo).trans ?_)
  simp only [ht]

theorem State.noteParents_core (s : State) (p g k : Nat) : (s.noteParents p g).core k = s.core k := by
  unfold State.noteParents
  dsimp only
  split <;> rfl

theorem State.noteParents_watchdog (s : State) (p g : Nat) : ((s.noteParents p g).part p).watchdog = (s.part p).watchdog := by
  unfold State.noteParents
  dsimp only
  split
  · rfl
  · rw [State.setPart_part_self]
    rfl

/-- The task as it begins its body: its tokens and its clip token taken. -/
def Task.fired (t : Task) (held : SMap W64) (clip : Option W64) : Task :=
  { t with
    st := .running, held := held, pc := if t.reposted then t.repeatIdx else t.openIdx + 1, passes := t.passes0, flags := [], mapped := 0
    reserved := t.draftLines, needClip := false, clip := clip }

/-- A task fires as its sequencer runs it; the section's watchdog starts again, and the parents of a draft's group are noted. -/
theorem State.fireTask_cases (s : State) (c : Nat) (q : Stream) (t : Task) (rest : List Task) :
    ∃ (u : State) (core : Core), (∃ held clip, (core.seq q).running = some (t.fired held clip)) ∧
      let s1 := (u.setCore c core).modPart (s.partOfCore c) fun part => { part with watchdog := 0 }
      (s.fireTask c q t rest = s1 ∨ s.fireTask c q t rest = s1.noteParents (s.partOfCore c) t.group) := by
  unfold State.fireTask
  dsimp only
  refine ⟨_, _, ?_, (ite_eq_or_eq ..).symm⟩
  cases q <;> exact ⟨_, _, rfl⟩

/-- A fired task is the one that its sequencer runs, and the watchdog of its partition's section stands at 0. -/
theorem State.fireTask_spec (s : State) (c : Nat) (q : Stream) (t : Task) (rest : List Task) :
    (∃ held clip, (((s.fireTask c q t rest).core c).seq q).running = some (t.fired held clip)) ∧
      ((s.fireTask c q t rest).part (s.partOfCore c)).watchdog = 0 := by
  obtain ⟨u, core, ⟨held, clip, hrun⟩, h | h⟩ := s.fireTask_cases c q t rest <;> rw [h]
  · exact ⟨⟨held, clip, by simpa using hrun⟩, by simp⟩
  · exact ⟨⟨held, clip, by simpa [State.noteParents_core] using hrun⟩, by simp [State.noteParents_watchdog]⟩

/-! ### Closing (R76, R81, R264) -/

section
variable {s : State} {c : Nat} {q : Stream} {t : Task} {n : Nat}

/-- The state in which a sequencer's running task has left it, and a discarded task that waited has its place in the window. -/
def State.freeSeq (s : State) (c : Nat) (q : Stream) : State :=
  s.modSeq c q fun sq => { sq with running := none, window := sq.window ++ sq.reposts.take 1, reposts := sq.reposts.drop 1 }

/-- A task that may close sends its tokens and leaves its sequencer; what follows is the draft's, the fair task's, or the overflow's. -/
theorem exec_taskClose_of_mayClose (h : s.bodyAt c q 0xF1 = some (t, n)) (hunf : (s.core c).unfinished q t = false)
    (hclose : s.mayClose c t n = true) :
    let s1 := (s.sendTokens c (closeEdges t n) t.tag (if t.draft then some t.group else none) q t.order).freeSeq c q
    exec (.taskClose c q) s = .next (
      if t.draft then ((s1.modCore c fun core =>
          { core with openDrafts := core.openDrafts ++ [{ seq := q, task := t, commitEdges := bits n 40 16 }] }).sendUp c
            (.closure t.group c (tagLayer t.tag) (tagMb t.tag) t.flags (tget 0 (s1.core c).atts t.group))).settleCore c
      else if t.flags = [] then (s1.modPart (s.partOfCore c) fun part => part.noteU q t.tag).settleCore c
      else s1.fairOverflow (s.partOfCore c) c (tagLayer t.tag) (tagMb t.tag) t.flags) := by
  show execTaskClose c q s = _
  have hgo : ((s.core c).unfinished q t || !s.mayClose c t n) = false := by simp [hunf, hclose]
  rw [execTaskClose, State.closeTask, h]
  exact congrArg Host.Outcome.next (if_neg (ne_true_of_eq_false hgo))

end

/-- Settles O21: the posting, the firing, and the three closes. -/
theorem tasksRunFromOpenToClose : Obligations.TasksRunFromOpenToClose := by
  unfold Obligations.TasksRunFromOpenToClose
  refine ⟨?_, ?_⟩
  · intro s c q sq part
    refine ⟨fun n => exec_taskOpen_of_readAt, fun hruns hidle hwin => ?_⟩
    intro s1 t rest ht
    obtain ⟨⟨held, clip, hrun⟩, hdog⟩ := s1.fireTask_spec c q t rest
    exact ⟨_, exec_taskFire_of_takeFirst hruns hidle hwin ht, rfl, ⟨_, hrun, rfl, rfl, rfl, rfl, rfl⟩, hdog⟩
  · intro s c q t n h hunf p free both drafts
    refine ⟨fun hfair hflags hedges => ?_, fun hdraft hedges hroom => ?_, fun hfair hflags hedges => ?_⟩
    · have hclose : s.mayClose c t n = true := by simpa [State.mayClose, closeEdges, hfair] using hedges
      have hclosed := exec_taskClose_of_mayClose h hunf hclose
      simp only [closeEdges, hfair, hflags, Bool.false_eq_true, if_false, if_true] at hclosed
      exact hclosed
    · have hclose : s.mayClose c t n = true := by simpa [State.mayClose, closeEdges, hdraft, hroom] using hedges
      have hclosed := exec_taskClose_of_mayClose h hunf hclose
      simp only [closeEdges, hdraft, if_true] at hclosed
      exact hclosed
    · have hclose : s.mayClose c t n = true := by simpa [State.mayClose, closeEdges, hfair] using hedges
      have hclosed := exec_taskClose_of_mayClose h hunf hclose
      simp only [closeEdges, hfair, hflags, Bool.false_eq_true, if_false] at hclosed
      exact hclosed

end Sys2Proof.Machine
end

section
/-! PROOFS. The copy of a group's draft lines at a commit (R78, R85). -/

namespace Sys2Proof.Machine

open Sys2Proof

/-! ### Many writes to a table, and what a table lists -/

/-- A number that does not read as one that is unlisted is listed. -/
theorem mem_of_tget {α : Type} {d v : α} {k : Nat} {m : SMap α} (h : tget d m k = v) (hv : v ≠ d) : (k, v) ∈ m := by
  induction m with
  | nil => exact absurd h.symm hv
  | cons e m ih =>
    obtain ⟨j, w⟩ := e
    by_cases hj : j = k
    · obtain rfl : w = v := by simpa [tget, hj] using h
      exact hj ▸ List.mem_cons_self
    · exact List.mem_cons_of_mem _ (ih (by simpa [tget, hj] using h))

section
variable {α : Type} [DecidableEq α] {d : α} {k : Nat} {v : α}

/-- Writes to other numbers leave a number alone. -/
theorem tget_tsetAll_of_notMem : ∀ (l : List (Nat × α)) (m : SMap α), k ∉ l.map Prod.fst → tget d (tsetAll d m l) k = tget d m k
  | [], _, _ => rfl
  | (j, w) :: l, m, h => by
    obtain ⟨hj, hl⟩ : k ≠ j ∧ k ∉ l.map Prod.fst := by simpa using h
    exact (tget_tsetAll_of_notMem l _ hl).trans (tget_tset_ne d m j w k hj)

/-- Of writes to different numbers each is read back. -/
theorem tget_tsetAll_of_mem : ∀ (l : List (Nat × α)) (m : SMap α), (l.map Prod.fst).Nodup → (k, v) ∈ l → tget d (tsetAll d m l) k = v
  | (j, w) :: l, m, hn, h => by
    obtain ⟨hj, hl⟩ := List.nodup_cons.mp hn
    rcases List.mem_cons.mp h with heq | hmem
    · cases heq
      exact (tget_tsetAll_of_notMem l _ hj).trans (tget_tset_self d m k v)
    · exact tget_tsetAll_of_mem l _ hl hmem

theorem tsetAll_append (m : SMap α) (l l' : List (Nat × α)) : tsetAll d m (l ++ l') = tsetAll d (tsetAll d m l) l' := by
  induction l generalizing m with
  | nil => rfl
  | cons x l ih => exact ih _

/-- The numbers that a table lists rise. -/
theorem pairwise_lt_of_twfFrom {m : SMap α} {lo : Nat} (h : twfFrom d lo m = true) :
    (m.map Prod.fst).Pairwise (· < ·) ∧ ∀ j ∈ m.map Prod.fst, lo ≤ j := by
  induction m generalizing lo with
  | nil => exact ⟨.nil, fun _ hj => absurd hj List.not_mem_nil⟩
  | cons e m ih =>
    obtain ⟨j, w⟩ := e
    obtain ⟨⟨hlo, -⟩, hm⟩ : (lo ≤ j ∧ w ≠ d) ∧ twfFrom d (j + 1) m = true := by simpa [twfFrom] using h
    obtain ⟨hp, hb⟩ := ih hm
    refine ⟨List.pairwise_cons.mpr ⟨hb, hp⟩, fun x hx => ?_⟩
    rcases List.mem_cons.mp hx with rfl | hx
    · exact hlo
    · exact (Nat.le_succ_of_le hlo).trans (hb x hx)

theorem nodup_of_twf {m : SMap α} (h : twf d m = true) : (m.map Prod.fst).Nodup :=
  (pairwise_lt_of_twfFrom h).1.imp Nat.ne_of_lt

/-- A number that a table lists does not read as one that is unlisted. -/
theorem tget_ne_of_mem {m : SMap α} {lo : Nat} (h : twfFrom d lo m = true) (hk : k ∈ m.map Prod.fst) : tget d m k ≠ d := by
  induction m generalizing lo with
  | nil => exact absurd hk List.not_mem_nil
  | cons e m ih =>
    obtain ⟨j, w⟩ := e
    obtain ⟨⟨-, hw⟩, hm⟩ : (lo ≤ j ∧ w ≠ d) ∧ twfFrom d (j + 1) m = true := by simpa [twfFrom] using h
    by_cases hj : j = k
    · simpa [tget, hj] using hw
    · have hmem : k ∈ m.map Prod.fst := (List.mem_cons.mp hk).resolve_left (Ne.symm hj)
      simpa [tget, hj] using ih hm hmem

end

/-! ### The writes of a commit -/

/-- The scratchpad bytes that the copy of a draft line writes, by byte address. -/
def DraftLine.copies (d : DraftLine) : List (Nat × Byte) := d.bytes.map fun b => (d.line * 64 + b.1, b.2.getD 0)

/-- A group's draft lines in ascending target order. -/
def Core.groupDrafts (core : Core) (g : Nat) : List DraftLine :=
  (core.drafts.filter fun d => d.group == g).mergeSort fun a b => decide (a.line ≤ b.line)

theorem Core.mem_groupDrafts {core : Core} {g : Nat} {d : DraftLine} : d ∈ core.groupDrafts g ↔ d ∈ core.drafts ∧ d.group = g := by
  simp [Core.groupDrafts]

/-- A draft line's bytes and stored types copied to its target line. -/
def Core.copyLine (core : Core) (d : DraftLine) : Core :=
  { core with
    spad := d.bytes.foldl (fun m b => tset 0 m (d.line * 64 + b.1) (b.2.getD 0)) core.spad
    stored := d.types.foldl (fun m w => tset none m (d.line * 4 + w.1) (w.2.getD none)) core.stored }

/-- The accesses of a commit asked of the banks. -/
def Core.requestCopies (core : Core) (l : List DraftLine) : Core := l.foldl (fun k d => k.request 1 [d.line]) core

theorem Core.copyDrafts_eq (core : Core) (g : Nat) :
    let copied := (core.groupDrafts g).foldl Core.copyLine (core.requestCopies (core.groupDrafts g))
    core.copyDrafts g = { copied with drafts := copied.drafts.filter fun d => d.group != g } := rfl

theorem Core.request_store (core : Core) (order : Nat) (lines : List Nat) :
    (core.request order lines).spad = core.spad ∧ (core.request order lines).drafts = core.drafts := by
  unfold Core.request
  split <;> exact ⟨rfl, rfl⟩

theorem Core.requestCopies_store (core : Core) (l : List DraftLine) :
    (core.requestCopies l).spad = core.spad ∧ (core.requestCopies l).drafts = core.drafts :=
  foldl_keeps (P := fun k : Core => k.spad = core.spad ∧ k.drafts = core.drafts) (f := fun (k : Core) (d : DraftLine) => k.request 1 [d.line])
    (fun k d h => ⟨(k.request_store 1 [d.line]).1.trans h.1, (k.request_store 1 [d.line]).2.trans h.2⟩) l core ⟨rfl, rfl⟩

theorem Core.copyLine_spad (core : Core) (d : DraftLine) : (core.copyLine d).spad = tsetAll 0 core.spad d.copies := by
  show d.bytes.foldl _ core.spad = _
  unfold DraftLine.copies
  induction d.bytes generalizing core with
  | nil => rfl
  | cons b l ih => exact ih { core with spad := tset 0 core.spad (d.line * 64 + b.1) (b.2.getD 0) }

theorem Core.copyLines (l : List DraftLine) (core : Core) :
    (l.foldl Core.copyLine core).spad = tsetAll 0 core.spad (l.flatMap DraftLine.copies) ∧
      (l.foldl Core.copyLine core).drafts = core.drafts := by
  induction l generalizing core with
  | nil => exact ⟨rfl, rfl⟩
  | cons d l ih =>
    obtain ⟨hspad, hdrafts⟩ := ih (core.copyLine d)
    rw [Core.copyLine_spad] at hspad
    exact ⟨by rw [List.foldl_cons, hspad, List.flatMap_cons, tsetAll_append], hdrafts⟩

/-- A commit copies the bytes of the group's draft lines, one line after another. -/
theorem Core.copyDrafts_spad (core : Core) (g : Nat) :
    (core.copyDrafts g).spad = tsetAll 0 core.spad ((core.groupDrafts g).flatMap DraftLine.copies) := by
  rw [Core.copyDrafts_eq]
  exact (Core.copyLines _ _).1.trans (congrArg (tsetAll 0 · _) (core.requestCopies_store _).1)

/-- A commit takes the group's draft lines and leaves those of every other group. -/
theorem Core.copyDrafts_drafts (core : Core) (g : Nat) : (core.copyDrafts g).drafts = core.drafts.filter fun d => d.group != g := by
  rw [Core.copyDrafts_eq]
  exact congrArg (List.filter fun d => d.group != g) ((Core.copyLines _ _).2.trans (core.requestCopies_store _).2)

/-- The bytes copied lie at different addresses: a group has one draft line for a target line. -/
theorem Core.copies_nodup {core : Core} {g : Nat} (hn : ((core.drafts.filter fun d => d.group == g).map DraftLine.line).Nodup)
    (hd : ∀ d ∈ core.drafts, d.group = g → twf none d.bytes = true ∧ ∀ b ∈ d.bytes, b.1 < 64) :
    (((core.groupDrafts g).flatMap DraftLine.copies).map Prod.fst).Nodup := by
  have hlines : ((core.groupDrafts g).map DraftLine.line).Nodup :=
    ((List.mergeSort_perm _ _).map DraftLine.line).nodup_iff.mpr hn
  have haddr (d : DraftLine) : d.copies.map Prod.fst = (d.bytes.map Prod.fst).map (d.line * 64 + ·) := by
    simp [DraftLine.copies, Function.comp_def]
  rw [List.map_flatMap, List.nodup_flatMap]
  refine ⟨fun d hmem => ?_, ?_⟩
  · obtain ⟨hmem, hg⟩ := Core.mem_groupDrafts.mp hmem
    rw [haddr]
    exact (nodup_of_twf (hd d hmem hg).1).map fun _ _ => Nat.add_left_cancel
  · refine (List.pairwise_map.mp hlines).imp_of_mem fun {a b} ha hb hab => ?_
    obtain ⟨ha, hag⟩ := Core.mem_groupDrafts.mp ha
    obtain ⟨hb, hbg⟩ := Core.mem_groupDrafts.mp hb
    intro x hxa hxb
    obtain ⟨y, hy, rfl⟩ : ∃ y ∈ a.bytes, a.line * 64 + y.1 = x := by simpa [DraftLine.copies] using hxa
    obtain ⟨z, hz, heq⟩ : ∃ z ∈ b.bytes, b.line * 64 + z.1 = a.line * 64 + y.1 := by simpa [DraftLine.copies] using hxb
    have hylt := (hd a ha hag).2 y hy
    have hzlt := (hd b hb hbg).2 z hz
    exact hab (by omega)

/-- A byte that a draft line holds is among those copied. -/
theorem DraftLine.mem_copies {d : DraftLine} {k : Nat} {v : Byte} (h : tget none d.bytes k = some v) : (d.line * 64 + k, v) ∈ d.copies :=
  List.mem_map.mpr ⟨(k, some v), mem_of_tget h (Option.some_ne_none v), rfl⟩

/-- A byte is copied from its own line's draft alone, and from one that holds it. -/
theorem DraftLine.notMem_copies {d : DraftLine} {a : Nat} (hw : twf none d.bytes = true) (hlt : ∀ b ∈ d.bytes, b.1 < 64)
    (h : d.line = a / 64 → tget none d.bytes (a % 64) = none) : a ∉ d.copies.map Prod.fst := by
  intro hmem
  obtain ⟨b, hb, rfl⟩ : ∃ b ∈ d.bytes, d.line * 64 + b.1 = a := by simpa [DraftLine.copies] using hmem
  have hblt := hlt b hb
  have hoff : (d.line * 64 + b.1) % 64 = b.1 := by omega
  have hnone := h (by omega)
  rw [hoff] at hnone
  exact tget_ne_of_mem hw (List.mem_map_of_mem hb) hnone

/-- Settles O27: the bytes copied lie at different addresses, so each is written once. -/
theorem commitCopiesDrafts : Obligations.CommitCopiesDrafts := by
  unfold Obligations.CommitCopiesDrafts
  intro core g hn hd after
  refine ⟨fun d hmem hg k v hv => ?_, fun a ha => ?_, Core.copyDrafts_drafts core g⟩
  · rw [Core.copyDrafts_spad]
    exact tget_tsetAll_of_mem _ _ (Core.copies_nodup hn hd)
      (List.mem_flatMap.mpr ⟨d, Core.mem_groupDrafts.mpr ⟨hmem, hg⟩, DraftLine.mem_copies hv⟩)
  · rw [Core.copyDrafts_spad]
    refine tget_tsetAll_of_notMem _ _ fun hmem => ?_
    rw [List.map_flatMap, List.mem_flatMap] at hmem
    obtain ⟨d, hdmem, hcopy⟩ := hmem
    obtain ⟨hmem, hg⟩ := Core.mem_groupDrafts.mp hdmem
    obtain ⟨hw, hlt⟩ := hd d hmem hg
    exact DraftLine.notMem_copies hw hlt (ha d hmem hg) hcopy

end Sys2Proof.Machine
end

section
/-! PROOFS. Tokens and credits on their routes (R72, R73, R76, R77, R95, R196, R212). -/

namespace Sys2Proof.Machine

open Sys2Proof

/-! ### Arrivals -/

/-- TOKEN_ARRIVE of a token whose slot has come delivers it, in flight no more. -/
theorem exec_tokenArrive_of_due {s : State} {p n : Nat} {f : TokFlight} (hf : (s.part p).toks[n]? = some f) (hdue : f.due ≤ s.slot) :
    exec (.tokenArrive p n) s =
      .next ((s.modPart p fun part => { part with toks := dropAt part.toks n }).deliver p f.dest f.tok f.src) := by
  show execTokenArrive p n s = _
  rw [execTokenArrive, hf]
  exact congrArg Host.Outcome.next (if_pos hdue)

/-- Whether a core takes no token of a generation: it is gated, fenced or of another one (R95). -/
def Core.refuses (core : Core) (gen : Nat) : Bool := core.power == .gated || core.power == .fenced || gen != core.gen

section
variable {s : State} {p d : Nat} {t : Tok} {src : Option (Nat × Nat)}

/-- A core that takes no token of the generation counts it as dropped (R95). -/
theorem State.deliver_of_refused (h : (s.core d).refuses t.gen = true) :
    s.deliver p d t src = s.setCore d { s.core d with dropGen := satInc32 (s.core d).dropGen } := if_pos h

section
variable (h : (s.core d).refuses t.gen = false)
include h

/-- A token of the epoch goes to the end of its queue, and wakes the core (R73, R94). -/
theorem State.deliver_of_epoch (hepoch : tagEpoch t.tag = (s.part p).epoch) : s.deliver p d t src = s.setCore d
    (({ s.core d with
        queues := tset [] (s.core d).queues t.queue (tget [] (s.core d).queues t.queue ++ [{ tok := t, src := src }]) } : Core).rouse s.slot) :=
  (if_neg (ne_true_of_eq_false h)).trans (if_pos hepoch)

/-- A token that comes one epoch late goes to its row's cloakroom (R212). -/
theorem State.deliver_of_late (hepoch : tagEpoch t.tag ≠ (s.part p).epoch) (hlate : (tagEpoch t.tag + 1) % 64 = (s.part p).epoch) :
    s.deliver p d t src = s.modCloak (d / 48) fun k =>
      if k.room then { k with late := k.late ++ [t], counts := bump k.counts 4 } else { k with counts := bump (bump k.counts 3) 4 } :=
  (if_neg (ne_true_of_eq_false h)).trans ((if_neg hepoch).trans (if_pos hlate))

/-- A token of any other epoch is counted there alone (R212). -/
theorem State.deliver_of_stale (hepoch : tagEpoch t.tag ≠ (s.part p).epoch) (hlate : (tagEpoch t.tag + 1) % 64 ≠ (s.part p).epoch) :
    s.deliver p d t src = s.modCloak (d / 48) fun k => { k with counts := bump k.counts 4 } :=
  (if_neg (ne_true_of_eq_false h)).trans ((if_neg hepoch).trans (if_neg hlate))

end

end

@[simp] theorem Core.rouse_credits (core : Core) (slot : Nat) : (core.rouse slot).credits = core.credits := by
  unfold Core.rouse
  split <;> rfl

/-- The state in which credits that have arrived are the producer's; a producer that waits for them to close wakes (R76, R94). -/
def State.creditsTaken (s : State) (p n : Nat) (f : CreditFlight) : State :=
  (s.modPart p fun part => { part with credits := dropAt part.credits n }).modCore f.core fun core =>
    let core := { core with credits := tmod 0 core.credits f.edge (· + f.count) }
    if [Stream.F, .B, .U].any core.atClose then core.rouse s.slot else core

/-- CREDIT_ARRIVE of credits whose slot has come. -/
theorem exec_creditArrive_of_due {s : State} {p n : Nat} {f : CreditFlight} (hf : (s.part p).credits[n]? = some f) (hdue : f.due ≤ s.slot) :
    exec (.creditArrive p n) s = .next ((s.creditsTaken p n f).settleCore f.core) := by
  show execCreditArrive p n s = _
  rw [execCreditArrive, hf]
  exact congrArg Host.Outcome.next (if_pos hdue)

theorem State.creditsTaken_part_credits (s : State) (p n : Nat) (f : CreditFlight) :
    ((s.creditsTaken p n f).part p).credits = dropAt (s.part p).credits n := by
  simp [State.creditsTaken]

theorem State.creditsTaken_core_credits (s : State) (p n : Nat) (f : CreditFlight) :
    ((s.creditsTaken p n f).core f.core).credits = tset 0 (s.core f.core).credits f.edge (tget 0 (s.core f.core).credits f.edge + f.count) := by
  rw [State.creditsTaken, State.modCore_eq, State.setCore_core_self]
  dsimp only
  split
  · exact Core.rouse_credits ..
  · rfl

/-! ### Occurrences -/

section
variable {s : State} {c e : Nat} (hlocal : edgeLocal (tget 0 (s.core c).cfg.edges e).toNat = false)
include hlocal

/-- A token occurrence of an edge whose first waiting token is ready: it leaves the core. -/
theorem exec_tokenOccurrence_of_ready {o : OutTok} {rest : List OutTok} :
    let core := s.core c
    let part := s.part (s.partOfCore c)
    let r := cfgRoute core.cfg e
    tget 0 core.lastTok e ≠ s.slot + 1 → part.routeOccurs r (routePhase r) (s.slot + 3 + routeHops r) s.slot = true →
    takeFirst (fun o : OutTok => o.edge == e) core.outToks = some (o, rest) → part.tokenReady (s.slot + 3 + routeHops r) o = true →
    exec (.tokenOccurrence c e) s = .next
      ((((s.setCore c { core with lastTok := tset 0 core.lastTok e (s.slot + 1) }).setCore c
        { core with lastTok := tset 0 core.lastTok e (s.slot + 1), outToks := rest }).tokenLeaves c e (s.slot + 3 + routeHops r) o).settleCore c) := by
  intro core part r hlast hocc htake hready
  show execTokenOccurrence c e s = _
  have hgo : (edgeLocal (tget 0 core.cfg.edges e).toNat || decide (tget 0 core.lastTok e = s.slot + 1) ||
      !part.routeOccurs r (routePhase r) (s.slot + 3 + routeHops r) s.slot) = false := by
    simp only [Bool.or_eq_false_iff, decide_eq_false_iff_not, Bool.not_eq_false']
    exact ⟨⟨hlocal, hlast⟩, hocc⟩
  refine congrArg Host.Outcome.next ((if_neg (ne_true_of_eq_false hgo)).trans ?_)
  rw [htake]
  exact if_pos hready

/-- A credit occurrence of an edge to a core that owes it credits: up to 15 leave. -/
theorem exec_creditOccurrence_of_owed :
    let core := s.core c
    let part := s.part (s.partOfCore c)
    let r := cfgRoute core.cfg e
    let d := cfgDest core.cfg e
    tget 0 core.lastCredit e ≠ s.slot + 1 → part.routeOccurs r (routeCreditPhase r) (s.slot + 2 + routeCreditHops r) s.slot = true → d < 4096 →
    let s1 := s.setCore c { core with lastCredit := tset 0 core.lastCredit e (s.slot + 1) }
    let owed := tget 0 (s1.core d).owed (c * 16 + e)
    0 < owed → exec (.creditOccurrence c e) s = .next
      ((s1.modCore d fun k => { k with owed := tset 0 k.owed (c * 16 + e) (owed - min 15 owed) }).modPart (s.partOfCore c) fun part =>
        { part with credits := part.credits ++ [{ core := c, edge := e, count := min 15 owed, due := s.slot + 2 + routeCreditHops r + 1 }] }) := by
  intro core part r d hlast hocc hdest s1 owed howed
  show execCreditOccurrence c e s = _
  have hgo : (edgeLocal (tget 0 core.cfg.edges e).toNat || decide (tget 0 core.lastCredit e = s.slot + 1) ||
      !part.routeOccurs r (routeCreditPhase r) (s.slot + 2 + routeCreditHops r) s.slot) = false := by
    simp only [Bool.or_eq_false_iff, decide_eq_false_iff_not, Bool.not_eq_false']
    exact ⟨⟨hlocal, hlast⟩, hocc⟩
  have hsome : (decide (min 15 owed = 0) || decide (4096 ≤ d)) = false := by
    simp only [Bool.or_eq_false_iff, decide_eq_false_iff_not]
    omega
  exact congrArg Host.Outcome.next ((if_neg (ne_true_of_eq_false hgo)).trans (if_neg (ne_true_of_eq_false hsome)))

end

/-- Settles O25: the four outcomes of an arrival, the occurrences of tokens and credits, and the credits' arrival. -/
theorem tokensArriveAndLeave : Obligations.TokensArriveAndLeave := by
  unfold Obligations.TokensArriveAndLeave
  intro s p n c e
  refine ⟨?_, ?_, fun f hf hdue => ⟨s.creditsTaken p n f, exec_creditArrive_of_due hf hdue, s.creditsTaken_part_credits p n f,
    s.creditsTaken_core_credits p n f, rfl⟩⟩
  · intro f hf hdue s1 core gone epoch
    have harrive := exec_tokenArrive_of_due hf hdue
    exact ⟨fun h => harrive.trans (congrArg _ (State.deliver_of_refused h)),
      fun h hepoch => harrive.trans (congrArg _ (State.deliver_of_epoch h hepoch)),
      fun h hepoch hlate => harrive.trans (congrArg _ (State.deliver_of_late h hepoch hlate)),
      fun h hepoch hlate => harrive.trans (congrArg _ (State.deliver_of_stale h hepoch hlate))⟩
  · intro core part r d hlocal
    exact ⟨fun o rest => exec_tokenOccurrence_of_ready hlocal, exec_creditOccurrence_of_owed hlocal⟩

end Sys2Proof.Machine
end

section
/-! PROOFS. The messages of the bell tree and the control network (R96, R203 to R208). -/

namespace Sys2Proof.Machine

open Sys2Proof

section
variable {s : State} {p c : Nat}

/-! ### Messages to the control root -/

section
variable {rest : List UpMsg}

/-- RING: its amount goes to the root's bell. -/
theorem exec_ringMessage_of_up {b k : Nat} {amount : W32} (h : (s.part p).up = .ring b amount k :: rest) :
    exec (.ringMessage p) s = .next ((s.modPart p fun part => { part with up := rest }).ringRoot p b amount) := by
  show execRingMessage p s = _
  rw [execRingMessage, h]

/-- The state in which an ARM has been taken and its answer sent. -/
def State.armTaken (s : State) (p b k : Nat) (q : Stream) (rest : List UpMsg) : State :=
  (s.modPart p fun part => { part with up := rest, armed := addOnce part.armed b }).modCore k fun core =>
    { core with inbox := core.inbox ++ [.count b (tget 0 (s.part p).bells b) (some q)] }

/-- ARM: the bell is armed, and the count is answered. -/
theorem exec_armMessage_of_up {b k : Nat} {q : Stream} (h : (s.part p).up = .arm b k q :: rest) :
    exec (.armMessage p) s = .next (s.armTaken p b k q rest) := by
  show execArmMessage p s = _
  rw [execArmMessage, h]
  simp only [State.armTaken, State.modPart_eq, State.setPart_part_self]

theorem mem_addOnce {α : Type} [DecidableEq α] (l : List α) (a : α) : a ∈ addOnce l a := by
  unfold addOnce
  split
  · assumption
  · exact List.mem_append_right _ (List.mem_singleton_self a)

theorem State.armTaken_spec (s : State) (p b k : Nat) (q : Stream) (rest : List UpMsg) :
    let u := s.armTaken p b k q rest
    (u.part p).up = rest ∧ b ∈ (u.part p).armed ∧
      (u.core k).inbox = (s.core k).inbox ++ [.count b (tget 0 (s.part p).bells b) (some q)] ∧
      u = { s with parts := u.parts, cores := u.cores } := by
  refine ⟨?_, ?_, ?_, rfl⟩ <;> simp [State.armTaken, mem_addOnce]

/-- END: the core has ended, and with the last seated one the section closes. -/
theorem exec_endMessage_of_up {k : Nat} (h : (s.part p).up = .fin k :: rest) :
    let s1 := s.modPart p fun part => { part with up := rest, ended := addOnce part.ended k }
    let all := (s1.part p).sect == .open && (s1.seatedOf p).all fun c => decide (c ∈ (s1.part p).ended)
    exec (.endMessage p) s = .next (if all then s1.closeSection p else s1) := by
  show execEndMessage p s = _
  rw [execEndMessage, h]

end

/-! ### Messages to a core -/

section
variable {rest : List DownMsg}

/-- COUNT in answer to an arm: taken by the sequencer that armed. -/
theorem exec_countMessage_of_answer {b : Nat} {n : W32} {q : Stream}
    (h : takeFirst DownMsg.isCount (s.core c).inbox = some (.count b n (some q), rest)) :
    exec (.countMessage c) s = .next (s.setCore c
      (({ s.core c with inbox := rest } : Core).setSeq q (((s.core c).seq q).takeCount b n true))) := by
  show execCountMessage c s = _
  rw [execCountMessage, h]
  rfl

/-- The core with a count taken by all three sequencers; one that waits on the bell wakes it (R94). -/
def Core.countTaken (core : Core) (b : Nat) (n : W32) (rest : List DownMsg) (slot : Nat) : Core :=
  let waits := [core.seqF, core.seqB, core.seqU].any fun q => q.waiting == some b || q.waitingBody == some b
  let core := { core with inbox := rest, seqF := core.seqF.takeCount b n false, seqB := core.seqB.takeCount b n false
                          seqU := core.seqU.takeCount b n false }
  if waits then core.rouse slot else core

/-- COUNT to all: taken by all three sequencers. -/
theorem exec_countMessage_of_all {b : Nat} {n : W32} (h : takeFirst DownMsg.isCount (s.core c).inbox = some (.count b n none, rest)) :
    exec (.countMessage c) s = .next (s.setCore c ((s.core c).countTaken b n rest s.slot)) := by
  show execCountMessage c s = _
  rw [execCountMessage, h]
  rfl

theorem Core.rouse_inbox_seq (core : Core) (slot : Nat) : (core.rouse slot).inbox = core.inbox ∧ ∀ q, (core.rouse slot).seq q = core.seq q := by
  unfold Core.rouse
  split
  · exact ⟨rfl, fun q => by cases q <;> rfl⟩
  · exact ⟨rfl, fun _ => rfl⟩

theorem Core.countTaken_spec (core : Core) (b : Nat) (n : W32) (rest : List DownMsg) (slot : Nat) :
    (core.countTaken b n rest slot).inbox = rest ∧ ∀ q, (core.countTaken b n rest slot).seq q = (core.seq q).takeCount b n false := by
  have hseq (q : Stream) : ({ core with inbox := rest, seqF := core.seqF.takeCount b n false, seqB := core.seqB.takeCount b n false
                                        seqU := core.seqU.takeCount b n false } : Core).seq q = (core.seq q).takeCount b n false := by
    cases q <;> rfl
  unfold Core.countTaken
  dsimp only
  split
  · exact ⟨(Core.rouse_inbox_seq ..).1, fun q => ((Core.rouse_inbox_seq ..).2 q).trans (hseq q)⟩
  · exact ⟨rfl, hseq⟩

/-- CLOSE: taken. -/
theorem exec_closeMessage_of_take {m : DownMsg} (h : takeFirst DownMsg.isClose (s.core c).inbox = some (m, rest)) :
    exec (.closeMessage c) s = .next (s.setCore c { s.core c with inbox := rest }) := by
  show execCloseMessage c s = _
  rw [execCloseMessage, h]
  rfl

/-- GEN: the consumer's generation is recorded, and the credits of every edge to it are restored. -/
theorem exec_genMessage_of_take {d g : Nat} (hp : s.partOfCore c = p)
    (h : takeFirst DownMsg.isGen (s.core c).inbox = some (.gen d g, rest)) :
    let core := s.core c
    let es := (core.cfg.edges.map Prod.fst).filter fun e => !edgeLocal (tget 0 core.cfg.edges e).toNat && cfgDest core.cfg e == d
    exec (.genMessage p c) s = .next ((s.setCore c
      { core with
        inbox := rest, gens := tset 0 core.gens d g
        credits := es.foldl (fun m e => tset 0 m e (edgeDepth (tget 0 core.cfg.edges e).toNat)) core.credits }).settleCore c) := by
  show execGenMessage p c s = _
  rw [execGenMessage, h]
  exact congrArg Host.Outcome.next (if_neg (by simp [hp]))

end

end

/-- Settles O28, one message at a time. -/
theorem bellTreeMessages : Obligations.BellTreeMessages := by
  unfold Obligations.BellTreeMessages
  intro s p c
  exact ⟨fun b amount k rest => exec_ringMessage_of_up,
    fun b k q rest h => ⟨_, exec_armMessage_of_up h, s.armTaken_spec p b k q rest⟩,
    fun b n q rest => exec_countMessage_of_answer,
    fun b n rest h => ⟨_, exec_countMessage_of_all h, by simpa using ((s.core c).countTaken_spec b n rest s.slot).1,
      by simpa using ((s.core c).countTaken_spec b n rest s.slot).2, rfl⟩,
    fun k rest => exec_endMessage_of_up,
    fun m rest => exec_closeMessage_of_take,
    fun d g rest => exec_genMessage_of_take⟩

end Sys2Proof.Machine
end

section
/-! PROOFS. The change of sections and the section watchdog (R92, R185, R186, R208 to R211). -/

namespace Sys2Proof.Machine

open Sys2Proof

section
variable {s : State} {p : Nat}

/-- SWITCH_SLOT of a closing section whose switch slot has come. -/
theorem exec_switchSlot_of_closing (hsect : (s.part p).sect = .closing) (hslot : (s.part p).switchAt ≤ s.slot) :
    exec (.switchSlot p) s = .next ((s.switch p).loadLinks p) :=
  congrArg Host.Outcome.next (if_pos (by simp [hsect, hslot]))

/-- WINDOW_B_START 256 slots after the switch, where every configuration reads well. -/
theorem exec_windowBStart_of_windowA (hsect : (s.part p).sect = .windowA) (hslot : (s.part p).switchAt + 256 ≤ s.slot)
    (hgood : s.cfgsGood p = true) :
    exec (.windowBStart p) s = .next ((s.loadCores p).modPart p fun part => { part with sect := .windowB }) :=
  congrArg Host.Outcome.next ((if_pos (by simp [hsect, hslot])).trans (if_pos hgood))

/-- The state in which the cloakrooms have handed on their tokens and the producers have their credits (R76, R211). -/
def State.reinjected (s : State) (p : Nat) : State :=
  let s1 := (s.rowsOf p).foldl (fun s r => s.reinjectRow p r) s
  (s1.seatedOf p).foldl (fun s c => s.setCredits c) s1

/-- WINDOW_C_START after the section's LOAD. -/
theorem exec_windowCStart_of_windowB (hsect : (s.part p).sect = .windowB)
    (hslot : (s.part p).switchAt + 256 + (s.part p).sec.load ≤ s.slot) :
    exec (.windowCStart p) s = .next ((s.reinjected p).modPart p fun part => { part with sect := .windowC }) :=
  congrArg Host.Outcome.next (if_pos (by simp [hsect, hslot]))

/-- SECTION_START at the start slot; a section that seats no core closes at once. -/
theorem exec_sectionStart_of_windowC (hsect : (s.part p).sect = .windowC) (hslot : (s.part p).startAt ≤ s.slot) :
    exec (.sectionStart p) s =
      .next (if (s.startSection p).seatedOf p = [] then (s.startSection p).closeSection p else s.startSection p) :=
  congrArg Host.Outcome.next (if_pos (by simp [hsect, hslot]))

/-- SECTION_STUCK of an open section whose watchdog has run out while a core holds work. -/
theorem exec_sectionStuck_of_open (hsect : (s.part p).sect = .open) (hdog : 2 ^ 20 ≤ (s.part p).watchdog)
    (hwork : (s.coresOf p).any (fun c => (s.core c).holdsWork) = true) : exec (.sectionStuck p) s = .next (s.endStep p stSectionStuck) := by
  have hstuck : ((s.part p).sect == .open && decide (2 ^ 20 ≤ (s.part p).watchdog) &&
      (s.coresOf p).any fun c => (s.core c).holdsWork) = true := by
    rw [hsect, hwork, decide_eq_true hdog]
    rfl
  exact congrArg Host.Outcome.next (if_pos hstuck)

/-- PERIOD_BOUNDARY at the end of a period of a running timetable. -/
theorem exec_periodBoundary_of_ended (hruns : (s.part p).timetableRuns s.slot = true)
    (hslot : (s.part p).entryAt + periodLen (s.part p).period ≤ s.slot) :
    exec (.periodBoundary p) s = .next (s.setPart p (s.part p).nextPeriod) :=
  congrArg Host.Outcome.next (if_pos (by simp [hruns, hslot]))

end

/-- Settles O29, one event at a time. -/
theorem sectionsSwitchInOrder : Obligations.SectionsSwitchInOrder := by
  unfold Obligations.SectionsSwitchInOrder
  intro s p part
  refine ⟨exec_switchSlot_of_closing, exec_windowBStart_of_windowA, fun hsect hslot => ?_, exec_sectionStart_of_windowC,
    exec_sectionStuck_of_open, exec_periodBoundary_of_ended⟩
  exact ⟨_, exec_windowCStart_of_windowB hsect hslot, by rw [State.modPart_eq, State.setPart_part_self], rfl⟩

end Sys2Proof.Machine
end

section
/-! PROOFS. The power states of a core (R93 to R96). -/

namespace Sys2Proof.Machine

open Sys2Proof

section
variable {s : State} {c : Nat}

/-- CLOCK_STOP of a running core that has been idle for 64 arithmetic cycles. -/
theorem exec_clockStop_of_quiet (hpower : (s.core c).power = .running) (hidle : 64 ≤ (s.core c).idle) (hquiet : s.quiet c = true) :
    exec (.clockStop c) s = .next (s.setCore c { s.core c with power := .clockStop, wake := none }) :=
  congrArg Host.Outcome.next (if_pos (by simp [hpower, hidle, hquiet]))

/-- CORE_WAKE 48 slots after the waking event. -/
theorem exec_coreWake_of_due {t : Nat} (hwake : (s.core c).wake = some t) (hpower : (s.core c).power = .clockStop) (hdue : t + 48 ≤ s.slot) :
    exec (.coreWake c) s = .next ((s.setCore c { s.core c with power := .running, wake := none, idle := 0 }).settleCore c) := by
  show execCoreWake c s = _
  simp only [execCoreWake, hwake]
  exact congrArg Host.Outcome.next (if_pos (by simp [hpower, hdue]))

/-- CORE_GATE of a powered core that may be gated. -/
theorem exec_coreGate_of_mayGate (hpower : (s.core c).power = .running ∨ (s.core c).power = .clockStop) (hgate : s.mayGate c = true) :
    exec (.coreGate c) s = .next ((s.zeroProducers c).setCore c (((s.zeroProducers c).core c).unpowered .gated)) :=
  congrArg Host.Outcome.next (if_pos (by rcases hpower with h | h <;> simp [h, hgate]))

/-- CORE_POWER_UP of a gated core with the main regulators on. -/
theorem exec_corePowerUp_of_gated (hpower : (s.core c).power = .gated) (hmain : s.power.mainOn = true) :
    exec (.corePowerUp c) s = .next (s.setCore c { s.core c with
      power := .running, gen := ((s.core c).gen + 1) % 256, valid := false
      rollCall := if (s.core c).seated then some s.slot else none }) :=
  congrArg Host.Outcome.next (if_pos (by simp [hpower, hmain]))

/-- ROLL_CALL of a seated core that is not valid, where the section has a configuration for it that reads well. -/
theorem exec_rollCall_of_seated (hpower : (s.core c).power = .running) (hseated : (s.core c).seated = true) (hvalid : (s.core c).valid = false)
    (hloads : (s.part (s.partOfCore c)).loads = true) (hcfg : (s.cfgRead (s.partOfCore c) c).isSome = true) :
    exec (.rollCall c) s = .next (s.rollCallDone c) :=
  congrArg Host.Outcome.next ((if_pos (by simp [hpower, hseated, hvalid, hloads])).trans (if_pos hcfg))

/-- ROLL_CALL_TIMEOUT of a roll call that has gone unanswered for 76,800 slots. -/
theorem exec_rollCallTimeout_of_due {t : Nat} (hcall : (s.core c).rollCall = some t) (hvalid : (s.core c).valid = false)
    (hdue : t + 76800 ≤ s.slot) : exec (.rollCallTimeout c) s = .next (s.fenceSite (s.siteOf c)) := by
  show execRollCallTimeout c s = _
  rw [execRollCallTimeout, hcall]
  exact congrArg Host.Outcome.next (if_pos (by simp [hvalid, hdue]))

end

/-- Settles O31, one command at a time. -/
theorem corePowerStates : Obligations.CorePowerStates := by
  unfold Obligations.CorePowerStates
  intro s c core
  exact ⟨exec_clockStop_of_quiet, fun t => exec_coreWake_of_due, exec_coreGate_of_mayGate, exec_corePowerUp_of_gated,
    exec_rollCall_of_seated, fun t => exec_rollCallTimeout_of_due⟩

end Sys2Proof.Machine
end

section
/-! PROOFS. The tile operations of the tensor engine: what each leaves of its core's store and of its region, and where it has an effect (R101, R106,
R109, R112 to R114, R117, R125). -/

namespace Sys2Proof.Machine

open Sys2Proof

/-! ### The virtual accumulator is no part of the store -/

theorem SameStore.trans {a b c : Core} (h : SameStore a b) (k : SameStore b c) : SameStore a c := by
  obtain ⟨hspad, hdrafts, hstored⟩ := h
  obtain ⟨kspad, kdrafts, kstored⟩ := k
  exact ⟨hspad.trans kspad, hdrafts.trans kdrafts, hstored.trans kstored⟩

theorem foldl_sameStore {β : Type} {f : Core → β → Core} (h : ∀ c x, SameStore (f c x) c) : ∀ (l : List β) (c : Core), SameStore (l.foldl f c) c
  | [], _ => ⟨rfl, rfl, rfl⟩
  | x :: l, c => (foldl_sameStore h l (f c x)).trans (h c x)

theorem setAcc_sameStore (core : Core) (e w v : Nat) : SameStore (core.setAcc e w v) core := ⟨rfl, rfl, rfl⟩

theorem setBlock_sameStore (core : Core) (e b : Nat) (r : Option Block8) : SameStore (core.setBlock e b r) core := ⟨rfl, rfl, rfl⟩

/-! ### An operation on the engines of its mask (R109, R114) -/

/-- `core` is the operation's core with its virtual slot made resident in each engine of its mask (R114). -/
def Issue.HoldsSlot (i : Issue) (core : Core) : Prop := i.core.needSlots (opAcc i.n / 8) (opEngines i.n) = some core

/-- An effect that writes no more of the scratchpad and the draft lines than making the slot resident does. -/
def Issue.Quiet (i : Issue) (e : Eff) : Prop :=
  e.writes = [] ∧ ∃ core, i.HoldsSlot core ∧ e.core.spad = core.spad ∧ e.core.drafts = core.drafts

/-- A drain's effect `eff`: the region is freed, and nothing else is done where every block of it was skipped (R113, R125). -/
def Issue.Drained (i : Issue) (eff : Core → Eff) (e : Eff) : Prop :=
  ∃ core, i.HoldsSlot core ∧ e = eff core ∧ (i.allSkipped core = true → e.writes = [] ∧ e.flags = [] ∧ e.units = []) ∧ e.core = i.freeRegion core

section
variable {i : Issue} {port : Bool} {f : Core → Eff} {e : Eff}

/-- Its effect is the one on its core with the virtual slot made resident. -/
theorem onEngines_inv (h : i.onEngines port f = .eff e) : ∃ core, i.HoldsSlot core ∧ e = f core := by
  unfold Issue.onEngines at h
  dsimp only at h
  split at h
  · cases h
  · split at h
    · cases h
    · rename_i core hslot
      cases h
      exact ⟨core, hslot, rfl⟩

/-- It has an effect where each engine has room for its class and the slot is resident or made so. -/
theorem onEngines_accepts (f : Core → Eff) (h : i.core.enginesAccept (opEngines i.n) port = true ∧ ∃ core, i.HoldsSlot core) :
    ∃ e, i.onEngines port f = .eff e := by
  obtain ⟨hroom, core, hslot⟩ := h
  exact ⟨f core, onEngines_eff f hroom hslot⟩

/-! ### Operations that write no scratchpad -/

/-- An operation that leaves the store alone writes no more of it than making its slot resident does. -/
theorem onEngines_quiet (hf : ∀ core, (f core).writes = [] ∧ SameStore (f core).core core) (h : i.onEngines port f = .eff e) : i.Quiet e := by
  obtain ⟨core, hslot, rfl⟩ := onEngines_inv h
  obtain ⟨hwrites, hspad, hdrafts, -⟩ := hf core
  exact ⟨hwrites, core, hslot, hspad, hdrafts⟩

/-- A cube-class operation sets words and block records alone, and of a frozen layer block records alone (R125). -/
theorem cubeEff_quiet (accumulate wg : Bool) (i : Issue) (core : Core) :
    (cubeEff accumulate wg i core).writes = [] ∧ SameStore (cubeEff accumulate wg i core).core core := by
  unfold cubeEff
  dsimp only
  split
  · exact ⟨rfl, foldl_sameStore (fun _ _ => setBlock_sameStore ..) _ _⟩
  · exact ⟨rfl, foldl_sameStore (fun _ _ => (setBlock_sameStore ..).trans (foldl_sameStore (fun _ _ => setAcc_sameStore ..) _ _)) _ _⟩

theorem cubeTry_quiet {accumulate wg : Bool} (h : cubeTry accumulate wg i = .eff e) : i.Quiet e := onEngines_quiet (cubeEff_quiet accumulate wg i) h

/-- ACC_LOAD sets the words of its region and then its blocks' records. -/
theorem accLoadEff_quiet (i : Issue) (core : Core) : (accLoadEff i core).writes = [] ∧ SameStore (accLoadEff i core).core core :=
  ⟨rfl, (foldl_sameStore (fun _ _ => setBlock_sameStore ..) _ _).trans (foldl_sameStore (fun _ _ => setAcc_sameStore ..) _ _)⟩

theorem accLoadTry_quiet (h : accLoadTry i = .eff e) : i.Quiet e := onEngines_quiet (accLoadEff_quiet i) h

/-! ### Drains -/

/-- A drain frees its region whether it goes on to write or finds every block skipped, and in the latter case does nothing else (R125). -/
theorem frees_whether_skipped {core : Core} {x : Eff} (hx : x.core = i.freeRegion core) (he : e = if i.allSkipped core then i.skipEff core else x) :
    (i.allSkipped core = true → e.writes = [] ∧ e.flags = [] ∧ e.units = []) ∧ e.core = i.freeRegion core := by
  by_cases hskip : i.allSkipped core = true
  · rw [if_pos hskip] at he
    subst he
    exact ⟨fun _ => ⟨rfl, rfl, rfl⟩, rfl⟩
  · rw [if_neg hskip] at he
    subst he
    exact ⟨fun h => absurd h hskip, hx⟩

theorem drainTry_drained (h : drainTry i = .eff e) : i.Drained (drainEff i) e := by
  obtain ⟨core, hslot, he⟩ := onEngines_inv h
  exact ⟨core, hslot, he, frees_whether_skipped rfl he⟩

theorem drainAddTry_drained (h : drainAddTry i = .eff e) : i.Drained (drainAddEff i) e := by
  obtain ⟨core, hslot, he⟩ := onEngines_inv h
  exact ⟨core, hslot, he, frees_whether_skipped rfl he⟩

end

/-- Settles O12, one operation at a time. -/
theorem matrixOperationsLand : Obligations.MatrixOperationsLand := by
  unfold Obligations.MatrixOperationsLand
  intro s c q i e slots quiet drained room
  exact ⟨fun hr => ⟨_, rfl, hr.lands, cubeTry_quiet hr.effect⟩, fun hr => ⟨_, rfl, hr.lands, cubeTry_quiet hr.effect⟩,
    fun hr => ⟨_, rfl, hr.lands, cubeTry_quiet hr.effect⟩, fun hr => ⟨_, rfl, hr.lands, cubeTry_quiet hr.effect⟩,
    fun hr => ⟨_, rfl, hr.lands, accLoadTry_quiet hr.effect⟩,
    fun hr => ⟨_, rfl, hr.lands, drainTry_drained hr.effect⟩, fun hr => ⟨_, rfl, hr.lands, drainAddTry_drained hr.effect⟩,
    fun hroom _ _ => onEngines_accepts _ hroom,
    fun hroom => ⟨onEngines_accepts _ hroom, onEngines_accepts _ hroom, onEngines_accepts _ hroom⟩⟩

end Sys2Proof.Machine
end

section
/-! PROOFS. The ends of operations: an engine's, and those of the row unit, the vector unit and the attention pipe (R106, R109, R110, R129, R158). -/

namespace Sys2Proof.Machine

open Sys2Proof

/-! ### What the end of an operation leaves of its core -/

section
variable (core : Core)

/-- A requester left with nothing asks the banks for nothing more. -/
theorem Core.dropRequests_eq (order : Nat) (idle : Bool) : core.dropRequests order idle =
    { core with bankReqs := if idle then core.bankReqs.filter fun r => r.1 != order else core.bankReqs } := by
  cases idle <;> rfl

/-- The unfinished operation removed is the first of its class. -/
theorem dropClass_cons_self {port : Bool} {u : Unfin} (l : List Unfin) (h : u.port = port) : dropClass port (u :: l) = l := by
  simp [dropClass, takeFirst, h]

/-- The oldest operation of a class leaves its engine, unless it waits (R106, R109); accesses to the banks are only taken back. -/
theorem Core.endOperation_of_started {e : Nat} {port : Bool} {x : Unfin} (hx : core.oldest e port = some x) (hstart : core.opWaits e x = false) :
    ∃ reqs, core.endOperation e port = { core with
      engines := tset {} core.engines e { core.engine e with unfin := dropClass port (core.engine e).unfin }, bankReqs := reqs } ∧
      ∀ r ∈ reqs, r ∈ core.bankReqs := by
  simp only [Core.endOperation, hx, hstart, Bool.false_eq_true, if_false, Core.dropRequests_eq]
  refine ⟨_, rfl, fun r hr => ?_⟩
  split at hr
  · exact List.mem_of_mem_filter hr
  · exact hr

/-- An engine without an operation of the class, or whose oldest one waits, is as it was. -/
theorem Core.endOperation_of_waits {e : Nat} {port : Bool} (h : ∀ x, core.oldest e port = some x → core.opWaits e x = true) :
    core.endOperation e port = core := by
  unfold Core.endOperation
  cases hx : core.oldest e port with
  | none => rfl
  | some x => exact if_pos (h x hx)

theorem Core.endCompute_row : core.endCompute 11 = { core with
    rowUnit := core.rowUnit.drop 1
    bankReqs := if decide (core.rowUnit.length ≤ 1) then core.bankReqs.filter fun r => r.1 != 19 else core.bankReqs } :=
  Core.dropRequests_eq ..

theorem Core.endCompute_vector : core.endCompute 12 = { core with
    vecUnit := core.vecUnit.drop 1
    bankReqs := if decide (core.vecUnit.length ≤ 1) then core.bankReqs.filter fun r => r.1 != 20 else core.bankReqs } :=
  Core.dropRequests_eq ..

theorem Core.endCompute_attention : core.endCompute 13 = { core with
    attn := core.attn.drop 1
    bankReqs := if decide (core.attn.length ≤ 1) then core.bankReqs.filter fun r => r.1 != 18 else core.bankReqs } :=
  Core.dropRequests_eq ..

end

/-! ### The commands -/

theorem exec_engineOperationDone (s : State) (c e : Nat) (port : Bool) :
    exec (.engineOperationDone c e port) s = .next (s.setCore c ((s.core c).endOperation e port)) := rfl

/-- An operation of a unit ends, but for a key-value command of the attention pipe whose request goes on (R178, R180). -/
theorem exec_computeUnitOperationDone {s : State} {c unit : Nat} (h : (decide (unit = 13) && s.kvWaits c) = false) :
    exec (.computeUnitOperationDone c unit) s = .next (s.setCore c ((s.core c).endCompute unit)) :=
  congrArg Host.Outcome.next (if_neg (by simp [h]))

/-- Settles O24, one unit at a time. -/
theorem unitOperationsEnd : Obligations.UnitOperationsEnd := by
  unfold Obligations.UnitOperationsEnd
  intro s c core requests
  refine ⟨fun e port x hx hstart => ?_, fun e port h => ?_, ?_, ?_, fun hkv => ?_, fun port u l => dropClass_cons_self l⟩
  · obtain ⟨reqs, hcore, hreqs⟩ := core.endOperation_of_started hx hstart
    exact ⟨reqs, by rw [exec_engineOperationDone, hcore], hreqs⟩
  · rw [exec_engineOperationDone, Core.endOperation_of_waits _ h]
  · rw [exec_computeUnitOperationDone rfl, Core.endCompute_row]
  · rw [exec_computeUnitOperationDone rfl, Core.endCompute_vector]
  · rw [exec_computeUnitOperationDone (by rw [hkv, Bool.and_false]), Core.endCompute_attention]

end Sys2Proof.Machine
end

section
/-! PROOFS. The element-wise operations of the vector unit: what each writes, and that it waits for nothing but room in its unit where it feeds no tap
(R129, R138, R139, R140, R153). -/

namespace Sys2Proof.Machine

open Sys2Proof

/-- What an element-wise operation leaves that stores the exact results `z` at Z, each rounded as R138 says. -/
def Issue.StoresResults (i : Issue) (z : List (List Val)) (e : Eff) : Prop :=
  e.writes = i.zWrites (z.map fun r => r.map fun v => (vecStore i.zType v).1) ∧ SameStore e.core i.core

section
variable {i : Issue} {e : Eff}

/-- An operation whose encodings are those of the exact results `z`, and that writes nothing else, stores `z`. -/
theorem vecTry_storesResults {z : List (List Val)} {enc : List (List (Nat × Bool × Bool))} {reads : List (Nat × Nat)}
    (he : vecTry i enc [] [] reads = .eff e) (henc : enc = z.map fun r => r.map (vecStore i.zType)) : i.StoresResults z e := by
  obtain ⟨hw, hcore⟩ := vecTry_writes he
  refine ⟨?_, hcore⟩
  rw [hw, henc, List.append_nil]
  simp only [List.map_map, Function.comp_def]

/-- An operation over X and Y stores its function of each pair of elements. -/
theorem vecBinary_storesResults {f : Val → Val → Val} (he : vecBinary i f = .eff e) :
    i.StoresResults (zipRows f (i.rows i.addrX (opXType i.n)) (i.rows i.addrY (opYType i.n))) e := vecTry_storesResults he rfl

/-- VMAD stores X × Y + old Z, with no rounding between. -/
theorem vecMad_storesResults (he : vecMad i = .eff e) :
    i.StoresResults (((zipRows Val.mul (i.rows i.addrX (opXType i.n)) (i.rows i.addrY (opYType i.n))).zip (i.rows i.addrZ (opZType i.n))).map
      fun r => (r.1.zip r.2).map fun y => y.1.add y.2.v) e :=
  vecTry_storesResults he (by simp only [List.map_map, Function.comp_def])

/-- VAFFINE stores X × α + β, with α and β of the record. -/
theorem vecAffine_storesResults (he : vecAffine i = .eff e) :
    i.StoresResults ((i.rows i.addrX (opXType i.n)).map fun row =>
      row.map fun a => a.v.fma (decodeFloat 5 (bits (i.record 8) 0 32)) (decodeFloat 5 (bits (i.record 8) 32 32))) e :=
  vecTry_storesResults he (by simp only [List.map_map, Function.comp_def])

end

/-- Settles O15, one operation at a time. -/
theorem vectorOperationsLand : Obligations.VectorOperationsLand := by
  unfold Obligations.VectorOperationsLand
  intro s c q i e x y writes
  exact ⟨fun hr => ⟨_, rfl, hr.lands, vecBinary_storesResults hr.effect⟩, fun hr => ⟨_, rfl, hr.lands, vecBinary_storesResults hr.effect⟩,
    fun hr => ⟨_, rfl, hr.lands, vecBinary_storesResults hr.effect⟩, fun hr => ⟨_, rfl, hr.lands, vecMad_storesResults hr.effect⟩,
    fun hr => ⟨_, rfl, hr.lands, vecBinary_storesResults hr.effect⟩, fun hr => ⟨_, rfl, hr.lands, vecBinary_storesResults hr.effect⟩,
    fun hr => ⟨_, rfl, hr.lands, vecAffine_storesResults hr.effect⟩,
    fun hroom htap => ⟨fun _ => vecTry_accepts htap hroom, vecTry_accepts htap hroom, vecTry_accepts htap hroom⟩⟩

end Sys2Proof.Machine
end

section
/-! PROOFS. The optimiser kernels: what each writes of a layer that is live in the step, that it writes nothing of a frozen one, and what OPT_STEP
writes of its record (R146 to R150, R261). -/

namespace Sys2Proof.Machine

open Sys2Proof

section
variable {i : Issue} {e : Eff} {adam : Bool}

/-! ### What a kernel writes for one element (R146) -/

/-- The writes of one result and its index: its moments, its master and its working weight. -/
def Issue.optElementWrites (i : Issue) (adam : Bool) (o : OptOut × Nat) : List Wr :=
  let at' := if adam then o.2 / 64 * 128 + o.2 % 64 else o.2
  [(i.addrY * 128 + 32 * at', 32, o.1.m.enc32.1)] ++
    (if adam then [(i.addrY * 128 + 32 * (at' + 64), 32, o.1.v.enc32.1)] else []) ++
    [(linearBit i.addrZ 6 o.2, 48, o.1.w.bits), (linearBit (bits (i.record 64) 384 20) 0 o.2, 16, o.1.h.bits)]

theorem optWrites_eq (i : Issue) (adam : Bool) (outs : List OptOut) :
    optWrites i adam outs = (outs.zip (upFrom 0 outs.length)).flatMap (i.optElementWrites adam) := rfl

/-- OPT_ADAMW writes two moments of an element and OPT_SGDM one. -/
theorem length_optElementWrites (o : OptOut × Nat) : (i.optElementWrites adam o).length = if adam then 4 else 3 := by
  cases adam <;> rfl

/-- Moments are of 32 bits, the master is of 48 and the working weight is of 16. -/
theorem optElementWrites_width (o : OptOut × Nat) : ∀ w ∈ i.optElementWrites adam o, w.2.1 = 32 ∨ w.2.1 = 48 ∨ w.2.1 = 16 := by
  cases adam with
  | false => simp [Issue.optElementWrites]
  | true => simp [Issue.optElementWrites]

/-! ### What it writes for all -/

theorem length_upFrom (n : Nat) : ∀ a, (upFrom a n).length = n := by
  induction n with
  | zero => exact fun _ => rfl
  | succ n ih => exact fun a => congrArg (· + 1) (ih (a + 1))

theorem length_optOuts (i : Issue) (adam : Bool) : (optOuts i adam).length = opRows i.n * opLen i.n := by
  simp only [optOuts, List.length_map, length_upFrom]

theorem length_optWrites (outs : List OptOut) : (optWrites i adam outs).length = (if adam then 4 else 3) * outs.length := by
  have heach : ((outs.zip (upFrom 0 outs.length)).map fun o => (i.optElementWrites adam o).length) =
      List.replicate outs.length (if adam then 4 else 3) := by
    simp only [length_optElementWrites, List.map_const', List.length_zip, length_upFrom, min_self]
  rw [optWrites_eq, List.length_flatMap, heach, List.sum_const_nat, Nat.mul_comm]

theorem optWrites_width {outs : List OptOut} {w : Wr} (h : w ∈ optWrites i adam outs) : w.2.1 = 32 ∨ w.2.1 = 48 ∨ w.2.1 = 16 := by
  rw [optWrites_eq] at h
  obtain ⟨o, -, hw⟩ := List.mem_flatMap.mp h
  exact optElementWrites_width o w hw

/-! ### The kernels -/

/-- A kernel writes nothing of a frozen layer (R261), and of a live one what R146 says of each element. -/
theorem optTry_writes (he : optTry i adam = .eff e) :
    SameStore e.core i.core ∧ e.writes = if i.part.frozenLayer (opLayer i.n) then [] else optWrites i adam (optOuts i adam) := by
  unfold optTry at he
  by_cases hfrozen : i.part.frozenLayer (opLayer i.n) = true
  · rw [if_pos hfrozen] at he ⊢
    obtain ⟨core, flags, hcore, rfl⟩ := onVector_eff he
    exact ⟨hcore, rfl⟩
  · rw [if_neg hfrozen] at he ⊢
    obtain ⟨core, flags, hcore, rfl⟩ := onVector_eff he
    exact ⟨hcore, rfl⟩

/-- Its writes are as many as the elements of a live layer need, each of the width of a moment, a master or a working weight. -/
theorem optTry_kernel (he : optTry i adam = .eff e) :
    SameStore e.core i.core ∧ e.writes = (if i.part.frozenLayer (opLayer i.n) then [] else optWrites i adam (optOuts i adam)) ∧
      (i.part.frozenLayer (opLayer i.n) = false → e.writes.length = (if adam then 4 else 3) * (opRows i.n * opLen i.n)) ∧
      ∀ w ∈ e.writes, w.2.1 = 32 ∨ w.2.1 = 48 ∨ w.2.1 = 16 := by
  obtain ⟨hcore, hwrites⟩ := optTry_writes he
  refine ⟨hcore, hwrites, fun hlive => ?_, fun w hw => ?_⟩
  · rw [hwrites, hlive, if_neg Bool.false_ne_true, length_optWrites, length_optOuts]
  · rw [hwrites] at hw
    split at hw
    · cases hw
    · exact optWrites_width hw

/-- OPT_STEP writes the record's four constants from its byte 32 on (R149). -/
theorem optStep_writes (he : optStep i = .eff e) : SameStore e.core i.core ∧
    e.writes = ((stepConstants (i.record 64)).zip (upFrom 0 4)).map fun y => (ctxScale i.ctx * 128 + 256 + 32 * y.2, 32, y.1.1) := by
  unfold optStep at he
  obtain ⟨core, flags, hcore, rfl⟩ := onVector_eff he
  exact ⟨hcore, rfl⟩

end

/-- Settles O17: the two kernels by what they write of a frozen and of a live layer, and OPT_STEP by the four constants of its list. -/
theorem optimiserOperationsLand : Obligations.OptimiserOperationsLand := by
  unfold Obligations.OptimiserOperationsLand
  intro s c q i e frozen kernel
  exact ⟨fun hr => ⟨_, rfl, hr.lands, optTry_kernel hr.effect⟩, fun hr => ⟨_, rfl, hr.lands, optTry_kernel hr.effect⟩,
    fun hr => ⟨_, rfl, hr.lands, optStep_writes hr.effect⟩⟩

end Sys2Proof.Machine
end

section
/-! PROOFS. The attention commands in their pipe and fused forms, and the issue of the key-value commands: what each writes or asks for, and where it has
an effect (R157, R158, R161, R163, R164, R166, R167, R169, R170, R172, R173, R175, R178, R180). -/

namespace Sys2Proof.Machine

open Sys2Proof

/-! ### What an attention command leaves -/

section
variable {i : Issue} {e : Eff} {a : AttnEff} {fused : Bool}

/-- Either form writes what the command's effect names (R169). -/
theorem attnTry_writes (h : attnTry fused a i = .eff e) : e.writes = a.writes.map Prod.fst := by
  unfold attnTry at h
  dsimp only at h
  cases fused with
  | false =>
    rw [if_neg Bool.false_ne_true] at h
    split at h
    · cases h
    · cases h
      rfl
  | true =>
    rw [if_pos rfl] at h
    split at h
    · cases h
    · split at h
      · cases h
      · cases h
        rfl

theorem attnFwd_writes (h : attnFwd i fused = .eff e) : e.writes = (i.fwdWrites i.repeats).map Prod.fst := attnTry_writes h

theorem attnRecomp_writes (h : attnRecomp i fused = .eff e) : e.writes = (i.recompWrites i.repeats).map Prod.fst := attnTry_writes h

theorem attnDs_writes (h : attnDs i fused = .eff e) : e.writes = i.dsWrites.map Prod.fst := attnTry_writes h

theorem rope_writes (h : rope i fused = .eff e) : e.writes = (i.ropeWrites i.repeats).map Prod.fst := attnTry_writes h

/-- The pipe form has an effect where the pipe has room (R129, R158). -/
theorem attnTry_pipe_accepts (a : AttnEff) (h : i.core.attn.length < 2) : ∃ u, attnTry false a i = .eff u := by
  simp [attnTry, not_le.mpr h]

/-- The fused form has an effect where every engine and the row unit accept and every engine lends its virtual slot 3 (R169, R170). -/
theorem attnTry_fused_accepts (a : AttnEff) (hengines : i.core.enginesAccept (upFrom 0 8) false = true) (hrow : i.core.rowUnit.length < 2)
    (hslots : (i.core.lendSlots (upFrom 0 8)).isSome = true) : ∃ u, attnTry true a i = .eff u := by
  obtain ⟨core, hcore⟩ := Option.isSome_iff_exists.mp hslots
  simp [attnTry, hengines, hrow, hcore]

end

/-! ### How an attention command runs -/

/-- The site of a core counts an operation that a pipe command has done in its fused form (R90, R169). -/
def State.countFused (s : State) (c : Nat) (fused : Bool) (t : State) : State :=
  if fused then t.modSite (s.siteOf c) fun x => { x with fusedRuns := satInc32 x.fusedRuns } else t

section
variable {s : State} {c : Nat} {q : Stream} {op : Nat} {f : Issue → Bool → Try} {i : Issue} {e : Eff}

/-- A pipe command that is ready lands in the form that its site, its repeat and its stored operands give it, and the site counts a fused one. -/
theorem Ready.runAttn_pipe (h : Ready s c q op (f · (useFused s false i)) i e) (hop : op < 0x28) :
    s.runAttn c q op f = s.countFused c (useFused s false i) (s.complete i (.eff e)) := by
  simp only [State.runAttn, h.next, decide_eq_false (not_le.mpr hop), h.effect, h.issues, if_true, Bool.not_false, Bool.and_true, State.countFused]

/-- A command that names its fused form and is ready lands in it, and no site counts it. -/
theorem Ready.runAttn_fused (h : Ready s c q op (f · true) i e) (hop : 0x28 ≤ op) : s.runAttn c q op f = s.complete i (.eff e) := by
  have hfused : useFused s true i = true := rfl
  simp only [State.runAttn, h.next, decide_eq_true hop, hfused, h.effect, h.issues, if_true, Bool.not_true, Bool.and_false, Bool.false_eq_true,
    if_false]

/-- What is ready lands. -/
theorem Ready.complete_lands {f : Issue → Try} (h : Ready s c q op f i e) : Landed s (s.complete i (.eff e)) i e :=
  Machine.complete_lands e (blocked_of_issues h.issues)

end

/-- Settles O18: each command lands by its form, either form writes what the command computes, and either has an effect where its units take it. -/
theorem attentionOperationsLand : Obligations.AttentionOperationsLand := by
  unfold Obligations.AttentionOperationsLand
  intro s c q i e fused counted writes
  exact ⟨
    fun h => ⟨_, congrArg Host.Outcome.next (h.runAttn_pipe (by decide)), h.complete_lands, attnFwd_writes h.effect⟩,
    fun h => ⟨_, congrArg Host.Outcome.next (h.runAttn_pipe (by decide)), h.complete_lands, attnRecomp_writes h.effect⟩,
    fun h => ⟨_, congrArg Host.Outcome.next (h.runAttn_pipe (by decide)), h.complete_lands, attnDs_writes h.effect⟩,
    fun h => ⟨_, congrArg Host.Outcome.next (h.runAttn_pipe (by decide)), h.complete_lands, rope_writes h.effect⟩,
    fun h => ⟨_, congrArg Host.Outcome.next (h.runAttn_fused (by decide)), h.complete_lands, attnFwd_writes h.effect⟩,
    fun h => ⟨_, congrArg Host.Outcome.next (h.runAttn_fused (by decide)), h.complete_lands, attnRecomp_writes h.effect⟩,
    fun h => ⟨_, congrArg Host.Outcome.next (h.runAttn_fused (by decide)), h.complete_lands, attnDs_writes h.effect⟩,
    fun h => ⟨_, congrArg Host.Outcome.next (h.runAttn_fused (by decide)), h.complete_lands, rope_writes h.effect⟩,
    fun h => ⟨attnTry_pipe_accepts _ h, attnTry_pipe_accepts _ h, attnTry_pipe_accepts _ h, attnTry_pipe_accepts _ h⟩,
    fun he hr hs => ⟨attnTry_fused_accepts _ he hr hs, attnTry_fused_accepts _ he hr hs, attnTry_fused_accepts _ he hr hs,
      attnTry_fused_accepts _ he hr hs⟩⟩

/-! ### The key-value commands -/

/-- The pool of the partition has one request more: the operation's, numbered in turn; a partition without a pool is asked for nothing (log entry 20). -/
def State.kvAsked (t : State) (i : Issue) (load : Bool) : State :=
  match i.part.pool with
  | none => t
  | some k => t.modPart i.p fun part => { part with pool := some { k with reqs := k.reqs ++ [i.kvReq k load], nextReq := k.nextReq + 1 } }

/-- A key-value command that is ready lands, and its request joins the pool's (R178, R180). -/
theorem Ready.runKv {s : State} {c : Nat} {q : Stream} {op : Nat} {load : Bool} {i : Issue} {e : Eff} (h : Ready s c q op (kvTry load) i e) :
    s.runKv c q op load = (s.complete i (.eff e)).kvAsked i load := by
  simp only [State.runKv, h.next, h.effect, h.issues, if_true, State.kvAsked]
  cases i.part.pool <;> rfl

/-- The pipe takes a key-value command where it has room (R158). -/
theorem kvTry_accepts {i : Issue} (load : Bool) (h : i.core.attn.length < 2) : ∃ u, kvTry load i = .eff u := by
  unfold kvTry
  rw [if_neg (not_le.mpr h)]
  dsimp only
  cases i.part.pool with
  | none => exact ⟨_, rfl⟩
  | some k => cases load <;> exact ⟨_, rfl⟩

/-- Settles O19. -/
theorem kvOperationsIssue : Obligations.KvOperationsIssue := by
  unfold Obligations.KvOperationsIssue
  intro s c q i e asked
  have hasked (t : State) (load : Bool) : asked t load = t.kvAsked i load := rfl
  have happend : exec (.kvAppend c q) s = .next (s.runKv c q 0x24 false) := rfl
  have hload : exec (.kvLoad c q) s = .next ((s.runKv c q 0x25 true).kvPump (s.partOfCore c)) := rfl
  refine ⟨fun h => ⟨_, ?_, h.complete_lands⟩, fun h => ⟨_, ?_, h.complete_lands⟩, fun h load => kvTry_accepts load h⟩
  · rw [happend, h.runKv, hasked]
  · obtain ⟨-, -, -, hp, -⟩ := issueOf_some h.next
    rw [hload, h.runKv, hasked, hp]

end Sys2Proof.Machine
end

section
/-! PROOFS. The key-value pool: its requests as they are looked at, the allocator's answers and its timeout, and host software's commands (R173, R176,
R178, R179, R182, R183, R372). -/

namespace Sys2Proof.Machine

open Sys2Proof

/-! ### Requests of a pool (R178, R179, R182) -/

/-- A parked slot is reclaimed for a waiting request, which is admitted; where none is parked the request's own slot ends (R182). -/
def State.kvReclaim (s : State) (p : Nat) (k : KvPool) (r : KvReq) : State :=
  match k.reclaim with
  | some v => (s.setPool p (k.evict v)).kvAdmit p r
  | none => s.kvNoPage p k r

section
variable {s : State} {p n : Nat} {k : KvPool} {r : KvReq} (hpool : (s.part p).pool = some k) (hreq : k.reqs[n]? = some r)
include hpool hreq

/-- The request is looked at, and the pool goes on. -/
theorem exec_kvAppendAdmit_of_req : exec (.kvAppendAdmit p n) s = .next ((s.kvAdmit p r).kvPump p) := by
  show execKvAppendAdmit p n s = _
  simp only [execKvAppendAdmit, hpool, hreq]

/-- The slot of a request that has waited 10 ms for a frame ends. -/
theorem exec_kvAllocatorTimeout_of_due (hwaits : r.noFrame = true) (hdue : r.since + 250000 ≤ s.tick) :
    exec (.kvAllocatorTimeout p n) s = .next (s.kvNoPage p k r) := by
  show execKvAllocatorTimeout p n s = _
  simp only [execKvAllocatorTimeout, hpool, hreq, hwaits, hdue, decide_true, Bool.and_self, if_true]

variable (hwaits : r.noFrame = true) (hserves : s.power.fwReady = true)
include hwaits hserves

/-- A pool that grows takes the page that there is, and the request is admitted. -/
theorem exec_kvAllocatorAnswer_of_page {t : State} {k' : KvPool} (hgrows : (k.grow && decide ((s.part p).useOf 2 < (s.part p).quotaOf 2)) = true)
    (hpage : s.addPoolPage p k = some (t, k')) :
    exec (.kvAllocatorAnswer p n) s = .next (((t.setPool p k').kvAdmit p r).kvPump p) := by
  show execKvAllocatorAnswer p n s = _
  simp only [execKvAllocatorAnswer, hpool, hreq, hwaits, hserves, hgrows, hpage, Bool.not_true, Bool.or_self, Bool.false_eq_true, if_false, if_true]

variable (hnone : (k.grow && decide ((s.part p).useOf 2 < (s.part p).quotaOf 2)) = false ∨ s.addPoolPage p k = none)
include hnone

/-- Where no page comes, the allocator falls back on the parked slots. -/
theorem exec_kvAllocatorAnswer_of_no_page : exec (.kvAllocatorAnswer p n) s = .next ((s.kvReclaim p k r).kvPump p) := by
  show execKvAllocatorAnswer p n s = _
  simp only [execKvAllocatorAnswer, hpool, hreq, hwaits, hserves, Bool.not_true, Bool.or_self, Bool.false_eq_true, if_false]
  rcases hnone with hgrows | hpage
  · exact congrArg (fun u : State => Host.Outcome.next (u.kvPump p)) (if_neg (Bool.eq_false_iff.mp hgrows))
  · rw [hpage, ite_self]
    rfl

theorem exec_kvAllocatorAnswer_of_reclaim {v : Nat} (hv : k.reclaim = some v) :
    exec (.kvAllocatorAnswer p n) s = .next (((s.setPool p (k.evict v)).kvAdmit p r).kvPump p) := by
  rw [exec_kvAllocatorAnswer_of_no_page hpool hreq hwaits hserves hnone, State.kvReclaim, hv]

theorem exec_kvAllocatorAnswer_of_none_parked (hv : k.reclaim = none) : exec (.kvAllocatorAnswer p n) s = .next ((s.kvNoPage p k r).kvPump p) := by
  rw [exec_kvAllocatorAnswer_of_no_page hpool hreq hwaits hserves hnone, State.kvReclaim, hv]

end

/-- Settles O32. -/
theorem kvRequestsAreServed : Obligations.KvRequestsAreServed := by
  unfold Obligations.KvRequestsAreServed
  intro s p n k r hpool hreq
  exact ⟨exec_kvAppendAdmit_of_req hpool hreq, exec_kvAllocatorTimeout_of_due hpool hreq, fun hwaits hserves =>
    ⟨fun t k' => exec_kvAllocatorAnswer_of_page hpool hreq hwaits hserves,
     fun hnone v => exec_kvAllocatorAnswer_of_reclaim hpool hreq hwaits hserves hnone,
     exec_kvAllocatorAnswer_of_none_parked hpool hreq hwaits hserves⟩⟩

/-! ### Commands of host software (R173, R176, R183) -/

section
variable {s : State} {j : Job} {k : KvPool} {beyond : Nat} {ok : SeqDesc → Bool} (f : KvPool → CmdRes)

/-- A command on a slot does its work where the pool has the slot and the slot is in a state that the command takes. -/
theorem slotCmd_of_ok (hpool : (s.part j.p).pool = some k) (hslot : j.arg 0 < k.slots) (hok : ok (k.slot (j.arg 0)) = true) :
    s.slotCmd j beyond ok f = f k := by
  simp only [State.slotCmd, hpool, not_le.mpr hslot, hok, Bool.not_true, Bool.false_eq_true, if_false]

end

section
variable {s : State} {r t op : Nat} {c : Cmd} {k : KvPool}

/-- What KV_POOL_CREATE asks of its arguments and its payload (R173, Table 8 of chapter 6, Table 9 of chapter 13). -/
structure KvPoolArgs (j : Job) : Prop where
  type : j.arg 0 ∈ [1, 3, 4]
  hdim : j.arg 1 ≤ 15
  heads : j.arg 3 ≤ 63
  maxp : j.arg 4 ≤ 4095
  slots : j.arg 5 ≤ 1023
  pages : j.arg 6 ≠ 0
  grow : j.arg 7 ≤ 1
  entries : ∀ l < j.arg 2 + 1, (kvLayerEntry j.pay l).getD 0 0 < 4096 ∧ (kvLayerEntry j.pay l).getD 1 0 = 0

/-- The pool of a KV_POOL_CREATE, without pages. -/
def Job.newPool (j : Job) : KvPool :=
  { type := j.arg 0, hdim := 16 * (j.arg 1 + 1), layers := j.arg 2 + 1, heads := j.arg 3 + 1, maxp := j.arg 4 + 1, slots := j.arg 5 + 1
    grow := j.arg 7 == 1
    table := (upFrom 0 (j.arg 2 + 1)).map fun l => ((kvLayerEntry j.pay l).getD 0 0, BitVec.ofNat 32 ((kvLayerEntry j.pay l).getD 2 0),
      BitVec.ofNat 32 ((kvLayerEntry j.pay l).getD 3 0)) }

/-- A pool is made of its arguments with the pages asked for, where slots, quota and frames allow. -/
theorem kvPoolCreate_completes {u : State} (h : s.starts r t 0x0410 c = true) (hargs : KvPoolArgs (s.job r c))
    (hpay : 12 * ((s.job r c).arg 2 + 1) ≤ c.payLen) (hpool : ((s.markStarted r c).part (s.job r c).p).pool = none)
    (hslots : (s.markStarted r c).otherSlots (s.job r c).p + ((s.job r c).arg 5 + 1) ≤ 1024)
    (hquota : ((s.markStarted r c).part (s.job r c).p).useOf 2 + (s.job r c).arg 6 ≤ ((s.markStarted r c).part (s.job r c).p).quotaOf 2)
    (hpages : (s.markStarted r c).addPoolPages (s.job r c).p ((s.job r c).arg 6) (s.job r c).newPool = some (u, k)) :
    Completes (.kvPoolCreate r t) s r c (u.setPool (s.job r c).p k) {} := by
  obtain ⟨htype, hhdim, hheads, hmaxp, hslot, hpage, hgrow, hentries⟩ := hargs
  refine completes_of_done rfl h ?_ hpay ?_ ?_
  · simp only [htype, not_lt.mpr hhdim, not_lt.mpr hheads, not_lt.mpr hmaxp, not_lt.mpr hslot, hpage, not_lt.mpr hgrow, not_true, if_false]
  · refine List.findSome?_eq_none_iff.mpr fun l hl => ?_
    obtain ⟨hlayer, hzero⟩ := hentries l (by simpa using (mem_upFrom.mp hl).2)
    simp only [not_le.mpr hlayer, hzero, ne_eq, not_true, if_false]
  · have hfits : ¬ (1024 < (s.markStarted r c).otherSlots (s.job r c).p + ((s.job r c).arg 5 + 1) ∨
        ((s.markStarted r c).part (s.job r c).p).quotaOf 2 < ((s.markStarted r c).part (s.job r c).p).useOf 2 + (s.job r c).arg 6) := by omega
    dsimp only
    rw [hpool, Option.isSome_none, if_neg Bool.false_ne_true, if_neg hfits]
    change (match (s.markStarted r c).addPoolPages (s.job r c).p ((s.job r c).arg 6) (s.job r c).newPool with
      | none => CmdRes.fail { status := stNoMemory }
      | some (s, y) => .done (s.setPool _ y) {}) = _
    rw [hpages]

variable (hpool : ((s.markStarted r c).part (s.job r c).p).pool = some k)
include hpool

/-- A pool's pages are freed with it. -/
theorem kvPoolDestroy_completes (h : s.starts r t 0x0416 c = true) : Completes (.kvPoolDestroy r t) s r c
    ((k.pages.foldl (fun u pg => u.freePage (s.job r c).p pg) (s.markStarted r c)).modPart (s.job r c).p fun part => { part with pool := none }) {} := by
  refine completes_of_done rfl h rfl (Nat.zero_le _) rfl ?_
  dsimp only
  rw [hpool]

/-- A command of a slot completes with its work where the pool has the slot and the slot is in a state that the command takes. -/
theorem slotCmd_completes {cmd : Instr} {beyond : Nat} {ok : SeqDesc → Bool} {f : State → Job → KvPool → CmdRes} {s1 : State}
    (hcmd : exec cmd s = .next (s.runCmd r t op {} fun s j => s.slotCmd j beyond ok (f s j))) (h : s.starts r t op c = true)
    (hslot : (s.job r c).arg 0 < k.slots) (hok : ok (k.slot ((s.job r c).arg 0)) = true)
    (hf : f (s.markStarted r c) (s.job r c) k = .done s1 {}) : Completes cmd s r c s1 {} :=
  completes_of_done hcmd h rfl (Nat.zero_le _) rfl ((slotCmd_of_ok _ hpool hslot hok).trans hf)

end

/-- A command that does not run yet is started by its row. -/
theorem runOrGoOn_of_not_running {s : State} {r t op : Nat} {c : Cmd} {rules : CmdRules} {f g : State → Job → CmdRes}
    (hfind : (s.ring r).find t = some c) (hnot : c.running = false) : s.runOrGoOn r t op rules f g = s.runCmd r t op rules f := by
  simp only [State.runOrGoOn, hfind, hnot, Bool.false_and, Bool.false_eq_true, if_false]

/-- A slot with no request in flight is closed: its chunks are freed, and it is FREE (R183). -/
theorem kvSeqClose_completes {s : State} {r t : Nat} {c : Cmd} {k : KvPool} (hpool : ((s.markStarted r c).part (s.job r c).p).pool = some k)
    (hslot : (s.job r c).arg 0 < k.slots) (h : s.starts r t 0x0414 c = true) (hfind : (s.ring r).find t = some c) (hnot : c.running = false)
    (hused : (k.slot ((s.job r c).arg 0)).st ≠ 0) (hquiet : ∀ x ∈ k.reqs, x.slot ≠ (s.job r c).arg 0) :
    Completes (.kvSeqClose r t) s r c ((s.markStarted r c).setPool (s.job r c).p
      ((k.freeSlot ((s.job r c).arg 0)).modSlot ((s.job r c).arg 0) fun _ => {})) {} := by
  refine slotCmd_completes (f := fun s j k => if k.reqs.any fun x => x.slot == j.arg 0 then .later s
    else .done (s.setPool j.p ((k.freeSlot (j.arg 0)).modSlot (j.arg 0) fun _ => {})) {}) hpool
    (congrArg Host.Outcome.next (runOrGoOn_of_not_running hfind hnot)) h hslot (by simpa using hused) (if_neg ?_)
  simpa using hquiet

/-- Settles O52, one command at a time. -/
theorem kvPoolCommandsTakeEffect : Obligations.KvPoolCommandsTakeEffect := by
  unfold Obligations.KvPoolCommandsTakeEffect
  intro s r t c s0 j part
  refine ⟨fun h htype hhdim hheads hmaxp hslot hpage hgrow hpay hentries hpool hslots hquota u k =>
    kvPoolCreate_completes h ⟨htype, hhdim, hheads, hmaxp, hslot, hpage, hgrow, hentries⟩ hpay hpool hslots hquota, fun k hpool =>
    ⟨kvPoolDestroy_completes hpool, fun hslot => ⟨fun h hfree => ?_, fun h hopen => ?_, fun h hparked hkept => ?_, fun h hfind hnot =>
      kvSeqClose_completes hpool hslot h hfind hnot⟩⟩⟩
  · exact slotCmd_completes hpool rfl h hslot (beq_iff_eq.mpr hfree) rfl
  · exact slotCmd_completes hpool rfl h hslot (beq_iff_eq.mpr hopen) rfl
  · exact slotCmd_completes hpool rfl h hslot (by rw [hparked, hkept]; rfl) rfl

end Sys2Proof.Machine
end

section
/-! PROOFS. The scrubs of HBM and SRAM and the ends of their windows, and the checks of attention pipes and of sites (R171, R240, R317, R424, R425). -/

namespace Sys2Proof.Machine

open Sys2Proof

/-! ### A line of HBM as scrub reads it (R236, R239, R240) -/

/-- What both branches of a choice of a stack have in common. -/
theorem lines_ite {b : Bool} {x y : Stack} {m : SMap HbmLine} (hx : x.lines = m) (hy : y.lines = m) : (if b then x else y).lines = m := by
  cases b <;> assumption

section
variable {st : Stack} {part : Part} {p addr line : Nat}

theorem Stack.read_eq (st : Stack) (part : Part) (p addr line : Nat) : st.read part p addr line =
    ({ st with touched := true, asleep := false } : Stack).readAs part p addr line (tget {} st.lines line) (decodeLine (tget {} st.lines line)) := rfl

/-- A line that the code corrects is stored corrected, whatever its key and tag then come to. -/
theorem Stack.read_lines_of_corrected {l : HbmLine} (h : decodeLine (tget {} st.lines line) = .corrected l) :
    (st.read part p addr line).1.lines = tset {} st.lines line l := by
  rw [Stack.read_eq, h]
  exact lines_ite rfl rfl

/-- A line that it cannot correct is left, is counted at its physical place and fails its read. -/
theorem Stack.read_of_bad (h : decodeLine (tget {} st.lines line) = .bad) :
    (st.read part p addr line).1.lines = st.lines ∧
      (st.read part p addr line).1.ue = bump st.ue (st.physical (scrubPlace line).1.1 (scrubPlace line).2) ∧
      (st.read part p addr line).2 = .fail stDataError := by
  rw [Stack.read_eq, h]
  exact ⟨rfl, rfl, rfl⟩

end

section
variable {s : State} {h line : Nat}

/-- A line of no page is corrected, or its error counted. -/
theorem State.scrubLine_of_no_page (hpage : s.pageOfFrame h (line / 32768) = none) :
    s.scrubLine h line = s.setStack h ((s.stack h).scrubFree line (decodeLine (tget {} (s.stack h).lines line))) := by
  rw [State.scrubLine, hpage]

/-- A line of a page is checked as the page's. -/
theorem State.scrubLine_of_page {pg : Nat} (hpage : s.pageOfFrame h (line / 32768) = some pg) :
    s.scrubLine h line = s.scrubPage h (s.partOfStack h) pg (pg * pageBytes + line % 32768 * 64) line
      ((s.stack h).read (s.part (s.partOfStack h)) (s.partOfStack h) (pg * pageBytes + line % 32768 * 64) line) := by
  rw [State.scrubLine, hpage]

theorem State.scrubPage_ok (p pg addr : Nat) (st : Stack) (b : SMap Byte) : s.scrubPage h p pg addr line (st, .ok b) = s.setStack h
    (if tget {} st.lines line != {} && (tget {} st.lines line).keyId.toNat != (s.part p).keyGen % 32 then
      { st with lines := tset {} st.lines line ((s.part p).sealLine p addr (packLine b)) } else st) := rfl

theorem State.scrubPage_fail (p pg addr : Nat) (st : Stack) (c : Nat) : s.scrubPage h p pg addr line (st, .fail c) =
    (s.setStack h st).setPart p (((s.setStack h st).part p).logFailure 1 pg c) := rfl

/-- Scrub leaves every other stack as it is. -/
theorem State.scrubLine_stack_ne {k : Nat} (hk : k ≠ h) : (s.scrubLine h line).stack k = s.stack k := by
  have hpaged (p pg addr : Nat) : ∀ x, (s.scrubPage h p pg addr line x).stack k = s.stack k
    | (st, .ok b) => by rw [State.scrubPage_ok, State.setStack_stack_ne _ _ _ _ hk]
    | (st, .fail c) => by rw [State.scrubPage_fail, State.setPart_stack, State.setStack_stack_ne _ _ _ _ hk]
  cases hpage : s.pageOfFrame h (line / 32768) with
  | none => rw [State.scrubLine_of_no_page hpage, State.setStack_stack_ne _ _ _ _ hk]
  | some pg => rw [State.scrubLine_of_page hpage, hpaged]

/-- A page's stack is what the read leaves of it, unless the line passes and its key is an old one. -/
theorem State.scrubPage_stack {p pg addr : Nat} {x : Stack × HbmRead}
    (hkey : (∃ c, x.2 = .fail c) ∨ (tget {} x.1.lines line).keyId.toNat = (s.part p).keyGen % 32) : (s.scrubPage h p pg addr line x).stack h = x.1 := by
  obtain ⟨st, r⟩ := x
  cases r with
  | fail c => rw [State.scrubPage_fail, State.setPart_stack, State.setStack_stack_self]
  | ok b =>
    obtain ⟨c, hc⟩ | hkey := hkey
    · cases hc
    · rw [State.scrubPage_ok, State.setStack_stack_self, bne_eq_false_iff_eq.mpr hkey, Bool.and_false]
      rfl

/-- Scrub stores a line that the code corrects as corrected, where its key is the current one or it is of no page. -/
theorem State.scrubLine_lines_of_corrected {l : HbmLine} (hl : decodeLine (tget {} (s.stack h).lines line) = .corrected l)
    (hkey : s.pageOfFrame h (line / 32768) = none ∨ l.keyId.toNat = (s.part (s.partOfStack h)).keyGen % 32) :
    ((s.scrubLine h line).stack h).lines = tset {} (s.stack h).lines line l := by
  cases hpage : s.pageOfFrame h (line / 32768) with
  | none =>
    rw [State.scrubLine_of_no_page hpage, State.setStack_stack_self, hl]
    rfl
  | some pg =>
    have hlines {part : Part} {p addr : Nat} : ((s.stack h).read part p addr line).1.lines = tset {} (s.stack h).lines line l :=
      Stack.read_lines_of_corrected hl
    rw [State.scrubLine_of_page hpage, State.scrubPage_stack (.inr ?_), hlines]
    rw [hlines, tget_tset_self]
    exact hkey.resolve_left (by rw [hpage]; exact Option.some_ne_none pg)

/-- A line that the code cannot correct is counted at its physical place and left, of a page or of none. -/
theorem State.scrubLine_of_bad (hl : decodeLine (tget {} (s.stack h).lines line) = .bad) :
    ((s.scrubLine h line).stack h).lines = (s.stack h).lines ∧ ((s.scrubLine h line).stack h).ue =
      bump (s.stack h).ue ((s.stack h).physical (scrubPlace line).1.1 (scrubPlace line).2) := by
  cases hpage : s.pageOfFrame h (line / 32768) with
  | none =>
    rw [State.scrubLine_of_no_page hpage, State.setStack_stack_self, hl]
    exact ⟨rfl, rfl⟩
  | some pg =>
    obtain ⟨hlines, hue, hfail⟩ := Stack.read_of_bad (part := s.part (s.partOfStack h)) (p := s.partOfStack h)
      (addr := pg * pageBytes + line % 32768 * 64) hl
    rw [State.scrubLine_of_page hpage, State.scrubPage_stack (.inl ⟨_, hfail⟩)]
    exact ⟨hlines, hue⟩

/-- The state in which scrub reads a line: its stack as the access meets it, awake, and the pass at the line. -/
def State.scrubMet (s : State) (h line : Nat) (ev : HbmEvent) : State :=
  s.setStack h { (s.stack h).meet line 1 ev with asleep := false, touched := true, progress := (line + 1) * 65536 / stackLines }

theorem State.scrubMet_stack (ev : HbmEvent) : (s.scrubMet h line ev).stack h =
    { (s.stack h).meet line 1 ev with asleep := false, touched := true, progress := (line + 1) * 65536 / stackLines } := s.setStack_stack_self h _

theorem State.scrubMet_stack_ne (ev : HbmEvent) {k : Nat} (hk : k ≠ h) : (s.scrubMet h line ev).stack k = s.stack k := s.setStack_stack_ne h k _ hk

/-- What scrub keeps of its pass once it has dealt with a line: corrections and errors counted, its progress, and the end of the pass (R424). -/
def State.scrubKept (s : State) (h line : Nat) (old : SMap Nat) : State :=
  let s := if (s.stack h).ce == old then s else s.dutyEvent 7
  let s := s.modDuty 7 fun d => { d with progress := (line + 1) * 65536 / stackLines % 65536 }
  if (upFrom 0 32).all fun k => (s.stack k).st == .fenced || (s.stack k).progress == 65536 then s.modDuty 7 fun d => { d with lastDone := s.tick } else s

theorem State.scrubKept_stack (s : State) (h line : Nat) (old : SMap Nat) (k : Nat) : (s.scrubKept h line old).stack k = s.stack k := by
  have hcounted (b : Bool) : (if b then s else s.dutyEvent 7).stack k = s.stack k := by cases b <;> rfl
  have hended (u : State) (b : Bool) : (if b then u.modDuty 7 fun d => { d with lastDone := u.tick } else u).stack k = u.stack k := by
    cases b <;> rfl
  exact (hended _ _).trans (hcounted _)

/-- HBM_SCRUB of a line that the stack reads and that meets no second parity error. -/
theorem exec_hbmScrub_of_read {ev : HbmEvent} (hmain : s.power.mainOn = true) (hst : (s.stack h).st ≠ .fenced) (hparity : ev.parity < 2)
    (hplace : line / 32768 < framesPerStack ∨ (s.stack h).st = .normal) :
    exec (.hbmScrub h line ev) s = .next (((s.scrubMet h line ev).scrubLine h line).scrubKept h line (s.stack h).ce) := by
  have hread : (decide (line / 32768 ≥ framesPerStack) && ((s.stack h).st == .spare || (s.stack h).st == .sparing)) = false := by
    rcases hplace with hlow | hnormal
    · rw [decide_eq_false (not_le.mpr hlow), Bool.false_and]
    · rw [hnormal]
      exact Bool.and_false _
  show execHbmScrub h line ev s = _
  simp only [execHbmScrub, hmain, beq_eq_false_iff_ne.mpr hst, hread, not_le.mpr hparity, Bool.not_true, Bool.or_self, Bool.false_eq_true, if_false]
  rfl

section
variable {ev : HbmEvent} (hmain : s.power.mainOn = true) (hst : (s.stack h).st ≠ .fenced) (hparity : ev.parity < 2)
  (hplace : line / 32768 < framesPerStack ∨ (s.stack h).st = .normal)
include hmain hst hparity hplace

/-- A line that the access meets and the code corrects is stored corrected, where its key is the current one or it is of no page. -/
theorem exec_hbmScrub_of_corrected {l : HbmLine} (hl : decodeLine (tget {} ((s.stack h).meet line 1 ev).lines line) = .corrected l)
    (hkey : s.pageOfFrame h (line / 32768) = none ∨ l.keyId.toNat = (s.part (s.partOfStack h)).keyGen % 32) :
    ∃ u, exec (.hbmScrub h line ev) s = .next u ∧ (u.stack h).lines = tset {} ((s.stack h).meet line 1 ev).lines line l ∧
      ∀ k, k ≠ h → u.stack k = s.stack k := by
  have hmet := s.scrubMet_stack (h := h) (line := line) ev
  refine ⟨_, exec_hbmScrub_of_read hmain hst hparity hplace, ?_, fun k hk => ?_⟩
  · rw [State.scrubKept_stack, (s.scrubMet h line ev).scrubLine_lines_of_corrected (by rw [hmet]; exact hl) hkey, hmet]
  · rw [State.scrubKept_stack, State.scrubLine_stack_ne hk, State.scrubMet_stack_ne ev hk]

/-- One that it cannot correct is counted at its physical place and left as the access meets it. -/
theorem exec_hbmScrub_of_bad (hl : decodeLine (tget {} ((s.stack h).meet line 1 ev).lines line) = .bad) :
    ∃ u, exec (.hbmScrub h line ev) s = .next u ∧ (u.stack h).lines = ((s.stack h).meet line 1 ev).lines ∧
      (u.stack h).ue = bump (s.stack h).ue ((s.stack h).physical (scrubPlace line).1.1 (scrubPlace line).2) ∧
      ∀ k, k ≠ h → u.stack k = s.stack k := by
  have hmet := s.scrubMet_stack (h := h) (line := line) ev
  obtain ⟨hlines, hue⟩ := (s.scrubMet h line ev).scrubLine_of_bad (h := h) (line := line) (by rw [hmet]; exact hl)
  refine ⟨_, exec_hbmScrub_of_read hmain hst hparity hplace, ?_, ?_, fun k hk => ?_⟩
  · rw [State.scrubKept_stack, hlines, hmet]
  · rw [State.scrubKept_stack, hue, hmet]
    rfl
  · rw [State.scrubKept_stack, State.scrubLine_stack_ne hk, State.scrubMet_stack_ne ev hk]

end

end

/-! ### The end of a scrub window (R424) -/

section
variable {α : Type} {d : α} {f : α → α} {g : SMap α → Nat → SMap α}

/-- A fold that changes one number at each of its steps leaves the others. -/
theorem tget_foldl_of_notMem (hne : ∀ m k j, j ≠ k → tget d (g m k) j = tget d m j) {k : Nat} :
    ∀ (l : List Nat) (m : SMap α), k ∉ l → tget d (l.foldl g m) k = tget d m k
  | [], _, _ => rfl
  | j :: l, m, hk => by
    obtain ⟨hj, hl⟩ : k ≠ j ∧ k ∉ l := by simpa using hk
    exact (tget_foldl_of_notMem hne l _ hl).trans (hne m j k hj)

/-- Each number that it comes to is changed once. -/
theorem tget_foldl_of_mem (hself : ∀ m k, tget d (g m k) k = f (tget d m k)) (hne : ∀ m k j, j ≠ k → tget d (g m k) j = tget d m j) {k : Nat} :
    ∀ (l : List Nat) (m : SMap α), l.Nodup → k ∈ l → tget d (l.foldl g m) k = f (tget d m k)
  | j :: l, m, hn, hk => by
    obtain ⟨hj, hl⟩ := List.nodup_cons.mp hn
    rcases List.mem_cons.mp hk with rfl | hmem
    · exact (tget_foldl_of_notMem hne l _ hj).trans (hself m k)
    · rw [List.foldl_cons, tget_foldl_of_mem hself hne l _ hl hmem, hne m j k fun h => hj (h ▸ hmem)]

end

theorem nodup_upFrom : ∀ n a, (upFrom a n).Nodup
  | 0, _ => .nil
  | n + 1, a => List.nodup_cons.mpr ⟨fun h => by have := (mem_upFrom.mp h).1; omega, nodup_upFrom n (a + 1)⟩

/-- Each of the first `n` numbers of a table changed. -/
theorem tget_foldl_tmod {α : Type} [DecidableEq α] {d : α} {f : α → α} {n k : Nat} (m : SMap α) (hk : k < n) :
    tget d ((upFrom 0 n).foldl (fun m j => tmod d m j f) m) k = f (tget d m k) :=
  tget_foldl_of_mem (fun m j => tget_tset_self d m j _) (fun m j i h => tget_tset_ne d m j _ i h) _ m (nodup_upFrom n 0)
    (mem_upFrom.mpr ⟨Nat.zero_le _, by omega⟩)

/-- The same where a number that the table does not list is left unlisted: it reads as before, and `f` keeps that. -/
theorem tget_foldl_tmod_listed {α : Type} [DecidableEq α] {d : α} {f : α → α} (hd : f d = d) {b : α → Bool} (hb : ∀ v, b v = true ↔ v = d)
    {n k : Nat} (m : SMap α) (hk : k < n) :
    tget d ((upFrom 0 n).foldl (fun m j => if b (tget d m j) then m else tmod d m j f) m) k = f (tget d m k) := by
  refine tget_foldl_of_mem (fun m j => ?_) (fun m j i h => ?_) _ m (nodup_upFrom n 0) (mem_upFrom.mpr ⟨Nat.zero_le _, by omega⟩)
  · split
    · rename_i hj
      rw [(hb _).mp hj, hd]
    · exact tget_tset_self d m j _
  · split
    · rfl
    · exact tget_tset_ne d m j _ i h

section
variable (s : State) (whole : Bool) (code : Nat)

/-- The end of a window for a duty: a pass that was not whole is counted as missed, and the flag is set. -/
def State.passEnded : State :=
  if whole then s else ({ s with care := { s.care with flagScrub := true } }).modDuty code fun d => { d with missed := satInc32 d.missed }

theorem State.passEnded_stack (k : Nat) : (s.passEnded whole code).stack k = s.stack k := by cases whole <;> rfl

theorem State.passEnded_site (k : Nat) : (s.passEnded whole code).site k = s.site k := by cases whole <;> rfl

theorem State.passEnded_dayWindow : (s.passEnded whole code).care.dayWindow = s.care.dayWindow := by cases whole <;> rfl

theorem State.passEnded_hourWindow : (s.passEnded whole code).care.hourWindow = s.care.hourWindow := by cases whole <;> rfl

theorem State.modDuty_site (f : Duty → Duty) (k : Nat) : (s.modDuty code f).site k = s.site k := rfl

theorem State.duty_modDuty_self (f : Duty → Duty) : (s.modDuty code f).duty code = f (s.duty code) := tget_tset_self _ _ _ _

/-- A pass that was not whole is missed. -/
theorem State.passEnded_missed : (s.passEnded false code).care.flagScrub = true ∧ ((s.passEnded false code).duty code).missed = satInc32 (s.duty code).missed :=
  ⟨rfl, congrArg Duty.missed (State.duty_modDuty_self _ _ _)⟩

/-- The next day window, numbered `now`, with the counts of rows forgotten. -/
def State.dayBegun (now : Nat) : State :=
  { s with
    care := { s.care with dayWindow := now }
    hbm := (upFrom 0 32).foldl (fun m k => tmod {} m k fun st =>
      { st with rowErrs := [], passes := (st.passes + 1) % 65536, progress := if st.progress = 65536 then 0 else st.progress }) s.hbm }

/-- The next hour window, numbered `now`, with the counts of sites and channels forgotten. -/
def State.hourBegun (now : Nat) : State :=
  { s with
    care := { s.care with hourWindow := now }
    sites := (upFrom 0 1600).foldl (fun m k => if tget {} m k == {} then m else tmod {} m k fun t => { t with corrected := [] }) s.sites
    hbm := (upFrom 0 32).foldl (fun m k => tmod {} m k fun st => { st with hourErrs := [] }) s.hbm }

variable (now : Nat)

theorem State.dayBegun_care : (s.dayBegun now).care = { s.care with dayWindow := now } := rfl

theorem State.hourBegun_care : (s.hourBegun now).care = { s.care with hourWindow := now } := rfl

theorem State.dayBegun_duty (k : Nat) : (s.dayBegun now).duty k = s.duty k := by
  rw [State.duty, State.dayBegun_care]
  rfl

theorem State.hourBegun_duty (k : Nat) : (s.hourBegun now).duty k = s.duty k := by
  rw [State.duty, State.hourBegun_care]
  rfl

theorem State.dayBegun_stack {k : Nat} (hk : k < 32) : (s.dayBegun now).stack k = { s.stack k with
    rowErrs := [], passes := ((s.stack k).passes + 1) % 65536, progress := if (s.stack k).progress = 65536 then 0 else (s.stack k).progress } := by
  unfold State.dayBegun State.stack
  dsimp only
  exact tget_foldl_tmod s.hbm hk

theorem State.hourBegun_stack {k : Nat} (hk : k < 32) : (s.hourBegun now).stack k = { s.stack k with hourErrs := [] } := by
  unfold State.hourBegun State.stack
  dsimp only
  exact tget_foldl_tmod s.hbm hk

theorem State.hourBegun_site {k : Nat} (hk : k < 1600) : (s.hourBegun now).site k = { s.site k with corrected := [] } := by
  unfold State.hourBegun State.site
  dsimp only
  exact tget_foldl_tmod_listed rfl (b := fun t : Site => t == {}) (fun _ => beq_iff_eq) s.sites hk

end

/-- Whether the pass of HBM scrub over every stack that is not fenced is whole. -/
def State.hbmPassWhole (s : State) : Bool := (upFrom 0 32).all fun k => (s.stack k).st == .fenced || (s.stack k).progress == 65536

/-- Whether the pass of SRAM scrub has ended within the hour's window. -/
def State.sramPassWhole (s : State) : Bool := decide (90000000000 * s.care.hourWindow ≤ (s.duty 6).lastDone) && decide (0 < (s.duty 6).lastDone)

section
variable {s : State}

theorem exec_scrubWindowEnd_day (h : s.care.dayWindow ≠ s.tick / 2160000000000) :
    exec (.scrubWindowEnd true) s = .next ((s.dayBegun (s.tick / 2160000000000)).passEnded s.hbmPassWhole 7) := congrArg Host.Outcome.next (if_neg h)

theorem exec_scrubWindowEnd_hour (h : s.care.hourWindow ≠ s.tick / 90000000000) :
    exec (.scrubWindowEnd false) s = .next ((s.hourBegun (s.tick / 90000000000)).passEnded s.sramPassWhole 6) := congrArg Host.Outcome.next (if_neg h)

/-- Past its day the next day window begins, no row has a count in it, and a pass that was not whole is missed. -/
theorem scrubWindowEnd_begins_day (h : s.care.dayWindow ≠ s.tick / 2160000000000) : ∃ u, exec (.scrubWindowEnd true) s = .next u ∧
    u.care.dayWindow = s.tick / 2160000000000 ∧ (∀ k < 32, (u.stack k).rowErrs = [] ∧ (u.stack k).lines = (s.stack k).lines) ∧
    (s.hbmPassWhole = false → u.care.flagScrub = true ∧ (u.duty 7).missed = satInc32 (s.duty 7).missed) := by
  refine ⟨_, exec_scrubWindowEnd_day h, ?_, fun k hk => ?_, fun hmissed => ?_⟩
  · rw [State.passEnded_dayWindow, State.dayBegun_care]
  · rw [State.passEnded_stack, State.dayBegun_stack _ _ hk]
    exact ⟨rfl, rfl⟩
  · rw [hmissed, ← s.dayBegun_duty (s.tick / 2160000000000)]
    exact State.passEnded_missed _ 7

/-- Past its hour the next hour window begins, no site and no channel has a count in it, and a pass that was not whole is missed. -/
theorem scrubWindowEnd_begins_hour (h : s.care.hourWindow ≠ s.tick / 90000000000) : ∃ u, exec (.scrubWindowEnd false) s = .next u ∧
    u.care.hourWindow = s.tick / 90000000000 ∧ (∀ k < 1600, (u.site k).corrected = []) ∧ (∀ k < 32, (u.stack k).hourErrs = []) ∧
    (s.sramPassWhole = false → u.care.flagScrub = true ∧ (u.duty 6).missed = satInc32 (s.duty 6).missed) := by
  refine ⟨_, exec_scrubWindowEnd_hour h, ?_, fun k hk => ?_, fun k hk => ?_, fun hmissed => ?_⟩
  · rw [State.passEnded_hourWindow, State.hourBegun_care]
  · rw [State.passEnded_site, State.hourBegun_site _ _ hk]
  · rw [State.passEnded_stack, State.hourBegun_stack _ _ hk]
  · rw [hmissed, ← s.hourBegun_duty (s.tick / 90000000000)]
    exact State.passEnded_missed _ 6

theorem sramPassWhole_eq_false (h : (s.duty 6).lastDone < 90000000000 * s.care.hourWindow ∨ (s.duty 6).lastDone = 0) : s.sramPassWhole = false := by
  simp only [State.sramPassWhole, Bool.and_eq_false_iff, decide_eq_false_iff_not]
  omega

end

/-! ### Reports leave the sites as they are -/

section
variable (s : State)

theorem State.message_sites (f v : Nat) : (s.message f v).sites = s.sites := by
  unfold State.message
  split <;> rfl

theorem State.notify_sites (f v : Nat) : (s.notify f v).sites = s.sites := by
  unfold State.notify
  split
  · rfl
  · exact s.message_sites f v

theorem State.raise_sites (f v : Nat) : (s.raise f v).sites = s.sites := by
  unfold State.raise
  dsimp only
  split
  · rfl
  · split
    · rfl
    · exact State.notify_sites _ f v

theorem State.event_sites (r type part : Nat) (body : List Byte) : (s.event r type part body).sites = s.sites := by
  unfold State.event
  dsimp only
  split
  · rfl
  · split
    · rfl
    · exact State.raise_sites _ _ _

theorem State.sendPacket_sites (dev : Nat) (k : Packet) : (s.sendPacket dev k).sites = s.sites := by
  unfold State.sendPacket
  dsimp only
  split
  · rfl
  · split <;> rfl

theorem State.sendPackets_sites (devs : List Nat) (k : Packet) : (s.sendPackets devs k).sites = s.sites := by
  unfold State.sendPackets
  induction devs generalizing s with
  | nil => rfl
  | cons dev devs ih => exact (ih _).trans (s.sendPacket_sites dev k)

theorem State.forwardNote_sites (n : Note) : (s.forwardNote n).sites = s.sites := by
  have hown (u : State) (hu : u.sites = s.sites) : (if u.isPrefect then u.event mgmtEvents 0x0003 0 (noteBytes n) else u).sites = s.sites := by
    split
    · exact (u.event_sites _ _ _ _).trans hu
    · exact hu
  unfold State.forwardNote
  refine hown _ ?_
  split
  · split
    · exact s.sendPacket_sites _ _
    · rfl
  · rfl

theorem State.noteIn_sites (n : Note) : (s.noteIn n).sites = s.sites := by
  unfold State.noteIn
  dsimp only
  split
  · rfl
  · split
    · exact State.forwardNote_sites _ _
    · split
      · rfl
      · exact State.forwardNote_sites _ _

theorem State.sendReport_sites (n : Note) : (s.sendReport n).sites = s.sites := by
  unfold State.sendReport
  refine (State.sendPackets_sites _ _ _).trans ?_
  split
  · exact s.noteIn_sites n
  · rfl

theorem State.report_sites (kind unit cls p : Nat) : (s.report kind unit cls p).sites = s.sites := by
  have hsent (u : State) (key : NoteKey) (held : List Note) (n : Note) (hu : u.sites = s.sites) :
      (if key ∈ u.form.reported then { u with form := { u.form with toReport := held } }
        else ({ u with form := { u.form with reported := u.form.reported ++ [key] } } : State).sendReport n).sites = s.sites := by
    split
    · exact hu
    · exact (State.sendReport_sites _ n).trans hu
  unfold State.report
  refine hsent _ _ _ _ ?_
  split
  · exact s.raise_sites 0 9
  · rfl

end

/-! ### The check of an attention pipe (R171) -/

theorem State.powerForCheck_site (s : State) (x k : Nat) : (s.powerForCheck x).site k = s.site k := by
  unfold State.powerForCheck
  split
  · split <;> rfl
  · rfl

/-- A site as a check that its cache stage passes leaves it, made under the core's generation `gen`. -/
def Site.checked (t : Site) (gen : Nat) (same : Bool) : Site :=
  { t with checkGen := gen, pipeOk := same, cacheOk := true, checks := t.checks + 1
           fusedNext := if same then (if t.fusedHeld then t.fusedNext else some false) else some true
           fusedHeld := t.fusedHeld || !same }

theorem State.attnCheck_site (s : State) (x : Nat) (same : Bool) : ∃ gen, (s.attnCheck x same true).site x = (s.site x).checked gen same := by
  refine ⟨match s.coreAt x with | some c => (s.core c).gen | none => 0, ?_⟩
  refine Eq.trans ?_ (s.setSite_site_self x _)
  cases same with
  | true => rfl
  | false => exact congrArg (tget {} · x) (State.report_sites _ _ _ _ _)

/-- What the check notes of a site whose cache stage passes. -/
theorem checked_of_attentionPipeCheck {s : State} {x : Nat} (same : Bool) (hfenced : (s.site x).fenced = false) :
    let v := ((s.powerForCheck x).dutyStep 8 x 1600).attnCheck x same true
    let u := if same && true then v else v.dutyEvent 8
    (u.site x).pipeOk = same ∧ (u.site x).cacheOk = true ∧ (u.site x).checks = (s.site x).checks + 1 ∧ (u.site x).fenced = false := by
  intro v u
  have hcounted (b : Bool) : (if b then v else v.dutyEvent 8).site x = v.site x := by
    cases b with
    | false => exact v.modDuty_site 8 _ x
    | true => rfl
  obtain ⟨gen, hv⟩ := ((s.powerForCheck x).dutyStep 8 x 1600).attnCheck_site x same
  have hsite : ((s.powerForCheck x).dutyStep 8 x 1600).site x = s.site x :=
    (State.modDuty_site _ _ _ x).trans (s.powerForCheck_site x x)
  rw [show u.site x = v.site x from hcounted _, hv, hsite]
  exact ⟨rfl, rfl, rfl, hfenced⟩

/-- Whether the core at a site is seated. -/
def State.seatedAt (s : State) (x : Nat) : Bool := match s.coreAt x with | some c => (s.core c).seated | none => false

section
variable {s : State} {x : Nat} (hmain : s.power.mainOn = true) (hseated : s.seatedAt x = false)
include hmain hseated

/-- A check of a site that is not fenced and holds no seated core: a gated core is powered, the check is made and counted. -/
theorem exec_attentionPipeCheck_of_unseated (hfenced : (s.site x).fenced = false) (same cache : Bool) : exec (.attentionPipeCheck x same cache) s = .next
    (let v := ((s.powerForCheck x).dutyStep 8 x 1600).attnCheck x same cache
     if same && cache then v else v.dutyEvent 8) := by
  have hchecks : (!s.power.mainOn || s.seatedAt x || (s.site x).fenced) = false := by rw [hmain, hseated, hfenced]; rfl
  exact congrArg Host.Outcome.next (if_neg (Bool.eq_false_iff.mp hchecks))

/-- A retest of a site that holds no seated core is counted, and fences the site where it fails. -/
theorem exec_siteRetest_of_unseated (pass : Bool) :
    exec (.siteRetest x pass) s = .next (if pass then s.dutyStep 9 x 1600 else ((s.dutyStep 9 x 1600).fenceSite x).dutyEvent 9) := by
  have htests : (!s.power.mainOn || s.seatedAt x) = false := by rw [hmain, hseated]; rfl
  exact congrArg Host.Outcome.next (if_neg (Bool.eq_false_iff.mp htests))

end

/-! ### SRAM scrub (R232, R317, R425) -/

section
variable {s : State} (hmain : s.power.mainOn = true)
include hmain

/-- A word of a powered core that cannot be corrected fences its site. -/
theorem exec_sramScrub_of_powered {x c err : Nat} (addr : Nat) (hcore : s.coreAt x = some c)
    (hpower : (s.core c).power = .running ∨ (s.core c).power = .clockStop) (herr : 2 ≤ err) :
    exec (.sramScrub (.site x addr) err) s = .next ((s.dutyStep 6 x sramUnits).fenceSite x) := by
  have hon : ((s.core c).power == .running || (s.core c).power == .clockStop) = true := by simpa using hpower
  have hat : (s.dutyStep 6 x sramUnits).coreAt x = some c := hcore
  have hcores (k : Nat) : (s.dutyStep 6 x sramUnits).core k = s.core k := rfl
  have hsome : err ≠ 0 := by omega
  have hmore : err ≠ 1 := by omega
  show execSramScrub (.site x addr) err s = _
  simp only [execSramScrub, hmain, hat, hcores, hon, hsome, hmore, Bool.not_true, decide_false, Bool.or_self, Bool.false_eq_true, if_false]

/-- An error in a line of a slice is dealt with as the line's state asks, and counted. -/
theorem exec_sramScrub_sliceLine (k line sub : Nat) {err : Nat} (herr : err ≠ 0) : exec (.sramScrub (.sliceLine k line sub) err) s = .next
    ((((s.dutyStep 6 (1600 + k) sramUnits).modSlice k fun sl => { sl with asleep := false, touched := true }).modSlice k fun sl =>
      sl.scrubLine line sub err).dutyEvent 6) := by
  show execSramScrub (.sliceLine k line sub) err s = _
  simp only [execSramScrub, hmain, herr, Bool.not_true, Bool.false_eq_true, if_false]

/-- An error of a pin window's line that cannot be corrected is noted. -/
theorem exec_sramScrub_pinLine (k byte : Nat) {err : Nat} (herr : 2 ≤ err) : exec (.sramScrub (.pinLine k byte) err) s = .next
    (((s.dutyStep 6 (1600 + k) sramUnits).modSlice k fun sl => { sl with asleep := false, touched := true }).modSlice k fun sl =>
      { sl with pinBad := addOnce sl.pinBad (byte / 64) }) := by
  have hsome : err ≠ 0 := by omega
  have hmore : err ≠ 1 := by omega
  show execSramScrub (.pinLine k byte) err s = _
  simp only [execSramScrub, hmain, hsome, hmore, Bool.not_true, Bool.false_eq_true, if_false]

end

/-- Settles O42, one command at a time. -/
theorem scrubsAndSelfChecks : Obligations.ScrubsAndSelfChecks := by
  unfold Obligations.ScrubsAndSelfChecks
  intro s h line x ev hmain st m l
  refine ⟨fun l' hst hparity hplace hl hkey => ?_, exec_hbmScrub_of_bad hmain, fun c addr err => exec_sramScrub_of_powered hmain addr,
    fun k ln sub err => exec_sramScrub_sliceLine hmain k ln sub, fun k byte err herr => ?_,
    scrubWindowEnd_begins_day, fun hhour => ?_, fun hseated => ⟨fun hfenced same cache => ?_, ?_, ?_⟩⟩
  · obtain ⟨u, hexec, hlines, hothers⟩ := exec_hbmScrub_of_corrected hmain hst hparity hplace hl hkey
    exact ⟨u, hexec, by rw [hlines, tget_tset_self], fun k hk => by rw [hlines, tget_tset_ne _ _ _ _ _ hk], hothers⟩
  · refine ⟨_, exec_sramScrub_pinLine hmain k byte herr, ?_, ?_, ?_⟩
    · rw [State.modSlice_eq, State.setSlice_slice_self, State.modSlice_eq, State.setSlice_slice_self]
      rfl
    · exact (State.setSlice_cores _ _ _).trans (State.setSlice_cores _ _ _)
    · exact (State.setSlice_hbm _ _ _).trans (State.setSlice_hbm _ _ _)
  · obtain ⟨u, hexec, hwindow, hsites, hstacks, hmissed⟩ := scrubWindowEnd_begins_hour hhour
    exact ⟨u, hexec, hwindow, hsites, hstacks, fun hlate => hmissed (sramPassWhole_eq_false hlate)⟩
  · refine ⟨_, exec_attentionPipeCheck_of_unseated hmain hseated hfenced same cache, rfl, fun hcache => ?_⟩
    subst hcache
    exact checked_of_attentionPipeCheck same hfenced
  · exact exec_siteRetest_of_unseated hmain hseated true
  · exact exec_siteRetest_of_unseated hmain hseated false

end Sys2Proof.Machine
end

section
/-! PROOFS. A step of the module with a command in its queue (R184, R375; log entry 1). -/

namespace Sys2Proof.Machine

open Sys2Proof

/-- Settles O1: `step` is by definition `exec` of the command at the front, and this holds it to that. -/
theorem stepRunsFrontCommand : Obligations.StepRunsFrontCommand := by
  unfold Obligations.StepRunsFrontCommand
  intro c rest s
  rfl

end Sys2Proof.Machine
end

section
/-! PROOFS. Which commands leave the fields of control, and which set fabric time and the always-on tick (R184, R291, R412, R433). -/

namespace Sys2Proof.Machine

open Sys2Proof

/-! ### Commands that leave the fields of control -/

/-- The commands whose meaning may move a field of control: those of power, start-up and firmware, the ring commands that set what firmware
keeps of configuration and credentials, and an edge of BEAT. -/
def setsCtl : Instr → Bool
  | .telemetryWindowEnd .. | .phaseShed .. | .fwWatchdogRestart | .fwRestart | .behaviourPin .. | .partitionSet .. | .roleAuthEnrol ..
  | .roleAuthRevoke .. | .fwActivate .. | .inputGood .. | .inputLoss | .overVoltage | .overVoltageClear | .strapPhaseEnd .. | .bootRomCheck ..
  | .repairRecordCheck .. | .pwrEnRise | .pwrEnFall | .mainRegulatorsUp .. | .hbmTrainingDone .. | .selfTestDone ..
  | .opticalCalibrationDone .. | .emergOff | .beatEdge .. => true
  | _ => false

/-- Every other command leaves all fields of control as they are. -/
theorem exec_ctl (c : Instr) (s : State) (h : setsCtl c = false) : keepsO s.ctl (exec c s) := by
  cases c with
  | telemetryWindowEnd | phaseShed | fwWatchdogRestart | fwRestart | behaviourPin | partitionSet | roleAuthEnrol | roleAuthRevoke | fwActivate
  | inputGood | inputLoss | overVoltage | overVoltageClear | strapPhaseEnd | bootRomCheck | repairRecordCheck | pwrEnRise | pwrEnFall
  | mainRegulatorsUp | hbmTrainingDone | selfTestDone | opticalCalibrationDone | emergOff | beatEdge => cases h
  | taskOpen => exact execTaskOpen_ctl ..
  | taskClose => exact execTaskClose_ctl ..
  | loop => exact execLoop_ctl ..
  | setMb => exact execSetMb_ctl ..
  | bellRing => exact execBellRing_ctl ..
  | bellArm => exact execBellArm_ctl ..
  | bellWait => exact execBellWait_ctl ..
  | sectionEnd => exact execSectionEnd_ctl ..
  | taskFire => exact execTaskFire_ctl ..
  | mma => exact execMma_ctl ..
  | mmaAcc => exact execMmaAcc_ctl ..
  | mmaWg => exact execMmaWg_ctl ..
  | mmaAccWg => exact execMmaAccWg_ctl ..
  | accLoad => exact execAccLoad_ctl ..
  | drain => exact execDrain_ctl ..
  | drainAdd => exact execDrainAdd_ctl ..
  | engineOperationDone => exact execEngineOperationDone_ctl ..
  | rowSum => exact execRowSum_ctl ..
  | rowMax => exact execRowMax_ctl ..
  | rowSumsq => exact execRowSumsq_ctl ..
  | rowFn => exact execRowFn_ctl ..
  | softmax => exact execSoftmax_ctl ..
  | softmaxBwd => exact execSoftmaxBwd_ctl ..
  | norm => exact execNorm_ctl ..
  | normBwd => exact execNormBwd_ctl ..
  | vadd => exact execVadd_ctl ..
  | vsub => exact execVsub_ctl ..
  | vmul => exact execVmul_ctl ..
  | vmad => exact execVmad_ctl ..
  | vmax => exact execVmax_ctl ..
  | vmin => exact execVmin_ctl ..
  | vcvt => exact execVcvt_ctl ..
  | vaffine => exact execVaffine_ctl ..
  | vaddLs => exact execVaddLs_ctl ..
  | vrand => exact execVrand_ctl ..
  | vdrop => exact execVdrop_ctl ..
  | vput => exact execVput_ctl ..
  | optAdamw => exact execOptAdamw_ctl ..
  | optSgdm => exact execOptSgdm_ctl ..
  | optStep => exact execOptStep_ctl ..
  | attnFwd => exact execAttnFwd_ctl ..
  | attnRecomp => exact execAttnRecomp_ctl ..
  | attnDs => exact execAttnDs_ctl ..
  | rope => exact execRope_ctl ..
  | attnFwdFused => exact execAttnFwdFused_ctl ..
  | attnRecompFused => exact execAttnRecompFused_ctl ..
  | attnDsFused => exact execAttnDsFused_ctl ..
  | ropeFused => exact execRopeFused_ctl ..
  | kvAppend => exact execKvAppend_ctl ..
  | kvAppendAdmit => exact execKvAppendAdmit_ctl ..
  | kvLoad => exact execKvLoad_ctl ..
  | kvAllocatorTimeout => exact execKvAllocatorTimeout_ctl ..
  | tokenArrive => exact execTokenArrive_ctl ..
  | tokenOccurrence => exact execTokenOccurrence_ctl ..
  | creditOccurrence => exact execCreditOccurrence_ctl ..
  | creditArrive => exact execCreditArrive_ctl ..
  | closureMessage => exact execClosureMessage_ctl ..
  | commitVerdict => exact execCommitVerdict_ctl ..
  | discardVerdict => exact execDiscardVerdict_ctl ..
  | sliceVerdict => exact execSliceVerdict_ctl ..
  | ringMessage => exact execRingMessage_ctl ..
  | armMessage => exact execArmMessage_ctl ..
  | countMessage => exact execCountMessage_ctl ..
  | endMessage => exact execEndMessage_ctl ..
  | closeMessage => exact execCloseMessage_ctl ..
  | genMessage => exact execGenMessage_ctl ..
  | switchSlot => exact execSwitchSlot_ctl ..
  | windowBStart => exact execWindowBStart_ctl ..
  | windowCStart => exact execWindowCStart_ctl ..
  | sectionStart => exact execSectionStart_ctl ..
  | sectionStuck => exact execSectionStuck_ctl ..
  | periodBoundary => exact execPeriodBoundary_ctl ..
  | streamOccurrence => exact execStreamOccurrence_ctl ..
  | blockDelivered => exact execBlockDelivered_ctl ..
  | clockStop => exact execClockStop_ctl ..
  | coreWake => exact execCoreWake_ctl ..
  | coreGate => exact execCoreGate_ctl ..
  | corePowerUp => exact execCorePowerUp_ctl ..
  | rollCall => exact execRollCall_ctl ..
  | rollCallTimeout => exact execRollCallTimeout_ctl ..
  | cacheSlotOccurrence => exact execCacheSlotOccurrence_ctl ..
  | fillReady => exact execFillReady_ctl ..
  | fillInstall => exact execFillInstall_ctl ..
  | writeBack => exact execWriteBack_ctl ..
  | lineCopyDone => exact execLineCopyDone_ctl ..
  | migrationInDone => exact execMigrationInDone_ctl ..
  | migrationOutDone => exact execMigrationOutDone_ctl ..
  | farTransferTimeout => exact execFarTransferTimeout_ctl ..
  | prefetch => exact execPrefetch_ctl ..
  | stepBoundary => exact execStepBoundary_ctl ..
  | sampleWrite => exact execSampleWrite_ctl ..
  | intakeDmaFailure => exact execIntakeDmaFailure_ctl ..
  | flitTime => exact execFlitTime_ctl ..
  | frameSeal => exact execFrameSeal_ctl ..
  | timedFlitHandOn => exact execTimedFlitHandOn_ctl ..
  | edgeRouterAddition => exact execEdgeRouterAddition_ctl ..
  | bellFlit => exact execBellFlit_ctl ..
  | bellResend => exact execBellResend_ctl ..
  | packetResend => exact execPacketResend_ctl ..
  | laneFailure => exact execLaneFailure_ctl ..
  | ring => exact execRing_ctl ..
  | count => exact execCount_ctl ..
  | flag => exact execFlag_ctl ..
  | rung => exact execRung_ctl ..
  | rungAck => exact execRungAck_ctl ..
  | clip => exact execClip_ctl ..
  | heartbeat => exact execHeartbeat_ctl ..
  | missing => exact execMissing_ctl ..
  | takeover => exact execTakeover_ctl ..
  | heartbeatLost => exact execHeartbeatLost_ctl ..
  | beatBoundary => exact execBeatBoundary_ctl ..
  | lockPortDown => exact execLockPortDown_ctl ..
  | holdoverExpiry => exact execHoldoverExpiry_ctl ..
  | farRead => exact execFarRead_ctl ..
  | farData => exact execFarData_ctl ..
  | farWrite => exact execFarWrite_ctl ..
  | farAck => exact execFarAck_ctl ..
  | satchel => exact execSatchel_ctl ..
  | satchelAck => exact execSatchelAck_ctl ..
  | satchelCommit => exact execSatchelCommit_ctl ..
  | satchelCopyFailure => exact execSatchelCopyFailure_ctl ..
  | farSatchelCommit => exact execFarSatchelCommit_ctl ..
  | absenceNote => exact execAbsenceNote_ctl ..
  | noteWindowBoundary => exact execNoteWindowBoundary_ctl ..
  | memberAbsent => exact execMemberAbsent_ctl ..
  | hold => exact execHold_ctl ..
  | ready => exact execReady_ctl ..
  | spareFillSourceFailure => exact execSpareFillSourceFailure_ctl ..
  | coreSiteFence => exact execCoreSiteFence_ctl ..
  | routerProbe => exact execRouterProbe_ctl ..
  | routerParityFailure => exact execRouterParityFailure_ctl ..
  | rowRepair => exact execRowRepair_ctl ..
  | pseudoChannelSparing => exact execPseudoChannelSparing_ctl ..
  | spareCopyComplete => exact execSpareCopyComplete_ctl ..
  | hbmScrub => exact execHbmScrub_ctl ..
  | sramScrub => exact execSramScrub_ctl ..
  | scrubWindowEnd => exact execScrubWindowEnd_ctl ..
  | attentionPipeCheck => exact execAttentionPipeCheck_ctl ..
  | siteRetest => exact execSiteRetest_ctl ..
  | hbmInterfaceRetraining => exact execHbmInterfaceRetraining_ctl ..
  | opticalRecalibration => exact execOpticalRecalibration_ctl ..
  | laserAgeing => exact execLaserAgeing_ctl ..
  | thermalSensorCalibration => exact execThermalSensorCalibration_ctl ..
  | flashWearLevelling => exact execFlashWearLevelling_ctl ..
  | engineCurrentLimit => exact execEngineCurrentLimit_ctl ..
  | blockWake => exact execBlockWake_ctl ..
  | portPark => exact execPortPark_ctl ..
  | reKeyRetry => exact execReKeyRetry_ctl ..
  | sqTailDoorbell => exact execSqTailDoorbell_ctl ..
  | cqHeadDoorbell => exact execCqHeadDoorbell_ctl ..
  | eventHeadDoorbell => exact execEventHeadDoorbell_ctl ..
  | ringEnable => exact execRingEnable_ctl ..
  | ringDisable => exact execRingDisable_ctl ..
  | pendingTimeout => exact execPendingTimeout_ctl ..
  | completionPost => exact execCompletionPost_ctl ..
  | holdoffExpiry => exact execHoldoffExpiry_ctl ..
  | intCauseClear => exact execIntCauseClear_ctl ..
  | intMaskWrite => exact execIntMaskWrite_ctl ..
  | intakeAppend => exact execIntakeAppend_ctl ..
  | counterReadClear => exact execCounterReadClear_ctl ..
  | lowHalfRead => exact execLowHalfRead_ctl ..
  | registerWrite => exact execRegisterWrite_ctl ..
  | apertureRead => exact execApertureRead_ctl ..
  | apertureWrite => exact execApertureWrite_ctl ..
  | functionLevelReset => exact execFunctionLevelReset_ctl ..
  | hotReset => exact execHotReset_ctl ..
  | dlDown => exact execDlDown_ctl ..
  | numvfsClear => exact execNumvfsClear_ctl ..
  | ideFailure => exact execIdeFailure_ctl ..
  | getVersion => exact execGetVersion_ctl ..
  | getCapabilities => exact execGetCapabilities_ctl ..
  | negotiateAlgorithms => exact execNegotiateAlgorithms_ctl ..
  | getDigests => exact execGetDigests_ctl ..
  | getCertificate => exact execGetCertificate_ctl ..
  | challenge => exact execChallenge_ctl ..
  | getMeasurements => exact execGetMeasurements_ctl ..
  | keyExchange => exact execKeyExchange_ctl ..
  | finish => exact execFinish_ctl ..
  | spdmHeartbeat => exact execSpdmHeartbeat_ctl ..
  | keyUpdate => exact execKeyUpdate_ctl ..
  | endSession => exact execEndSession_ctl ..
  | deviceInfo => exact execDeviceInfo_ctl ..
  | partitionQuery => exact execPartitionQuery_ctl ..
  | jobLoad => exact execJobLoad_ctl ..
  | jobUnload => exact execJobUnload_ctl ..
  | jobInfo => exact execJobInfo_ctl ..
  | jobRanks => exact execJobRanks_ctl ..
  | jobRun => exact execJobRun_ctl ..
  | jobStop => exact execJobStop_ctl ..
  | jobQuery => exact execJobQuery_ctl ..
  | frozenSet => exact execFrozenSet_ctl ..
  | intakeConfig => exact execIntakeConfig_ctl ..
  | intakeShards => exact execIntakeShards_ctl ..
  | intakeStart => exact execIntakeStart_ctl ..
  | intakeStop => exact execIntakeStop_ctl ..
  | intakeQuery => exact execIntakeQuery_ctl ..
  | memQuotaSet => exact execMemQuotaSet_ctl ..
  | memQuotaQuery => exact execMemQuotaQuery_ctl ..
  | memAlloc => exact execMemAlloc_ctl ..
  | memFree => exact execMemFree_ctl ..
  | memFlush => exact execMemFlush_ctl ..
  | farAttach => exact execFarAttach_ctl ..
  | farDetach => exact execFarDetach_ctl ..
  | windowSetVersion => exact execWindowSetVersion_ctl ..
  | memPageQuery => exact execMemPageQuery_ctl ..
  | kvPoolCreate => exact execKvPoolCreate_ctl ..
  | kvSeqOpen => exact execKvSeqOpen_ctl ..
  | kvSeqPark => exact execKvSeqPark_ctl ..
  | kvSeqResume => exact execKvSeqResume_ctl ..
  | kvSeqClose => exact execKvSeqClose_ctl ..
  | kvPoolQuery => exact execKvPoolQuery_ctl ..
  | kvPoolDestroy => exact execKvPoolDestroy_ctl ..
  | satchelConfig => exact execSatchelConfig_ctl ..
  | satchelQuery => exact execSatchelQuery_ctl ..
  | satchelTake => exact execSatchelTake_ctl ..
  | satchelRestore => exact execSatchelRestore_ctl ..
  | spareFill => exact execSpareFill_ctl ..
  | reshardRun => exact execReshardRun_ctl ..
  | formSetup => exact execFormSetup_ctl ..
  | formQuery => exact execFormQuery_ctl ..
  | linkMeasure => exact execLinkMeasure_ctl ..
  | linkStatus => exact execLinkStatus_ctl ..
  | roleSet => exact execRoleSet_ctl ..
  | formLeave => exact execFormLeave_ctl ..
  | normRead => exact execNormRead_ctl ..
  | telRead => exact execTelRead_ctl ..
  | telStream => exact execTelStream_ctl ..
  | overflowRead => exact execOverflowRead_ctl ..
  | roleAuthChallenge => exact execRoleAuthChallenge_ctl ..
  | roleAuthResponse => exact execRoleAuthResponse_ctl ..
  | challengeExpiry => exact execChallengeExpiry_ctl ..
  | jobKeys => exact execJobKeys_ctl ..
  | jobKeysTimeout => exact execJobKeysTimeout_ctl ..
  | memKeyRotate => exact execMemKeyRotate_ctl ..
  | consentIssue => exact execConsentIssue_ctl ..
  | auditRead => exact execAuditRead_ctl ..
  | attest => exact execAttest_ctl ..
  | fwStage => exact execFwStage_ctl ..
  | fwQuery => exact execFwQuery_ctl ..
  | diagOpen => exact execDiagOpen_ctl ..
  | diagClose => exact execDiagClose_ctl ..
  | diagExpiry => exact execDiagExpiry_ctl ..
  | selftestRun => exact execSelftestRun_ctl ..
  | hbmSpare => exact execHbmSpare_ctl ..
  | siteFence => exact execSiteFence_ctl ..
  | repairQuery => exact execRepairQuery_ctl ..
  | noteQuery => exact execNoteQuery_ctl ..
  | caretakerQuery => exact execCaretakerQuery_ctl ..
  | caretakerSet => exact execCaretakerSet_ctl ..
  | i3cPrivateWrite => exact execI3cPrivateWrite_ctl ..
  | i3cPrivateRead => exact execI3cPrivateRead_ctl ..
  | entdaa => exact execEntdaa_ctl ..
  | setdasa => exact execSetdasa_ctl ..
  | rstdaa => exact execRstdaa_ctl ..
  | getpid => exact execGetpid_ctl ..
  | getbcr => exact execGetbcr_ctl ..
  | getdcr => exact execGetdcr_ctl ..
  | getstatus => exact execGetstatus_ctl ..
  | enec => exact execEnec_ctl ..
  | disec => exact execDisec_ctl ..
  | perstRelease => exact execPerstRelease_ctl ..
  | perstAssert => exact execPerstAssert_ctl ..
  | seatInChange => exact execSeatInChange_ctl ..
  | cartridgeLatchOpen => exact execCartridgeLatchOpen_ctl ..
  | cartridgeLatchClose => exact execCartridgeLatchClose_ctl ..
  | normPacket => exact execNormPacket_ctl ..
  | formControlProbe => exact execFormControlProbe_ctl ..
  | dataPositionReport => exact execDataPositionReport_ctl ..
  | lockPortReturn => exact execLockPortReturn_ctl ..
  | laneRetrainDone => exact execLaneRetrainDone_ctl ..
  | pseudoChannelUnresponsive => exact execPseudoChannelUnresponsive_ctl ..
  | kvAllocatorAnswer => exact execKvAllocatorAnswer_ctl ..
  | computeUnitOperationDone => exact execComputeUnitOperationDone_ctl ..
  | dlUp => exact execDlUp_ctl ..
  | vfEnable => exact execVfEnable_ctl ..
  | barChange => exact execBarChange_ctl ..
  | tdispRequest => exact execTdispRequest_ctl ..
  | ideKmRequest => exact execIdeKmRequest_ctl ..

/-! ### Fabric time and the tick -/

/-- Fabric time and the always-on tick. -/
def Ctl.time (k : Ctl) : Nat × Nat := (k.slot, k.tick)

theorem time_eq_iff {s t : State} : t.ctl.time = s.ctl.time ↔ t.slot = s.slot ∧ t.tick = s.tick := Prod.mk_inj

theorem time_ite {c : Prop} [Decidable c] {a b : State} {k : Nat × Nat} (ha : a.ctl.time = k) (hb : b.ctl.time = k) :
    (if c then a else b).ctl.time = k := by split <;> assumption

section
variable (s : State)

@[simp] theorem State.mainOff_time : s.mainOff.ctl.time = s.ctl.time := by rw [State.mainOff_ctl]; rfl

@[simp] theorem State.settleSeat_time : s.settleSeat.ctl.time = s.ctl.time := by rw [State.settleSeat_ctl]; rfl

@[simp] theorem State.toStep_time (k : Nat) : (s.toStep k).ctl.time = s.ctl.time := by rw [State.toStep_ctl]; rfl

@[simp] theorem State.enterFault_time (cls : Nat) : (s.enterFault cls).ctl.time = s.ctl.time := by
  rw [State.enterFault_ctl]
  split <;> rfl

@[simp] theorem State.powerLoss_time : s.powerLoss.ctl.time = s.ctl.time := by rw [State.powerLoss_ctl]; rfl

@[simp] theorem State.intoBank_time : s.intoBank.ctl.time = s.ctl.time := by
  rw [State.intoBank_ctl]
  split <;> rfl

@[simp] theorem State.partitionSet_time (n : Nat) : (s.partitionSet n).ctl.time = s.ctl.time := by rw [State.partitionSet_ctl]; rfl

/-- A pulse of BEAT sets fabric time where it completes a frame that gives the epoch, and never the tick (R292, R293). -/
theorem State.readPulse_tick (n : Nat) (r : Option (Option Bool)) : (s.readPulse n r).tick = s.tick := by
  unfold State.readPulse
  dsimp only
  repeat' split
  all_goals rfl

end

/-! ### Ring commands (R372) -/

/-- A result of a command's work whose state, where it has one, has the value `v` of `φ`. -/
def CmdRes.keepsOf {α : Type} (φ : Ctl → α) (v : α) : CmdRes → Prop
  | .done s _ | .later s => φ s.ctl = v
  | .fail _ => True

section
variable {α : Type} {φ : Ctl → α} {f : State → Job → CmdRes} {rules : CmdRules}

/-- What a command's own work keeps of the fields of control, the whole command keeps. -/
theorem State.runCmd_keepsOf (hf : ∀ u j, (f u j).keepsOf φ (φ u.ctl)) (s : State) (r t op : Nat) (digest : Option (BitVec 512)) :
    φ (s.runCmd r t op rules f digest).ctl = φ s.ctl := by
  unfold State.runCmd
  split
  · rfl
  · split
    · rfl
    · extract_lets s0 c' cred fin
      have h0 : s0.ctl = s.ctl := State.markStarted_ctl ..
      have hfin : ∀ u a, (fin u a).ctl = u.ctl := fun u a =>
        (State.settleRings_ctl _).trans ((State.close_ctl ..).trans (State.auditCmd_ctl ..))
      clear_value s0 fin
      split
      · rw [hfin, h0]
      · rename_i j _
        have hj := hf s0 j
        split <;> rename_i he <;> rw [he] at hj
        · rw [hfin, h0]
        · rw [State.settleRings_ctl, State.modRing_ctl, hj, h0]
        · split
          · rw [hfin, h0]
          · rw [hfin, hj, h0]

/-- So does a ROLE_AUTH command. -/
theorem State.roleAuth_keepsOf (hf : ∀ u j, (f u j).keepsOf φ (φ u.ctl)) (s : State) (r t type : Nat) :
    φ (s.roleAuth r t type rules f).ctl = φ s.ctl := by
  unfold State.roleAuth
  split
  · rfl
  · refine (State.runCmd_keepsOf (fun u j => ?_) ..).trans (by rw [State.dropChallenge_ctl])
    split
    · trivial
    · exact hf u j

end

/-! ### Commands that move a field of control, but neither time nor tick -/

/-- An outcome whose next state, where it has one, has the fabric time and the tick of `s`. -/
structure KeepsTime (s : State) (r : Host.Outcome State Fault Refusal) : Prop where
  next : ∀ t, r = .next t → t.ctl.time = s.ctl.time

theorem KeepsTime.of_next {s t : State} (h : t.ctl.time = s.ctl.time) : KeepsTime s (.next t) :=
  ⟨fun _ ht => Host.Outcome.next.inj ht ▸ h⟩

theorem KeepsTime.of_keepsO {s : State} {r : Host.Outcome State Fault Refusal} (h : keepsO s.ctl r) : KeepsTime s r :=
  ⟨fun _ ht => congrArg Ctl.time (ctl_of_next h ht)⟩

section
variable (s : State)

theorem execTelemetryWindowEnd_time (temps : List Int) (powers : List Nat) : KeepsTime s (execTelemetryWindowEnd temps powers s) := by
  refine .of_next (time_ite rfl ?_)
  extract_lets s1 s2 care s3 s4
  have h2 : s2.ctl = s.ctl := (foldl_ctl (fun _ _ => State.keepWindow_ctl ..) _ _).trans (State.readSensors_ctl ..)
  have h4 : s4.ctl = s.ctl := (State.modDuty_ctl ..).trans h2
  clear_value s4
  rw [← h4]
  exact time_ite rfl (time_ite (State.enterFault_time ..) (by simp))

theorem execPhaseShed_time (rail : Nat) : KeepsTime s (execPhaseShed rail s) :=
  .of_next (time_ite rfl (time_ite rfl (State.enterFault_time ..)))

theorem execFwWatchdogRestart_time : KeepsTime s (execFwWatchdogRestart s) :=
  .of_next (time_ite (by rw [State.report_ctl, State.fwDown_ctl]; rfl) rfl)

theorem execFwRestart_time : KeepsTime s (execFwRestart s) := by
  refine .of_next (time_ite rfl ?_)
  extract_lets cause power s1 head s2 s3 s4
  have h3 : s3.ctl = s1.ctl := (State.event_ctl ..).trans (State.audit_ctl ..)
  have h4 : s4.ctl = s3.ctl := foldl_ctl (fun _ _ => State.partEvent_ctl ..) _ _
  rw [State.settleRings_ctl, State.releaseHolds_ctl, h4, h3]
  rfl

theorem execBehaviourPin_time (r t : Nat) : KeepsTime s (execBehaviourPin r t s) := by
  refine .of_next (State.runCmd_keepsOf (fun u j => ?_) ..)
  rfl

theorem execPartitionSet_time (r t : Nat) : KeepsTime s (execPartitionSet r t s) := by
  refine .of_next (State.runCmd_keepsOf (fun u j => ?_) ..)
  split
  · trivial
  · exact State.partitionSet_time ..

theorem execRoleAuthEnrol_time (r t : Nat) : KeepsTime s (execRoleAuthEnrol r t s) := by
  refine .of_next (State.roleAuth_keepsOf (fun u j => ?_) ..)
  dsimp only
  split
  · trivial
  · exact time_ite (by rw [State.modRing_ctl]; rfl) rfl

theorem execRoleAuthRevoke_time (r t : Nat) : KeepsTime s (execRoleAuthRevoke r t s) := by
  refine .of_next (State.roleAuth_keepsOf (fun u j => ?_) ..)
  split
  · trivial
  · split
    · trivial
    · rfl

theorem execFwActivate_time (r t : Nat) : KeepsTime s (execFwActivate r t s) := by
  refine .of_next (State.runCmd_keepsOf (fun u j => ?_) ..)
  split
  · trivial
  · refine (State.intoBank_time _).trans (time_ite ?_ ?_) <;> simp

theorem execInputLoss_time : KeepsTime s (execInputLoss s) := .of_next (time_ite rfl (State.powerLoss_time s))

theorem execOverVoltage_time : KeepsTime s (execOverVoltage s) := .of_next (time_ite rfl (State.powerLoss_time s))

theorem execEmergOff_time : KeepsTime s (execEmergOff s) := .of_next (time_ite rfl (State.powerLoss_time s))

theorem execBootRomCheck_time (seedOk : Bool) : KeepsTime s (execBootRomCheck seedOk s) :=
  .of_next (time_ite rfl (time_ite (State.enterFault_time ..) (time_ite (State.toStep_time ..)
    (time_ite (State.toStep_time ..) (State.enterFault_time s 0x61)))))

theorem execRepairRecordCheck_time (ok : Bool) : KeepsTime s (execRepairRecordCheck ok s) := by
  refine .of_next (time_ite rfl (time_ite (State.enterFault_time ..) ?_))
  rw [State.settleRings_ctl, State.toStep_time, State.logStart_ctl]
  rfl

theorem execPwrEnRise_time : KeepsTime s (execPwrEnRise s) := .of_next (time_ite (State.toStep_time ..) rfl)

theorem execPwrEnFall_time : KeepsTime s (execPwrEnFall s) :=
  .of_next (time_ite ((State.settleSeat_time _).trans (State.mainOff_time _)) rfl)

theorem execMainRegulatorsUp_time (ok : Bool) : KeepsTime s (execMainRegulatorsUp ok s) :=
  .of_next (time_ite rfl (time_ite (State.enterFault_time ..) (State.toStep_time ..)))

theorem execHbmTrainingDone_time (failed : List Nat) : KeepsTime s (execHbmTrainingDone failed s) := by
  refine .of_next (time_ite rfl ((State.toStep_time ..).trans (congrArg Ctl.time ?_)))
  refine (foldl_ctl (fun u p => (State.drawKeys_ctl ..).trans (State.modPart_ctl ..)) _ _).trans ?_
  exact (foldl_ctl (fun _ _ => State.fenceStack_ctl ..) _ _).trans (foldl_ctl (fun _ _ => State.modStack_ctl ..) _ _)

theorem execSelfTestDone_time (fails attn cache : List Nat) : KeepsTime s (execSelfTestDone fails attn cache s) := by
  refine .of_next (time_ite rfl ((State.toStep_time ..).trans (congrArg Ctl.time ((State.seatPlans_ctl _).trans ?_))))
  refine (foldl_ctl (fun u x => ctl_ite rfl (State.attnCheck_ctl ..)) _ _).trans ?_
  exact (foldl_ctl (fun _ _ => State.fenceSite_ctl ..) _ _).trans (foldl_ctl (fun _ _ => State.applyRepair_ctl ..) _ _)

theorem execOpticalCalibrationDone_time (failed : List Nat) : KeepsTime s (execOpticalCalibrationDone failed s) := by
  refine .of_next (time_ite rfl ?_)
  extract_lets s1
  have h1 : s1.ctl = s.ctl := foldl_ctl (fun _ _ => ctl_ite rfl (State.modPort_ctl ..)) _ _
  clear_value s1
  rw [State.settleRings_ctl, State.toStep_time, ← h1]
  rfl

end

/-! ### Commands that set one of the two -/

/-- The commands that may set fabric time or the tick: an edge of BEAT, a new start, and the end of the strap phase. -/
def setsTime : Instr → Bool
  | .beatEdge .. | .inputGood .. | .overVoltageClear | .strapPhaseEnd .. => true
  | _ => false

/-- Every other command leaves both. -/
theorem exec_time (c : Instr) (s : State) (h : setsTime c = false) : KeepsTime s (exec c s) := by
  by_cases hc : setsCtl c = true
  · cases c with
    | beatEdge | inputGood | overVoltageClear | strapPhaseEnd => cases h
    | telemetryWindowEnd => exact execTelemetryWindowEnd_time ..
    | phaseShed => exact execPhaseShed_time ..
    | fwWatchdogRestart => exact execFwWatchdogRestart_time ..
    | fwRestart => exact execFwRestart_time ..
    | behaviourPin => exact execBehaviourPin_time ..
    | partitionSet => exact execPartitionSet_time ..
    | roleAuthEnrol => exact execRoleAuthEnrol_time ..
    | roleAuthRevoke => exact execRoleAuthRevoke_time ..
    | fwActivate => exact execFwActivate_time ..
    | inputLoss => exact execInputLoss_time ..
    | overVoltage => exact execOverVoltage_time ..
    | bootRomCheck => exact execBootRomCheck_time ..
    | repairRecordCheck => exact execRepairRecordCheck_time ..
    | pwrEnRise => exact execPwrEnRise_time ..
    | pwrEnFall => exact execPwrEnFall_time ..
    | mainRegulatorsUp => exact execMainRegulatorsUp_time ..
    | hbmTrainingDone => exact execHbmTrainingDone_time ..
    | selfTestDone => exact execSelfTestDone_time ..
    | opticalCalibrationDone => exact execOpticalCalibrationDone_time ..
    | emergOff => exact execEmergOff_time ..
    | _ => cases hc
  · exact .of_keepsO (exec_ctl c s (Bool.not_eq_true _ ▸ hc))

section
variable {s t : State}

/-- An edge of BEAT never sets the tick (R292). -/
theorem exec_beatEdge_tick {width : Nat} (h : exec (.beatEdge width) s = .next t) : t.tick = s.tick := by
  cases h
  dsimp only
  split <;> exact State.readPulse_tick ..

/-- A new start sets the tick to 0 and leaves fabric time (R433). -/
theorem State.beginStart_slot (a b : Bool) : (s.beginStart a b).slot = s.slot :=
  congrArg Prod.fst (State.powerLoss_time s)

theorem exec_inputGood_slot {second : Bool} (h : exec (.inputGood second) s = .next t) : t.slot = s.slot := by
  cases h
  dsimp only
  split
  · rfl
  · split
    · rfl
    · exact State.beginStart_slot ..

theorem exec_overVoltageClear_slot (h : exec .overVoltageClear s = .next t) : t.slot = s.slot := by
  cases h
  dsimp only
  split
  · rfl
  · split
    · rfl
    · exact State.beginStart_slot ..

/-- The end of the strap phase may set the tick, and leaves fabric time (R412, R438). -/
theorem exec_strapPhaseEnd_slot {mv : List Nat} (h : exec (.strapPhaseEnd mv) s = .next t) : t.slot = s.slot := by
  cases h
  dsimp only
  split
  · rfl
  · exact (congrArg Ctl.slot (State.drive_ctl _ "PWR_OK" true)).trans rfl

end

/-- Settles O10: of the commands that set one of the two, an edge of BEAT sets fabric time alone, and the others the tick alone. -/
theorem timeHasFewWriters : Obligations.TimeHasFewWriters := by
  unfold Obligations.TimeHasFewWriters
  intro c s t h
  by_cases hc : setsTime c = true
  · cases c with
    | beatEdge w => exact ⟨fun _ => ⟨w, rfl⟩, fun hne => absurd (exec_beatEdge_tick h) hne⟩
    | inputGood a => exact ⟨fun hne => absurd (exec_inputGood_slot h) hne, fun _ => .inl ⟨a, rfl⟩⟩
    | overVoltageClear => exact ⟨fun hne => absurd (exec_overVoltageClear_slot h) hne, fun _ => .inr (.inl rfl)⟩
    | strapPhaseEnd a => exact ⟨fun hne => absurd (exec_strapPhaseEnd_slot h) hne, fun _ => .inr (.inr ⟨a, rfl⟩)⟩
    | _ => cases hc
  · obtain ⟨hslot, htick⟩ := time_eq_iff.mp ((exec_time c s (Bool.not_eq_true _ ▸ hc)).next t h)
    exact ⟨fun hne => absurd hslot hne, fun hne => absurd htick hne⟩

end Sys2Proof.Machine
end

section
/-! PROOFS. An occurrence of a stream, what becomes of the unit that it moves, and a block that is delivered (R190 to R193, R227). -/

namespace Sys2Proof.Machine

open Sys2Proof

/-! ### Occurrences (R190, R191, R227) -/

section
variable {s : State} {p st err : Nat} {l : Launch} {rest : List Launch}

/-- The state in which the slot's occurrence of a stream is used up. -/
def State.occurring (s : State) (p st : Nat) : State :=
  s.modPart p fun part => { part with streams := tset {} part.streams st { tget {} (s.part p).streams st with last := s.slot + 1 } }

/-- What becomes of the next unit of the launched block `l`, by the kind of its stream. -/
def State.nextUnit (s : State) (p st : Nat) (l : Launch) (err : Nat) : UnitRes :=
  let kind := stKind ((s.part p).stream st)
  let unit := (tget {} (s.part p).streams st).unit
  if kind = 0 then (s.occurring p st).unitFromSlice p st l unit err
  else if kind = 1 then (s.occurring p st).unitToSlice p st l unit
  else (s.occurring p st).unitVector p st l unit

/-- What the outcome of a unit leaves of its block (R191, R193, R227). -/
def UnitRes.after (p st : Nat) (l : Launch) (rest : List Launch) : UnitRes → State
  | .ended s => s
  | .held s c => (s.kvWhy p l (c + 1)).routerWait l.core s.slot c
  | .moved s => (((s.kvWhy p l 0).unitMoved p st l rest).launchRoom l.core).kvPump p

/-- STREAM_OCCURRENCE in a slot of the stream's timetable in which it has not occurred yet, with a launched block whose slot has come. -/
theorem exec_streamOccurrence_of_pending (hkind : stKind ((s.part p).stream st) ≠ 2)
    (hlast : (tget {} (s.part p).streams st).last ≠ s.slot + 1) (hoccurs : (s.part p).streamOccurs ((s.part p).stream st) s.slot = true)
    (hstream : ((s.part p).sec.streams.find? fun e => e.1 == st).isSome = true)
    (hpending : (tget {} (s.part p).streams st).pending = l :: rest) (hat : l.at' < s.slot) :
    exec (.streamOccurrence p st err) s = .next ((s.nextUnit p st l err).after p st l rest) := by
  have hopen : ¬ (stKind ((s.part p).stream st) = 2 || (tget {} (s.part p).streams st).last = s.slot + 1 ||
      !(s.part p).streamOccurs ((s.part p).stream st) s.slot || ((s.part p).sec.streams.find? fun e => e.1 == st).isNone) = true := by
    rw [← Option.not_isSome, hstream, hoccurs]
    simp [hkind, hlast]
  refine congrArg Host.Outcome.next ((if_neg hopen).trans ?_)
  split
  · rename_i hnone
    rw [hpending] at hnone
    cases hnone
  · rename_i hsome
    obtain ⟨rfl, rfl⟩ := List.cons.inj (hpending.symm.trans hsome)
    exact if_neg (Nat.not_le.mpr hat)

end

/-! ### Delivered blocks (R192) -/

section
variable {s : State} {p st due : Nat} {l : Launch} {rest : List (Launch × Nat)}

/-- BLOCK_DELIVERED of a block of no key-value request, after the delivery slot of its last unit, with nothing of it on the way and nothing
that its ring waits for. -/
theorem exec_blockDelivered_of_due (hmoving : (tget {} (s.part p).streams st).moving = (l, due) :: rest) (hdue : due < s.slot)
    (hkv : l.kv = none) (hflits : ((s.part p).flits.any fun f => f.stream == st && f.launch.block == l.block) = false)
    (hglobal : (stBellEn ((s.part p).stream st) && decide (stBell ((s.part p).stream st) < 1024) && s.timedOwed l.core l.seq) = false)
    (hroom : stBellEn ((s.part p).stream st) = true → 0 < s.upRoom l.core) :
    exec (.blockDelivered p st) s = .next ((s.modPart p fun part => { part with
      streams := tset {} part.streams st { tget {} (s.part p).streams st with moving := rest }
      up := if stBellEn ((s.part p).stream st) then part.up ++ [.ring (stBell ((s.part p).stream st)) 1 l.core] else part.up
      }).settleCore l.core) := by
  have hring : (stBellEn ((s.part p).stream st) && s.upRoom l.core == 0) = false := by
    cases hbell : stBellEn ((s.part p).stream st) with
    | false => rfl
    | true => simpa using Nat.ne_of_gt (hroom hbell)
  refine congrArg Host.Outcome.next ?_
  simp only [hmoving, hkv, hflits, hglobal, hring, Nat.not_le.mpr hdue, decide_false, Bool.or_self, Bool.false_eq_true, if_false]

end

/-- Settles O30: a unit's outcome decides what its occurrence leaves, and a block is delivered once nothing holds it. -/
theorem streamsMoveUnits : Obligations.StreamsMoveUnits := by
  unfold Obligations.StreamsMoveUnits
  intro s p st part x ss
  refine ⟨?_, fun l due rest => exec_blockDelivered_of_due⟩
  intro l rest err hkind hlast hoccurs hstream hpending hat s1 r
  have hexec : ∀ r', r = r' → exec (.streamOccurrence p st err) s = .next (r'.after p st l rest) := by
    rintro _ rfl
    exact exec_streamOccurrence_of_pending hkind hlast hoccurs hstream hpending hat
  exact ⟨fun u => hexec (.moved u), fun u k => hexec (.held u k), fun u => hexec (.ended u)⟩

end Sys2Proof.Machine
end

section
/-! PROOFS. The traffic between a slice and HBM: cache slots, fills, write-backs and the copy of a page's boundary lines (R190, R225, R228,
R229, R321). -/

namespace Sys2Proof.Machine

open Sys2Proof

section
variable {s : State} {sl a p pg : Nat}

/-- CACHE_SLOT_OCCURRENCE in a slot that the slice's timetable gives it (R190, R229). -/
theorem exec_cacheSlotOccurrence_of_slot {g : Nat} (hslot : s.cacheSlot sl = some g) :
    exec (.cacheSlotOccurrence sl) s = .next (s.cacheOccurs sl g) := by
  refine congrArg Host.Outcome.next ?_
  rw [hslot]

/-- FILL_READY of a fill that has had its time at the controller, its line's write-back having gone before it (R228, R229). -/
theorem exec_fillReady_of_due {f : Fill} {ev : HbmEvent}
    (hfind : ((s.slice sl).fills.find? fun f => f.addr == a && f.holds && f.data.isNone) = some f) (hdue : f.due ≤ s.slot)
    (hback : (((s.slice sl).wbSent ++ (s.slice sl).wbQueue).any fun l => l.addr == a) = false) :
    exec (.fillReady sl a ev) s = .next (s.fillReady sl a ev) := by
  refine congrArg Host.Outcome.next ?_
  simp only [hfind, hdue, hback, decide_true, Bool.not_false, Bool.and_self, if_true]

/-- FILL_INSTALL of a line that has arrived, with no page-table entry before it and a way to be had (R225, R228). -/
theorem exec_fillInstall_of_way {f : Fill} {w : Nat} {k : Slice}
    (hwalk : (((s.settleSlice sl).slice sl).walks.find? fun w => w.arriving && decide (w.due ≤ (s.settleSlice sl).slot)) = none)
    (hfill : (((s.settleSlice sl).slice sl).fills.find? fun f => f.arriving && decide (f.due ≤ (s.settleSlice sl).slot)) = some f)
    (hway : ((s.settleSlice sl).slice sl).install ((s.settleSlice sl).cacheBays sl) f.addr (s.settleSlice sl).slot (f.data.getD []) = .got w k) :
    exec (.fillInstall sl) s = .next ((s.settleSlice sl).setSlice sl { k with touched := true }) := by
  refine congrArg Host.Outcome.next ?_
  simp only [hwalk, hfill, hway]

/-- WRITE_BACK carries out the oldest write-back on its way (R321). -/
theorem exec_writeBack_of_sent {l : SliceLine} {rest : List SliceLine} (hsent : (s.slice sl).wbSent = l :: rest) :
    exec (.writeBack sl) s = .next (s.writeBack sl l rest) := by
  refine congrArg Host.Outcome.next ?_
  rw [hsent]

/-- LINE_COPY_DONE of a page whose boundary version is still kept apart (R321; log entry 67). -/
theorem exec_lineCopyDone_of_kept {b : Nat} (hkept : ((s.part p).page pg).boundary = some b) (hcopy : ((s.part p).page pg).copyAll = false) :
    exec (.lineCopyDone p pg) s = .next ((s.putLines (s.stackOfPage p pg) ((s.part p).page pg).frame (s.pageLines p pg)).setPage p pg
      { (s.part p).page pg with copyAll := true }) := by
  refine congrArg Host.Outcome.next ?_
  simp only [hkept, hcopy, Bool.false_eq_true, if_false]

end

/-- Settles O33: each command takes the branch that its conditions name. -/
theorem sliceCacheMovesLines : Obligations.SliceCacheMovesLines := by
  unfold Obligations.SliceCacheMovesLines
  intro s sl a p pg k
  exact ⟨fun _ => exec_cacheSlotOccurrence_of_slot, fun _ _ => exec_fillReady_of_due, fun _ _ _ => exec_fillInstall_of_way,
    fun _ _ => exec_writeBack_of_sent, fun _ => exec_lineCopyDone_of_kept⟩

end Sys2Proof.Machine
end

section
/-! PROOFS. The far tier: the ends of transfers, prefetch, and the packets that carry pages over the links (R246, R247, R251, R288). -/

namespace Sys2Proof.Machine

open Sys2Proof

/-! ### Transfers in and out (R246, R247) -/

section
variable {s : State} {p pg : Nat}

section
variable (hin : (s.part p).inTransfer pg true = true)
include hin

/-- The lines of a local backend come with the command that ends the transfer. -/
theorem exec_migrationInDone_of_local {ls : SMap HbmLine} (hkind : ((s.part p).backendOf pg).kind = 0) :
    exec (.migrationInDone p pg (some ls)) s =
      .next ((s.putLines (s.stackOfPage p pg) ((s.part p).page pg).frame ls).pageIn p pg) := by
  refine congrArg Host.Outcome.next ?_
  simp only [hin, hkind, Bool.not_true, Bool.false_eq_true, if_false, if_true]

/-- A transfer in that has failed once or twice is asked for again. -/
theorem exec_migrationInDone_of_retry (htries : ((s.part p).page pg).tries < 2) :
    exec (.migrationInDone p pg none) s = .next ((s.setPage p pg
      { (s.part p).page pg with tries := ((s.part p).page pg).tries + 1, arrived := [] }).askIn p pg) := by
  refine congrArg Host.Outcome.next ?_
  simp only [hin, htries, Bool.not_true, Bool.false_eq_true, if_false, if_true]

/-- The third attempt that fails ends a transfer in. -/
theorem exec_migrationInDone_of_tried (htries : 2 ≤ ((s.part p).page pg).tries) :
    exec (.migrationInDone p pg none) s = .next (s.failIn p pg 0x22) := by
  refine congrArg Host.Outcome.next ?_
  simp only [hin, Nat.not_lt.mpr htries, Bool.not_true, Bool.false_eq_true, if_false]
  rfl

/-- A transfer in that outlasts its backend's TIMEOUT has failed. -/
theorem exec_farTransferTimeout_of_in (hdue : ((s.part p).page pg).started + ((s.part p).backendOf pg).timeoutMs * 25000 ≤ s.tick) :
    exec (.farTransferTimeout p pg) s = .next (s.failIn p pg 0x70) := by
  refine congrArg Host.Outcome.next ?_
  simp only [hin, hdue, if_true]
  rfl

end

/-- A transfer out that outlasts its backend's TIMEOUT has failed. -/
theorem exec_farTransferTimeout_of_out (hin : (s.part p).inTransfer pg true = false) (hout : (s.part p).inTransfer pg false = true)
    (hdue : ((s.part p).page pg).started + ((s.part p).backendOf pg).timeoutMs * 25000 ≤ s.tick) :
    exec (.farTransferTimeout p pg) s = .next (s.failOut p pg 0x70) := by
  refine congrArg Host.Outcome.next ?_
  simp only [hin, hout, hdue, Bool.false_eq_true, if_false, if_true]
  rfl

section
variable (hout : (s.part p).sending pg = true)
include hout

/-- A page is out once its local backend has it, or every piece has been acknowledged. -/
theorem exec_migrationOutDone_of_stored (hall : ((s.part p).backendOf pg).kind = 0 ∨ ((s.part p).page pg).arrived.length = 512) :
    exec (.migrationOutDone p pg true) s = .next (s.pageOut p pg) := by
  refine congrArg Host.Outcome.next ?_
  simp only [hout, hall, Bool.or_eq_true, decide_eq_true_eq, Bool.not_true, Bool.false_eq_true, if_false, if_true]

/-- A transfer out that has failed once or twice is sent again. -/
theorem exec_migrationOutDone_of_retry (htries : ((s.part p).page pg).tries < 2) :
    exec (.migrationOutDone p pg false) s = .next ((s.setPage p pg
      { (s.part p).page pg with tries := ((s.part p).page pg).tries + 1, arrived := [] }).sendOut p pg) := by
  refine congrArg Host.Outcome.next ?_
  simp only [hout, htries, Bool.not_true, Bool.false_eq_true, if_false, if_true]

/-- The third attempt that fails ends a transfer out. -/
theorem exec_migrationOutDone_of_tried (htries : 2 ≤ ((s.part p).page pg).tries) :
    exec (.migrationOutDone p pg false) s = .next (s.failOut p pg 0x22) := by
  refine congrArg Host.Outcome.next ?_
  simp only [hout, Nat.not_lt.mpr htries, Bool.not_true, Bool.false_eq_true, if_false]
  rfl

end

end

/-! ### Prefetch (R251) -/

section
variable {s : State} {p g : Nat} {rest : List Nat} (hnext : (s.part p).prefetch = g :: rest)
include hnext

/-- A page that is not on the far tier is left out. -/
theorem exec_prefetch_of_not_far (hst : ((s.part p).page g).st ≠ .far) :
    exec (.prefetch p) s = .next (s.modPart p fun part => { part with prefetch := rest }) := by
  refine congrArg Host.Outcome.next ?_
  simp only [hnext, bne_iff_ne, ne_eq, hst, not_false_eq_true, if_true]

variable (hst : ((s.part p).page g).st = .far)
include hst

/-- The transfer of a page on the far tier is started. -/
theorem exec_prefetch_of_started {t : State} {f : Nat} (hstart : s.startIn p g true = .got t f) :
    exec (.prefetch p) s = .next (t.modPart p fun part => { part with prefetch := rest }) := by
  refine congrArg Host.Outcome.next ?_
  simp only [hnext, hst, hstart, bne_self_eq_false, Bool.false_eq_true, if_false]

/-- One that cannot start is dropped, and logged. -/
theorem exec_prefetch_of_failed {k : Nat} (hstart : s.startIn p g true = .fail k) :
    exec (.prefetch p) s = .next ((s.modPart p fun part => part.logFailure 0 g k).modPart p fun part => { part with prefetch := rest }) := by
  refine congrArg Host.Outcome.next ?_
  simp only [hnext, hst, hstart, bne_self_eq_false, Bool.false_eq_true, if_false]

end

/-! ### Packets of the far tier (R246, R288) -/

/-- The answer to a FAR_READ, without lines and with status 0. -/
def farReadReply (k : Packet) : Packet :=
  { cls := 0x02, flits := 19, dest := k.src, part := k.part, tag := k.tag, addr := k.addr, arg := k.arg }

/-- The answer to a FAR_WRITE, with status 0. -/
def farWriteReply (k : Packet) : Packet := { cls := 0x04, dest := k.src, part := k.part, tag := k.tag, addr := k.addr, arg := k.arg }

section
variable {s : State} {l : Nat} {k : Packet} {rest : List (Nat × Packet)}

/-- The packets that wait are no part of a partition's record. -/
theorem State.part_pktIn (p : Nat) : ({ s with pktIn := rest } : State).part p = s.part p := rfl

/-- Nor do they say which partition a port belongs to. -/
theorem State.partOfPort_pktIn : ({ s with pktIn := rest } : State).partOfPort l = s.partOfPort l := rfl

section
variable (htake : takePacket 0x01 s.pktIn = some ((l, k), rest))
include htake

/-- FAR_READ of a region that is not exported is answered with status 3. -/
theorem exec_farRead_of_not_exported (hexp : (s.part (s.partOfPort l)).exported k = none) :
    exec .farRead s = .next (({ s with pktIn := rest } : State).queuePacket l { farReadReply k with status := 3 }) := by
  refine congrArg Host.Outcome.next ?_
  simp only [htake, State.part_pktIn, State.partOfPort_pktIn, hexp]
  rfl

variable {g first : Nat} (hexp : (s.part (s.partOfPort l)).exported k = some (g, first))
include hexp

/-- FAR_READ of an exported page that is in HBM, or that reads as zeros, is answered with the piece as it is stored. -/
theorem exec_farRead_of_present
    (hst : ((s.part (s.partOfPort l)).page g).st = .hbm ∨ ((s.part (s.partOfPort l)).page g).st = .zero) :
    exec .farRead s = .next (({ s with pktIn := rest } : State).queuePacket l
      { farReadReply k with lines := ({ s with pktIn := rest } : State).storedPiece (s.partOfPort l) g first }) := by
  refine congrArg Host.Outcome.next ?_
  simp only [htake, State.part_pktIn, State.partOfPort_pktIn, hexp]
  rcases hst with hst | hst <;> rw [hst] <;> rfl

/-- FAR_READ of a page that nothing maps is answered with status 3. -/
theorem exec_farRead_of_unmapped
    (hst : ((s.part (s.partOfPort l)).page g).st = .unmapped ∨ ((s.part (s.partOfPort l)).page g).st = .pin) :
    exec .farRead s = .next (({ s with pktIn := rest } : State).queuePacket l { farReadReply k with status := 3 }) := by
  refine congrArg Host.Outcome.next ?_
  simp only [htake, State.part_pktIn, State.partOfPort_pktIn, hexp]
  rcases hst with hst | hst <;> rw [hst] <;> rfl

/-- FAR_READ of a page on the far tier, or on its way there or back, is answered with status 1. -/
theorem exec_farRead_of_away (hst : ((s.part (s.partOfPort l)).page g).st = .inn ∨ ((s.part (s.partOfPort l)).page g).st = .out ∨
      ((s.part (s.partOfPort l)).page g).st = .far) :
    exec .farRead s = .next (({ s with pktIn := rest } : State).queuePacket l { farReadReply k with status := 1 }) := by
  refine congrArg Host.Outcome.next ?_
  simp only [htake, State.part_pktIn, State.partOfPort_pktIn, hexp]
  rcases hst with hst | hst | hst <;> rw [hst] <;> rfl

end

section
variable {pg : Nat} (htake : takePacket 0x02 s.pktIn = some ((l, k), rest)) (hpage : (s.part (s.partOfPort l)).farPageOf k true = some pg)
include htake hpage

/-- FAR_DATA with its lines: they go into the frame of the page that comes in, and the piece is recorded. -/
theorem exec_farData_of_ok (hok : k.status = 0) :
    let s1 : State := { s with pktIn := rest }
    let p := s.partOfPort l
    let e := (s.part p).page pg
    let piece := k.addr % pageBytes / 4096
    exec .farData s = .next ((s1.putLines (s1.stackOfPage p pg) e.frame (k.lines.map fun x => (64 * piece + x.1 % 64, x.2))).setPage p pg
      { e with arrived := addOnce e.arrived piece }) := by
  refine congrArg Host.Outcome.next ?_
  simp only [htake, State.part_pktIn, State.partOfPort_pktIn, hpage, hok, bne_self_eq_false, Bool.false_eq_true, if_false]

/-- FAR_DATA with a status: the answer has failed. -/
theorem exec_farData_of_failed (hbad : k.status ≠ 0) :
    exec .farData s = .next (({ s with pktIn := rest } : State).farAnswerFails (s.partOfPort l) pg true) := by
  refine congrArg Host.Outcome.next ?_
  simp only [htake, State.part_pktIn, State.partOfPort_pktIn, hpage, bne_iff_ne, ne_eq, hbad, not_false_eq_true, if_true]

end

section
variable {pg : Nat} (htake : takePacket 0x04 s.pktIn = some ((l, k), rest)) (hpage : (s.part (s.partOfPort l)).farPageOf k false = some pg)
include htake hpage

/-- FAR_ACK with status 0: the piece of the page that goes out is recorded. -/
theorem exec_farAck_of_ok (hok : k.status = 0) :
    let p := s.partOfPort l
    let e := (s.part p).page pg
    exec .farAck s = .next (({ s with pktIn := rest } : State).setPage p pg
      { e with arrived := addOnce e.arrived (k.addr % pageBytes / 4096) }) := by
  refine congrArg Host.Outcome.next ?_
  simp only [htake, State.part_pktIn, State.partOfPort_pktIn, hpage, hok, bne_self_eq_false, Bool.false_eq_true, if_false]

/-- FAR_ACK with a status: the answer has failed. -/
theorem exec_farAck_of_failed (hbad : k.status ≠ 0) :
    exec .farAck s = .next (({ s with pktIn := rest } : State).farAnswerFails (s.partOfPort l) pg false) := by
  refine congrArg Host.Outcome.next ?_
  simp only [htake, State.part_pktIn, State.partOfPort_pktIn, hpage, bne_iff_ne, ne_eq, hbad, not_false_eq_true, if_true]

end

section
variable (htake : takePacket 0x03 s.pktIn = some ((l, k), rest))
include htake

/-- FAR_WRITE to a region that is not exported is acknowledged with status 3. -/
theorem exec_farWrite_of_not_exported (hexp : (s.part (s.partOfPort l)).exported k = none) :
    exec .farWrite s = .next (({ s with pktIn := rest } : State).queuePacket l { farWriteReply k with status := 3 }) := by
  refine congrArg Host.Outcome.next ?_
  simp only [htake, State.part_pktIn, State.partOfPort_pktIn, hexp]
  rfl

/-- FAR_WRITE to an exported page that then has its frame in HBM: the lines are stored there, the page's far copy is stale, and the write is
acknowledged. -/
theorem exec_farWrite_of_frame {g first : Nat} {u : State} (hexp : (s.part (s.partOfPort l)).exported k = some (g, first))
    (hframe : ({ s with pktIn := rest } : State).frameForWrite (s.partOfPort l) g = (u, 0))
    (hst : ((u.part (s.partOfPort l)).page g).st = .hbm) :
    let p := s.partOfPort l
    exec .farWrite s = .next (((u.putLines (u.stackOfPage p g) ((u.part p).page g).frame
      (k.lines.map fun x => (first + (x.1 - k.addr % pageBytes / 64), x.2))).modPart p fun part => part.staleFar g).queuePacket l
        (farWriteReply k)) := by
  refine congrArg Host.Outcome.next ?_
  simp only [htake, State.part_pktIn, State.partOfPort_pktIn, hexp, hframe, hst]
  rfl

end

end

/-- Settles O34: each command takes the branch that its conditions name. -/
theorem farTierTransfersMovePages : Obligations.FarTierTransfersMovePages := by
  unfold Obligations.FarTierTransfersMovePages
  constructor
  · intro s p pg part e
    refine ⟨fun hin => ?_, fun hout => ?_, fun g rest hnext => ?_⟩
    · exact ⟨fun _ => exec_migrationInDone_of_local hin, exec_migrationInDone_of_retry hin, exec_migrationInDone_of_tried hin,
        exec_farTransferTimeout_of_in hin⟩
    · exact ⟨exec_migrationOutDone_of_stored hout, exec_migrationOutDone_of_retry hout, exec_migrationOutDone_of_tried hout,
        exec_farTransferTimeout_of_out⟩
    · exact ⟨exec_prefetch_of_not_far hnext, fun hfar _ _ => exec_prefetch_of_started hnext hfar,
        fun hfar _ => exec_prefetch_of_failed hnext hfar⟩
  · intro s l k rest s1 p part data ack
    refine ⟨fun htake => ?_, fun pg htake hpage => ?_, fun htake => ?_, fun pg htake hpage => ?_⟩
    · exact ⟨fun _ _ => exec_farRead_of_present htake, fun _ _ => exec_farRead_of_unmapped htake,
        fun _ _ => exec_farRead_of_away htake, exec_farRead_of_not_exported htake⟩
    · exact ⟨exec_farData_of_ok htake hpage, exec_farData_of_failed htake hpage⟩
    · exact ⟨exec_farWrite_of_not_exported htake, fun _ _ hexp _ => exec_farWrite_of_frame htake hexp⟩
    · exact ⟨exec_farAck_of_ok htake hpage, exec_farAck_of_failed htake hpage⟩

end Sys2Proof.Machine
end

section
/-! PROOFS. Row repair in a stack whose spare is in use (R241, R242). -/

namespace Sys2Proof.Machine

open Sys2Proof

/-- Stack 0 with its spare in use for pseudo-channel 1, of which a row has shown corrected errors at two lines. -/
def sparedState : State :=
  { power := { fwReady := true }, hbm := [(0, { st := .spare, spareFor := 1, rowErrs := [(rowKey 1 2 3, [0, 1])] })] }

/-- The repair is counted at the spare, which holds the channel's lines, and not at the channel's own number. -/
theorem rowRepair_spared_counts : ∃ u : State, exec (.rowRepair 0 1 2 3) sparedState = .next u ∧
    tget 0 (u.stack 0).rowsRepaired 31 = 1 ∧ tget 0 (u.stack 0).rowsRepaired 1 = 0 :=
  ⟨_, rfl, by decide, by decide⟩

/-- Refutes O41: a row repair of a spared pseudo-channel is counted at the physical channel 31 that stands for it, where the statement has it
counted at the logical channel. -/
theorem not_faultyUnitsAreTakenOut : ¬ Obligations.FaultyUnitsAreTakenOut := by
  unfold Obligations.FaultyUnitsAreTakenOut
  intro h
  obtain ⟨-, -, -, hrepair, -, -, -⟩ := h sparedState 0 0 1 2 3
  obtain ⟨u, hu, -, hcount, -, -, -⟩ := hrepair rfl (by decide) (by decide)
  obtain ⟨v, hv, -, hkept⟩ := rowRepair_spared_counts
  obtain rfl := Host.Outcome.next.inj (hu.symm.trans hv)
  rw [hkept] at hcount
  exact absurd hcount (by decide)

end Sys2Proof.Machine
end

section
/-! PROOFS. Query commands: each completes with a result made of the state that it starts in (R250, R306, R309, R341, R382, R383,
R395, R401, R429, R430). -/

namespace Sys2Proof.Machine

open Sys2Proof

section
variable {s : State} {r t : Nat} {c : Cmd}

/-- A command that puts no rules on its arguments and its payload completes once it starts, where its work is done. -/
theorem completes_of_no_rules {cmd : Instr} {op : Nat} {f : State → Job → CmdRes} {s1 : State} {a : Answer}
    (hcmd : exec cmd s = .next (s.runCmd r t op {} f)) (h : s.starts r t op c = true)
    (hf : f (s.markStarted r c) (s.job r c) = .done s1 a) : Completes cmd s r c s1 a :=
  completes_of_done hcmd h rfl (Nat.zero_le _) rfl hf

/-- MEM_PAGE_QUERY of 1 to 512 pages within the partition's range (R250). -/
theorem memPageQuery_completes (h : s.starts r t 0x0409 c = true) (hone : 1 ≤ (s.job r c).arg 1) (hmax : (s.job r c).arg 1 ≤ 512)
    (hrange : (s.job r c).arg 0 + (s.job r c).arg 1 ≤ rangePages) :
    let page := ((s.markStarted r c).part (s.job r c).p).page
    Completes (.memPageQuery r t) s r c (s.markStarted r c)
      { result := (upFrom ((s.job r c).arg 0) ((s.job r c).arg 1)).map fun pg =>
          BitVec.ofNat 8 (pageCode (page pg).st + 8 * (page pg).farValid.toNat + 16 * (page pg).satDirty.toNat) } := by
  refine completes_of_done rfl h ?_ (Nat.zero_le _) rfl rfl
  have hcount : ¬ ((s.job r c).arg 1 < 1 ∨ 512 < (s.job r c).arg 1) := by omega
  simp only [hcount, not_lt.mpr hrange, if_false]

/-- KV_POOL_QUERY of slots that the pool has (R183). -/
theorem kvPoolQuery_completes {k : KvPool} (h : s.starts r t 0x0415 c = true)
    (hpool : ((s.markStarted r c).part (s.job r c).p).pool = some k) (hpay : 2 * (s.job r c).arg 0 ≤ c.payLen)
    (hslots : ∀ i < (s.job r c).arg 0, leNat (((s.job r c).pay.drop (2 * i)).take 2) < k.slots) :
    Completes (.kvPoolQuery r t) s r c (s.markStarted r c)
      { result := leBytes 4 k.free.length ++ leBytes 4 k.pages.length ++ leBytes 8 0 ++
          (readList (s.job r c).pay (List.replicate ((s.job r c).arg 0) 2)).flatMap k.descBytes } := by
  refine completes_of_done rfl h rfl hpay ?_ ?_
  · simp only [hpool, Option.map_eq_none_iff, List.find?_eq_none, decide_eq_true_eq, not_le]
    exact fun i hi => hslots i (by simpa using (mem_upFrom.mp hi).2)
  · simp only [hpool]

/-- NORM_READ on the Prefect or the Deputy, of a step whose records are kept (R306). -/
theorem normRead_completes (h : s.starts r t 0x0707 c = true) (hrole : ((s.markStarted r c).isPrefect || (s.markStarted r c).isDeputy) = true)
    (hkept : ((s.markStarted r c).form.norms.any fun e => e.1 == (s.job r c).arg 0 * 8 + (s.job r c).p) = true) :
    Completes (.normRead r t) s r c (s.markStarted r c)
      { result := (tget [] (s.markStarted r c).form.norms ((s.job r c).arg 0 * 8 + (s.job r c).p)).flatMap normBytes } := by
  refine completes_of_done rfl h (if_pos (.inl hkept)) (Nat.zero_le _) rfl (if_neg ?_)
  simp only [hrole, Bool.not_true, Bool.false_eq_true, not_false_eq_true]

/-- TEL_READ of a window record that is kept, seen through the function of the command's ring (R430). -/
theorem telRead_completes {x : Nat × SMap (SMap Byte)} (h : s.starts r t 0x0801 c = true)
    (hback : (s.job r c).arg 0 < ((s.markStarted r c).part (s.job r c).p).tel.windows.length)
    (hx : ((s.markStarted r c).part (s.job r c).p).tel.windows[((s.markStarted r c).part (s.job r c).p).tel.windows.length - 1 -
      (s.job r c).arg 0]? = some x) :
    let s0 := s.markStarted r c
    Completes (.telRead r t) s r c s0
      { result := (upFrom (s.job r c).p s0.span).flatMap fun q => s0.recordView (s0.ringVector r).1 (tget [] x.2 q) } := by
  refine completes_of_done rfl h (if_neg (Nat.not_le.mpr hback)) (Nat.zero_le _) rfl ?_
  simp only [hx]
  rfl

/-- ATTEST with a nonce and flags (R401). -/
theorem attest_completes (h : s.starts r t 0x0906 c = true) (hpay : 33 ≤ c.payLen) (hflags : (s.job r c).num 32 1 ≤ 1) :
    let s0 := s.markStarted r c
    Completes (.attest r t) s r c s0 { result := s0.report8 (fnView (s0.ringVector r).1) ((s.job r c).pay.take 32) ++
      (if bit ((s.job r c).num 32 1) 0 then Config.certificates else []) } :=
  completes_of_done rfl h rfl hpay (if_neg (Nat.not_lt.mpr hflags)) rfl

/-- NOTE_QUERY on the Prefect or the Deputy (R341). -/
theorem noteQuery_completes (h : s.starts r t 0x0B13 c = true) (hrole : ((s.markStarted r c).isPrefect || (s.markStarted r c).isDeputy) = true) :
    Completes (.noteQuery r t) s r c (s.markStarted r c) { result := (s.markStarted r c).form.notes.flatMap fun e => noteBytes e.1 } := by
  refine completes_of_no_rules rfl h ?_
  simp only [hrole, if_true]

end

/-- Settles O49: a query without rules of its own completes once it starts, and the others where their arguments pass. -/
theorem queriesAnswerTheState : Obligations.QueriesAnswerTheState := by
  unfold Obligations.QueriesAnswerTheState
  intro s r t c s0 j part
  refine ⟨?deviceInfo, ?partitionQuery, ?jobInfo, ?jobQuery, ?intakeQuery, ?memQuotaQuery, memPageQuery_completes, ?kvPoolQuery, ?satchelQuery,
    ?formQuery, ?linkStatus, normRead_completes, ?telRead, ?overflowRead, ?auditRead, attest_completes, ?fwQuery, ?selftestRun,
    ?repairQuery, noteQuery_completes, ?caretakerQuery⟩
  case kvPoolQuery => exact fun k => kvPoolQuery_completes
  case telRead => exact fun x => telRead_completes
  all_goals exact fun h => completes_of_no_rules rfl h rfl

end Sys2Proof.Machine
end

section
/-! PROOFS. The commands of the intake, the telemetry stream, quotas, allocations, backends, windows and memory keys (R246, R248 to R250, R252, R353,
R358, R359, R404, R431). -/

namespace Sys2Proof.Machine

open Sys2Proof

/-! ### The intake and the telemetry stream (R353, R355, R358, R359, R431) -/

section
variable {s : State} {r t : Nat} {c : Cmd}

/-- INTAKE_SHARDS puts no rule on its arguments where APPEND is 0 or 1 and the list stays within 4,096 shards; the list is set only in LOADED. -/
theorem intakeShards_completes (h : s.starts r t 0x0511 c = true) (happend : (s.job r c).arg 0 ≤ 1)
    (hlen : (if (s.job r c).arg 0 = 1 then ((s.markStarted r c).part (s.job r c).p).intake.shards.length else 0) + (s.job r c).arg 1 ≤ 4096)
    (hpay : 24 * (s.job r c).arg 1 ≤ c.payLen)
    (hshards : ∀ k < (s.job r c).arg 1, ((s.markStarted r c).part (s.job r c).p).intake.recordBytes ≤ (shardAt (s.job r c).pay k).stride ∧
      (shardAt (s.job r c).pay k).len ≤ 2 ^ 36)
    (hset : (s.job r c).arg 0 = 0 → ((s.markStarted r c).part (s.job r c).p).job = .loaded) :
    let s0 := s.markStarted r c
    let j := s.job r c
    let part := s0.part j.p
    let l := (upFrom 0 (j.arg 1)).map (shardAt j.pay)
    Completes (.intakeShards r t) s r c ((s0.setPart j.p { part with intake := { part.intake with
      shards := if j.arg 0 = 0 then l else part.intake.shards ++ l } }).settleIntake j.p) {} := by
  refine completes_of_done rfl h ?_ hpay ?_ ?_
  · simp only [Nat.not_lt.mpr happend, Nat.not_lt.mpr hlen, if_false]
  · refine List.findSome?_eq_none_iff.mpr fun k hk => ?_
    obtain ⟨hstride, hbytes⟩ := hshards k (by simpa using (mem_upFrom.mp hk).2)
    simp only [Nat.not_lt.mpr hstride, Nat.not_lt.mpr hbytes, if_false]
  · refine if_neg ?_
    simpa using hset

/-- INTAKE_START of a configured intake, which a started one does not notice. -/
theorem intakeStart_completes (h : s.starts r t 0x0512 c = true)
    (hconf : ((s.markStarted r c).part (s.job r c).p).intake.configured = true) :
    let s0 := s.markStarted r c
    let part := s0.part (s.job r c).p
    Completes (.intakeStart r t) s r c (if part.intake.st = 1 ∨ part.intake.st = 2 then s0 else
      (s0.setPart (s.job r c).p { part with intake := { part.intake with st := 1, stopStatus := 0 } }).settleIntake (s.job r c).p) {} := by
  refine completes_of_no_rules rfl h ((if_neg (by simp [hconf])).trans ?_)
  split <;> rfl

/-- TEL_STREAM with STREAM 0, or with 1 and a ring of 2 to 65,536 entries. -/
theorem telStream_completes (h : s.starts r t 0x0802 c = true) (hone : (s.job r c).arg 2 ≤ 1)
    (hentries : (s.job r c).arg 2 = 1 → 2 ≤ (s.job r c).arg 1 ∧ (s.job r c).arg 1 ≤ 65536) :
    let s0 := s.markStarted r c
    let j := s.job r c
    let part := s0.part j.p
    Completes (.telStream r t) s r c (s0.setPart j.p
      { part with tel := { part.tel with streamBase := j.arg 0, streamEntries := j.arg 1, streaming := j.arg 2 == 1 } }) {} := by
  refine completes_of_done rfl h ?_ (Nat.zero_le _) rfl rfl
  have hring : ¬ ((s.job r c).arg 2 = 1 ∧ ((s.job r c).arg 1 < 2 ∨ 65536 < (s.job r c).arg 1)) := by omega
  simp only [hring, Nat.not_lt.mpr hone, if_false]

/-! ### Quotas and allocations (R245, R248, R249) -/

/-- MEM_QUOTA_SET of an unlocked partition, with 8 to 24 pieces of scratchpad. -/
theorem memQuotaSet_completes (h : s.starts r t 0x0401 c = true) (hmin : 8 ≤ (s.job r c).arg 0) (hmax : (s.job r c).arg 0 ≤ 24)
    (hfree : (s.markStarted r c).locked (s.job r c).p = false) :
    let s0 := s.markStarted r c
    let j := s.job r c
    Completes (.memQuotaSet r t) s r c (s0.setPart j.p { s0.part j.p with quota := [j.arg 0, j.arg 1, j.arg 2, j.arg 3] }) {} := by
  refine completes_of_done rfl h (if_pos ⟨hmin, hmax⟩) (Nat.zero_le _) rfl (if_neg ?_)
  simp only [hfree, Bool.false_eq_true, not_false_eq_true]

/-- Frames taken for parts of the page table: allocations stay as they are, parts that had a frame keep it, and the parts named have one. -/
theorem takeTables_tables {p : Nat} {u : State} : ∀ {ks : List Nat} {s : State}, s.takeTables p ks = some u →
    (u.part p).allocs = (s.part p).allocs ∧
    ∀ k, k ∈ ks ∨ (tget none (s.part p).tables k).isSome = true → (tget none (u.part p).tables k).isSome = true
  | [], s, h => by
    cases h
    exact ⟨rfl, fun k hk => hk.resolve_left List.not_mem_nil⟩
  | a :: ks, s, h => by
    simp only [State.takeTables] at h
    split at h
    · cases h
    · rename_i f _
      obtain ⟨hallocs, htables⟩ := takeTables_tables h
      simp only [State.modPart_eq, State.setPart_part_self] at hallocs htables
      refine ⟨hallocs, fun k hk => htables k ?_⟩
      by_cases hka : k = a
      · subst hka
        exact .inr (by rw [tget_tset_self]; rfl)
      · rw [tget_tset_ne _ _ _ _ _ hka]
        exact hk.imp_left fun hm => (List.mem_cons.mp hm).resolve_left hka

/-- What MEM_ALLOC asks of its arguments, and of the allocations and PIN pages that stand (R24, R245, R246). -/
structure MayAlloc (part : Part) (j : Job) : Prop where
  range : rangeBad (j.arg 0) (j.arg 1) = none
  policy : j.arg 2 ≤ 2
  place : j.arg 3 ≤ 3
  backend : j.arg 2 ≠ 1 → (tget none part.backends (j.arg 3)).isSome = true
  bound : j.arg 0 + j.arg 1 ≤ 2 ^ 44
  apart : ∀ a ∈ part.allocs, j.arg 0 + j.arg 1 ≤ a.base ∨ a.base + a.len ≤ j.arg 0
  pins : ∀ e ∈ part.pages, e.2.st = .pin → e.1 < j.arg 0 / pageBytes ∨ (j.arg 0 + j.arg 1) / pageBytes ≤ e.1

theorem MayAlloc.place_valid {part : Part} {j : Job} (hmay : MayAlloc part j) :
    ¬ (3 < j.arg 3 ∨ (j.arg 2 ≠ 1 ∧ (tget none part.backends (j.arg 3)).isNone = true)) := by
  rintro (hbig | ⟨hne, hnone⟩)
  · exact Nat.not_lt.mpr hmay.place hbig
  · have hsome := hmay.backend hne
    rw [Option.isNone_iff_eq_none.mp hnone] at hsome
    cases hsome

theorem MayAlloc.range_clear {part : Part} {j : Job} (hmay : MayAlloc part j) :
    (part.allocs.any (fun a => decide (a.base < j.arg 0 + j.arg 1) && decide (j.arg 0 < a.base + a.len)) ||
      part.pages.any (fun e => e.2.st == .pin && decide (j.arg 0 / pageBytes ≤ e.1) && decide (e.1 < (j.arg 0 + j.arg 1) / pageBytes))) = false := by
  rw [Bool.or_eq_false_iff, List.any_eq_false, List.any_eq_false]
  simp only [Bool.and_eq_true, decide_eq_true_eq, beq_iff_eq]
  refine ⟨fun a ha hmeet => ?_, fun e he hmeet => ?_⟩
  · have happart := hmay.apart a ha
    omega
  · obtain ⟨⟨hpin, hlow⟩, hhigh⟩ := hmeet
    have hout := hmay.pins e he hpin
    omega

/-- MEM_ALLOC within the quota, with frames for its parts of the page table. -/
theorem memAlloc_completes {u : State} (h : s.starts r t 0x0403 c = true) (hmay : MayAlloc ((s.markStarted r c).part (s.job r c).p) (s.job r c)) :
    let j := s.job r c
    let part := (s.markStarted r c).part j.p
    let tables := part.newTables (j.arg 0 / pageBytes) (j.arg 1 / pageBytes)
    let frames := tables.length + (if j.arg 2 = 1 then j.arg 1 / pageBytes else 0)
    part.useOf 2 + frames ≤ part.quotaOf 2 ∨ frames = 0 → (s.markStarted r c).takeTables j.p tables = some u →
    Completes (.memAlloc r t) s r c
      (u.modPart j.p fun part => part.addAlloc { base := j.arg 0, len := j.arg 1, policy := j.arg 2, backend := j.arg 3 }) {} := by
  intro j part tables frames hquota htake
  have hroom : ¬ (decide (part.quotaOf 2 < part.useOf 2 + tables.length + (if j.arg 2 = 1 then j.arg 1 / pageBytes else 0)) &&
      tables.length + (if j.arg 2 = 1 then j.arg 1 / pageBytes else 0) != 0) = true := by
    simp only [Bool.and_eq_true, decide_eq_true_eq, bne_iff_ne]
    omega
  refine completes_of_done rfl h ?_ (Nat.zero_le _) rfl ?_
  · simp only [hmay.range]
    rw [if_neg (Nat.not_lt.mpr hmay.policy), if_neg hmay.place_valid]
  · refine (if_neg (Nat.not_lt.mpr hmay.bound)).trans ((if_neg ?_).trans ((if_neg hroom).trans ?_))
    · exact fun hmeet => Bool.false_ne_true (hmay.range_clear.symm.trans hmeet)
    · rw [htake]

/-- MEM_FREE of a range with no request left, none of whose pages a running job names (R250). -/
theorem memFree_completes (h : s.starts r t 0x0404 c = true) (hfind : (s.ring r).find t = some c) (hnot : c.running = false)
    (hrange : rangeBad ((s.job r c).arg 0) ((s.job r c).arg 1) = none)
    (hnamed : ((s.markStarted r c).part (s.job r c).p).job = .running →
      (rangeOf ((s.job r c).arg 0) ((s.job r c).arg 1)).any ((s.markStarted r c).part (s.job r c).p).namedPage = false) :
    let s0 := s.markStarted r c
    let j := s.job r c
    let mine := (rangeOf (j.arg 0) (j.arg 1)).filter fun pg => ((s0.part j.p).allocOf pg).isSome
    mine.any (fun pg => s0.pageWaits j.p pg) = false →
    Completes (.memFree r t) s r c ((mine.foldl (fun s pg => s.freePage j.p pg) s0).modPart j.p fun part =>
      { part with allocs := part.allocs.flatMap fun a => a.without (j.arg 0) (j.arg 1) }) {} := by
  intro s0 j mine hquiet
  refine completes_of_done (congrArg Host.Outcome.next (runOrGoOn_of_not_running hfind hnot)) h hrange (Nat.zero_le _) rfl ?_
  have hfree : ((s0.part j.p).job == .running && (rangeOf (j.arg 0) (j.arg 1)).any (s0.part j.p).namedPage) = false := by
    by_cases hrun : (s0.part j.p).job = .running
    · rw [hnamed hrun, Bool.and_false]
    · rw [beq_eq_false_iff_ne.mpr hrun, Bool.false_and]
  refine (if_neg (by rw [hfree]; exact Bool.false_ne_true)).trans ?_
  exact if_neg (by rw [hquiet]; exact Bool.false_ne_true)

/-! ### MEM_FLUSH (R250) -/

/-- Every partition's running MEM_FLUSH taken further. -/
def State.flushesGoOn (s : State) : State := s.partList.foldl (fun s p => s.flushMore p) s

section
variable {u : State} (h : s.starts r t 0x0405 c = true) (hfind : (s.ring r).find t = some c) (hnot : c.running = false)
  (hrange : rangeBad ((s.job r c).arg 0) ((s.job r c).arg 1) = none)
include hfind hnot

/-- MEM_FLUSH that does not run yet is started by its row, and every running MEM_FLUSH goes on. -/
theorem exec_memFlush_of_not_running : exec (.memFlush r t) s =
    .next (s.runCmd r t 0x0405 { inline := fun _ j => rangeBad (j.arg 0) (j.arg 1) } State.memFlush).flushesGoOn :=
  congrArg (fun e : State => Host.Outcome.next e.flushesGoOn) (runOrGoOn_of_not_running hfind hnot)

include h hrange

/-- MEM_FLUSH with no page left to flush ends. -/
theorem exec_memFlush_of_done (hdone : (s.markStarted r c).memFlush (s.job r c) = .done u {}) :
    exec (.memFlush r t) s = .next (s.ended r c u {}).flushesGoOn := by
  rw [exec_memFlush_of_not_running hfind hnot, runCmd_done h hrange (Nat.zero_le _) rfl hdone (by simp [fits])]

/-- MEM_FLUSH with pages to flush goes on. -/
theorem exec_memFlush_of_later (hlater : (s.markStarted r c).memFlush (s.job r c) = .later u) :
    exec (.memFlush r t) s = .next (u.modRing r fun g => { g with inflight := g.inflight.map fun x =>
      if x.idx == c.idx then { x with running := true } else x }).settleRings.flushesGoOn := by
  rw [exec_memFlush_of_not_running hfind hnot, runCmd_later h hrange (Nat.zero_le _) rfl hlater]

end

/-! ### Backends, windows and memory keys (R246, R250, R252, R404) -/

/-- FAR_ATTACH of a region offered to peers (kind 3), which replaces what was offered under its number. -/
theorem farAttach_region_completes (h : s.starts r t 0x0406 c = true) (htime : (s.job r c).arg 4 ≤ 10000) (hkind : (s.job r c).arg 0 = 3) :
    let s0 := s.markStarted r c
    let j := s.job r c
    let part := s0.part j.p
    Completes (.farAttach r t) s r c (s0.setPart j.p { part with
      exports := (part.exports.filter fun e => e.1 != j.arg 3) ++ [(j.arg 3, j.arg 5, j.arg 6)] }) {} := by
  refine completes_of_done rfl h ?_ (Nat.zero_le _) rfl (if_pos hkind)
  simp only [hkind, Nat.not_lt.mpr htime, lt_irrefl, ne_eq, not_true, and_false, if_false]

/-- FAR_ATTACH of a backend to a free place, with a link that leads to its device or node. -/
theorem farAttach_backend_completes (h : s.starts r t 0x0406 c = true) (hkinds : (s.job r c).arg 0 ≤ 3) (htime : (s.job r c).arg 4 ≤ 10000)
    (hkind : (s.job r c).arg 0 ≠ 3) (hplace : (s.job r c).arg 1 ≤ 3)
    (hfree : tget none ((s.markStarted r c).part (s.job r c).p).backends ((s.job r c).arg 1) = none)
    (hdevice : (s.job r c).arg 0 = 1 → ((s.markStarted r c).portTo ((s.job r c).arg 2)).isSome = true)
    (hnode : (s.job r c).arg 0 = 2 → ((s.markStarted r c).portToNode ((s.job r c).arg 2)).isSome = true) :
    let s0 := s.markStarted r c
    let j := s.job r c
    let part := s0.part j.p
    Completes (.farAttach r t) s r c (s0.setPart j.p { part with backends := tset none part.backends (j.arg 1) (some
      { kind := j.arg 0, target := j.arg 2, region := j.arg 3, timeoutMs := if j.arg 4 = 0 then 250 else j.arg 4
        base := j.arg 5, len := j.arg 6 }) }) {} := by
  have hlinked : ¬ (((s.job r c).arg 0 = 1 ∧ ((s.markStarted r c).portTo ((s.job r c).arg 2)).isNone = true) ∨
      ((s.job r c).arg 0 = 2 ∧ ((s.markStarted r c).portToNode ((s.job r c).arg 2)).isNone = true)) := by
    rw [← Option.not_isSome, ← Option.not_isSome]
    rintro (⟨hone, hnone⟩ | ⟨htwo, hnone⟩)
    · simp [hdevice hone] at hnone
    · simp [hnode htwo] at hnone
  refine completes_of_done rfl h ?_ (Nat.zero_le _) rfl ((if_neg hkind).trans ((if_neg ?_).trans (if_neg hlinked)))
  · simp only [Nat.not_lt.mpr hkinds, Nat.not_lt.mpr hplace, Nat.not_lt.mpr htime, false_and, if_false]
  · simp [hfree]

/-- FAR_DETACH of a backend on which no page is stored. -/
theorem farDetach_completes (h : s.starts r t 0x0407 c = true) (hplace : (s.job r c).arg 0 ≤ 3)
    (hthere : (tget none ((s.markStarted r c).part (s.job r c).p).backends ((s.job r c).arg 0)).isSome = true)
    (hempty : ∀ e ∈ ((s.markStarted r c).part (s.job r c).p).pages,
      (e.2.farValid = true ∨ e.2.st = .far ∨ e.2.st = .out ∨ e.2.st = .inn) →
        ∀ a, ((s.markStarted r c).part (s.job r c).p).allocOf e.1 = some a → a.backend ≠ (s.job r c).arg 0) :
    let s0 := s.markStarted r c
    let j := s.job r c
    let part := s0.part j.p
    Completes (.farDetach r t) s r c (s0.setPart j.p { part with backends := tset none part.backends (j.arg 0) none }) {} := by
  refine completes_of_done rfl h (if_neg ?_) (Nat.zero_le _) rfl (if_neg ?_)
  · rw [← Option.not_isSome, hthere]
    simpa using hplace
  · rw [List.any_eq_true]
    rintro ⟨e, he, hstored⟩
    rw [Bool.and_eq_true] at hstored
    obtain ⟨hst, hhere⟩ := hstored
    have hfar : e.2.farValid = true ∨ e.2.st = .far ∨ e.2.st = .out ∨ e.2.st = .inn := by simpa [or_assoc] using hst
    split at hhere
    · rename_i a ha
      exact hempty e he hfar a ha (beq_iff_eq.mp hhere)
    · cases hhere

/-- WINDOW_SET_VERSION of a window of the image with no page that would lose data. -/
theorem windowSetVersion_completes {im : Image} (h : s.starts r t 0x0408 c = true)
    (him : ((s.markStarted r c).part (s.job r c).p).image = some im) (hwindow : (s.job r c).arg 0 < im.windows.length)
    (hclean : ∀ pg ∈ upFrom (im.windows.getD ((s.job r c).arg 0) {}).firstPage (im.windows.getD ((s.job r c).arg 0) {}).pages,
      ((((s.markStarted r c).part (s.job r c).p).page pg).st = .hbm → (((s.markStarted r c).part (s.job r c).p).page pg).farValid = true) ∧
        (s.markStarted r c).pageDirty (s.job r c).p pg = false) :
    let s0 := s.markStarted r c
    let j := s.job r c
    let part := s0.part j.p
    Completes (.windowSetVersion r t) s r c (s0.setPart j.p { part with versions := tset 0 part.versions (j.arg 0) (j.arg 1) }) {} := by
  refine completes_of_done rfl h (if_neg ?_) (Nat.zero_le _) rfl (if_neg ?_)
  · simp only [him]
    exact fun hbeyond => Nat.not_le.mpr hwindow hbeyond.1
  · simp only [him, List.any_eq_true, not_exists, not_and]
    intro pg hpg
    obtain ⟨hvalid, hdirty⟩ := hclean pg hpg
    simpa [hdirty] using hvalid

/-- MEM_KEY_ROTATE of an unlocked partition whose last re-key pass is complete. -/
theorem memKeyRotate_completes (h : s.starts r t 0x0903 c = true) (hpay : c.payLen = 0 ∨ 32 ≤ c.payLen)
    (hdone : ((s.markStarted r c).part (s.job r c).p).rekey = false) (hfree : (s.markStarted r c).locked (s.job r c).p = false) :
    let s0 := s.markStarted r c
    let j := s.job r c
    Completes (.memKeyRotate r t) s r c ((s0.modPart j.p fun part => { part with
      keyGen := (part.keyGen + 1) % 32, prevHeld := true, prevKeys := part.keys, rekey := true
      rekeyFar := (part.pages.filter fun e => e.2.st == .far || e.2.st == .inn || e.2.farValid).map Prod.fst }).drawKeys j.p
        (if j.pay.all (· == 0) then [] else j.pay.take 32)) {} := by
  refine completes_of_done rfl h rfl ?_ rfl (if_neg ?_)
  · show (if c.payLen = 0 then 0 else 32) ≤ c.payLen
    split
    · exact Nat.zero_le _
    · rename_i hne
      exact hpay.resolve_left hne
  · simp [hdone, hfree]

end

/-- Settles O51, one command at a time. -/
theorem intakeAndMemoryCommandsTakeEffect : Obligations.IntakeAndMemoryCommandsTakeEffect := by
  unfold Obligations.IntakeAndMemoryCommandsTakeEffect
  intro s r t c s0 j part it
  refine ⟨fun h hpay hok => completes_of_done rfl h rfl hpay hok rfl, intakeShards_completes, intakeStart_completes,
    fun h => completes_of_no_rules rfl h rfl, telStream_completes, memQuotaSet_completes, ?memAlloc, memFree_completes, ?memFlush, ?farAttach,
    farDetach_completes, fun im => windowSetVersion_completes, memKeyRotate_completes⟩
  case memAlloc =>
    intro h hrange hpolicy hplace hbackend hbound hapart hpins tables frames hquota u htake
    obtain ⟨hallocs, htables⟩ := takeTables_tables htake
    exact ⟨memAlloc_completes h ⟨hrange, hpolicy, hplace, hbackend, hbound, hapart, hpins⟩ hquota htake, fun k hk => htables k (.inl hk), hallocs⟩
  case memFlush => exact fun u h hfind hnot hrange => ⟨exec_memFlush_of_done h hfind hnot hrange, exec_memFlush_of_later h hfind hnot hrange⟩
  case farAttach => exact fun h hkinds htime => ⟨farAttach_region_completes h htime, farAttach_backend_completes h hkinds htime⟩

end Sys2Proof.Machine
end

section
/-! PROOFS. The commands of roles, job keys, consent, firmware, diagnosis and repairs (R242, R317, R391 to R393, R399, R406, R408, R429). -/

namespace Sys2Proof.Machine

open Sys2Proof

/-! ### Roles (R389 to R391) -/

section
variable {s s1 : State} {r t type : Nat} {c : Cmd} {rules : CmdRules} {f : State → Job → CmdRes} {a : Answer} {cmd : Instr}

/-- A ROLE_AUTH message that is due runs as a command once its ring's challenge is gone; a ring of no partition takes it. -/
theorem roleAuth_of_due (hdue : s.authDue r t type = true) (hring : ringPart r = none) :
    s.roleAuth r t type rules f = (s.dropChallenge r).runCmd r t 0x0901 { rules with inline := fun _ j => authRole j } f := by
  simp only [State.roleAuth, hdue, hring, Bool.not_true, Option.isSome_none, Bool.false_eq_true, if_false]

/-- What the four messages ask alike: a role of installer or maker, on a ring of no partition whose next command is the message. -/
structure State.AuthStarts (s : State) (r t type : Nat) (c : Cmd) : Prop where
  starts : (s.dropChallenge r).starts r t 0x0901 c = true
  ring : ringPart r = none
  role : ((s.dropChallenge r).job r c).arg 0 = 2 ∨ ((s.dropChallenge r).job r c).arg 0 = 3
  due : s.authDue r t type = true

/-- A ROLE_AUTH message completes where its own rules are met and its work is done. -/
theorem exec_roleAuth_of_done (hexec : exec cmd s = .next (s.roleAuth r t type rules f)) (h : s.AuthStarts r t type c)
    (hn : rules.need ((s.dropChallenge r).job r c) ≤ c.payLen)
    (hp : rules.pay ((s.dropChallenge r).markStarted r c) ((s.dropChallenge r).job r c) = none)
    (hf : f ((s.dropChallenge r).markStarted r c) ((s.dropChallenge r).job r c) = .done s1 a) (ha : fits r c a = true) :
    exec cmd s = .next ((s.dropChallenge r).ended r c s1 a) := by
  rw [hexec, roleAuth_of_due h.due h.ring]
  exact congrArg Host.Outcome.next (runCmd_done h.starts (if_pos h.role) hn hp hf ha)

/-- CHALLENGE answers 32 random bytes, which stand on the ring. -/
theorem exec_roleAuthChallenge_of_due (h : s.AuthStarts r t 1 c) (hpay : 1 ≤ c.payLen) :
    let d := s.dropChallenge r
    let d0 := d.markStarted r c
    let n := (Config.random d0.fresh).toNat
    fits r c { result := leBytes 32 n } = true → exec (.roleAuthChallenge r t) s = .next (d.ended r c
      (({ d0 with fresh := d0.fresh + 1 }).modRing r fun g => { g with challenge := some (n, d0.tick) }) { result := leBytes 32 n }) :=
  fun ha => exec_roleAuth_of_done rfl h hpay rfl rfl ha

/-- Failures of a ring counted in the present minute (R391). -/
def State.authFails (s : State) (r : Nat) : Nat := if (s.ring r).failMinute = s.minute then (s.ring r).failures else 0

/-- Whether a RESPONSE in state `d` answers the challenge `given` in time, with both signatures good (R391). -/
def State.responseGood (d : State) (r : Nat) (j : Job) (given : Option (Nat × Nat)) : Bool :=
  match given, d.authKey j with
  | some (n, t0), some key => decide (d.tick < t0 + challengeTicks) && bothVerify key (authMessage n r (j.arg 0)) (j.num 2 64) (j.num 66 3309)
  | _, _ => false

section
variable (h : s.AuthStarts r t 2 c) (hpay : (if ((s.dropChallenge r).job r c).arg 0 = 3 then 5359 else 3375) ≤ c.payLen)
  (hcred : ((s.dropChallenge r).job r c).num 1 1 ≤ 3) (hfails : ((s.dropChallenge r).markStarted r c).authFails r < 16)
include h hpay hcred hfails

/-- RESPONSE that verifies binds the ring. -/
theorem exec_roleAuthResponse_of_good
    (hgood : ((s.dropChallenge r).markStarted r c).responseGood r ((s.dropChallenge r).job r c) (s.ring r).challenge = true) :
    let d := s.dropChallenge r
    let j := d.job r c
    exec (.roleAuthResponse r t) s =
      .next (d.ended r c ((d.markStarted r c).modRing r fun g => { g with role := j.arg 0, cred := j.num 1 1 }) {}) :=
  exec_roleAuth_of_done rfl h hpay (if_neg (Nat.not_lt.mpr hcred)) ((if_neg (Nat.not_le.mpr hfails)).trans (if_pos hgood)) (by simp [fits])

/-- RESPONSE that does not is counted, and ends with SIGNATURE_FAIL. -/
theorem exec_roleAuthResponse_of_bad
    (hbad : ((s.dropChallenge r).markStarted r c).responseGood r ((s.dropChallenge r).job r c) (s.ring r).challenge = false) :
    let d := s.dropChallenge r
    let d0 := d.markStarted r c
    exec (.roleAuthResponse r t) s = .next (d.ended r c
      (d0.modRing r fun g => { g with failures := d0.authFails r + 1, failMinute := d0.minute }) { status := 0x30 }) :=
  exec_roleAuth_of_done rfl h hpay (if_neg (Nat.not_lt.mpr hcred))
    ((if_neg (Nat.not_le.mpr hfails)).trans (if_neg (ne_true_of_eq_false hbad))) (by simp [fits])

end

/-- ENROL on an installer's ring, or of an unowned module, whose ring it binds. -/
theorem exec_roleAuthEnrol_of_due (h : s.AuthStarts r t 3 c) (hpay : 1986 ≤ c.payLen) (hcred : ((s.dropChallenge r).job r c).num 1 1 ≤ 3)
    (hmay : ((s.dropChallenge r).markStarted r c).unowned = true ∨ ((s.dropChallenge r).markStarted r c).roleOf r = 2) :
    let d := s.dropChallenge r
    let d0 := d.markStarted r c
    let j := d.job r c
    let s1 := { d0 with sec := { d0.sec with creds := tset none d0.sec.creds (j.num 1 1) (some (j.num 2 32, j.num 34 1952)) } }
    exec (.roleAuthEnrol r t) s = .next (d.ended r c (if d0.unowned then s1.modRing r fun g => { g with role := 2, cred := j.num 1 1 } else s1) {}) := by
  refine exec_roleAuth_of_done rfl h hpay (if_neg (Nat.not_lt.mpr hcred)) (if_neg ?_) (by simp [fits])
  rcases hmay with hmay | hmay <;> simp [hmay]

/-- REVOKE on an installer's ring of a credential that is not the last. -/
theorem exec_roleAuthRevoke_of_due (h : s.AuthStarts r t 4 c) (hpay : 2 ≤ c.payLen) (hcred : ((s.dropChallenge r).job r c).num 1 1 ≤ 3)
    (hthere : (tget none ((s.dropChallenge r).markStarted r c).sec.creds (((s.dropChallenge r).job r c).num 1 1)).isSome = true)
    (hmay : ((s.dropChallenge r).markStarted r c).roleOf r = 2)
    (hlast : 1 < (((s.dropChallenge r).markStarted r c).sec.creds.filter fun e => e.2.isSome).length) :
    let d := s.dropChallenge r
    let d0 := d.markStarted r c
    exec (.roleAuthRevoke r t) s = .next (d.ended r c
      { d0 with sec := { d0.sec with creds := tset none d0.sec.creds ((d.job r c).num 1 1) none } } {}) := by
  refine exec_roleAuth_of_done rfl h hpay (if_neg ?_) ((if_neg ?_).trans (if_neg (Nat.not_le.mpr hlast))) (by simp [fits])
  · rw [← Option.not_isSome, hthere]
    simpa using hcred
  · simp [hmay]

/-- CHALLENGE_EXPIRY of a challenge that has stood for 60 s. -/
theorem exec_challengeExpiry_of_due {n t0 : Nat} (hgiven : (s.ring r).challenge = some (n, t0)) (hdue : t0 + challengeTicks ≤ s.tick) :
    exec (.challengeExpiry r) s = .next (s.dropChallenge r) := by
  refine congrArg Host.Outcome.next ?_
  simp only [hgiven, hdue, if_true]

end

/-! ### Job keys (R406 to R408) -/

section
variable {s : State} {r t : Nat} {c : Cmd}

/-- The confirmation of a job's secret does not show whether JOB_KEYS is done. -/
theorem confirmation_of_keysDone (u : State) (p : Nat) :
    (u.modPart p fun part => { part with jobKeysDone := true }).confirmation p = u.confirmation p := by
  simp only [State.confirmation, State.modPart_eq, State.setPart_part_self, State.self, State.setPart_form]

/-- The state in which JOB_KEYS has taken the job's secret and given the job's ports their keys. -/
def State.keyed (s : State) (j : Job) (key : BitVec 256) : State :=
  let s1 := s.setPart j.p { s.part j.p with jobKey := true, jobSecret := key, jobId := j.num 8 8 }
  (s1.part j.p).jobPorts.foldl (fun s l => s.keyPort j.p l) s1

section
variable {key : BitVec 256} (h : s.starts r t 0x0902 c = true) (hopen : Config.openJobSecret ((s.job r c).pay.take 1264) = some key)
  (hdigest : (s.job r c).num 16 64 = ((s.markStarted r c).part (s.job r c).p).digest.toNat)
include h hopen hdigest

/-- JOB_KEYS of a message that opens, for the digest of the loaded image: it ends once every port has its key, and else it waits for them. -/
theorem jobKeys_work :
    let s2 := (s.markStarted r c).keyed (s.job r c) key
    ∃ f, exec (.jobKeys r t) s = .next (s.runCmd r t 0x0902 { need := fun _ => 1264, pay := fun _ j => badKeyMessage j } f
        (some ((s.markStarted r c).part (s.job r c).p).digest)) ∧
      f (s.markStarted r c) (s.job r c) = if s2.portsKeyed (s.job r c).p
        then .done (s2.modPart (s.job r c).p fun part => { part with jobKeysDone := true }) { result := s2.confirmation (s.job r c).p }
        else .later s2 := by
  refine ⟨?work, ?runs, ?comes⟩
  case runs =>
    show execJobKeys r t s = _
    rw [execJobKeys, startable_of_starts h]
    rfl
  case comes =>
    simp only [hopen, hdigest, ne_eq, not_true, if_false]
    rfl

variable (hpay : 1264 ≤ c.payLen) (hmessage : badKeyMessage (s.job r c) = none)
include hpay hmessage

/-- JOB_KEYS ends with its confirmation where every port has its key. -/
theorem jobKeys_completes (hkeyed : ((s.markStarted r c).keyed (s.job r c) key).portsKeyed (s.job r c).p = true) :
    let s3 := ((s.markStarted r c).keyed (s.job r c) key).modPart (s.job r c).p fun part => { part with jobKeysDone := true }
    Completes (.jobKeys r t) s r c s3 { result := s3.confirmation (s.job r c).p }
      (some ((s.markStarted r c).part (s.job r c).p).digest) := by
  obtain ⟨f, hexec, hf⟩ := jobKeys_work h hopen hdigest
  dsimp only
  rw [confirmation_of_keysDone]
  exact completes_of_done hexec h rfl hpay hmessage (hf.trans (if_pos hkeyed))

/-- JOB_KEYS waits for the ports that have not. -/
theorem exec_jobKeys_of_waiting (hwaits : ((s.markStarted r c).keyed (s.job r c) key).portsKeyed (s.job r c).p = false) :
    exec (.jobKeys r t) s = .next (((s.markStarted r c).keyed (s.job r c) key).modRing r fun g =>
      { g with inflight := g.inflight.map fun x => if x.idx == c.idx then { x with running := true } else x }).settleRings := by
  obtain ⟨f, hexec, hf⟩ := jobKeys_work h hopen hdigest
  rw [hexec, runCmd_later h rfl hpay hmessage (hf.trans (if_neg (ne_true_of_eq_false hwaits)))]

end

/-- JOB_KEYS_TIMEOUT 10 s after the command's start. -/
theorem exec_jobKeysTimeout_of_due {p k : Nat} {cmd : Cmd} (hcmd : s.keysCmd p = some (k, cmd)) (hdue : cmd.startTick + 250000000 ≤ s.tick) :
    exec (.jobKeysTimeout p) s = .next (s.endKeys p { status := if (s.part p).jobPorts.any fun l => !(s.port l).up then 0x40 else 0x70 }) := by
  refine congrArg Host.Outcome.next ?_
  simp only [hcmd, Nat.not_lt.mpr hdue, if_false]
  rfl

/-! ### Consent and diagnosis (R392, R393) -/

/-- CONSENT_ISSUE of a scope of four bits for 1 s to one day. -/
theorem consentIssue_completes (h : s.starts r t 0x0904 c = true) (hpay : 40 ≤ c.payLen) (hscope : (s.job r c).num 0 4 ≤ 15)
    (hmin : 1 ≤ (s.job r c).num 4 4) (hmax : (s.job r c).num 4 4 ≤ 86400) :
    let s0 := s.markStarted r c
    let j := s.job r c
    let b := tokenBody (s0.sec.tokenSeq + 1) (j.num 0 4) s0.sec.boots (s0.tick + 25000000 * j.num 4 4) ((j.pay.drop 8).take 32)
    Completes (.consentIssue r t) s r c { s0 with sec := { s0.sec with tokenSeq := s0.sec.tokenSeq + 1 } }
      { result := b ++ padTo 3373 (Config.sign b) } := by
  refine completes_of_done rfl h rfl hpay ?_ rfl
  have htime : ¬ ((s.job r c).num 4 4 = 0 ∨ 86400 < (s.job r c).num 4 4) := by omega
  simp only [Nat.not_lt.mpr hscope, htime, if_false]

/-- What DIAG_OPEN asks of its token: both signatures, this module, this start-up, a time to come, and a number not used yet. -/
structure State.TokenGood (s : State) (j : Job) : Prop where
  sigE : Config.verify (Config.aliasKey 0) (j.pay.take 72) (j.num 72 64) = true
  sigM : Config.verify (Config.aliasKey 1) (j.pay.take 72) (j.num 136 3309) = true
  serial : j.num 0 16 = Config.serial.toNat
  boots : j.num 28 4 = s.sec.boots
  expires : s.tick < j.num 32 8
  unused : s.sec.tokenUsed < j.num 16 8

/-- DIAG_OPEN with a good token opens its session; RAW_TEST takes a module without jobs. -/
theorem diagOpen_completes (h : s.starts r t 0x0B01 c = true) (hpay : 3445 ≤ c.payLen) (htoken : (s.markStarted r c).TokenGood (s.job r c))
    (hraw : bit ((s.job r c).num 24 4) 1 = true → ∀ p ∈ (s.markStarted r c).partList, ((s.markStarted r c).part p).job = .none) :
    let s0 := s.markStarted r c
    let j := s.job r c
    let s1 := { s0 with sec := { s0.sec with tokenUsed := j.num 16 8, diag := some (j.num 24 4, j.num 32 8) } }
    Completes (.diagOpen r t) s r c (if bit (j.num 24 4) 1 then s1.rawTest else s1) {} := by
  obtain ⟨hsigE, hsigM, hserial, hboots, hexpires, hunused⟩ := htoken
  refine completes_of_done rfl h rfl hpay rfl ((if_neg ?_).trans ((if_neg ?_).trans (if_neg ?_)))
  · simp [hsigE, hsigM]
  · simp [hserial, hboots, hexpires, hunused]
  · simpa using hraw

/-- DIAG_EXPIRY of a session at its end. -/
theorem exec_diagExpiry_of_due {scope e : Nat} (hopen : s.sec.diag = some (scope, e)) (hdue : e ≤ s.tick) :
    exec .diagExpiry s = .next { s with sec := { s.sec with diag := none } } := by
  refine congrArg Host.Outcome.next ?_
  simp only [hopen, hdue, if_true]

/-! ### Firmware (R399) -/

/-- FW_STAGE of an image's first bytes, or of those that follow what is staged. -/
theorem fwStage_completes (h : s.starts r t 0x0A01 c = true)
    (hnext : (s.job r c).arg 0 = 0 ∨
      (s.job r c).arg 0 = (s.markStarted r c).sec.staged.length ∧ (s.job r c).arg 1 = (s.markStarted r c).sec.stageTotal)
    (hroom : (s.job r c).arg 0 + c.payLen ≤ (s.job r c).arg 1) :
    let s0 := s.markStarted r c
    let j := s.job r c
    let b := if j.arg 0 = 0 then j.pay else s0.sec.staged ++ j.pay
    let sec := { s0.sec with staged := b, stageTotal := j.arg 1 }
    Completes (.fwStage r t) s r c
      { s0 with sec := if sec.bank = 0 then { sec with bank1 := imageOfBytes b } else { sec with bank0 := imageOfBytes b } } {} := by
  refine completes_of_done rfl h ((if_neg ?_).trans (if_neg ?_)) (Nat.zero_le _) rfl rfl
  · exact fun hgap => hnext.elim hgap.1 fun hgoes => hgap.2 hgoes.1
  · rintro (⟨hne, htotal⟩ | hover)
    · exact hnext.elim hne fun hgoes => htotal hgoes.2
    · exact Nat.not_lt.mpr hroom hover

/-- FW_ACTIVATE of a bank that passes its checks, on a ring of the host: PENDING is posted, and the module restarts into the bank. -/
theorem exec_fwActivate_of_good (h : s.starts r t 0x0A02 c = true)
    (hgood : (s.markStarted r c).sec.bankFails (s.markStarted r c).sec.otherBank = none) (hring : r ≠ i3cRing) :
    let s0 := s.markStarted r c
    let s1 := ((s0.auditCmd r { c with role := s0.roleOf r } 0 (some s.sec.otherBank.digest)).queueCompletion r c { status := 0x01 }).postAll r
    exec (.fwActivate r t) s = .next (s1.intoBank.modRing r fun g =>
      { g with inflight := g.inflight.map fun x => if x.idx == c.idx then { x with running := true } else x }).settleRings := by
  refine congrArg Host.Outcome.next (runCmd_later h rfl (Nat.zero_le _) rfl ?_)
  simp only [hgood]
  exact congrArg (fun u : State => CmdRes.later u.intoBank) (if_neg hring)

/-! ### Repairs and duties (R242, R317, R429) -/

/-- HBM_SPARE of a pseudo-channel of a stack. -/
theorem hbmSpare_completes (h : s.starts r t 0x0B10 c = true) (hstack : (s.job r c).arg 0 ≤ 31) (hchannel : (s.job r c).arg 1 ≤ 30) :
    let s0 := s.markStarted r c
    let j := s.job r c
    Completes (.hbmSpare r t) s r c (if (s0.stack (j.arg 0)).st == .spare && (s0.stack (j.arg 0)).spareFor == j.arg 1 then s0
      else s0.spareChannel (j.arg 0) (j.arg 1)) {} :=
  completes_of_done rfl h ((if_neg (Nat.not_lt.mpr hstack)).trans (if_neg (Nat.not_lt.mpr hchannel))) (Nat.zero_le _) rfl rfl

/-- SITE_FENCE of a site by its row and its column. -/
theorem siteFence_completes (h : s.starts r t 0x0B11 c = true) (hrow : (s.job r c).arg 0 ≤ 31) (hcol : (s.job r c).arg 1 ≤ 49) :
    Completes (.siteFence r t) s r c ((s.markStarted r c).fenceSite (50 * (s.job r c).arg 0 + (s.job r c).arg 1)) {} :=
  completes_of_done rfl h ((if_neg (Nat.not_lt.mpr hrow)).trans (if_neg (Nat.not_lt.mpr hcol))) (Nat.zero_le _) rfl rfl

/-- CARETAKER_SET of whole entries, each of a duty whose period may be set to the one given. -/
theorem caretakerSet_completes (h : s.starts r t 0x0C02 c = true) (hwhole : c.payLen % 8 = 0)
    (hduties : ∀ k < (s.job r c).pay.length / 8, badDuty (s.job r c) k = none) :
    let j := s.job r c
    Completes (.caretakerSet r t) s r c ((upFrom 0 (j.pay.length / 8)).foldl (fun s k =>
      s.modDuty (dutyEntry j k).1 fun d => { d with period := (dutyEntry j k).2.2 }) (s.markStarted r c)) {} := by
  refine completes_of_done rfl h (if_neg (not_not.mpr hwhole)) (Nat.zero_le _) (List.findSome?_eq_none_iff.mpr fun k hk => ?_) rfl
  exact hduties k (by simpa using (mem_upFrom.mp hk).2)

end

/-- Settles O54, one command at a time. -/
theorem securityCommandsTakeEffect : Obligations.SecurityCommandsTakeEffect := by
  unfold Obligations.SecurityCommandsTakeEffect
  intro s r t c s0 j part d d0 jd
  refine ⟨fun hstarts hring hrole => ⟨?challenge, ?response, ?enrol, ?revoke⟩, fun n t0 => exec_challengeExpiry_of_due, ?jobKeys,
    fun p k cmd => exec_jobKeysTimeout_of_due, consentIssue_completes, fwStage_completes, exec_fwActivate_of_good, ?diagOpen,
    fun h => completes_of_no_rules rfl h rfl, fun scope e => exec_diagExpiry_of_due, hbmSpare_completes, siteFence_completes,
    caretakerSet_completes⟩
  case challenge => exact fun hdue => exec_roleAuthChallenge_of_due ⟨hstarts, hring, hrole, hdue⟩
  case response =>
    intro hdue hpay hcred g fails hfails good
    exact ⟨exec_roleAuthResponse_of_good ⟨hstarts, hring, hrole, hdue⟩ hpay hcred hfails,
      exec_roleAuthResponse_of_bad ⟨hstarts, hring, hrole, hdue⟩ hpay hcred hfails⟩
  case enrol => exact fun hdue => exec_roleAuthEnrol_of_due ⟨hstarts, hring, hrole, hdue⟩
  case revoke => exact fun hdue => exec_roleAuthRevoke_of_due ⟨hstarts, hring, hrole, hdue⟩
  case jobKeys =>
    exact fun key h hpay hmessage hopen hdigest =>
      ⟨jobKeys_completes h hopen hdigest hpay hmessage, exec_jobKeys_of_waiting h hopen hdigest hpay hmessage⟩
  case diagOpen =>
    exact fun h hpay hsigE hsigM hserial hboots hexpires hunused =>
      diagOpen_completes h hpay ⟨hsigE, hsigM, hserial, hboots, hexpires, hunused⟩

end Sys2Proof.Machine
end

section
/-! PROOFS. Light-link ports and edge routers: flit times, frames, hand-on, BELL flits, resends, lanes, parking and the additions of collectives
(R285 to R290, R295, R298 to R300, R415). -/

namespace Sys2Proof.Machine

open Sys2Proof

/-! ### Flit times, frames and hand-on (R285, R286, R288, R289, R295) -/

/-- The state in which a frame whose seal has come is open no more, and the flits of its packets are owed as credits (R286, R288). -/
def State.frameSealed (s : State) (l : Nat) (fr : RxFrame) : State :=
  fr.packets.foldl (fun s k => s.oweFlits l k) (s.modPort l fun x => { x with openFrames := x.openFrames.filter (· != fr.frame) })

section
variable {s : State} {l : Nat} (hcar : s.carries l = true)
include hcar

/-- A port that carries traffic and is not parked sends the next flit once its slot has come. -/
theorem exec_flitTime_of_due (hpark : (s.port l).parked = false) (hslot : flitSlot (s.port l).onThree (s.port l).flit ≤ s.slot) :
    exec (.flitTime l) s = .next (s.flitTime l) := by
  refine congrArg Host.Outcome.next (if_pos ?_)
  simp only [hcar, hpark, hslot, Bool.not_false, decide_true, Bool.and_self]

section
variable {fr : RxFrame}

/-- A good frame is taken in. -/
theorem exec_frameSeal_of_ok (hok : fr.ok = true) :
    exec (.frameSeal l fr) s = .next (((s.frameSealed l fr).frameGood l fr).countOpen (s.partOfPort l)) := by
  refine congrArg Host.Outcome.next ?_
  simp only [hcar, hok, Bool.not_true, Bool.false_eq_true, if_false, if_true]
  rfl

/-- A bad frame without timed flits is counted. -/
theorem exec_frameSeal_of_bad (hbad : fr.ok = false) (htimed : fr.timed = []) :
    exec (.frameSeal l fr) s =
      .next (((s.frameSealed l fr).modPort l fun x => { x with counts := bump x.counts 1 }).countOpen (s.partOfPort l)) := by
  refine congrArg Host.Outcome.next ?_
  simp only [hcar, hbad, htimed, bne_self_eq_false, Bool.not_true, Bool.false_eq_true, if_false]
  rfl

/-- A bad frame with timed flits is counted and reported, and ends the step. -/
theorem exec_frameSeal_of_bad_timed (hbad : fr.ok = false) (htimed : fr.timed ≠ []) :
    exec (.frameSeal l fr) s =
      .next (((((s.frameSealed l fr).modPort l fun x => { x with counts := bump x.counts 1 }).report 1 l 0x33 (s.partOfPort l)).endStep
        (s.partOfPort l) 0x23).countOpen (s.partOfPort l)) := by
  refine congrArg Host.Outcome.next ?_
  simp only [hcar, hbad, bne_iff_ne, ne_eq, htimed, not_false_eq_true, Bool.not_true, Bool.false_eq_true, if_false, if_true]
  rfl

end

section
variable {fl : TimedFlit} (hdue : fl.sent + (s.port l).compiled ≤ s.slot)
include hdue

/-- At its compiled slot a flit on a port that carries traffic is not put off. -/
theorem not_putOff_of_due : ¬ (!s.carries l || decide (s.slot < fl.sent + (s.port l).compiled)) = true := by
  simp only [hcar, Nat.not_lt.mpr hdue, Bool.not_true, decide_false, Bool.or_self, Bool.false_eq_true, not_false_eq_true]

/-- A flit that moves at its compiled slot has been counted and handed on. -/
theorem exec_timedFlitHandOn_of_moved {t : State} (hmoved : (s.countHandOn l fl).handOn l fl = .moved t) :
    exec (.timedFlitHandOn l fl) s = .next t := by
  refine congrArg Host.Outcome.next ((if_neg (not_putOff_of_due hcar hdue)).trans ?_)
  simp only [hmoved]

/-- A flit whose access to memory fails ends the step. -/
theorem exec_timedFlitHandOn_of_ended {t : State} (hended : (s.countHandOn l fl).handOn l fl = .ended t) :
    exec (.timedFlitHandOn l fl) s = .next t := by
  refine congrArg Host.Outcome.next ((if_neg (not_putOff_of_due hcar hdue)).trans ?_)
  simp only [hended]

/-- A flit that memory cannot take yet is not counted. -/
theorem exec_timedFlitHandOn_of_held {t u : State} {k j : Nat} (hheld : (s.countHandOn l fl).handOn l fl = .held t k)
    (hagain : s.handOn l fl = .held u j) : exec (.timedFlitHandOn l fl) s = .next u := by
  refine congrArg Host.Outcome.next ((if_neg (not_putOff_of_due hcar hdue)).trans ?_)
  simp only [hheld, hagain]

end

end

/-- A flit that arrives after its compiled slot is counted as late. -/
theorem countHandOn_of_late {s : State} {l : Nat} {fl : TimedFlit} (hlate : fl.sent + (s.port l).compiled < fl.arrived) :
    ∃ y : Port, s.countHandOn l fl = (s.setPort l y).countOpen (s.partOfPort l) ∧ y.counts = bump (s.port l).counts 4 :=
  ⟨_, rfl, if_pos (decide_eq_true hlate)⟩

/-! ### BELL flits and what was not acknowledged (R287 to R289) -/

section
variable {s : State} {l : Nat}

section
variable {fl : RxBell} (hcar : s.carries l = true) (hok : fl.ok = true)
include hcar hok

/-- The messages of a good BELL flit that its key covers are taken in, 28 at most, where no relay is named. -/
theorem exec_bellFlit_of_no_relay (hrelay : s.relayFrom l = none) :
    exec (.bellFlit l fl) s = .next { s.modPort l fun x => { x with bellGot := max x.bellGot fl.seq } with
      bellIn := s.bellIn ++ (((fl.msgs.take 28).filter (· != 0)).filter fun m => underLinkKey m == !fl.jobKey).map fun m =>
        (fl.dev, fl.part, m) } := by
  refine congrArg Host.Outcome.next ?_
  have hrelay' : (s.modPort l fun x => { x with bellGot := max x.bellGot fl.seq }).relayFrom l = none := hrelay
  simp only [hcar, hok, hrelay', Bool.and_self, Bool.not_true, Bool.false_eq_true, if_false]
  rfl

/-- The messages of a good BELL flit wait at the relay port where one is named. -/
theorem exec_bellFlit_of_relay {o : Nat} (hrelay : s.relayFrom l = some o) :
    exec (.bellFlit l fl) s = .next ((s.modPort l fun x => { x with bellGot := max x.bellGot fl.seq }).modPort o fun x =>
      { x with bellQ := x.bellQ ++ (fl.msgs.take 28).filter (· != 0) }) := by
  refine congrArg Host.Outcome.next ?_
  have hrelay' : (s.modPort l fun x => { x with bellGot := max x.bellGot fl.seq }).relayFrom l = some o := hrelay
  simp only [hcar, hok, hrelay', Bool.and_self, Bool.not_true, Bool.false_eq_true, if_false]

end

/-- Messages not acknowledged within 2,400 slots wait in front again. -/
theorem exec_bellResend_of_due {e : Nat × List W64 × Nat} {rest : List (Nat × List W64 × Nat)}
    (hdue : takeFirst (fun (e : Nat × List W64 × Nat) => decide (e.2.2 + 2400 ≤ s.slot)) (s.port l).bellOut = some (e, rest)) :
    exec (.bellResend l) s = .next (s.setPort l
      { s.port l with bellOut := rest, bellQ := e.2.1 ++ (s.port l).bellQ, counts := bump (s.port l).counts 2 }) := by
  refine congrArg Host.Outcome.next ?_
  simp only [hdue, State.modPort_eq]

/-- A packet not acknowledged within 4,800 slots waits in front again, where no packet is under way. -/
theorem exec_packetResend_of_due {e : Packet × Nat × Nat} {rest : List (Packet × Nat × Nat)}
    (hdue : takeFirst (fun (e : Packet × Nat × Nat) => decide (e.2.2 + 4800 ≤ s.slot)) (s.port l).pktOut = some (e, rest))
    (hpos : (s.port l).pktPos = 0) :
    exec (.packetResend l) s = .next (s.setPort l { s.port l with pktOut := rest, pktQ := e.1 :: (s.port l).pktQ }) := by
  refine congrArg Host.Outcome.next ?_
  simp only [hdue, State.modPort_eq]
  cases hq : (s.port l).pktQ with
  | nil => rfl
  | cons k q => simp only [hpos, lt_irrefl, if_false]

/-! ### Lanes and parking (R290, R415) -/

section
variable {lane : Nat} (hlit : bit (s.port l).lanes (lane % 4) = true)
include hlit

/-- A four-lane port that loses a lane retrains on the other three. -/
theorem exec_laneFailure_of_four (hst : (s.port l).st = 2) :
    exec (.laneFailure l lane) s = .next ((((s.setPort l { s.port l with st := 1, lanes := (s.port l).lanes - 2 ^ (lane % 4) }).report
      1 l 0x30 (s.partOfPort l)).linkEvent l).framesFail l) := by
  refine congrArg Host.Outcome.next ?_
  simp only [State.laneFails, hlit, hst, Bool.not_true, Bool.false_eq_true, if_false, if_true]
  rfl

/-- A port that has lost a lane goes down with the next. -/
theorem exec_laneFailure_of_fewer (hst : (s.port l).st ≠ 2) : exec (.laneFailure l lane) s = .next (s.portDown l) := by
  refine congrArg Host.Outcome.next ?_
  simp only [State.laneFails, hlit, hst, Bool.not_true, Bool.false_eq_true, if_false]

end

/-- A port that retrains comes up on the lanes that it has, or goes down. -/
theorem exec_laneRetrainDone_of_training (hst : (s.port l).st = 1) (ok : Bool) :
    exec (.laneRetrainDone l ok) s = .next (if ok then s.portUp l (s.port l).lanes else s.portDown l) := by
  refine congrArg Host.Outcome.next ?_
  simp only [hst, bne_self_eq_false, Bool.false_eq_true, if_false]

/-- A port that may park proposes it to its peer and parks. -/
theorem exec_portPark_of_idle (hnone : takeFirst (fun (k : Nat × Packet) => k.1 == l && k.2.ctl == some .park) s.pktIn = none)
    (hmay : s.mayPark l = true) :
    exec (.portPark l) s =
      .next ((s.sendPacket (s.port l).peer { cls := 0x20, ctl := some .park }).modPort l fun x => { x with parked := true }) := by
  refine congrArg Host.Outcome.next ?_
  simp only [hnone, hmay, if_true]

end

/-! ### Additions of an edge router (R298 to R300) -/

/-- The bytes of a flit's partial sums with this device's own contribution `b` added (R298). -/
def Part.sumBytes (part : Part) (k : Collective) (r : CollRing) (fl : ReduceFlit) (b : List Byte) : List Byte :=
  (addPartials part.roundKey.toNat part.dataPos k.layer (collAddend k r (fl.off / k.chunk)) (fl.off / 4)
    (words32 fl.arriving.length b) fl.arriving).flatMap fun w => leBytes 4 w.toNat

/-- A flit of a reduction for a running job, at a port of its partition that carries traffic. -/
structure State.AddsAt (s : State) (g : Nat) (fl : ReduceFlit) : Prop where
  running : (s.part (s.partOfEdge g)).job = .running
  carries : s.carries fl.port = true
  port : s.partOfPort fl.port = s.partOfEdge g

section
variable {s : State} {g : Nat} {fl : ReduceFlit} (h : s.AddsAt g fl)
include h

/-- Whether an edge router answers a flit at all is settled by the job, the port and its partition. -/
theorem State.AddsAt.answers :
    ¬ ((s.part (s.partOfEdge g)).job != .running || !s.carries fl.port || s.partOfPort fl.port != s.partOfEdge g) = true := by
  simp only [h.running, h.carries, h.port, bne_self_eq_false, Bool.not_true, Bool.or_self, Bool.false_eq_true, not_false_eq_true]

/-- A flit of another layout epoch ends the step. -/
theorem exec_edgeRouterAddition_of_stale (hepoch : fl.epoch ≠ (s.part (s.partOfEdge g)).layoutEpoch) :
    exec (.edgeRouterAddition g fl) s = .next (s.endStep (s.partOfEdge g) 0x42) :=
  congrArg Host.Outcome.next ((if_neg h.answers).trans (if_pos (bne_iff_ne.mpr hepoch)))

section
variable {k : Collective} {r : CollRing} {u : State} {b : List Byte} (hepoch : fl.epoch = (s.part (s.partOfEdge g)).layoutEpoch)
  (hcoll : ((s.modPart (s.partOfEdge g) Part.startColls).part (s.partOfEdge g)).reduceOf fl = some (k, r))
  (hread : (s.modPart (s.partOfEdge g) Part.startColls).readMem (s.partOfEdge g) (k.src + fl.off) (4 * fl.arriving.length) = .ok u b)
include hepoch hcoll hread

/-- Sums that go on or are stored count as an addition of the edge. -/
theorem exec_edgeRouterAddition_of_moved {t : State}
    (hsum : u.sumOn (s.partOfEdge g) k r fl ((s.part (s.partOfEdge g)).sumBytes k r fl b) = .moved t) :
    exec (.edgeRouterAddition g fl) s = .next (t.countEdge (fl.port / 2) 2 1) := by
  refine congrArg Host.Outcome.next ((if_neg h.answers).trans ((if_neg (ne_true_of_eq_false (bne_eq_false_iff_eq.mpr hepoch))).trans ?_))
  rw [Part.sumBytes] at hsum
  simp only [hcoll, hread, hsum]

/-- Sums that memory cannot take yet wait. -/
theorem exec_edgeRouterAddition_of_held {t : State} {c : Nat}
    (hsum : u.sumOn (s.partOfEdge g) k r fl ((s.part (s.partOfEdge g)).sumBytes k r fl b) = .held t c) :
    exec (.edgeRouterAddition g fl) s = .next t := by
  refine congrArg Host.Outcome.next ((if_neg h.answers).trans ((if_neg (ne_true_of_eq_false (bne_eq_false_iff_eq.mpr hepoch))).trans ?_))
  rw [Part.sumBytes] at hsum
  simp only [hcoll, hread, hsum]

end

end

section
variable {u : State} {p : Nat} {k : Collective} {r : CollRing} {fl : ReduceFlit} {bytes : List Byte}

/-- A sum whose chunk does not end at this rank goes out in the ring's link stream. -/
theorem sumOn_of_passing (hon : fl.off / k.chunk ≠ k.index) :
    u.sumOn p k r fl bytes = .moved ((u.addReady r.outPort
      { stream := r.outStream, sent := u.slot, part := p, srcDev := u.self, addr := fl.off, bytes := bytes }).collSent p k.layer r.outPort
        r.outStream bytes.length) :=
  if_pos (bne_iff_ne.mpr hon.symm)

/-- A sum whose chunk ends at this rank is stored at the collective's destination, and of a reduction that is not sent round goes no further. -/
theorem sumOn_of_last (hlast : fl.off / k.chunk = k.index) (hkind : k.kind ≠ 2) {v : State}
    (hwrite : u.writePages p 2 (k.dest + fl.off) bytes = (v, 0)) :
    u.sumOn p k r fl bytes = .moved (v.countEdge (fl.port / 2) 3 1) := by
  refine (if_neg (ne_true_of_eq_false (bne_eq_false_iff_eq.mpr hlast.symm))).trans ?_
  simp only [hwrite, hkind, if_false]
  rfl

end

/-- Settles O36, one command at a time. -/
theorem linksAndEdgeRouters : Obligations.LinksAndEdgeRouters := by
  unfold Obligations.LinksAndEdgeRouters
  refine ⟨fun s l => ?port, fun s g fl hrun hcar hport => ?router⟩
  case port =>
    refine ⟨exec_flitTime_of_due, fun hcar fr => ?frame, fun hcar fl hdue => ?handOn, fun fl => countHandOn_of_late, fun hcar fl hok => ?bell,
      fun _ _ => exec_bellResend_of_due, fun _ _ => exec_packetResend_of_due, fun lane hlit => ?failure, fun hst => ?retrained,
      exec_portPark_of_idle⟩
    case frame => exact ⟨exec_frameSeal_of_ok hcar, exec_frameSeal_of_bad hcar, exec_frameSeal_of_bad_timed hcar⟩
    case handOn =>
      exact ⟨fun _ => exec_timedFlitHandOn_of_moved hcar hdue, fun _ => exec_timedFlitHandOn_of_ended hcar hdue,
        fun _ _ _ _ => exec_timedFlitHandOn_of_held hcar hdue⟩
    case bell => exact ⟨exec_bellFlit_of_no_relay hcar hok, fun _ => exec_bellFlit_of_relay hcar hok⟩
    case failure => exact ⟨exec_laneFailure_of_four hlit, exec_laneFailure_of_fewer hlit⟩
    case retrained => exact ⟨exec_laneRetrainDone_of_training hst true, exec_laneRetrainDone_of_training hst false⟩
  case router =>
    have h : s.AddsAt g fl := ⟨hrun, hcar, hport⟩
    refine ⟨exec_edgeRouterAddition_of_stale h, fun hepoch k r u b hcoll hread => ⟨fun _ => ?moved, fun _ _ => ?held, sumOn_of_passing, ?last⟩⟩
    case moved => exact exec_edgeRouterAddition_of_moved h hepoch hcoll hread
    case held => exact exec_edgeRouterAddition_of_held h hepoch hcoll hread
    case last => exact fun hlast hkind _ => sumOn_of_last hlast hkind

end Sys2Proof.Machine
end

section
/-! PROOFS. The leadership of a Form and its time: heartbeats and what follows their loss, beats, lock ports and holdover (R291 to R293, R308). -/

namespace Sys2Proof.Machine

open Sys2Proof

/-! ### What moving to a new superior leaves (R302, R308) -/

/-- A bell message sent leaves the Form's record. -/
@[simp] theorem State.sendBell_form (s : State) (dev p : Nat) (m : W64) : (s.sendBell dev p m).form = s.form := by
  unfold State.sendBell
  split
  · rfl
  · dsimp only
    split <;> rfl

/-- Bell messages sent leave the Form's record. -/
@[simp] theorem State.sendBells_form (s : State) (devs : List Nat) (p : Nat) (m : W64) : (s.sendBells devs p m).form = s.form :=
  foldl_keeps (P := fun u => u.form = s.form) (fun u d hu => (u.sendBell_form d p m).trans hu) devs s rfl

/-- Locking to another link changes the beat alone. -/
theorem State.lockTo_eq (s : State) (d : Nat) : s.lockTo d = { s with beat := (s.lockTo d).beat } := by
  unfold State.lockTo
  split <;> rfl

@[simp] theorem State.lockTo_form (s : State) (d : Nat) : (s.lockTo d).form = s.form := by rw [State.lockTo_eq]

/-- A new Prefect: nothing is missed of it, it is not the deputy, and only the Form's record and the beat change. -/
theorem newPrefect_spec (s : State) (d : Nat) :
    (s.newPrefect d).form.prefect = d ∧ (s.newPrefect d).form.missedBeats = 0 ∧ (s.newPrefect d).form.deputy ≠ some d ∧
      s.newPrefect d = { s with form := (s.newPrefect d).form, beat := (s.newPrefect d).beat } := by
  have hdeputy : (if s.form.deputy = some d then none else s.form.deputy) ≠ some d := by split <;> simp_all
  refine ⟨?_, ?_, ?_, ?_⟩
  · rw [State.newPrefect, State.lockTo_form]
  · rw [State.newPrefect, State.lockTo_form]
  · rw [State.newPrefect, State.lockTo_form]
    exact hdeputy
  · rw [State.newPrefect, State.lockTo_eq]

/-- A new Head Prefect in the Form's record: nothing is missed of it, and the Form keeps its own Prefect. -/
theorem newHead_form (s : State) (d : Nat) :
    (s.newHead d).form = { s.form with
      head := some d, headMissed := 0, headHeard := false, headMissingSent := false
      deputyHead := if s.form.deputyHead = some d then none else s.form.deputyHead
      role := if s.form.role = 3 then 1 else s.form.role } := by
  have htold : ∀ t : State, (if t.isPrefect then (t.sendBells t.form.deputy.toList 0 (msgTakeover d)).lockTo d else t).form = t.form := by
    intro t
    split
    · rw [State.lockTo_form, State.sendBells_form]
    · rfl
  exact htold _

/-! ### Heartbeats and takeover (R308) -/

section
variable {s : State} {d p : Nat} {m : W64} {rest : List (Nat × Nat × W64)}

section
variable (h : takeBell 0x07 s.bellIn = some ((d, p, m), rest)) (hset : s.form.set = true)
include h hset

/-- A heartbeat of the Prefect clears its missed beats. -/
theorem exec_heartbeat_of_prefect (hprefect : d = s.form.prefect) (hhead : s.form.head ≠ some d) :
    exec .heartbeat s = .next { s with bellIn := rest, form := { s.form with heard := true, missedBeats := 0, missingSent := false } } := by
  show execHeartbeat s = _
  rw [execHeartbeat, h]
  subst hprefect
  simp only [hset, beq_self_eq_true, Bool.and_self, if_true, beq_eq_false_iff_ne.mpr hhead, Bool.and_false, Bool.false_eq_true, if_false]

/-- A heartbeat of the Head Prefect, from another device than the Form's Prefect, clears the missed beats of the Head. -/
theorem exec_heartbeat_of_head (hprefect : d ≠ s.form.prefect) (hhead : s.form.head = some d) :
    exec .heartbeat s =
      .next { s with bellIn := rest, form := { s.form with headHeard := true, headMissed := 0, headMissingSent := false } } := by
  show execHeartbeat s = _
  rw [execHeartbeat, h]
  simp only [hset, hhead, beq_eq_false_iff_ne.mpr hprefect, beq_self_eq_true, Bool.and_false, Bool.and_self, Bool.false_eq_true, if_false, if_true]

end

section
variable (h : takeBell 0x08 s.bellIn = some ((d, p, m), rest))
include h

/-- MISSING of the Prefect is recorded at the Deputy, which takes over where it then may. -/
theorem exec_missing_of_deputy (hdeputy : s.isDeputy = true) (hof : bits m.toNat 16 14 = s.form.prefect) :
    let t := { s with bellIn := rest, form := { s.form with missing := addOnce s.form.missing d } }
    exec .missing s = .next (if t.mayTakeOver then t.takeOver else t) := by
  show execMissing s = _
  rw [execMissing, h]
  have hprefect : (s.isDeputy && bits m.toNat 16 14 == s.form.prefect) = true := by simp [hdeputy, hof]
  exact congrArg Host.Outcome.next (if_pos hprefect)

/-- MISSING of the Head Prefect is recorded at the Deputy Head, which takes over where it then may. -/
theorem exec_missing_of_deputyHead (hdeputy : s.isDeputyHead = true) (hof : s.form.head = some (bits m.toNat 16 14))
    (hother : s.isDeputy = true → bits m.toNat 16 14 ≠ s.form.prefect) :
    let t := { s with bellIn := rest, form := { s.form with headMissing := addOnce s.form.headMissing d } }
    exec .missing s = .next (if t.mayTakeOverHead then t.takeOverHead else t) := by
  show execMissing s = _
  rw [execMissing, h]
  have hnot : ¬ (s.isDeputy && bits m.toNat 16 14 == s.form.prefect) = true := by simpa using hother
  have hhead : (s.isDeputyHead && s.form.head == some (bits m.toNat 16 14)) = true := by simp [hdeputy, hof]
  exact congrArg Host.Outcome.next ((if_neg hnot).trans (if_pos hhead))

end

section
variable (h : takeBell 0x09 s.bellIn = some ((d, p, m), rest))
include h

/-- TAKEOVER naming a device of this Form makes it the Prefect. -/
theorem exec_takeover_of_own (hform : bits m.toNat 16 14 / 64 = s.form.form) :
    exec .takeover s = .next (({ s with bellIn := rest } : State).newPrefect (bits m.toNat 16 14)) := by
  show execTakeover s = _
  rw [execTakeover, h]
  exact congrArg Host.Outcome.next (if_pos hform)

/-- TAKEOVER naming a device of another Form makes it the Head Prefect (log entry 92). -/
theorem exec_takeover_of_other (hform : bits m.toNat 16 14 / 64 ≠ s.form.form) :
    exec .takeover s = .next (({ s with bellIn := rest } : State).newHead (bits m.toNat 16 14)) := by
  show execTakeover s = _
  rw [execTakeover, h]
  exact congrArg Host.Outcome.next (if_neg hform)

end

/-- Four beats without a heartbeat of the Prefect: a member that is not the Deputy tells the Deputy, once. -/
theorem exec_heartbeatLost_of_member (hset : s.form.set = true) (hprefect : s.isPrefect = false) (hmissed : 4 ≤ s.form.missedBeats)
    (hself : s.isDeputy = false) (hsent : s.form.missingSent = false) (hdeputy : s.form.deputy = some d) :
    exec .heartbeatLost s =
      .next (({ s with form := { s.form with missingSent := true } } : State).sendBell d 0 (msgMissing s.form.prefect)) := by
  refine congrArg Host.Outcome.next ?_
  simp only [hset, hprefect, Nat.not_lt.mpr hmissed, hself, hsent, hdeputy, Bool.not_true, Bool.false_eq_true, if_false]

/-! ### Beats, lock ports and holdover (R291 to R293) -/

/-- A beat that has not been counted yet is checked, and its messages are sent. -/
theorem exec_beatBoundary_of_new (hnew : s.beat.last ≠ beatOf s.slot + 1) :
    exec .beatBoundary s = .next ({ s with
      beat := { s.beat with last := beatOf s.slot + 1 }
      ports := s.ports.map fun (e : Nat × Port) => (e.1, { e.2 with lateInBeat := 0 }) } : State).checkBeat.beats.probeSuspects :=
  congrArg Host.Outcome.next (if_neg hnew)

/-- A device whose lock port is down swaps to the alternate one, or begins holdover where that is down too. -/
theorem exec_lockPortDown_of_down (hset : s.form.set = true) (hroot : s.beat.root = false) (hhold : s.beat.holdover = false)
    (hdown : s.portIsUp s.beat.lockPort = false) :
    exec .lockPortDown s =
      .next (if s.portIsUp s.beat.altPort then { s with beat := { s.beat with lockPort := s.beat.altPort, altPort := s.beat.lockPort } }
        else { s with beat := { s.beat with holdover := true, locked := false, holdSince := some s.tick } }) := by
  refine congrArg Host.Outcome.next (if_neg ?_)
  simp only [hset, hroot, hhold, hdown, Bool.not_true, Bool.or_self, Bool.false_eq_true, not_false_eq_true]

/-- Holdover ends once the lock port is up again. -/
theorem exec_lockPortReturn_of_up (hhold : s.beat.holdover = true) (hup : s.portIsUp s.beat.lockPort = true) :
    exec .lockPortReturn s =
      .next { s with beat := { s.beat with holdover := false, locked := true, holdSince := none, timedEnded := false } } := by
  refine congrArg Host.Outcome.next ?_
  simp only [hhold, hup, Bool.not_true, Bool.false_eq_true, if_false, if_true]

/-- After one second of holdover the steps of the jobs that use ports end, once. -/
theorem exec_holdoverExpiry_of_due {t : Nat} (hhold : s.beat.holdover = true) (hsince : s.beat.holdSince = some t)
    (honce : s.beat.timedEnded = false) (hdue : t + 25000000 ≤ s.tick) :
    let s2 := ({ s with beat := { s.beat with timedEnded := true } } : State).report 0 0 0x42 0
    exec .holdoverExpiry s = .next (s2.partList.foldl (fun s p => match (s.part p).image with
      | some im => if im.ports = [] then s else s.endStep p 0x40
      | none => s) s2) := by
  refine congrArg Host.Outcome.next ?_
  simp only [hhold, hsince, honce, hdue, if_true]
  rfl

/-- The first edge of BEAT while the device aligns sets the slot within the beat to 0. -/
theorem exec_beatEdge_of_aligning {width : Nat} (haligning : s.beat.aligning = true) (hphase : s.beat.phaseSet = false) :
    exec (.beatEdge width) s = .next (({ s with
      slot := s.slot / 2 ^ 20 * 2 ^ 20
      beat := { s.beat with phaseSet := true, edgeSeen := true, edgeError := 0, frame := none } } : State).readPulse
        (beatOf s.slot) (beatPulse width)) := by
  refine congrArg Host.Outcome.next (if_pos ?_)
  simp only [haligning, hphase, Bool.not_false, Bool.and_self]

end

/-- Settles O38, one command at a time. -/
theorem formLeadershipAndTime : Obligations.FormLeadershipAndTime := by
  unfold Obligations.FormLeadershipAndTime
  intro s d p m rest s1 b
  refine ⟨exec_heartbeat_of_prefect, exec_heartbeat_of_head, exec_missing_of_deputy, exec_missing_of_deputyHead, fun h => ⟨?own, ?other⟩,
    exec_heartbeatLost_of_member, exec_beatBoundary_of_new, exec_lockPortDown_of_down, exec_lockPortReturn_of_up,
    fun t => exec_holdoverExpiry_of_due, fun width => exec_beatEdge_of_aligning⟩
  case own =>
    exact fun hform => ⟨s1.newPrefect (bits m.toNat 16 14), exec_takeover_of_own h hform, newPrefect_spec s1 (bits m.toNat 16 14)⟩
  case other =>
    refine fun hform => ⟨s1.newHead (bits m.toNat 16 14), exec_takeover_of_other h hform, ?_⟩
    rw [newHead_form]
    exact ⟨rfl, rfl, rfl⟩

end Sys2Proof.Machine
end

section
/-! PROOFS. The commands of satchels, spares, re-sharding, Forms and links: each meets its own rules, and has its effect (R280, R295, R309, R315,
R323, R332 to R335, R372). -/

namespace Sys2Proof.Machine

open Sys2Proof

section
variable {s : State} {r t : Nat} {c : Cmd}

/-! ### Satchels (R323, R332) -/

/-- A partition's record with the satchel arguments of SATCHEL_CONFIG, its former reserve released and the new one not yet charged (R323). -/
def Part.satConfigured (part : Part) (j : Job) : Part :=
  let free := part.release 2 part.satReserve
  { free with satchel := { free.satchel with
    configured := true, set := setBases j, interval := j.arg 0, farEvery := j.arg 1, satBell := j.arg 2, buddyEn := j.arg 3 == 1
    farBackend := j.arg 4, spares := j.arg 5, baseNext := true } }

/-- What SATCHEL_CONFIG asks of its arguments (R323). -/
structure Part.SatArgsOk (part : Part) (j : Job) : Prop where
  interval : j.arg 0 ≠ 0
  bell : j.arg 2 ≤ 1023
  buddy : j.arg 3 ≤ 1
  alone : j.arg 3 = 0 → part.deviceCount ≤ 1
  backend : j.arg 4 ≤ 3
  attached : j.arg 1 ≠ 0 → (tget none part.backends (j.arg 4)).isSome = true
  spares : j.arg 5 ≤ 16
  someBase : j.arg 6 ≠ 0
  bases : j.arg 6 ≤ 64
  state : j.arg 6 = (match part.image with | some im => im.state | none => []).length

section
variable {part : Part} {j : Job} (h : part.SatArgsOk j)
include h

/-- A buddy is named or needless. -/
theorem Part.SatArgsOk.not_bad_buddy : ¬ (1 < j.arg 3 ∨ j.arg 3 = 0 ∧ 1 < part.deviceCount) :=
  not_or.mpr ⟨Nat.not_lt.mpr h.buddy, fun hno => absurd (h.alone hno.1) (Nat.not_le.mpr hno.2)⟩

/-- Far satchels, where they are asked for, have a backend. -/
theorem Part.SatArgsOk.not_bad_backend : ¬ (3 < j.arg 4 ∨ j.arg 1 ≠ 0 ∧ (tget none part.backends (j.arg 4)).isNone = true) :=
  not_or.mpr ⟨Nat.not_lt.mpr h.backend, fun hno => absurd (h.attached hno.1) (by simpa using hno.2)⟩

/-- As many bases are named as the image declares. -/
theorem Part.SatArgsOk.not_bad_bases :
    ¬ (j.arg 6 = 0 ∨ 64 < j.arg 6 ∨ j.arg 6 ≠ (match part.image with | some im => im.state | none => []).length) :=
  not_or.mpr ⟨h.someBase, not_or.mpr ⟨Nat.not_lt.mpr h.bases, not_not.mpr h.state⟩⟩

end

/-- SATCHEL_CONFIG sets the arguments and charges the new reserve where the quota holds it. -/
theorem satchelConfig_completes {part new : Part} (h : s.starts r t 0x0601 c = true) (hpart : (s.markStarted r c).part (s.job r c).p = part)
    (hargs : part.SatArgsOk (s.job r c)) (hpay : 8 * (s.job r c).arg 6 ≤ c.payLen) (hbases : part.badSetBase (setBases (s.job r c)) = none)
    (hnew : part.satConfigured (s.job r c) = new) (hquota : new.useOf 2 + new.satReserve ≤ new.quotaOf 2) :
    Completes (.satchelConfig r t) s r c
      (((s.markStarted r c).setPart (s.job r c).p (new.charge 2 new.satReserve)).placeBuddy (s.job r c).p) {} := by
  subst hpart hnew
  refine completes_of_done rfl h ?inline hpay ?pay (if_neg (Nat.not_lt.mpr hquota))
  case inline =>
    exact (if_neg hargs.interval).trans ((if_neg (Nat.not_lt.mpr hargs.bell)).trans ((if_neg hargs.not_bad_buddy).trans
      ((if_neg hargs.not_bad_backend).trans ((if_neg (Nat.not_lt.mpr hargs.spares)).trans (if_neg hargs.not_bad_bases)))))
  case pay => simp only [hbases, Option.map_none]

/-- SATCHEL_TAKE makes a satchel due at the next boundary. -/
theorem satchelTake_completes (h : s.starts r t 0x0603 c = true) :
    let part := (s.markStarted r c).part (s.job r c).p
    Completes (.satchelTake r t) s r c
      ((s.markStarted r c).setPart (s.job r c).p { part with satchel := { part.satchel with dueNext := true } }) {} :=
  completes_of_no_rules rfl h rfl

/-- A source that holds a restore's target whole: every page and the record of the step that is wanted, of the same image and level, and within the quotas
(R332). -/
structure Part.SourceHolds (part : Part) (want : Option Nat) (src : RestoreSrc) : Prop where
  pages : ∀ pg ∈ src.record.pages, src.pages.any (fun e => e.1 == pg) = true
  step : ∀ k, want = some k → k = src.record.step
  digest : src.record.digest = part.digest
  level : src.record.level = (match part.image with | some im => im.level | none => 0)
  quotas : ∀ k < 4, src.record.use.getD k 0 ≤ part.quotaOf k

/-- A restore takes the first source where that holds the target whole. -/
theorem tryRestore_of_first {u : State} {p : Nat} {want : Option Nat} {src : RestoreSrc} {rest : List (Option RestoreSrc)}
    (hsrc : (u.part p).SourceHolds want src) :
    u.tryRestore p want (some src :: rest) = .done ((u.restoreFrom p src).modPart p fun part => { part with job := .held }) {} := by
  obtain ⟨hpages, hstep, hdigest, hlevel, hquotas⟩ := hsrc
  have hwhole : src.record.pages.all (fun pg => src.pages.any fun e => e.1 == pg) = true := List.all_eq_true.mpr hpages
  have hwanted : want.any (· != src.record.step) = false := by
    cases want with
    | none => rfl
    | some k => exact bne_eq_false_iff_eq.mpr (hstep k rfl)
  have hover : ((upFrom 0 4).any fun k => decide ((u.part p).quotaOf k < src.record.use.getD k 0)) = false := by
    refine List.any_eq_false.mpr fun k hk => ?_
    simpa using hquotas k (by simpa using (mem_upFrom.mp hk).2)
  rw [State.tryRestore]
  simp only [hwhole, hwanted, hdigest, hover, Bool.not_true, Bool.or_self, bne_self_eq_false, Bool.false_or, Bool.false_eq_true, if_false]
  exact if_neg (ne_true_of_eq_false (bne_eq_false_iff_eq.mpr hlevel))

/-- SATCHEL_RESTORE of the current boundary, whose state this device itself holds. -/
theorem satchelRestore_completes_of_own {l : List (Option RestoreSrc)} (h : s.starts r t 0x0604 c = true) (htarget : (s.job r c).arg 0 = 0)
    (hown : (s.markStarted r c).ownStateHolds (s.job r c).p = true) :
    Completes (.satchelRestore r t l) s r c ((s.markStarted r c).modPart (s.job r c).p fun part => { part with job := .held }) {} := by
  refine completes_of_done rfl h (if_neg ?_) (Nat.zero_le _) rfl ((if_pos htarget).trans (if_pos hown))
  omega

/-- The step of a restore's target, where this device knows it (R331). -/
def Part.targetStep (part : Part) (target : Nat) : Option Nat :=
  if target = 0 then none else if target = 1 then part.satchel.committed else part.satchel.far

/-- SATCHEL_RESTORE from the first source, which holds the target whole. -/
theorem satchelRestore_completes_of_source {src : RestoreSrc} {rest : List (Option RestoreSrc)} (h : s.starts r t 0x0604 c = true)
    (htarget : (s.job r c).arg 0 ≤ 2) (hown : (s.job r c).arg 0 = 0 → (s.markStarted r c).ownStateHolds (s.job r c).p = false)
    (hsrc : ((s.markStarted r c).part (s.job r c).p).SourceHolds
      (((s.markStarted r c).part (s.job r c).p).targetStep ((s.job r c).arg 0)) src) :
    Completes (.satchelRestore r t (some src :: rest)) s r c
      (((s.markStarted r c).restoreFrom (s.job r c).p src).modPart (s.job r c).p fun part => { part with job := .held }) {} := by
  refine completes_of_done rfl h (if_neg (Nat.not_lt.mpr htarget)) (Nat.zero_le _) rfl ?_
  have hfirst := tryRestore_of_first (rest := rest) hsrc
  by_cases hzero : (s.job r c).arg 0 = 0
  · rw [Part.targetStep, if_pos hzero] at hfirst
    exact (if_pos hzero).trans ((if_neg (ne_true_of_eq_false (hown hzero))).trans hfirst)
  · rw [Part.targetStep, if_neg hzero] at hfirst
    have hthere : ¬ ((s.job r c).arg 0 = 2 && (some src :: rest).all Option.isNone) = true := by simp
    exact (if_neg hzero).trans ((if_neg hthere).trans hfirst)

/-! ### Filling a spare (R333, R334) -/

/-- Whether the fill of a partition is of the rank and to the device that SPARE_FILL names. -/
def Part.fillGoesOn (part : Part) (j : Job) : Bool :=
  match part.spareFill with
  | some (rank, _, _) => rank == j.arg 0 && part.fillDev == some (j.arg 1)
  | none => false

/-- The state in which SPARE_FILL has started its fill, or has taken over one of its own (R333; log entries 38, 96). -/
def State.fillStarted (s : State) (j : Job) : State :=
  if (s.part j.p).fillGoesOn j then s.modPart j.p fun part => { part with fillAuto := false }
  else s.modPart j.p fun part => part.startFill (j.arg 0) (j.arg 1) false

/-- A fill of the rank that SPARE_FILL names to the device that it names goes on. -/
theorem fillGoesOn_of_same {part : Part} {j : Job} {x : Nat × List Nat} (hrank : part.spareFill = some (j.arg 0, x))
    (hdev : part.fillDev = some (j.arg 1)) : part.fillGoesOn j = true := by
  simp only [Part.fillGoesOn, hrank, hdev, beq_self_eq_true, Bool.and_self]

/-- Where no fill is under way one is started. -/
theorem fillStarted_of_none {u : State} {j : Job} (hnone : (u.part j.p).spareFill = none) :
    u.fillStarted j = u.modPart j.p fun part => part.startFill (j.arg 0) (j.arg 1) false := by
  simp only [State.fillStarted, Part.fillGoesOn, hnone, Bool.false_eq_true, if_false]

/-- What SPARE_FILL asks before it looks at the spare: it is the Prefect's, its rank is one of the job's whose device is absent, its device is there, and
no other fill is under way (R333). -/
structure State.MayFill (s : State) (j : Job) : Prop where
  rank : j.arg 0 < (s.part j.p).ranks.length
  device : j.arg 1 < 2 ^ 14
  there : s.form.absent.contains (j.arg 1) = false
  prefect : s.isPrefect = true
  absent : s.form.absent.contains ((s.part j.p).ranks.getD (j.arg 0) 0) = true
  free : (s.part j.p).spareFill = none ∨ (s.part j.p).fillGoesOn j = true

/-- What SPARE_FILL does once it may: it turns away a spare that does not fit or has no link, and else its fill goes on with what has come. -/
def State.fillFor (good : Bool) (rec : Option SchedRec) (arrived : SMap (SMap HbmLine)) (s : State) (j : Job) : CmdRes :=
  if !good then .fail { status := stFormMismatch }
  else if j.arg 1 != s.self && (s.portTo (j.arg 1)).isNone then .fail { status := stLinkDown }
  else (s.fillStarted j).fillOn rec arrived j

/-- The fill for a spare that fits, and that is this device or has a link, goes on with what has come. -/
theorem fillFor_of_fits {good : Bool} {rec : Option SchedRec} {arrived : SMap (SMap HbmLine)} {u : State} {j : Job} (hgood : good = true)
    (hlink : j.arg 1 = u.self ∨ (u.portTo (j.arg 1)).isSome = true) :
    State.fillFor good rec arrived u j = (u.fillStarted j).fillOn rec arrived j := by
  have hreached : (j.arg 1 != u.self && (u.portTo (j.arg 1)).isNone) = false := by rcases hlink with hlink | hlink <;> simp [hlink]
  exact (if_neg (by simp [hgood])).trans (if_neg (ne_true_of_eq_false hreached))

/-- A command that meets its own rules runs as one without rules that has the same effect. -/
theorem runCmd_of_rules_met {op : Nat} {rules : CmdRules} {f g : State → Job → CmdRes} (h : s.starts r t op c = true)
    (hi : rules.inline (s.markStarted r c) (s.job r c) = none) (hn : rules.need (s.job r c) ≤ c.payLen)
    (hp : rules.pay (s.markStarted r c) (s.job r c) = none) (hfg : f (s.markStarted r c) (s.job r c) = g (s.markStarted r c) (s.job r c)) :
    s.runCmd r t op rules f = s.runCmd r t op {} g := by
  have hfree := check_of_starts (rules := {}) h rfl (Nat.zero_le _) rfl
  simp only [State.runCmd, startable_of_starts h, check_of_starts h hi hn hp, hfree, hfg]

section
variable {good : Bool} {rec : Option SchedRec} {arrived : SMap (SMap HbmLine)} (h : s.starts r t 0x0605 c = true)
  (hfind : (s.ring r).find t = some c) (hnot : c.running = false) (hmay : (s.markStarted r c).MayFill (s.job r c))
include h hfind hnot hmay

/-- SPARE_FILL that does not run yet and may be taken runs as `State.fillFor`. -/
theorem exec_spareFill_of_mayFill :
    exec (.spareFill r t good rec arrived) s = .next (s.runCmd r t 0x0605 {} (State.fillFor good rec arrived)) := by
  obtain ⟨hrank, hdevice, hthere, hprefect, habsent, hfree⟩ := hmay
  have hstarts : ¬ (!(s.markStarted r c).isPrefect || (((s.markStarted r c).part (s.job r c).p).spareFill.isSome &&
      !((s.markStarted r c).part (s.job r c).p).fillGoesOn (s.job r c)) ||
      !(s.markStarted r c).form.absent.contains (((s.markStarted r c).part (s.job r c).p).ranks.getD ((s.job r c).arg 0) 0)) = true := by
    rw [hprefect, habsent]
    rcases hfree with hfree | hfree <;> simp [hfree]
  show execSpareFill r t good rec arrived s = _
  rw [execSpareFill, hfind]
  refine congrArg Host.Outcome.next ((runOrGoOn_of_not_running hfind hnot).trans (runCmd_of_rules_met h ?inline (Nat.zero_le _) rfl ?work))
  case inline =>
    exact (if_neg (Nat.not_le.mpr hrank)).trans (if_neg (not_or.mpr ⟨Nat.not_le.mpr hdevice, ne_true_of_eq_false hthere⟩))
  case work =>
    refine (if_neg hstarts).trans ?_
    simp only [State.fillFor, State.fillStarted, apply_ite (fun u : State => u.fillOn rec arrived (s.job r c))]
    rfl

/-- SPARE_FILL of a spare that does not fit ends with FORM_MISMATCH. -/
theorem spareFill_completes_of_misfit (hgood : good = false) :
    Completes (.spareFill r t good rec arrived) s r c (s.markStarted r c) { status := stFormMismatch } := by
  intro _
  have hturned : State.fillFor good rec arrived (s.markStarted r c) (s.job r c) = .fail { status := stFormMismatch } := if_pos (by simp [hgood])
  rw [exec_spareFill_of_mayFill h hfind hnot hmay, runCmd_fail h rfl (Nat.zero_le _) rfl hturned]

section
variable {u : State} (hgood : good = true)
  (hlink : (s.job r c).arg 1 = (s.markStarted r c).self ∨ ((s.markStarted r c).portTo ((s.job r c).arg 1)).isSome = true)
include hgood hlink

/-- SPARE_FILL ends with its last page. -/
theorem spareFill_completes_of_done
    (hdone : ((s.markStarted r c).fillStarted (s.job r c)).fillOn rec arrived (s.job r c) = .done u {}) :
    Completes (.spareFill r t good rec arrived) s r c u {} :=
  completes_of_no_rules (exec_spareFill_of_mayFill h hfind hnot hmay) h ((fillFor_of_fits hgood hlink).trans hdone)

/-- SPARE_FILL whose pages have not all come waits. -/
theorem exec_spareFill_of_later
    (hlater : ((s.markStarted r c).fillStarted (s.job r c)).fillOn rec arrived (s.job r c) = .later u) :
    exec (.spareFill r t good rec arrived) s = .next (u.modRing r fun g =>
      { g with inflight := g.inflight.map fun x => if x.idx == c.idx then { x with running := true } else x }).settleRings := by
  rw [exec_spareFill_of_mayFill h hfind hnot hmay,
    runCmd_later h rfl (Nat.zero_le _) rfl ((fillFor_of_fits hgood hlink).trans hlater)]

end

end

/-! ### Re-sharding (R335) -/

/-- The ranks of a plan's payload (R335). -/
def planRanks (j : Job) : List Nat := readList (j.pay.drop 64) (List.replicate (j.arg 1) 2)

/-- The moves of a plan into this device (R335). -/
def State.movesHere (s : State) (j : Job) : List ShardMove := (planMoves j).filter fun m => (planRanks j).getD m.dst 0 == s.self

/-- The state in which a plan's layout epoch has begun (R300, R335). -/
def State.epochRaised (s : State) (p : Nat) : State := s.modPart p fun part => { part with layoutEpoch := (part.layoutEpoch + 1) % 2 ^ 32 }

/-- The state in which a plan's epoch has begun and its moves and ranks have been taken, with base satchels due at the next boundary (R335). -/
def State.resharded (s : State) (j : Job) (data : SMap (SMap HbmLine)) : State :=
  (((s.epochRaised j.p).takeMoves j.p (s.movesHere j) data).modPart j.p fun part => { part with
    ranks := planRanks j, movesDone := planMoves j, satchel := { part.satchel with dueNext := true, baseNext := true } }).placeBuddy j.p

/-- What RESHARD_RUN asks of its plan: the Prefect has it, for the present layout epoch and the job's image, and every page that moves here is allocated
(R335). -/
structure State.MayReshard (s : State) (j : Job) : Prop where
  plan : (s.part j.p).badPlan j = none
  prefect : s.isPrefect = true
  epoch : j.arg 0 = (s.part j.p).layoutEpoch
  digest : leNat (j.pay.take 64) = (s.part j.p).digest.toNat
  pages : ∀ m ∈ s.movesHere j, ∀ pg ∈ rangeOf m.base m.len, ((s.part j.p).allocOf pg).isSome = true

section
variable {data : SMap (SMap HbmLine)} (h : s.starts r t 0x0606 c = true)
  (hpay : movesAt ((s.job r c).arg 1) + 24 * (s.job r c).arg 2 ≤ c.payLen) (hmay : (s.markStarted r c).MayReshard (s.job r c))
include h hpay hmay

/-- RESHARD_RUN of a plan that may run raises the layout epoch; it takes its moves and ranks where every source and destination has held out. -/
theorem exec_reshardRun_of_mayReshard (ok : Bool) :
    exec (.reshardRun r t ok data) s = .next (s.runCmd r t 0x0606 {} fun u j =>
      if !ok then .done (u.epochRaised j.p) { status := stFenced } else .done (u.resharded j data) {}) := by
  obtain ⟨hplan, hprefect, hepoch, hdigest, hpages⟩ := hmay
  have hframes : ((((s.markStarted r c).movesHere (s.job r c)).flatMap fun m => rangeOf m.base m.len).filter fun pg =>
      (((s.markStarted r c).part (s.job r c).p).allocOf pg).isNone).length = 0 := by
    refine List.length_eq_zero_iff.mpr (List.filter_eq_nil_iff.mpr fun pg hpg => ?_)
    obtain ⟨m, hm, hpg⟩ := List.mem_flatMap.mp hpg
    simpa [Option.isSome_iff_ne_none] using hpages m hm pg hpg
  refine congrArg Host.Outcome.next (runCmd_of_rules_met h rfl hpay hplan ?_)
  exact (if_neg (by simp [hprefect])).trans ((if_neg (not_not.mpr hepoch)).trans ((if_neg (not_not.mpr hdigest)).trans
    (if_neg (Nat.not_lt.mpr hframes.le))))

end

/-! ### Forms and links (R280, R295, R309, R315) -/

/-- FORM_SETUP enters the Form where its payload is sound, its straps agree and every link of its map has come up. -/
theorem formSetup_completes {links : SMap Nat} (h : s.starts r t 0x0701 c = true) (hpos : (s.job r c).arg 1 ≤ 63) (hrole : (s.job r c).arg 2 ≤ 3)
    (hlock : (s.job r c).arg 3 ≤ 63) (halt : (s.job r c).arg 4 ≤ 63) (hpay : 256 + 8 * (s.job r c).arg 5 ≤ c.payLen)
    (hsetup : badSetup (s.job r c).pay ((s.job r c).arg 5) = none)
    (hpeer : (s.job r c).arg 2 = 0 ∨ (s.job r c).arg 2 = 2 → (peerOf (linkMap (s.job r c).pay) ((s.job r c).arg 3)).isSome = true)
    (hstraps : (s.markStarted r c).strapsDiffer ((s.job r c).arg 0) ((s.job r c).arg 1) = false)
    (hlinks : ∀ e ∈ linkMap (s.job r c).pay, e.2.valid = true →
      (s.markStarted r c).canTrain e.1 = true ∧ links.any (fun x => x.1 == e.1) = true) :
    let j := s.job r c
    Completes (.formSetup r t links true) s r c ((s.markStarted r c).formSetup
      (formOf (j.arg 0) (j.arg 1) (j.arg 2) (j.arg 3) (j.arg 4) (linkMap j.pay) (bellRoutes j.pay (j.arg 5))) (j.arg 3) (j.arg 4) links) {} := by
  refine completes_of_done rfl h ?inline hpay ?pay ?work
  case inline =>
    exact (if_neg (Nat.not_lt.mpr hpos)).trans ((if_neg (Nat.not_lt.mpr hrole)).trans ((if_neg (Nat.not_lt.mpr hlock)).trans
      (if_neg (Nat.not_lt.mpr halt))))
  case pay =>
    have hled : ¬ (((s.job r c).arg 2 = 0 ∨ (s.job r c).arg 2 = 2) ∧
        (peerOf (linkMap (s.job r c).pay) ((s.job r c).arg 3)).isNone = true) := fun hno => absurd (hpeer hno.1) (by simpa using hno.2)
    simp only [hsetup, hled, if_false]
  case work =>
    have hup : ((linkMap (s.job r c).pay).any fun e =>
        e.2.valid && !((s.markStarted r c).canTrain e.1 && links.any fun x => x.1 == e.1)) = false := by
      refine List.any_eq_false.mpr fun e he => ?_
      cases hv : e.2.valid with
      | false => simp
      | true => simp [hlinks e he hv]
    exact (if_neg (ne_true_of_eq_false hstraps)).trans ((if_neg (ne_true_of_eq_false hup)).trans (if_neg (by simp)))

/-- The ports that LINK_MEASURE names. -/
def Job.portsNamed (j : Job) : List Nat := (upFrom 0 64).filter fun l => bit (j.arg 0) l

/-- The state in which the cartridges of the ports that LINK_MEASURE names are lit again where they have cooled (log entry 33). -/
def State.relit (s : State) (j : Job) : State :=
  { s with care := { s.care with lasersOff := s.care.lasersOff.filter fun k =>
    !(j.portsNamed.any fun l => l / 4 == k) || decide (600 ≤ tget 0 s.care.latest (288 + k)) } }

/-- LINK_MEASURE measures the ports named and brings them up, where no running job uses one and each has trained. -/
theorem linkMeasure_completes {links : List (Nat × Nat × Nat)} (h : s.starts r t 0x0703 c = true)
    (hquiet : ∀ l ∈ (s.job r c).portsNamed, ((s.markStarted r c).part ((s.markStarted r c).partOfPort l)).usesPort l = true →
      ((s.markStarted r c).part ((s.markStarted r c).partOfPort l)).job ≠ .running)
    (htrained : ∀ l ∈ (s.job r c).portsNamed, ((s.markStarted r c).relit (s.job r c)).canTrain l = true ∧
      links.any (fun x => x.1 == l) = true) :
    Completes (.linkMeasure r t links) s r c ((s.job r c).portsNamed.foldl (fun s l => match links.find? fun x => x.1 == l with
      | some (_, m, lanes) => (s.measurePort l m).portUp l (lanes % 16)
      | none => s) ((s.markStarted r c).relit (s.job r c))) {} := by
  have hfree : ((s.job r c).portsNamed.any fun l => ((s.markStarted r c).part ((s.markStarted r c).partOfPort l)).usesPort l &&
      ((s.markStarted r c).part ((s.markStarted r c).partOfPort l)).job == .running) = false := by
    refine List.any_eq_false.mpr fun l hl => ?_
    simpa using hquiet l hl
  have hup : ((s.job r c).portsNamed.any fun l => !(((s.markStarted r c).relit (s.job r c)).canTrain l && links.any fun x => x.1 == l)) = false := by
    refine List.any_eq_false.mpr fun l hl => ?_
    simp [htrained l hl]
  exact completes_of_no_rules rfl h ((if_neg (ne_true_of_eq_false hfree)).trans (if_neg (ne_true_of_eq_false hup)))

/-- ROLE_SET of a device in the own Form, or of any for a Deputy Head, names the next Prefect, the Deputy or the Deputy Head (log entry 34). -/
theorem roleSet_completes (h : s.starts r t 0x0705 c = true) (hdevice : (s.job r c).arg 0 < 2 ^ 14) (hset : (s.markStarted r c).form.set = true)
    (hown : (s.job r c).arg 1 ≠ 3 → (s.job r c).arg 0 / 64 = (s.markStarted r c).form.form) :
    let s0 := s.markStarted r c
    let j := s.job r c
    (j.arg 1 = 1 → Completes (.roleSet r t) s r c { s0 with form := { s0.form with handover := some (j.arg 0) } } {}) ∧
    (j.arg 1 = 2 → Completes (.roleSet r t) s r c { s0 with form := { s0.form with
      deputy := some (j.arg 0), role := if j.arg 0 = s0.self then 2 else if s0.form.role = 2 then 0 else s0.form.role } } {}) ∧
    (j.arg 1 = 3 → Completes (.roleSet r t) s r c { s0 with form := { s0.form with deputyHead := some (j.arg 0) } } {}) := by
  have hrules : (s.job r c).arg 1 ≠ 0 → (s.job r c).arg 1 ≤ 3 →
      (if 2 ^ 14 ≤ (s.job r c).arg 0 then some 32 else if (s.job r c).arg 1 = 0 ∨ 3 < (s.job r c).arg 1 then some 34 else none) = none :=
    fun hsome hmax => (if_neg (Nat.not_le.mpr hdevice)).trans (if_neg (not_or.mpr ⟨hsome, Nat.not_lt.mpr hmax⟩))
  have hmember : ¬ (!(s.markStarted r c).form.set ||
      ((s.job r c).arg 1 != 3 && (s.job r c).arg 0 / 64 != (s.markStarted r c).form.form)) = true := by simpa [hset] using hown
  refine ⟨fun hprefect => ?_, fun hdeputy => ?_, fun hhead => ?_⟩
  · refine completes_of_done rfl h (hrules ?_ ?_) (Nat.zero_le _) rfl ((if_neg hmember).trans (if_pos hprefect)) <;> omega
  · refine completes_of_done rfl h (hrules ?_ ?_) (Nat.zero_le _) rfl ((if_neg hmember).trans ((if_neg ?_).trans (if_pos hdeputy))) <;> omega
  · refine completes_of_done rfl h (hrules ?_ ?_) (Nat.zero_le _) rfl ((if_neg hmember).trans ((if_neg ?_).trans (if_neg ?_))) <;> omega

section
variable (h : s.starts r t 0x0706 c = true) (hset : (s.markStarted r c).form.set = true)
include h hset

/-- FORM_LEAVE of the device itself takes its ports down and clears its Form. -/
theorem formLeave_completes_of_self (hself : (s.job r c).arg 0 = (s.markStarted r c).self) {s1 : State}
    (hdown : (upFrom 0 64).foldl (fun s l => s.portDown l) (s.markStarted r c) = s1) :
    Completes (.formLeave r t) s r c { s1 with form := { noteWindow := s1.form.noteWindow }, beat := { errors := s1.beat.errors } } {} := by
  refine completes_of_done rfl h (if_pos ⟨hset, .inl hself⟩) (Nat.zero_le _) rfl ?_
  dsimp only
  rw [hdown]
  exact if_pos hself

/-- FORM_LEAVE of a member at the Prefect declares it absent. -/
theorem formLeave_completes_of_member (hother : (s.job r c).arg 0 ≠ (s.markStarted r c).self)
    (hmember : (s.job r c).arg 0 ∈ (s.markStarted r c).members) (hprefect : (s.markStarted r c).isPrefect = true) :
    Completes (.formLeave r t) s r c ((s.markStarted r c).declareAbsent ((s.job r c).arg 0)) {} :=
  completes_of_done rfl h (if_pos ⟨hset, .inr hmember⟩) (Nat.zero_le _) rfl ((if_neg hother).trans (if_pos hprefect))

end

end

/-- Settles O53, one command at a time. -/
theorem formAndSatchelCommandsTakeEffect : Obligations.FormAndSatchelCommandsTakeEffect := by
  unfold Obligations.FormAndSatchelCommandsTakeEffect
  intro s r t c s0 j part
  refine ⟨?satchelConfig, satchelTake_completes, fun l h => ⟨satchelRestore_completes_of_own h, ?satchelRestore⟩, ?spareFill, ?reshardRun,
    fun links => formSetup_completes, fun links h hquiet => linkMeasure_completes h hquiet, roleSet_completes,
    fun h hset => ⟨fun hself => formLeave_completes_of_self h hset hself rfl, formLeave_completes_of_member h hset⟩⟩
  case satchelConfig =>
    exact fun h hinterval hbell hbuddy halone hbackend hattached hspares hsome hmax hstate hpay hbases hquota =>
      satchelConfig_completes h rfl ⟨hinterval, hbell, hbuddy, halone, hbackend, hattached, hspares, hsome, hmax, hstate⟩ hpay hbases rfl hquota
  case satchelRestore =>
    rintro src rest htarget rfl hpages hdigest hlevel hquotas
    have hstep : ∀ k, part.targetStep (j.arg 0) = some k → k = src.record.step := by
      rcases htarget with ⟨htarget, -⟩ | ⟨htarget, hstep⟩ | ⟨htarget, hstep⟩
      · simp [Part.targetStep, htarget]
      · simpa [Part.targetStep, htarget] using hstep
      · simpa [Part.targetStep, htarget] using hstep
    have hmax : j.arg 0 ≤ 2 := by rcases htarget with htarget | htarget | htarget <;> simp [htarget.1]
    have hown : j.arg 0 = 0 → s0.ownStateHolds j.p = false := fun hzero => by simpa [hzero] using htarget
    exact satchelRestore_completes_of_source h hmax hown ⟨hpages, hstep, hdigest, hlevel, hquotas⟩
  case spareFill =>
    intro good rec arrived s1 u h hfind hnot hrank hdevice hthere hprefect habsent hfill
    obtain ⟨hfree, rfl⟩ : (part.spareFill = none ∨ part.fillGoesOn j = true) ∧ s1 = s0.fillStarted j := by
      rcases hfill with ⟨hnone, hs1⟩ | ⟨⟨x, hrank⟩, hdev, hs1⟩
      · exact ⟨.inl hnone, hs1.trans (fillStarted_of_none hnone).symm⟩
      · have hgoes := fillGoesOn_of_same hrank hdev
        exact ⟨.inr hgoes, hs1.trans (if_pos hgoes).symm⟩
    have hmay : s0.MayFill j := ⟨hrank, hdevice, hthere, hprefect, habsent, hfree⟩
    exact ⟨spareFill_completes_of_misfit h hfind hnot hmay, fun hgood hlink =>
      ⟨spareFill_completes_of_done h hfind hnot hmay hgood hlink, exec_spareFill_of_later h hfind hnot hmay hgood hlink⟩⟩
  case reshardRun =>
    intro data h hpay hplan hprefect hepoch hdigest ranks mine hpages
    have hmay : s0.MayReshard j := ⟨hplan, hprefect, hepoch, hdigest, hpages⟩
    exact ⟨completes_of_no_rules (exec_reshardRun_of_mayReshard h hpay hmay true) h rfl,
      completes_of_no_rules (exec_reshardRun_of_mayReshard h hpay hmay false) h rfl⟩

end Sys2Proof.Machine
end

section
/-! PROOFS. The rings: doorbells, enabling and disabling, pending and final completions, and the end of a holdoff (R349, R363, R365, R366, R370, R378;
log entries 16 and 60). -/

namespace Sys2Proof.Machine

open Sys2Proof

/-! ### Doorbells (R365, R366, R378) -/

/-- A read of descriptors that does not fail brings as many as were asked for. -/
theorem length_readDescs {size since : Nat} : ∀ {n idx : Nat} {descs : List (Option (BitVec 512) × Dma)},
    (readDescs size since n idx descs).2 = false → (readDescs size since n idx descs).1.length = n
  | 0, _, _, _ => rfl
  | _ + 1, _, (some _, _) :: _, h => congrArg (· + 1) (length_readDescs h)

section
variable {s : State} {f r k idx : Nat} {descs : List (Option (BitVec 512) × Dma)}

/-- The tail of an enabled command ring without error moves to an index within the ring, and the commands read join those in flight. -/
theorem State.sqTailTo_of_read (hcmd : isCmdRing k = true) (henable : (s.ring k).enable = true) (herror : (s.ring k).error = false)
    (hidx : idx < (s.ring k).size) {cmds : List Cmd}
    (hread : readDescs (s.ring k).size s.tick ((idx + (s.ring k).size - (s.ring k).sqTail) % (s.ring k).size) (s.ring k).sqTail descs = (cmds, false)) :
    s.sqTailTo f k idx descs =
      ({ s.setRing k { s.ring k with sqTail := idx, inflight := (s.ring k).inflight ++ cmds, error := false } with
          power := { s.power with pcieTouched := true } } : State).settleRings := by
  simp [State.sqTailTo, hcmd, henable, herror, hread, Nat.not_le.mpr hidx]

theorem State.sqTailTo_of_beyond (hidx : (s.ring k).size ≤ idx) : s.sqTailTo f k idx descs = s :=
  if_pos (by simp [hidx])

/-- A head moves to an index within the ring, where the doorbell is of the ring's kind. -/
theorem State.headTo_of_index {cmd : Bool} (hkind : isCmdRing k = cmd) (hidx : idx < (s.ring k).size) :
    s.headTo k idx cmd = s.setRing k { s.ring k with cqHead := idx } :=
  if_neg (by simp [hkind, Nat.not_le.mpr hidx])

theorem State.headTo_of_beyond {cmd : Bool} (hidx : (s.ring k).size ≤ idx) : s.headTo k idx cmd = s :=
  if_pos (by simp [hidx])

section
variable (hring : s.ringOf f r = some k)
include hring

theorem exec_sqTailDoorbell_of_ring : exec (.sqTailDoorbell f r idx descs) s = .next (s.sqTailTo f k idx descs) := by
  show execSqTailDoorbell f r idx descs s = _
  simp only [execSqTailDoorbell, hring]

theorem exec_cqHeadDoorbell_of_ring : exec (.cqHeadDoorbell f r idx) s = .next (s.headTo k idx true) := by
  show execCqHeadDoorbell f r idx s = _
  simp only [execCqHeadDoorbell, hring]

theorem exec_eventHeadDoorbell_of_ring : exec (.eventHeadDoorbell f r idx) s = .next (s.headTo k idx false) := by
  show execEventHeadDoorbell f r idx s = _
  simp only [execEventHeadDoorbell, hring]

end

end

/-! ### Enabling and disabling (R363) -/

/-- ENABLE 1 starts a disabled ring of a size that it may have. -/
theorem Ring.config_of_enable {g : Ring} {v : Nat} (hbit : bit v 4 = true) (hoff : g.enable = false) (hmin : 4 ≤ bits v 0 4) (hmax : bits v 0 4 ≤ 12) :
    g.config v =
      { g with sizeLog2 := bits v 0 4, enable := true, sqHead := 0, cqTail := 0, sqTail := 0, cqHead := 0, phase := true, error := false } := by
  simp [Ring.config, hbit, hoff, Nat.not_lt.mpr hmin, Nat.not_lt.mpr hmax]

/-- ENABLE 0 stops a ring of which no command has started. -/
theorem Ring.config_of_disable {g : Ring} {v : Nat} (hbit : bit v 4 = false) (hon : g.enable = true) (hnone : ∀ c ∈ g.inflight, c.started = false) :
    g.config v = { g with enable := false, inflight := [] } := by
  have hany : (g.inflight.any fun c => c.started) = false := List.any_eq_false.mpr fun c hc => ne_true_of_eq_false (hnone c hc)
  simp only [Ring.config, hbit, hon, hany, Bool.false_eq_true, if_true, if_false]

section
variable {s : State} {f k : Nat} {v : W32} (hring : s.ringOf f (s.fn f).ringSel = some k)
include hring

theorem State.ringConfig_of_ring : s.ringConfig f v = s.setRing k ((s.ring k).config v.toNat) := by
  simp only [State.ringConfig, hring, State.modRing_eq]

theorem exec_ringEnable_of_bit (hbit : bit v.toNat 4 = true) : exec (.ringEnable f v) s = .next (s.setRing k ((s.ring k).config v.toNat)) := by
  show execRingEnable f v s = _
  simp only [execRingEnable, hbit, if_true, State.ringConfig_of_ring hring]

theorem exec_ringDisable_of_bit (hbit : bit v.toNat 4 = false) : exec (.ringDisable f v) s = .next (s.setRing k ((s.ring k).config v.toNat)) := by
  show execRingDisable f v s = _
  simp only [execRingDisable, hbit, Bool.false_eq_true, if_false, State.ringConfig_of_ring hring]

end

/-! ### Completions (R366, R370) -/

/-- PENDING is queued for a command that has waited 100 ms for its final completion, where it has not been before. -/
theorem exec_pendingTimeout_of_due {s : State} {k t : Nat} {c : Cmd} (hfind : (s.ring k).find t = some c) (hk : k ≠ i3cRing)
    (hready : s.power.fwReady = true) (honce : c.pendingSent = false) (hdue : c.since + 2500000 ≤ s.tick) :
    exec (.pendingTimeout k t) s = .next ((s.queueCompletion k c { status := stPending }).modRing k fun g =>
      { g with inflight := g.inflight.map fun x => if x.idx == c.idx then { x with pendingSent := true } else x }) := by
  show execPendingTimeout k t s = _
  simp only [execPendingTimeout, hfind, hk, hready, honce, Nat.not_lt.mpr hdue, Bool.not_true, decide_false, Bool.or_self, Bool.false_eq_true,
    if_false]

theorem Ring.advance_cqTail (g : Ring) : g.advance.cqTail = if g.cqTail + 1 < g.size then g.cqTail + 1 else 0 := by
  unfold Ring.advance
  split <;> rfl

/-- PHASE is inverted at the wrap. -/
theorem Ring.advance_phase (g : Ring) : g.advance.phase = if g.cqTail + 1 < g.size then g.phase else !g.phase := by
  unfold Ring.advance
  split <;> rfl

/-- A ring whose completion `c` has been written: its tail moved on, and the command of a final completion gone. -/
def Ring.posted (g : Ring) (c : Completion) (rest : List Completion) : Ring :=
  { g.advance with waiting := rest, inflight := if c.status = stPending then g.inflight else dropDone c.tag g.inflight }

/-- The state with the completion `c` of ring `k` written at its tail, before its cause is set. -/
def State.posted (s : State) (k : Nat) (c : Completion) (rest : List Completion) : State :=
  let g := s.ring k
  { (s.setRing k (g.posted c rest)).put (.completion k g.cqTail { c with phase := g.phase, sqHead := g.sqHead }) with
    power := { s.power with pcieTouched := true } }

theorem State.posted_out (s : State) (k : Nat) (c : Completion) (rest : List Completion) :
    (s.posted k c rest).out = s.out ++ [.completion k (s.ring k).cqTail { c with phase := (s.ring k).phase, sqHead := (s.ring k).sqHead }] := rfl

@[simp] theorem State.posted_ring_self (s : State) (k : Nat) (c : Completion) (rest : List Completion) :
    (s.posted k c rest).ring k = (s.ring k).posted c rest := s.setRing_ring_self k _

/-- The first completion that waits is written where an entry is free, and sets its ring's cause unless it is quiet. -/
theorem exec_completionPost_of_free {s : State} {k : Nat} {c : Completion} {rest : List Completion} (hwaiting : (s.ring k).waiting = c :: rest)
    (hk : k ≠ i3cRing) (henable : (s.ring k).enable = true) (hfree : (s.ring k).free = true) :
    exec (.completionPost k false) s = .next (if c.quiet then (s.posted k c rest).settleRings else
      ((s.posted k c rest).raise (s.ringVector k).1 (s.ringVector k).2).settleRings) := by
  show execCompletionPost k false s = _
  simp only [execCompletionPost, hwaiting, hk, henable, hfree, Bool.not_true, Bool.or_self, Bool.false_eq_true, if_false]
  rw [← apply_ite State.settleRings]
  rfl

/-! ### Holdoffs (R349) -/

/-- The end of a vector's holdoff sends what it held, unless the vector is masked. -/
theorem exec_holdoffExpiry_of_due {s : State} {f v t0 : Nat} (hheld : tget none (s.fn f).inHoldoff v = some t0)
    (hdue : t0 + (s.fn f).holdTicks ≤ s.tick) :
    let fn := s.fn f
    let s1 := s.setFn f { fn with inHoldoff := tset none fn.inHoldoff v none, heldCauses := fn.heldCauses &&& ~~~(BitVec.ofNat 16 (2 ^ v)) }
    exec (.holdoffExpiry f v) s = .next (if fn.heldCauses.getLsbD v && !fn.mask.getLsbD v then s1.message f v else s1) := by
  show execHoldoffExpiry f v s = _
  simp only [execHoldoffExpiry, hheld, Nat.not_lt.mpr hdue, if_false]

/-- Settles O45: each doorbell and each write of a ring by its kind, then the completions and the holdoff. -/
theorem ringsMoveCommandsAndCompletions : Obligations.RingsMoveCommandsAndCompletions := by
  unfold Obligations.RingsMoveCommandsAndCompletions
  intro s f r k hring g
  refine ⟨?tail, ?heads, ?beyond, ?config, fun t c => exec_pendingTimeout_of_due, ?post, fun v t0 => exec_holdoffExpiry_of_due⟩
  case tail =>
    intro idx descs hcmd henable herror hidx x hread
    refine ⟨?_, length_readDescs hread⟩
    rw [exec_sqTailDoorbell_of_ring hring, State.sqTailTo_of_read hcmd henable herror hidx (Prod.ext rfl hread)]
  case heads =>
    refine fun idx hidx => ⟨fun hkind => ?_, fun hkind => ?_⟩
    · rw [exec_cqHeadDoorbell_of_ring hring, State.headTo_of_index hkind hidx]
    · rw [exec_eventHeadDoorbell_of_ring hring, State.headTo_of_index hkind hidx]
  case beyond =>
    refine fun idx descs hidx => ⟨?_, ?_⟩
    · rw [exec_sqTailDoorbell_of_ring hring, State.sqTailTo_of_beyond hidx]
    · rw [exec_cqHeadDoorbell_of_ring hring, State.headTo_of_beyond hidx]
  case config =>
    rintro v rfl
    refine ⟨fun hbit hoff hmin hmax => ?_, fun hbit hon hnone => ?_⟩
    · rw [exec_ringEnable_of_bit hring hbit, Ring.config_of_enable hbit hoff hmin hmax]
    · rw [exec_ringDisable_of_bit hring hbit, Ring.config_of_disable hbit hon hnone]
  case post =>
    intro c rest hwaiting hk henable hfree
    refine ⟨s.posted k c rest, exec_completionPost_of_free hwaiting hk henable hfree, s.posted_out k c rest, ?_⟩
    rw [State.posted_ring_self]
    exact ⟨rfl, (s.ring k).advance_cqTail, (s.ring k).advance_phase, rfl⟩

end Sys2Proof.Machine
end

section
/-! PROOFS. Resets of the endpoint, its link, its virtual functions and BARs, IDE, TDISP and SPDM (R343, R344, R345, R402, R409; log entries 31 and 59). -/

namespace Sys2Proof.Machine

open Sys2Proof

/-! ### Resets and virtual functions (R343, R344) -/

/-- An FLR of an enabled VF acts on the partition that the VF drives. -/
theorem State.flr_of_vf {s : State} {f : Nat} (hf : 0 < f) (henabled : (s.fn f).enabled = true) (hpart : s.isPart (f - 1) = true) :
    s.flr f = (s.tdiError (f - 1)).resetPart (f - 1) := by
  simp only [State.flr, Nat.pos_iff_ne_zero.mp hf, henabled, hpart, Bool.and_self, if_true, if_false]

/-- A VF disabled. -/
def State.disableVf (s : State) (f : Nat) : State :=
  if (s.fn f).enabled then s.modFn f fun fn => { fn with enabled := false } else s

theorem State.disableVf_self (s : State) (f : Nat) : ((s.disableVf f).fn f).enabled = false := by
  unfold State.disableVf
  split
  · rw [State.modFn_eq, State.setFn_fn_self]
  · rename_i h
    exact eq_false_of_ne_true h

/-- A function that is disabled stays so. -/
theorem State.disableVf_keeps {s : State} {k : Nat} (f : Nat) (h : (s.fn k).enabled = false) : ((s.disableVf f).fn k).enabled = false := by
  by_cases hk : k = f
  · exact hk ▸ s.disableVf_self k
  · unfold State.disableVf
    split
    · rwa [State.modFn_eq, State.setFn_fn_ne _ _ _ _ hk]
    · exact h

/-- Disabled one after another, each of the functions named is disabled in the end. -/
theorem State.foldl_disableVf {k : Nat} {l : List Nat} (s : State) (hk : k ∈ l) : ((l.foldl State.disableVf s).fn k).enabled = false := by
  induction l generalizing s with
  | nil => exact absurd hk List.not_mem_nil
  | cons f l ih =>
    rcases List.mem_cons.mp hk with rfl | hmem
    · exact foldl_keeps (P := fun s : State => (s.fn k).enabled = false) (fun _ f => State.disableVf_keeps f) l _ (s.disableVf_self k)
    · exact ih _ hmem

/-- NUMVFS_CLEAR resets every function and leaves no VF enabled. -/
theorem exec_numvfsClear (s : State) : ∃ u : State, exec .numvfsClear s = .next u.settleRings ∧ u.power.numVfs = 0 ∧
    ∀ k, 1 ≤ k → k ≤ 8 → (u.fn k).enabled = false := by
  have hoff : ∀ k, 1 ≤ k → k ≤ 8 → (((upFrom 1 8).foldl State.disableVf s.flrAll).fn k).enabled = false := fun k hmin hmax =>
    State.foldl_disableVf s.flrAll (mem_upFrom.mpr ⟨hmin, Nat.lt_succ_of_le hmax⟩)
  unfold State.disableVf at hoff
  show ∃ u : State, execNumvfsClear s = .next u.settleRings ∧ _
  dsimp only [execNumvfsClear]
  -- A variable in place of the state that the resets leave keeps `rfl` from evaluating them.
  generalize List.foldl _ s.flrAll (upFrom 1 8) = v at hoff ⊢
  exact ⟨_, rfl, rfl, hoff⟩

/-- DL_DOWN resets every function and takes the link down. -/
theorem exec_dlDown (s : State) : ∃ u : State, exec .dlDown s = .next u.settleRings ∧ u.power.linkUp = false ∧ u.cores = s.flrAll.cores := by
  have hexec : exec .dlDown s = .next ({ s.flrAll with power := { s.flrAll.power with linkUp := false, l0p := false } } : State).settleRings := rfl
  generalize s.flrAll = v at hexec ⊢
  exact ⟨_, hexec, rfl, rfl⟩

theorem exec_dlUp_of_down {s : State} (hdown : s.power.linkUp = false) (hperst : s.power.perst = true) (hpwr : s.power.pwrOk = true) :
    exec .dlUp s = .next ((upFrom 0 9).foldl (fun s f => s.sendHeld f) { s with power := { s.power with linkUp := true } }) := by
  show execDlUp s = _
  simp only [execDlUp, hdown, hperst, hpwr, Bool.not_true, Bool.or_self, Bool.false_eq_true, if_false]

theorem exec_vfEnable_of_disabled {s : State} {f : Nat} (hmin : 1 ≤ f) (hmax : f ≤ 8) (hoff : (s.fn f).enabled = false) :
    exec (.vfEnable f) s =
      .next { s.setFn f { s.fn f with enabled := true } with power := { s.power with numVfs := max s.power.numVfs f } } := by
  have hvf : ¬ (f = 0 ∨ 8 < f) := by omega
  show execVfEnable f s = _
  simp [execVfEnable, hvf, hoff]

/-! ### BARs, IDE and TDISP (R345, R409) -/

section
variable {s : State} {f : Nat} (hlive : s.fnLive f = true)
include hlive

/-- The loss of IDE drops a function's streams. -/
theorem exec_ideFailure_live : ∃ u : State, exec (.ideFailure f) s = .next (if f = 0 then u else u.tdiError (f - 1)) ∧ (u.fn f).ide = [] := by
  refine ⟨s.setFn f { s.fn f with ide := [] }, ?_, by rw [State.setFn_fn_self]⟩
  show execIdeFailure f s = _
  simp [execIdeFailure, hlive]

theorem exec_barChange_live {b : Nat} (hmin : 36 ≤ b) (hmax : b ≤ 41) :
    exec (.barChange f b) s = .next ((if f = 0 then s else s.tdiError (f - 1)).modFn f fun fn => { fn with bar4Log2 := b }) := by
  show execBarChange f b s = _
  simp [execBarChange, hlive, hmin, hmax]

/-- A TDISP request that the table has for the TDI's state moves it, within a session of the VF or of PF0. -/
theorem exec_tdispRequest_live {req st : Nat} (hf : 0 < f) (hpart : s.isPart (f - 1) = true) (hsession : (s.fn f).spdm = 5 ∨ (s.fn 0).spdm = 5)
    (hnext : tdiNext (s.part (f - 1)).tdi req = some st) :
    exec (.tdispRequest f req) s = .next (s.setPart (f - 1) { s.part (f - 1) with tdi := st }) := by
  have hopen : ((s.fn f).spdm != 5 && (s.fn 0).spdm != 5) = false := by simpa [imp_iff_not_or] using hsession
  show execTdispRequest f req s = _
  simp [execTdispRequest, hlive, hpart, hopen, hnext, Nat.pos_iff_ne_zero.mp hf]

theorem exec_ideKmRequest_live {sid : Nat} (hsession : (s.fn f).spdm = 5) (hsid : sid ≤ 8) :
    exec (.ideKmRequest f sid) s = .next (s.setFn f { s.fn f with ide := addOnce (s.fn f).ide sid }) := by
  show execIdeKmRequest f sid s = _
  simp [execIdeKmRequest, hlive, hsession, Nat.not_lt.mpr hsid]

end

/-! ### SPDM (R402) -/

@[simp] theorem State.spdmAnswer_fn_self (s : State) (f st code : Nat) (bytes : List Byte) :
    (s.spdmAnswer f st code bytes).fn f = { s.fn f with spdm := st } := by
  simp [State.spdmAnswer]

section
variable {s : State} {f : Nat} (hlive : s.fnLive f = true) (hready : s.power.fwReady = true)
include hlive hready

section
variable {need code : Nat} {next : Nat → Nat} {bytes : List Byte}

/-- A request is answered in the state that it needs. -/
theorem State.spdm_of_reached (h : need ≤ (s.fn f).spdm) : s.spdm f need next code bytes = s.spdmAnswer f (next (s.fn f).spdm) code bytes := by
  simp [State.spdm, hlive, hready, Nat.not_lt.mpr h]

/-- Before it, a request is answered with an error. -/
theorem State.spdm_of_early (h : (s.fn f).spdm < need) : s.spdm f need next code bytes = s.put (.spdm f 0x7F []) := by
  simp [State.spdm, hlive, hready, h]

/-- The same of a command that is such a request and takes the exchange to the state `st`. -/
theorem exec_spdm_of_reached {cmd : Instr} {st : Nat} (hcmd : exec cmd s = .next (s.spdm f need next code bytes)) (h : need ≤ (s.fn f).spdm)
    (hst : next (s.fn f).spdm = st) : exec cmd s = .next (s.spdmAnswer f st code bytes) := by
  rw [hcmd, State.spdm_of_reached hlive hready h, hst]

end

/-- What a request of the negotiated exchange is answered: the digests, the certificates, the challenge, the measurements and the keys. -/
theorem exec_spdm_of_negotiated (h : 3 ≤ (s.fn f).spdm) :
    let st := (s.fn f).spdm
    exec (.getDigests f) s = .next (s.spdmAnswer f st 0x01 (leBytes 64 (Config.sha512 Config.certificates).toNat)) ∧
      exec (.getCertificate f) s = .next (s.spdmAnswer f st 0x02 Config.certificates) ∧
      (∀ n, exec (.challenge f n) s = .next (s.spdmAnswer f st 0x03 (Config.sign (n ++ s.measurements f n))) ∧
        exec (.getMeasurements f n) s = .next (s.spdmAnswer f st 0x60 (s.measurements f n))) ∧
      exec (.keyExchange f) s = .next (s.spdmAnswer f 4 0x64 []) :=
  ⟨exec_spdm_of_reached hlive hready rfl h rfl, exec_spdm_of_reached hlive hready rfl h rfl,
    fun _ => ⟨exec_spdm_of_reached hlive hready rfl h rfl, exec_spdm_of_reached hlive hready rfl h rfl⟩,
    exec_spdm_of_reached hlive hready rfl h rfl⟩

/-- FINISH establishes the session whose keys have been exchanged. -/
theorem exec_finish_of_exchanged (h : (s.fn f).spdm = 4) : ∃ u : State, exec (.finish f) s = .next u ∧ (u.fn f).spdm = 5 ∧ (u.fn f).spdmKeys = 0 := by
  refine ⟨_, rfl, ?_⟩
  rw [if_pos h, State.spdm_of_reached hlive hready h.ge]
  simp

/-- KEY_UPDATE in a session counts one more set of keys. -/
theorem exec_keyUpdate_of_session (h : (s.fn f).spdm = 5) :
    ∃ u : State, exec (.keyUpdate f) s = .next u ∧ (u.fn f).spdm = 5 ∧ (u.fn f).spdmKeys = (s.fn f).spdmKeys + 1 := by
  refine ⟨_, rfl, ?_⟩
  rw [if_pos (by simp [h, hlive, hready]), State.spdm_of_reached hlive hready h.ge]
  simp [h]

end

/-- Settles O48, one event at a time, and the SPDM requests by the state that each needs. -/
theorem endpointResetsAndSessions : Obligations.EndpointResetsAndSessions := by
  unfold Obligations.EndpointResetsAndSessions
  intro s f
  refine ⟨fun hf henabled hpart => ?flr, rfl, exec_dlDown s, exec_numvfsClear s, exec_dlUp_of_down, exec_vfEnable_of_disabled,
    fun hlive => ⟨exec_ideFailure_live hlive, fun b => exec_barChange_live hlive, fun req st => exec_tdispRequest_live hlive,
      fun sid => exec_ideKmRequest_live hlive, fun hready => ?spdm⟩⟩
  case flr => exact congrArg (fun u : State => Host.Outcome.next u.settleRings) (State.flr_of_vf hf henabled hpart)
  case spdm =>
    intro st
    refine ⟨?version, ?capabilities, ?algorithms, exec_spdm_of_negotiated hlive hready, exec_finish_of_exchanged hlive hready,
      fun hsession => ⟨?heartbeat, exec_keyUpdate_of_session hlive hready hsession, ?endSession⟩, ?early⟩
    case version => exact exec_spdm_of_reached hlive hready rfl (Nat.zero_le _) rfl
    case capabilities => exact fun h => exec_spdm_of_reached hlive hready rfl h rfl
    case algorithms => exact fun h => exec_spdm_of_reached hlive hready rfl h rfl
    case heartbeat => exact exec_spdm_of_reached hlive hready rfl hsession.ge hsession
    case endSession => exact exec_spdm_of_reached hlive hready rfl hsession.ge rfl
    case early => exact fun h => congrArg _ (State.spdm_of_early hlive hready h)

end Sys2Proof.Machine
end

section
/-! PROOFS. What every command may do to the fields of control, said once, and what follows of it: the queue, the legality of power, and the values that
have one writer (R338, R387, R391, R392, R396 to R398, R412, R433 to R447). -/

namespace Sys2Proof.Machine

open Sys2Proof

/-! ### Moves of the fields of control -/

/-- Start-up at step `n`, with SEAT_OUT at the level that R439 gives it there. -/
def Ctl.toStep (k : Ctl) (n : Nat) : Ctl := { k with stage := n, seatOut := k.phase == .run && ({ k with stage := n } : Ctl).past }

/-- Start-up of the run phase stands at step `n`. -/
def Ctl.AtStep (k : Ctl) (n : Nat) : Prop := k.phase = .run ∧ k.stage = n

/-- The fault phase (R422, R441). -/
def Ctl.faulted (k : Ctl) : Ctl := { k with mainOn := false, computeReady := false, phase := .fault, seatOut := false }

/-- The main regulators off (R442). -/
def Ctl.mainOff (k : Ctl) : Ctl := { k with mainOn := false, computeReady := false }

/-- Every regulator but the always-on domain's off (R434, R442). -/
def Ctl.unpowered (k : Ctl) : Ctl :=
  { k with phase := .off, stage := 0, fwReady := false, restartCause := 0, seatOut := false, mainOn := false, computeReady := false
           straps := 0, strapValid := false, recovery := false }

/-- The commands that may find a fatal device fault. -/
def findsFault : Instr → Bool
  | .telemetryWindowEnd .. | .phaseShed .. | .bootRomCheck .. | .repairRecordCheck .. | .mainRegulatorsUp .. => true
  | _ => false

/-- The commands that may take every regulator but the always-on domain's off. -/
def losesPower : Instr → Bool
  | .inputLoss | .overVoltage | .emergOff => true
  | _ => false

/-- The commands that may begin a start. -/
def beginsStart : Instr → Bool
  | .inputGood .. | .overVoltageClear => true
  | _ => false

/-- What a command may do to the fields of control: leave them, or move them as its own constructor says, from fields that meet its guard. -/
inductive CtlStep : Instr → Ctl → Ctl → Prop
  | keep {c k} : CtlStep c k k
  | fault {c k} (hc : findsFault c = true) : CtlStep c k k.faulted
  | powerLoss {c k} (hc : losesPower c = true) : CtlStep c k k.unpowered
  | start {c k} (hc : beginsStart c = true) : CtlStep c k { k.unpowered with tick := 0, sub := 0, phase := .strap, stage := 1 }
  | straps {k mv tick bits valid} (h : k.phase = .strap) :
      CtlStep (.strapPhaseEnd mv) k { k with tick := tick, straps := bits, strapValid := valid, phase := .run, stage := 3 }
  | bootRom {k ok} (h : k.AtStep 3) : CtlStep (.bootRomCheck ok) k (k.toStep 4)
  | bootRomRecovery {k ok} (h : k.AtStep 3) : CtlStep (.bootRomCheck ok) k { k.faulted with recovery := true }
  | firmware {k ok n} (h : k.AtStep 4) (hn : n = 4 ∨ n = 5) :
      CtlStep (.repairRecordCheck ok) k (({ k with boots := (k.boots + 1) % 2 ^ 32, fwReady := true } : Ctl).toStep n)
  | pwrEnRise {k} (h : k.AtStep 4) (hpast : k.past = true) : CtlStep .pwrEnRise k (k.toStep 5)
  | pwrEnFall {k} (h : k.phase = .run) (hs : 5 ≤ k.stage) : CtlStep .pwrEnFall k (k.mainOff.toStep 4)
  | regulators {k ok} (h : k.AtStep 5) : CtlStep (.mainRegulatorsUp ok) k (({ k with mainOn := true } : Ctl).toStep 6)
  | hbm {k failed} (h : k.AtStep 6) : CtlStep (.hbmTrainingDone failed) k (k.toStep 7)
  | selfTest {k fails attn cache} (h : k.AtStep 7) : CtlStep (.selfTestDone fails attn cache) k (k.toStep 8)
  | optics {k failed svn revoke} (h : k.AtStep 8) : CtlStep (.opticalCalibrationDone failed) k
      (({ k with svnMin := max k.svnMin svn, revoked := k.revoked ||| revoke, computeReady := true } : Ctl).toStep 9)
  | fwWatchdog {k} (h : k.fwReady = true) : CtlStep .fwWatchdogRestart k { k with fwReady := false, restartCause := 1 }
  | fwRestart {k} (hready : k.fwReady = false) (h : k.restartCause ≠ 0) : CtlStep .fwRestart k { k with fwReady := true, restartCause := 0 }
  | otherBank {k r t} (h : k.fwReady = true) : CtlStep (.fwActivate r t) k { k with recovery := false, fwReady := false, restartCause := 2 }
  | recover {k r t} (h : k.recovery = true) :
      CtlStep (.fwActivate r t) k { k with recovery := false, fwReady := false, phase := .run, stage := 3, restartCause := 0 }
  | level {k r t n} : CtlStep (.behaviourPin r t) k { k with level := n }
  | partitions {k r t n} : CtlStep (.partitionSet r t) k { k with count := n }
  | enrol {k r t m} : CtlStep (.roleAuthEnrol r t) k { k with creds := m }
  | revoke {k r t m} : CtlStep (.roleAuthRevoke r t) k { k with creds := m }
  | beat {k w n} : CtlStep (.beatEdge w) k { k with slot := n }

theorem CtlStep.ite {c : Instr} {k : Ctl} {p : Prop} [Decidable p] {a b : State} (ha : p → CtlStep c k a.ctl) (hb : ¬ p → CtlStep c k b.ctl) :
    CtlStep c k (if p then a else b).ctl := by
  split
  · exact ha ‹_›
  · exact hb ‹_›

/-- A state whose fields of control are those from which the command starts. -/
theorem CtlStep.of_eq {c : Instr} {k k' : Ctl} (h : k' = k) : CtlStep c k k' := h ▸ .keep

theorem State.atStep_iff {s : State} {n : Nat} : s.atStep n = true ↔ s.ctl.AtStep n := by
  simp [State.atStep, Ctl.AtStep, State.ctl]

/-- The fault phase is entered from every other phase. -/
theorem CtlStep.enterFault {c : Instr} (hc : findsFault c = true) (s : State) (cls : Nat) : CtlStep c s.ctl (s.enterFault cls).ctl := by
  rw [State.enterFault_ctl]
  split
  · exact .keep
  · exact .fault hc

/-! ### Ring commands (R372) -/

/-- A ring command leaves the fields of control, or it is one that may start and its work, at a state of the same fields, ends or goes on with the fields
that the whole command leaves. -/
theorem State.runCmd_ctl_cases (s : State) (r t op : Nat) (rules : CmdRules) (f : State → Job → CmdRes) (digest : Option (BitVec 512)) :
    (s.runCmd r t op rules f digest).ctl = s.ctl ∨
      ∃ u j v, (∃ c, s.startable r = some c) ∧ u.ctl = s.ctl ∧ ((∃ a, f u j = .done v a) ∨ f u j = .later v) ∧
        (s.runCmd r t op rules f digest).ctl = v.ctl := by
  unfold State.runCmd
  split
  · exact .inl rfl
  · rename_i c hc
    split
    · exact .inl rfl
    · extract_lets s0 c' cred fin
      have h0 : s0.ctl = s.ctl := State.markStarted_ctl ..
      have hfin : ∀ u a, (fin u a).ctl = u.ctl := fun u a =>
        (State.settleRings_ctl _).trans ((State.close_ctl ..).trans (State.auditCmd_ctl ..))
      clear_value s0 fin
      split
      · exact .inl ((hfin ..).trans h0)
      · rename_i j _
        split
        · exact .inl ((hfin ..).trans h0)
        · rename_i v hv
          exact .inr ⟨s0, j, v, ⟨c, hc⟩, h0, .inr hv, (State.settleRings_ctl _).trans (State.modRing_ctl ..)⟩
        · rename_i v a hv
          split
          · exact .inl ((hfin ..).trans h0)
          · exact .inr ⟨s0, j, v, ⟨c, hc⟩, h0, .inl ⟨a, hv⟩, hfin ..⟩

/-- A command that may start is served by firmware, or by boot ROM's recovery service (R397). -/
theorem State.fwReady_or_recovery_of_startable {s : State} {r : Nat} {c : Cmd} (h : s.startable r = some c) :
    s.ctl.fwReady = true ∨ s.ctl.recovery = true := by
  unfold State.startable at h
  dsimp only at h
  split at h
  · cases h
  · rw [Option.ite_none_right_eq_some] at h
    simp only [Bool.and_eq_true, State.serves, Bool.or_eq_true] at h
    obtain ⟨⟨⟨⟨-, hready | ⟨⟨hrec, -⟩, -⟩⟩, -⟩, -⟩, -⟩ := h
    · exact .inl hready
    · exact .inr hrec

/-- The same of a ring command whose work either ends with the fields of control that it starts with, or moves them as its constructor says. -/
theorem CtlStep.runCmd {c : Instr} {s : State} {r t op : Nat} {rules : CmdRules} {f : State → Job → CmdRes} {digest : Option (BitVec 512)}
    (h : s.ctl.fwReady = true ∨ s.ctl.recovery = true → ∀ u j v, u.ctl = s.ctl → (∃ a, f u j = .done v a) ∨ f u j = .later v → CtlStep c s.ctl v.ctl) :
    CtlStep c s.ctl (s.runCmd r t op rules f digest).ctl := by
  obtain heq | ⟨u, j, v, ⟨x, hx⟩, hu, hv, heq⟩ := s.runCmd_ctl_cases r t op rules f digest
  · exact .of_eq heq
  · rw [heq]
    exact h (State.fwReady_or_recovery_of_startable hx) u j v hu hv

/-- The same of a ROLE_AUTH command. -/
theorem CtlStep.roleAuth {c : Instr} {s : State} {r t type : Nat} {rules : CmdRules} {f : State → Job → CmdRes}
    (h : ∀ u j v, u.ctl = s.ctl → (∃ a, f u j = .done v a) ∨ f u j = .later v → CtlStep c s.ctl v.ctl) :
    CtlStep c s.ctl (s.roleAuth r t type rules f).ctl := by
  unfold State.roleAuth
  have hd : (s.dropChallenge r).ctl = s.ctl := State.dropChallenge_ctl ..
  refine .ite (fun _ => .keep) fun _ => ?_
  rw [← hd]
  refine CtlStep.runCmd fun _ u j v hu hv => ?_
  rw [hd]
  split at hv
  · rcases hv with ⟨a, ha⟩ | ha <;> cases ha
  · exact h u j v (hu.trans hd) hv

/-! ### Each command -/

/-- An outcome whose next state, where it has one, has fields of control that the command may leave. -/
structure MovesCtl (c : Instr) (s : State) (r : Host.Outcome State Fault Refusal) : Prop where
  next : ∀ t, r = .next t → CtlStep c s.ctl t.ctl

theorem MovesCtl.of_next {c : Instr} {s t : State} (h : CtlStep c s.ctl t.ctl) : MovesCtl c s (.next t) :=
  ⟨fun _ ht => Host.Outcome.next.inj ht ▸ h⟩

theorem MovesCtl.of_keepsO {c : Instr} {s : State} {r : Host.Outcome State Fault Refusal} (h : keepsO s.ctl r) : MovesCtl c s r :=
  ⟨fun _ ht => .of_eq (ctl_of_next h ht)⟩

section
variable (s : State)

theorem exec_telemetryWindowEnd_moves (temps : List Int) (powers : List Nat) :
    MovesCtl (.telemetryWindowEnd temps powers) s (execTelemetryWindowEnd temps powers s) := by
  refine .of_next (.ite (fun _ => .keep) fun _ => ?_)
  extract_lets s1 s2 care s3 s4
  have h2 : s2.ctl = s.ctl := (foldl_ctl (fun _ _ => State.keepWindow_ctl ..) _ _).trans (State.readSensors_ctl ..)
  have h4 : s4.ctl = s.ctl := (State.modDuty_ctl ..).trans h2
  clear_value s4
  rw [← h4]
  exact .ite (fun _ => .keep) fun _ => .ite (fun _ => .enterFault rfl ..) fun _ => .of_eq (by simp)

theorem exec_phaseShed_moves (rail : Nat) : MovesCtl (.phaseShed rail) s (execPhaseShed rail s) :=
  .of_next (.ite (fun _ => .keep) fun _ => .ite (fun _ => .keep) fun _ => .enterFault rfl ..)

theorem exec_fwWatchdogRestart_moves : MovesCtl .fwWatchdogRestart s (execFwWatchdogRestart s) := by
  refine .of_next (.ite (fun h => ?_) fun _ => .keep)
  rw [State.report_ctl, State.fwDown_ctl]
  exact .fwWatchdog h

theorem exec_fwRestart_moves : MovesCtl .fwRestart s (execFwRestart s) := by
  refine .of_next (.ite (fun _ => .keep) fun h => ?_)
  extract_lets cause power s1 head s2 s3 s4
  have h3 : s3.ctl = s1.ctl := (State.event_ctl ..).trans (State.audit_ctl ..)
  have h4 : s4.ctl = s3.ctl := foldl_ctl (fun _ _ => State.partEvent_ctl ..) _ _
  rw [State.settleRings_ctl, State.releaseHolds_ctl, h4, h3]
  simp only [Bool.or_eq_true, beq_iff_eq, not_or, Bool.not_eq_true] at h
  exact .fwRestart h.1 h.2

theorem exec_behaviourPin_moves (r t : Nat) : MovesCtl (.behaviourPin r t) s (execBehaviourPin r t s) := by
  refine .of_next (CtlStep.runCmd fun _ u j v hu hv => ?_)
  obtain ⟨a, ha⟩ | ha := hv <;> cases ha
  rw [← hu]
  exact .level

theorem exec_partitionSet_moves (r t : Nat) : MovesCtl (.partitionSet r t) s (execPartitionSet r t s) := by
  refine .of_next (CtlStep.runCmd fun _ u j v hu hv => ?_)
  split at hv <;> obtain ⟨a, ha⟩ | ha := hv <;> cases ha
  rw [State.partitionSet_ctl, ← hu]
  exact .partitions

theorem exec_roleAuthEnrol_moves (r t : Nat) : MovesCtl (.roleAuthEnrol r t) s (execRoleAuthEnrol r t s) := by
  refine .of_next (CtlStep.roleAuth fun u j v hu hv => ?_)
  dsimp only at hv
  split at hv <;> obtain ⟨a, ha⟩ | ha := hv <;> cases ha
  rw [← hu]
  exact .ite (fun _ => by rw [State.modRing_ctl]; exact .enrol) fun _ => .enrol

theorem exec_roleAuthRevoke_moves (r t : Nat) : MovesCtl (.roleAuthRevoke r t) s (execRoleAuthRevoke r t s) := by
  refine .of_next (CtlStep.roleAuth fun u j v hu hv => ?_)
  split at hv
  · obtain ⟨a, ha⟩ | ha := hv <;> cases ha
  · split at hv <;> obtain ⟨a, ha⟩ | ha := hv <;> cases ha
    rw [← hu]
    exact .revoke

/-- The restart into the other bank: of firmware that serves, or from boot ROM's recovery. -/
theorem CtlStep.intoBank {r t : Nat} {u : State} (h : u.ctl.fwReady = true ∨ u.ctl.recovery = true) : CtlStep (.fwActivate r t) u.ctl u.intoBank.ctl := by
  rw [State.intoBank_ctl]
  split
  · exact .recover ‹_›
  · exact .otherBank (h.resolve_right ‹_›)

theorem exec_fwActivate_moves (r t : Nat) : MovesCtl (.fwActivate r t) s (execFwActivate r t s) := by
  refine .of_next (CtlStep.runCmd fun h u j v hu hv => ?_)
  dsimp only at hv
  split at hv <;> obtain ⟨a, ha⟩ | ha := hv <;> cases ha
  have hw : ∀ w : State, w.ctl = s.ctl → CtlStep (.fwActivate r t) s.ctl w.intoBank.ctl := fun w hw => by
    rw [← hw] at h ⊢
    exact .intoBank h
  exact hw _ ((ctl_ite rfl (by simp)).trans ((State.auditCmd_ctl ..).trans hu))

/-- A start begun. -/
theorem CtlStep.beginStart {c : Instr} (hc : beginsStart c = true) (a b : Bool) : CtlStep c s.ctl (s.beginStart a b).ctl := by
  rw [State.beginStart_ctl, State.powerLoss_ctl]
  exact .start hc

theorem exec_inputGood_moves (second : Bool) : MovesCtl (.inputGood second) s (execInputGood second s) :=
  .of_next (.ite (fun _ => .keep) fun _ => .ite (fun _ => .keep) fun _ => .beginStart s rfl ..)

theorem exec_overVoltageClear_moves : MovesCtl .overVoltageClear s (execOverVoltageClear s) :=
  .of_next (.ite (fun _ => .keep) fun _ => .ite (fun _ => .keep) fun _ => .beginStart s rfl ..)

/-- A loss of power, with the levels that the pins then have. -/
theorem CtlStep.of_powerLoss {c : Instr} (hc : losesPower c = true) {t : State} (h : t.ctl = s.powerLoss.ctl) : CtlStep c s.ctl t.ctl := by
  rw [h, State.powerLoss_ctl]
  exact .powerLoss hc

theorem exec_inputLoss_moves : MovesCtl .inputLoss s (execInputLoss s) := .of_next (.ite (fun _ => .keep) fun _ => .of_powerLoss s rfl rfl)

theorem exec_overVoltage_moves : MovesCtl .overVoltage s (execOverVoltage s) := .of_next (.ite (fun _ => .keep) fun _ => .of_powerLoss s rfl rfl)

theorem exec_emergOff_moves : MovesCtl .emergOff s (execEmergOff s) := .of_next (.ite (fun _ => .keep) fun _ => .of_powerLoss s rfl rfl)

theorem exec_strapPhaseEnd_moves (mv : List Nat) : MovesCtl (.strapPhaseEnd mv) s (execStrapPhaseEnd mv s) := by
  refine .of_next (.ite (fun _ => .keep) fun h => ?_)
  rw [State.drive, State.put_ctl]
  exact .straps (show s.power.phase = .strap by simpa using h)

/-- A guard of start-up that is not turned away. -/
theorem Ctl.atStep_of_guard {s : State} {n : Nat} (h : ¬ (!s.atStep n) = true) : s.ctl.AtStep n := State.atStep_iff.mp (by simpa using h)

theorem exec_bootRomCheck_moves (ok : Bool) : MovesCtl (.bootRomCheck ok) s (execBootRomCheck ok s) := by
  refine .of_next (.ite (fun _ => .keep) fun h => ?_)
  have h := Ctl.atStep_of_guard h
  have hstep : ∀ u : State, u.ctl = s.ctl → CtlStep (.bootRomCheck ok) s.ctl (u.toStep 4).ctl := fun u hu => by
    rw [State.toStep_ctl, hu]
    exact .bootRom h
  refine .ite (fun _ => .enterFault rfl ..) fun _ => .ite (fun _ => hstep s rfl) fun _ => .ite (fun _ => hstep _ rfl) fun _ => ?_
  have hfault : (s.enterFault 0x61).ctl = s.ctl.faulted := by
    rw [State.enterFault_ctl, if_neg (by simp [h.1])]
    rfl
  have hrec : ∀ u : State, ({ u with sec := { u.sec with recovery := true } } : State).ctl = { u.ctl with recovery := true } := fun _ => rfl
  rw [hrec, hfault]
  exact .bootRomRecovery h

theorem exec_repairRecordCheck_moves (ok : Bool) : MovesCtl (.repairRecordCheck ok) s (execRepairRecordCheck ok s) := by
  refine .of_next (.ite (fun _ => .keep) fun h => .ite (fun _ => .enterFault rfl ..) fun _ => ?_)
  have h : s.ctl.AtStep 4 := by
    simp only [Bool.or_eq_true, not_or] at h
    exact Ctl.atStep_of_guard h.1.1
  rw [State.settleRings_ctl, State.toStep_ctl, State.logStart_ctl]
  exact .firmware h (by split <;> simp)

theorem exec_pwrEnRise_moves : MovesCtl .pwrEnRise s (execPwrEnRise s) := by
  refine .of_next (.ite (fun h => ?_) fun _ => .keep)
  rw [State.toStep_ctl]
  rw [Bool.and_eq_true] at h
  exact .pwrEnRise (State.atStep_iff.mp h.1) h.2

theorem exec_pwrEnFall_moves : MovesCtl .pwrEnFall s (execPwrEnFall s) := by
  refine .of_next (.ite (fun h => ?_) fun _ => .keep)
  simp only [Bool.and_eq_true, beq_iff_eq, decide_eq_true_eq] at h
  have hoff : ∀ u : State, ({ u.mainOff with power := { u.mainOff.power with stage := 4 } } : State).ctl =
      { u.ctl with mainOn := false, computeReady := false, stage := 4 } := fun u =>
    congrArg (fun k : Ctl => { k with stage := 4 }) (State.mainOff_ctl u)
  rw [State.settleSeat_ctl, hoff]
  exact .pwrEnFall h.1 h.2

theorem exec_mainRegulatorsUp_moves (ok : Bool) : MovesCtl (.mainRegulatorsUp ok) s (execMainRegulatorsUp ok s) := by
  refine .of_next (.ite (fun _ => .keep) fun h => .ite (fun _ => .enterFault rfl ..) fun _ => ?_)
  rw [State.toStep_ctl]
  exact .regulators (Ctl.atStep_of_guard h)

theorem exec_hbmTrainingDone_moves (failed : List Nat) : MovesCtl (.hbmTrainingDone failed) s (execHbmTrainingDone failed s) := by
  refine .of_next (.ite (fun _ => .keep) fun h => ?_)
  extract_lets s1 s2 s3
  have h3 : s3.ctl = s.ctl := (foldl_ctl (fun u p => (State.drawKeys_ctl ..).trans (State.modPart_ctl ..)) _ _).trans
    ((foldl_ctl (fun _ _ => State.fenceStack_ctl ..) _ _).trans (foldl_ctl (fun _ _ => State.modStack_ctl ..) _ _))
  rw [State.toStep_ctl, h3]
  exact .hbm (Ctl.atStep_of_guard h)

theorem exec_selfTestDone_moves (fails attn cache : List Nat) : MovesCtl (.selfTestDone fails attn cache) s (execSelfTestDone fails attn cache s) := by
  refine .of_next (.ite (fun _ => .keep) fun h => ?_)
  extract_lets s1 s2 s3
  have h3 : s3.ctl = s.ctl := (foldl_ctl (fun u x => ctl_ite rfl (State.attnCheck_ctl ..)) _ _).trans
    ((foldl_ctl (fun _ _ => State.fenceSite_ctl ..) _ _).trans (foldl_ctl (fun _ _ => State.applyRepair_ctl ..) _ _))
  rw [State.toStep_ctl, State.seatPlans_ctl, h3]
  exact .selfTest (Ctl.atStep_of_guard h)

theorem exec_opticalCalibrationDone_moves (failed : List Nat) : MovesCtl (.opticalCalibrationDone failed) s (execOpticalCalibrationDone failed s) := by
  refine .of_next (.ite (fun _ => .keep) fun h => ?_)
  have h := Ctl.atStep_of_guard h
  extract_lets s1
  have h1 : s1.ctl = s.ctl := foldl_ctl (fun _ _ => ctl_ite rfl (State.modPort_ctl ..)) _ _
  clear_value s1
  rw [← h1] at h ⊢
  rw [State.settleRings_ctl, State.toStep_ctl]
  exact .optics h

/-- A pulse of BEAT moves, of the fields of control, fabric time alone. -/
theorem State.readPulse_ctl (n : Nat) (x : Option (Option Bool)) : ∃ slot, (s.readPulse n x).ctl = { s.ctl with slot := slot } := by
  unfold State.readPulse
  dsimp only
  repeat' split
  all_goals exact ⟨_, rfl⟩

theorem exec_beatEdge_moves (width : Nat) : MovesCtl (.beatEdge width) s (execBeatEdge width s) := by
  have hread : ∀ (u : State) n x, (∃ slot, u.ctl = { s.ctl with slot := slot }) → CtlStep (.beatEdge width) s.ctl (u.readPulse n x).ctl := by
    rintro u n x ⟨slot, hu⟩
    obtain ⟨slot', h⟩ := State.readPulse_ctl u n x
    rw [h, hu]
    exact .beat
  exact .of_next (.ite (fun _ => hread _ _ _ ⟨_, rfl⟩) fun _ => hread _ _ _ ⟨_, rfl⟩)

end

/-- What a command does to the fields of control is one of these moves. -/
theorem exec_moves (c : Instr) (s : State) : MovesCtl c s (exec c s) := by
  by_cases hc : setsCtl c = true
  · cases c with
    | telemetryWindowEnd => exact exec_telemetryWindowEnd_moves ..
    | phaseShed => exact exec_phaseShed_moves ..
    | fwWatchdogRestart => exact exec_fwWatchdogRestart_moves ..
    | fwRestart => exact exec_fwRestart_moves ..
    | behaviourPin => exact exec_behaviourPin_moves ..
    | partitionSet => exact exec_partitionSet_moves ..
    | roleAuthEnrol => exact exec_roleAuthEnrol_moves ..
    | roleAuthRevoke => exact exec_roleAuthRevoke_moves ..
    | fwActivate => exact exec_fwActivate_moves ..
    | inputGood => exact exec_inputGood_moves ..
    | inputLoss => exact exec_inputLoss_moves ..
    | overVoltage => exact exec_overVoltage_moves ..
    | overVoltageClear => exact exec_overVoltageClear_moves ..
    | strapPhaseEnd => exact exec_strapPhaseEnd_moves ..
    | bootRomCheck => exact exec_bootRomCheck_moves ..
    | repairRecordCheck => exact exec_repairRecordCheck_moves ..
    | pwrEnRise => exact exec_pwrEnRise_moves ..
    | pwrEnFall => exact exec_pwrEnFall_moves ..
    | mainRegulatorsUp => exact exec_mainRegulatorsUp_moves ..
    | hbmTrainingDone => exact exec_hbmTrainingDone_moves ..
    | selfTestDone => exact exec_selfTestDone_moves ..
    | opticalCalibrationDone => exact exec_opticalCalibrationDone_moves ..
    | emergOff => exact exec_emergOff_moves ..
    | beatEdge => exact exec_beatEdge_moves ..
    | _ => cases hc
  · exact .of_keepsO (exec_ctl c s (Bool.not_eq_true _ ▸ hc))

theorem ctlStep_of_exec {c : Instr} {s t : State} (h : exec c s = .next t) : CtlStep c s.ctl t.ctl := (exec_moves c s).next t h

/-! ### The queue (R365, R373) -/

/-- Settles O4: the queue is a field of control that no move changes. -/
theorem commandsLeaveTheQueue : Obligations.CommandsLeaveTheQueue := by
  unfold Obligations.CommandsLeaveTheQueue
  intro c s t h
  have hp : ∀ k k' : Ctl, CtlStep c k k' → k'.pending = k.pending := fun k k' hk => by cases hk <;> rfl
  exact hp _ _ (ctlStep_of_exec h)

/-! ### The legality of power (R397, R412, R439, R442, R447) -/

/-- The legality of power, as the fields of control alone show it. -/
structure Ctl.Legal (k : Ctl) : Prop where
  seat : k.seatOut = (k.phase == .run && k.past)
  main : k.mainOn = (k.phase == .run && decide (6 ≤ k.stage))
  compute : k.computeReady = (k.phase == .run && k.stage == 9)
  stage : k.stage ≤ 9
  recovery : k.recovery = true → k.phase = .fault
  sub : k.sub < 48

theorem powerLegal_iff {s : State} : PowerLegal s ↔ s.ctl.Legal :=
  ⟨fun ⟨seat, main, compute, stage, recovery, sub⟩ => ⟨seat, main, compute, stage, recovery, sub⟩,
    fun ⟨seat, main, compute, stage, recovery, sub⟩ => ⟨seat, main, compute, stage, recovery, sub⟩⟩

namespace Ctl.Legal

/-- A step of start-up is legal where the regulators and compute-ready are as they must be there: SEAT_OUT follows the step. -/
theorem toStep {k : Ctl} {n : Nat} (hrun : k.phase = .run) (hn : n ≤ 9) (hmain : k.mainOn = decide (6 ≤ n)) (hcompute : k.computeReady = (n == 9))
    (hrec : k.recovery = false) (hsub : k.sub < 48) : (k.toStep n).Legal where
  seat := rfl
  main := by simpa [Ctl.toStep, hrun] using hmain
  compute := by simpa [Ctl.toStep, hrun] using hcompute
  stage := hn
  recovery h := by simp [Ctl.toStep, hrec] at h
  sub := hsub

/-- In the run phase boot ROM's recovery service does not run. -/
theorem recovery_of_run {k : Ctl} (h : k.Legal) (hrun : k.phase = .run) : k.recovery = false := by
  by_contra hrec
  exact absurd (hrun.symm.trans (h.recovery (by simpa using hrec))) (by decide)

/-- The regulators and compute-ready of the run phase at a step. -/
theorem main_compute_of_atStep {k : Ctl} {n : Nat} (h : k.Legal) (hn : k.AtStep n) : k.mainOn = decide (6 ≤ n) ∧ k.computeReady = (n == 9) := by
  obtain ⟨hrun, rfl⟩ := hn
  exact ⟨by simpa [hrun] using h.main, by simpa [hrun] using h.compute⟩

/-- Where no phase of power is entered, nothing of power is on. -/
theorem of_off {k : Ctl} (hphase : k.phase ≠ .run) (hseat : k.seatOut = false) (hmain : k.mainOn = false) (hcompute : k.computeReady = false)
    (hstage : k.stage ≤ 9) (hrec : k.recovery = true → k.phase = .fault) (hsub : k.sub < 48) : k.Legal where
  seat := by simp [hphase, hseat]
  main := by simp [hphase, hmain]
  compute := by simp [hphase, hcompute]
  stage := hstage
  recovery := hrec
  sub := hsub

/-- Start-up's step 3 of the run phase, entered from another phase, has everything off that the other phase had off. -/
theorem enterRun {k k' : Ctl} (h : k.Legal) (hoff : k.phase ≠ .run) (hstage : k'.stage = 3) (hseat : k'.seatOut = k.seatOut)
    (hmain : k'.mainOn = k.mainOn) (hcompute : k'.computeReady = k.computeReady) (hrec : k'.recovery = false) (hsub : k'.sub = k.sub) : k'.Legal where
  seat := by rw [hseat, h.seat]; simp [hoff, Ctl.past, hstage]
  main := by rw [hmain, h.main]; simp [hoff, hstage]
  compute := by rw [hcompute, h.compute]; simp [hoff, hstage]
  stage := by omega
  recovery hr := by simp [hrec] at hr
  sub := hsub ▸ h.sub

/-- Legality speaks of these fields alone. -/
theorem congr {k k' : Ctl} (h : k.Legal) (hphase : k'.phase = k.phase) (hstage : k'.stage = k.stage) (hpast : k'.past = k.past)
    (hseat : k'.seatOut = k.seatOut) (hmain : k'.mainOn = k.mainOn) (hcompute : k'.computeReady = k.computeReady)
    (hrec : k'.recovery = true → k.recovery = true) (hsub : k'.sub < 48) : k'.Legal where
  seat := by rw [hseat, hphase, hpast, h.seat]
  main := by rw [hmain, hphase, hstage, h.main]
  compute := by rw [hcompute, hphase, hstage, h.compute]
  stage := hstage ▸ h.stage
  recovery hr := hphase ▸ h.recovery (hrec hr)
  sub := hsub

/-- Every move of a command keeps the legality of power. -/
theorem step {c : Instr} {k k' : Ctl} (h : k.Legal) (hk : CtlStep c k k') : k'.Legal := by
  have hgo : ∀ {n m : Nat}, k.AtStep n → m ≤ 9 → decide (6 ≤ n) = decide (6 ≤ m) → (n == 9) = (m == 9) → (k.toStep m).Legal :=
    fun hn hm hmain hcompute => by
      obtain ⟨hmainOn, hready⟩ := h.main_compute_of_atStep hn
      exact toStep hn.1 hm (hmainOn.trans hmain) (hready.trans hcompute) (h.recovery_of_run hn.1) h.sub
  cases hk with
  | keep => exact h
  | fault | bootRomRecovery => exact of_off (nofun) rfl rfl rfl h.stage (fun _ => rfl) h.sub
  | powerLoss => exact of_off (nofun) rfl rfl rfl (Nat.zero_le _) (nofun) h.sub
  | start => exact of_off (nofun) rfl rfl rfl (show 1 ≤ 9 by decide) (nofun) (show 0 < 48 by decide)
  | straps hstrap =>
    refine h.enterRun (by simp [hstrap]) rfl rfl rfl rfl ?_ rfl
    by_contra hrec
    exact absurd (hstrap.symm.trans (h.recovery (by simpa using hrec))) (by decide)
  | bootRom hat => exact hgo hat (by decide) rfl rfl
  | firmware hat hn =>
    obtain ⟨hmain, hcompute⟩ := h.main_compute_of_atStep hat
    obtain rfl | rfl := hn <;> exact toStep hat.1 (by decide) hmain hcompute (h.recovery_of_run hat.1) h.sub
  | pwrEnRise hat => exact hgo hat (by decide) rfl rfl
  | pwrEnFall hrun => exact toStep hrun (by decide) rfl rfl (h.recovery_of_run hrun) h.sub
  | regulators hat => exact toStep hat.1 (by decide) rfl (h.main_compute_of_atStep hat).2 (h.recovery_of_run hat.1) h.sub
  | hbm hat => exact hgo hat (by decide) rfl rfl
  | selfTest hat => exact hgo hat (by decide) rfl rfl
  | optics hat => exact toStep hat.1 (by decide) (h.main_compute_of_atStep hat).1 rfl (h.recovery_of_run hat.1) h.sub
  | fwWatchdog hready => exact h.congr rfl rfl (by simp [Ctl.past, hready]) rfl rfl rfl id h.sub
  | fwRestart _ hcause => exact h.congr rfl rfl (by simp [Ctl.past, bne_iff_ne.mpr hcause]) rfl rfl rfl id h.sub
  | otherBank hready => exact h.congr rfl rfl (by simp [Ctl.past, hready]) rfl rfl rfl (nofun) h.sub
  | recover hrec => exact h.enterRun (by simp [h.recovery hrec]) rfl rfl rfl rfl rfl rfl
  | level | partitions | enrol | revoke | beat => exact h.congr rfl rfl rfl rfl rfl rfl id h.sub

/-- So does a slot that passes: of the phases it moves start-up from step 1 to step 2 of the strap phase alone. -/
theorem passSlot {s : State} (h : s.ctl.Legal) : s.passSlot.ctl.Legal := by
  cases hin : s.power.input with
  | false => exact (State.passSlot_of_no_input hin).symm ▸ h
  | true =>
    rw [State.passSlot_ctl_of_input hin]
    have hsub : (if s.sub = 47 then 0 else s.sub + 1) < 48 := by
      have := h.sub
      simp only [State.ctl] at this
      split <;> omega
    by_cases hs : s.ctl.phase = .strap ∧ s.ctl.stage = 1 ∧ 250000 ≤ s.ctl.tickNext
    · have hstage : s.ctl.stageNext = 2 := if_pos hs
      have hoff : (s.ctl.phase == .run) = false := by simp [hs.1]
      exact of_off (by simp [hs.1]) (by simpa [hoff] using h.seat) (by simpa [hoff] using h.main) (by simpa [hoff] using h.compute)
        (hstage.trans_le (by decide)) h.recovery hsub
    · have hstage : s.ctl.stageNext = s.ctl.stage := if_neg hs
      exact h.congr rfl hstage (by simp [Ctl.past, hstage]) rfl rfl rfl id hsub

end Ctl.Legal

/-- Settles O5: a command's moves and a slot that passes keep the legality of power. -/
theorem powerStaysLegal : Obligations.PowerStaysLegal := by
  unfold Obligations.PowerStaysLegal
  intro s t hs ht
  rw [powerLegal_iff] at hs ⊢
  unfold step at ht
  split at ht
  · cases ht
    exact hs.passSlot
  · rename_i c rest _
    have hs' : ({ s with pending := rest } : State).ctl.Legal := hs.congr rfl rfl rfl rfl rfl rfl id hs.sub
    exact hs'.step (ctlStep_of_exec ht)

/-! ### Values of few writers (R338, R387, R391, R392, R396, R398, R439, R447) -/

/-- The security version floor and the bitmap of revoked keys only rise, and OPTICAL_CALIBRATION_DONE alone moves them. -/
theorem CtlStep.floors {c : Instr} {k k' : Ctl} (h : CtlStep c k k') :
    k.svnMin ≤ k'.svnMin ∧ (∀ n, k.revoked.getLsbD n = true → k'.revoked.getLsbD n = true) ∧
      (k'.svnMin ≠ k.svnMin ∨ k'.revoked ≠ k.revoked → ∃ failed, c = .opticalCalibrationDone failed) := by
  cases h with
  | optics => exact ⟨le_max_left .., fun n hn => by simp [Ctl.toStep, hn], fun _ => ⟨_, rfl⟩⟩
  | _ => exact ⟨le_rfl, fun _ => id, fun h => absurd h (by simp [Ctl.toStep, Ctl.faulted, Ctl.unpowered, Ctl.mainOff])⟩

/-- Settles O8: a slot that passes leaves the floors, and of the commands' moves that of compute-ready firmware alone raises them. -/
theorem securityFloorsOnlyRise : Obligations.SecurityFloorsOnlyRise := by
  unfold Obligations.SecurityFloorsOnlyRise
  refine ⟨fun s t ht => ?_, fun c s t h => (ctlStep_of_exec h).floors.2.2⟩
  unfold step at ht
  split at ht
  · cases ht
    have hslot : s.passSlot.ctl.svnMin = s.ctl.svnMin ∧ s.passSlot.ctl.revoked = s.ctl.revoked := by
      cases hin : s.power.input with
      | false => rw [State.passSlot_of_no_input hin]; exact ⟨rfl, rfl⟩
      | true => rw [State.passSlot_ctl_of_input hin]; exact ⟨rfl, rfl⟩
    exact ⟨hslot.1.ge, fun k _ hk => (congrArg (fun x : BitVec 4 => x.getLsbD k) hslot.2).trans hk⟩
  · obtain ⟨hsvn, hrevoked, -⟩ := (ctlStep_of_exec ht).floors
    exact ⟨hsvn, fun k _ => hrevoked k⟩

section
variable {c : Instr} {k k' : Ctl} (h : CtlStep c k k')
include h

/-- Enrolment and revocation alone move the credentials. -/
theorem CtlStep.creds (hne : k'.creds ≠ k.creds) : ∃ r u, c = .roleAuthEnrol r u ∨ c = .roleAuthRevoke r u := by
  cases h with
  | enrol => exact ⟨_, _, .inl rfl⟩
  | revoke => exact ⟨_, _, .inr rfl⟩
  | _ => exact absurd rfl hne

/-- BEHAVIOUR_PIN alone moves the pinned level. -/
theorem CtlStep.level_ne (hne : k'.level ≠ k.level) : ∃ r u, c = .behaviourPin r u := by
  cases h with
  | level => exact ⟨_, _, rfl⟩
  | _ => exact absurd rfl hne

/-- PARTITION_SET alone moves the partition count. -/
theorem CtlStep.count (hne : k'.count ≠ k.count) : ∃ r u, c = .partitionSet r u := by
  cases h with
  | partitions => exact ⟨_, _, rfl⟩
  | _ => exact absurd rfl hne

/-- REPAIR_RECORD_CHECK alone counts a start. -/
theorem CtlStep.boots (hne : k'.boots ≠ k.boots) : ∃ ok, c = .repairRecordCheck ok := by
  cases h with
  | firmware => exact ⟨_, rfl⟩
  | _ => exact absurd rfl hne

end

/-- The commands that may move the main regulators, compute-ready or SEAT_OUT. -/
def movesPower : Instr → Bool
  | .telemetryWindowEnd .. | .phaseShed .. | .inputGood .. | .inputLoss | .overVoltage | .overVoltageClear | .strapPhaseEnd .. | .bootRomCheck ..
  | .repairRecordCheck .. | .pwrEnRise | .pwrEnFall | .mainRegulatorsUp .. | .hbmTrainingDone .. | .selfTestDone ..
  | .opticalCalibrationDone .. | .emergOff => true
  | _ => false

theorem movesPower_of_findsFault {c : Instr} (h : findsFault c = true) : movesPower c = true := by
  cases c with
  | telemetryWindowEnd | phaseShed | bootRomCheck | repairRecordCheck | mainRegulatorsUp => rfl
  | _ => cases h

theorem movesPower_of_losesPower {c : Instr} (h : losesPower c = true) : movesPower c = true := by
  cases c with
  | inputLoss | overVoltage | emergOff => rfl
  | _ => cases h

theorem movesPower_of_beginsStart {c : Instr} (h : beginsStart c = true) : movesPower c = true := by
  cases c with
  | inputGood | overVoltageClear => rfl
  | _ => cases h

/-- No other command moves one of the three. -/
theorem CtlStep.power {c : Instr} {k k' : Ctl} (h : CtlStep c k k')
    (hne : k'.mainOn ≠ k.mainOn ∨ k'.computeReady ≠ k.computeReady ∨ k'.seatOut ≠ k.seatOut) : movesPower c = true := by
  cases h with
  | fault hc => exact movesPower_of_findsFault hc
  | powerLoss hc => exact movesPower_of_losesPower hc
  | start hc => exact movesPower_of_beginsStart hc
  | bootRom | bootRomRecovery | firmware | pwrEnRise | pwrEnFall | regulators | hbm | selfTest | optics => rfl
  | _ => simp at hne

/-- Settles O9: each value by the moves that change it. -/
theorem protectedValuesHaveOneWriter : Obligations.ProtectedValuesHaveOneWriter := by
  unfold Obligations.ProtectedValuesHaveOneWriter
  intro c s t h
  have hk := ctlStep_of_exec h
  refine ⟨hk.creds, hk.level_ne, hk.count, hk.boots, fun hne => ?_⟩
  have hc : movesPower c = true := hk.power hne
  cases c with
  | telemetryWindowEnd | phaseShed | inputGood | inputLoss | overVoltage | overVoltageClear | strapPhaseEnd | bootRomCheck | repairRecordCheck
  | pwrEnRise | pwrEnFall | mainRegulatorsUp | hbmTrainingDone | selfTestDone | opticalCalibrationDone | emergOff => simp
  | _ => cases hc

/-! ### Every command answers (R2, R375) -/

/-- Settles O3: the meaning of each command is a next state. -/
theorem everyCommandAnswersNext : Obligations.EveryCommandAnswersNext := by
  unfold Obligations.EveryCommandAnswersNext
  have hexec : ∀ (c : Instr) (s : State), ∃ t, exec c s = .next t := fun c s => by
    cases c <;> exact ⟨_, rfl⟩
  refine ⟨hexec, fun s => ?_⟩
  unfold step
  split
  · exact ⟨_, rfl⟩
  · exact hexec _ _

end Sys2Proof.Machine
end

section
/-! PROOFS. What module reset leaves (R348, R362, R379, R410, R412, R430, R439, R447), and the chain of the audit log (R394, R395). -/

namespace Sys2Proof.Machine

open Sys2Proof

/-! ### Reset -/

/-- Settles O7: what no table of the state after reset lists reads at its own reset value. -/
theorem resetValues : Obligations.ResetValues := by
  unfold Obligations.ResetValues
  exact ⟨rfl, rfl, rfl, rfl, rfl, rfl, rfl, rfl, rfl, rfl, rfl, rfl, fun _ => rfl, fun _ => ⟨rfl, rfl, rfl, rfl, rfl⟩, fun _ => ⟨rfl, rfl⟩,
    fun c q => by cases q <;> exact ⟨rfl, rfl⟩, fun _ => rfl, fun _ => ⟨rfl, rfl⟩, rfl, rfl, rfl, rfl, rfl, rfl, rfl⟩

/-- A log with no entry is whole. -/
theorem State.auditWhole_of_empty {s : State} (h : s.sec.audit = []) : s.AuditWhole where
  chain := h ▸ trivial
  newest e l he := by simp [h] at he
  base e he := by simp [h] at he
  length := by simp [h]

/-- Settles O6: after reset no phase of power is entered, no memory holds anything, and the log has no entry. -/
theorem resetIsLegal : Obligations.ResetIsLegal := by
  unfold Obligations.ResetIsLegal
  exact ⟨powerLegal_iff.mpr (.of_off nofun rfl rfl rfl (Nat.zero_le _) nofun (Nat.zero_lt_succ _)), rfl, rfl, State.auditWhole_of_empty rfl⟩

/-! ### The audit log (R394, R395) -/

/-- The newest entries of a chain are a chain. -/
theorem auditChain_take : ∀ (n : Nat) (l : List Audit), auditChain l → auditChain (l.take n)
  | 0, _, _ => trivial
  | _ + 1, [], _ => trivial
  | _ + 1, [_], _ => by simp [auditChain]
  | 1, _ :: _ :: _, _ => trivial
  | n + 2, _ :: b :: l, ⟨hseq, hprev, hl⟩ => ⟨hseq, hprev, auditChain_take (n + 1) (b :: l) hl⟩

/-- An entry that numbers on from the newest of a chain and holds its digest extends the chain. -/
theorem auditChain_cons {e : Audit} {l : List Audit} (hl : auditChain l)
    (he : ∀ o ∈ l.head?, e.seq = o.seq + 1 ∧ e.prev = Config.sha512 (auditBytes o)) : auditChain (e :: l) := by
  cases l with
  | nil => trivial
  | cons o l =>
    obtain ⟨hseq, hprev⟩ := he o rfl
    exact ⟨hseq, hprev, hl⟩

section
variable (s : State) (op role ring part status cred : Nat) (detail : BitVec 256)

/-- The entry that a log of a state takes next. -/
def State.auditEntry : Audit :=
  { seq := s.sec.auditSeq, boots := s.sec.boots, time := s.tick, opcode := op, role := role, ring := ring, part := part, status := status, cred := cred
    detail := detail, prev := match s.sec.audit with | o :: _ => Config.sha512 (auditBytes o) | [] => s.sec.auditBase }

/-- The log after an entry: the entry, and the 65,535 newest before it. -/
theorem State.audit_log : (s.audit op role ring part status cred detail).sec.audit =
    s.auditEntry op role ring part status cred detail :: s.sec.audit.take 65535 := rfl

/-- A log that was whole is whole after an entry. -/
theorem State.audit_whole (h : s.AuditWhole) : (s.audit op role ring part status cred detail).AuditWhole where
  chain := by
    rw [State.audit_log, ← List.take_succ_cons]
    refine auditChain_take _ _ (auditChain_cons h.chain fun o ho => ?_)
    obtain ⟨l, hl⟩ := List.head?_eq_some_iff.mp ho
    exact ⟨(h.newest o l hl).symm, by simp [State.auditEntry, hl]⟩
  newest e l he := by
    rw [State.audit_log, List.cons.injEq] at he
    rw [← he.1]
    rfl
  base e he := by
    show (match (s.audit op role ring part status cred detail).sec.audit.getLast? with | some o => o.prev | none => s.sec.auditBase) = e.prev
    rw [he]
  length := List.length_take_le ..

end

/-- Settles O11: the log after an entry is the entry and the newest before it, and the entry extends their chain. -/
theorem auditEntryExtendsChain : Obligations.AuditEntryExtendsChain := by
  unfold Obligations.AuditEntryExtendsChain
  intro s op role ring part status cred detail
  exact ⟨⟨s.auditEntry op role ring part status cred detail, State.audit_log .., rfl, rfl, rfl, rfl, rfl, rfl, rfl, rfl, rfl, rfl, rfl⟩, rfl, rfl,
    s.audit_whole op role ring part status cred detail⟩

end Sys2Proof.Machine
end

section
/-! PROOFS. The I3C target of the SIDE connector: frames, answers, addresses and common commands (R384, R385; log entry 49). -/

namespace Sys2Proof.Machine

open Sys2Proof

section
variable {s : State}

/-! ### Private writes and reads (R385) -/

/-- The ring of the channel, depth 1, with the command of a frame as its one command. -/
def State.takeI3cFrame (s : State) (bytes : List Byte) : State :=
  (s.modRing i3cRing fun g => { g with enable := true, inflight := [frameCmd bytes s.tick], waiting := [] }).settleRings

/-- The state byte and the sequence byte of the channel, with no answer. -/
def State.i3cState (s : State) (st seq : Nat) : State := { s with i3c := { s.i3c with st := st, seq := seq, answer := [] } }

/-- A frame that comes while no command works is taken where it is whole, and dropped where it is not. -/
theorem exec_i3cPrivateWrite_of_idle (hears : s.i3cHears = true) (hidle : s.i3c.st ≠ 1) (bytes : List Byte) :
    exec (.i3cPrivateWrite bytes) s = .next (if frameGood bytes then (s.releaseAlert.i3cState 1 (bytes.getD 1 0).toNat).takeI3cFrame bytes
      else s.releaseAlert.i3cState 3 (bytes.getD 1 0).toNat) := by
  have hguard : ¬ (!s.i3cHears || s.i3c.st == 1) = true := by simp [hears, hidle]
  exact congrArg Host.Outcome.next (if_neg hguard)

/-- No address, or a command at work: the frame is not acknowledged. -/
theorem exec_i3cPrivateWrite_of_nack (h : s.i3cHears = false ∨ s.i3c.st = 1) (bytes : List Byte) :
    exec (.i3cPrivateWrite bytes) s = .next (s.put .nack) := by
  have hguard : (!s.i3cHears || s.i3c.st == 1) = true := by obtain h | h := h <;> simp [h]
  exact congrArg Host.Outcome.next (if_pos hguard)

theorem exec_i3cPrivateRead_of_hears (hears : s.i3cHears = true) :
    exec .i3cPrivateRead s =
      .next (if s.i3c.st = 2 then (s.put (.i3c s.i3c.readBytes)).releaseAlert else s.put (.i3c s.i3c.readBytes)) := by
  have hguard : ¬ (!s.i3cHears) = true := by simp [hears]
  exact congrArg Host.Outcome.next (if_neg hguard)

/-! ### Common commands (R384) -/

/-- A target with an address answers. -/
theorem State.i3cAnswer_of_hears (hears : s.i3cHears = true) (b : List Byte) : s.i3cAnswer b = s.put (.i3c b) := if_pos hears

/-- The last byte of the provisional ID carries the strapped Form position. -/
theorem State.pid_position {b : Byte} (h : s.pid.getLast? = some b) : b.toNat % 64 = s.power.straps.toNat % 64 := by
  simp only [State.pid, List.getLast?_append, List.getLast?_singleton, Option.some_or, Option.some.injEq] at h
  simp only [← h, BitVec.toNat_ofNat, bits]
  omega

theorem exec_entdaa_of_no_address (hon : s.i3cOn = true) (haddr : s.i3c.addr = none) (a : Nat) :
    exec (.entdaa a) s = .next { s with i3c := { s.i3c with addr := some a } } := by
  have hguard : (s.i3cOn && s.i3c.addr.isNone) = true := by simp [hon, haddr]
  exact congrArg Host.Outcome.next (if_pos hguard)

theorem exec_setdasa_of_no_address (hon : s.i3cOn = true) (haddr : s.i3c.addr = none) (a : Nat) :
    exec (.setdasa a) s = .next { s with i3c := { s.i3c with addr := some a } } :=
  exec_entdaa_of_no_address hon haddr a

/-- RSTDAA takes the address away and unbinds the channel. -/
theorem exec_rstdaa_of_on (hon : s.i3cOn = true) :
    exec .rstdaa s = .next ({ s with i3c := { s.i3c with addr := none } } : State).unbindI3c := congrArg Host.Outcome.next (if_pos hon)

theorem State.unbindI3c_ring : s.unbindI3c.ring i3cRing = { s.ring i3cRing with role := 0, cred := 0xFF } := State.setRing_ring_self ..

end

/-- Settles O55, one event of the bus at a time. -/
theorem i3cChannelAnswers : Obligations.I3cChannelAnswers := by
  unfold Obligations.I3cChannelAnswers
  intro s
  refine ⟨fun bytes hears hidle => ?write, fun bytes h => exec_i3cPrivateWrite_of_nack h bytes, fun hears => ?answers, fun hon => ?address, rfl, rfl⟩
  case write =>
    have h := exec_i3cPrivateWrite_of_idle hears hidle bytes
    exact ⟨fun hgood => h.trans (congrArg Host.Outcome.next (if_pos hgood)),
      fun hbad => h.trans (congrArg Host.Outcome.next (if_neg (by simp [hbad])))⟩
  case answers =>
    have hanswer : ∀ b, Host.Outcome.next (ρ := Refusal) (φ := Fault) (s.i3cAnswer b) = .next (s.put (.i3c b)) := fun b =>
      congrArg _ (State.i3cAnswer_of_hears hears b)
    exact ⟨exec_i3cPrivateRead_of_hears hears, hanswer _, hanswer _, hanswer _, hanswer _, fun b => State.pid_position⟩
  case address =>
    refine ⟨fun haddr a => ⟨exec_entdaa_of_no_address hon haddr a, exec_setdasa_of_no_address hon haddr a⟩, _, exec_rstdaa_of_on hon, rfl, ?_, ?_⟩ <;>
      rw [State.unbindI3c_ring]

end Sys2Proof.Machine
end

section
/-! PROOFS. The Caretaker's calibrations (R423, R426 to R428), and telemetry windows, limits, wakes, re-keying and the restart of firmware (R376, R404, R413,
R417, R418, R430). -/

namespace Sys2Proof.Machine

open Sys2Proof

/-! ### Events leave all but rings, functions and outputs (R349, R378) -/

/-- From `s` to `t` nothing but rings, functions and what the module puts out has changed. -/
def State.EventsOnly (s t : State) : Prop := t = { s with rings := t.rings, fns := t.fns, out := t.out }

namespace State.EventsOnly
variable {s t u : State}

theorem refl (s : State) : State.EventsOnly s s := rfl

theorem trans (h : State.EventsOnly s t) (k : State.EventsOnly t u) : State.EventsOnly s u := by
  unfold State.EventsOnly at *
  rw [k, h]

theorem foldl {α : Type} {g : State → α → State} (h : ∀ s a, State.EventsOnly s (g s a)) (l : List α) (s : State) :
    State.EventsOnly s (l.foldl g s) := by
  induction l generalizing s with
  | nil => exact refl s
  | cons a l ih => exact (h s a).trans (ih (g s a))

end State.EventsOnly

section
variable (s : State)

theorem State.message_eventsOnly (f v : Nat) : State.EventsOnly s (s.message f v) := by
  unfold State.message
  split <;> rfl

theorem State.notify_eventsOnly (f v : Nat) : State.EventsOnly s (s.notify f v) := by
  unfold State.notify
  split
  · rfl
  · exact s.message_eventsOnly f v

theorem State.raise_eventsOnly (f v : Nat) : State.EventsOnly s (s.raise f v) := by
  unfold State.raise
  dsimp only
  split
  · rfl
  · split
    · rfl
    · exact State.EventsOnly.trans (t := s.setFn f _) rfl (State.notify_eventsOnly _ f v)

theorem State.event_eventsOnly (r type part : Nat) (body : List Byte) : State.EventsOnly s (s.event r type part body) := by
  unfold State.event
  dsimp only
  split
  · rfl
  · split
    · rfl
    · exact State.EventsOnly.trans (t := (s.setRing r _).put _) rfl (State.raise_eventsOnly _ _ _)

/-! ### The restart of firmware (R376) -/

/-- The head of the event of a restart: its count, its cause, the bank and the version. -/
def State.restartHead (s : State) : List (Nat × Nat) :=
  [(1, s.power.restarts), (1, s.power.restartCause), (1, s.sec.bank), (4, s.runningBank.version)]

/-- Firmware back, its restart logged, before its events. -/
def State.fwBack (s : State) : State :=
  ({ s with power := { s.power with fwReady := true, restartCause := 0 } } : State).audit 0xFF00 0 0 0 0 0xFF (digest32 s.runningBank.digest)

/-- The events of a restart. -/
def State.restartEvents (s : State) (head : List (Nat × Nat)) : State :=
  let s := s.event mgmtEvents 0x0005 0 (packList (head ++ s.abandon 0 8))
  s.partList.foldl (fun s p => s.partEvent p 0x0005 (packList (head ++ s.abandon (8 + 4 * p) 4))) s

theorem State.restartEvents_eventsOnly (head : List (Nat × Nat)) : State.EventsOnly s (s.restartEvents head) :=
  (s.event_eventsOnly ..).trans (.foldl (fun u _ => u.event_eventsOnly ..) _ _)

variable {s}

theorem exec_fwRestart_of_down (hready : s.power.fwReady = false) (hcause : s.power.restartCause ≠ 0) :
    exec .fwRestart s = .next (s.fwBack.restartEvents s.restartHead).releaseHolds.settleRings := by
  have hguard : ¬ (s.power.fwReady || s.power.restartCause == 0) = true := by simp [hready, hcause]
  exact congrArg Host.Outcome.next (if_neg hguard)

/-! ### Telemetry windows, limits and sheds (R417, R418, R421, R422, R430) -/

/-- A window's readings and records taken, and the next window begun (R430). -/
def State.windowTaken (s : State) (temps : List Int) (powers : List Nat) : State :=
  let s1 := s.partList.foldl (fun s p => s.keepWindow p) (s.readSensors temps powers)
  ({ s1 with care := { s1.care with
    windows := s1.care.windows + 1, epochAt := beatOf s1.slot, flagScrub := false, flagCalib := false, flagShed := false, flagThrottle := false } }).modDuty
      2 fun d => { d with lastDone := s1.tick }

theorem exec_telemetryWindowEnd_of_due (temps : List Int) (powers : List Nat) (hstage : 2 ≤ s.power.stage) (hdue : s.care.windows < s.tick / 25000) :
    let u := s.windowTaken temps powers
    exec (.telemetryWindowEnd temps powers) s =
      .next (if u.power.mainOn = false then u else if u.tooHot then u.enterFault 0x61 else u.setDuties.heatActions.fallAsleep) := by
  have hguard : ¬ (decide (s.power.stage < 2) || decide (s.tick / 25000 ≤ s.care.windows)) = true := by
    simp only [Bool.or_eq_true, decide_eq_true_eq]
    omega
  exact congrArg Host.Outcome.next ((if_neg hguard).trans (if_congr (by rw [Bool.not_eq_true']; rfl) rfl rfl))

theorem exec_engineCurrentLimit_of_free {g : Nat} (h : g ∉ s.care.limited) : exec (.engineCurrentLimit g true) s =
    .next { s with care := { s.care with limited := addOnce s.care.limited g, flagThrottle := true } } :=
  congrArg Host.Outcome.next (if_neg (by simp [h]))

theorem exec_engineCurrentLimit_of_limited {g : Nat} (h : g ∈ s.care.limited) : exec (.engineCurrentLimit g false) s =
    .next { s with care := { s.care with limited := s.care.limited.filter (· != g), flagThrottle := true } } :=
  congrArg Host.Outcome.next (if_neg (by simp [h]))

theorem exec_phaseShed_of_spare {rail : Nat} (hon : s.power.mainOn = true) (h : tget 0 s.care.shed rail < 2) : exec (.phaseShed rail) s =
    .next { s with care := { s.care with shed := tset 0 s.care.shed rail (tget 0 s.care.shed rail + 1), flagShed := true } } :=
  congrArg Host.Outcome.next ((if_neg (by simp [hon])).trans (if_pos h))

theorem exec_phaseShed_of_third {rail : Nat} (hon : s.power.mainOn = true) (h : 2 ≤ tget 0 s.care.shed rail) :
    exec (.phaseShed rail) s = .next (s.enterFault 0x61) :=
  congrArg Host.Outcome.next ((if_neg (by simp [hon])).trans (if_neg (by omega)))

end

/-- Settles O44, one event at a time. -/
theorem powerIsLimitedAndFirmwareRestarts : Obligations.PowerIsLimitedAndFirmwareRestarts := by
  unfold Obligations.PowerIsLimitedAndFirmwareRestarts
  intro s
  refine ⟨exec_telemetryWindowEnd_of_due, fun g => ⟨exec_engineCurrentLimit_of_free, exec_engineCurrentLimit_of_limited⟩,
    fun rail hon => ⟨exec_phaseShed_of_spare hon, exec_phaseShed_of_third hon⟩, fun k => ⟨rfl, rfl, rfl, rfl, rfl⟩,
    fun p ok hrekey => congrArg Host.Outcome.next (if_pos hrekey), fun hready => congrArg Host.Outcome.next (if_pos hready), fun hready hcause => ?restart⟩
  case restart =>
    refine ⟨_, exec_fwRestart_of_down hready hcause, ?_⟩
    have hevents : State.EventsOnly s.fwBack (s.fwBack.restartEvents s.restartHead) := State.restartEvents_eventsOnly ..
    generalize s.fwBack.restartEvents s.restartHead = u at hevents
    rw [hevents]
    exact ⟨rfl, rfl, rfl, rfl⟩

/-! ### Calibrations (R423, R426 to R428) -/

section
variable (s : State) (code : Nat) (g : Duty → Duty)

@[simp] theorem State.modDuty_duty_self : (s.modDuty code g).duty code = g (s.duty code) := tget_tset_self ..

variable {s}

/-- HBM_INTERFACE_RETRAINING past its guards, before a channel that fails is spared. -/
def State.retrained (s : State) (h : Nat) : State :=
  let s1 := (s.modStack h fun st => { st with trainedAt := tget 0 s.care.latest (192 + h), asleep := false, touched := true }).dutyEvent 4
  s1.modDuty 4 fun d => { d with lastDone := s1.tick }

theorem State.retrained_stack (h : Nat) : (s.retrained h).stack h =
    { s.stack h with trainedAt := tget 0 s.care.latest (192 + h), asleep := false, touched := true } := State.setStack_stack_self ..

theorem exec_hbmInterfaceRetraining_of_due {h : Nat} (hon : s.power.mainOn = true) (hfree : (s.stack h).st ≠ .fenced)
    (hdue : (s.duty 4).period ≤ (tget 0 s.care.latest (192 + h) - (s.stack h).trainedAt).natAbs) (pc : Nat) (ok : Bool) :
    exec (.hbmInterfaceRetraining h pc ok) s = .next (if ok then s.retrained h else (s.retrained h).spareChannel h pc) := by
  have hguard : ¬ (!s.power.mainOn || (s.stack h).st == .fenced ||
      decide ((tget 0 s.care.latest (192 + h) - (s.stack h).trainedAt).natAbs < (s.duty 4).period)) = true := by
    simp [hon, hfree, hdue]
  exact congrArg Host.Outcome.next (if_neg hguard)

/-- A cartridge in place, with the main regulators on, passes the guard of the optical duties. -/
theorem not_optics_guard {cart : Nat} (hon : s.power.mainOn = true) (hin : cart ∉ s.power.cartsOut) :
    ¬ (!s.power.mainOn || decide (cart ∈ s.power.cartsOut)) = true := by simp [hon, hin]

theorem exec_opticalRecalibration_of_in {l : Nat} (hon : s.power.mainOn = true) (hin : l / 4 ∉ s.power.cartsOut) (lane : Nat) (converged : Bool) :
    let s1 := s.dutyStep 5 l 64
    let n := (s1.port l).unconverged
    exec (.opticalRecalibration l lane converged) s = .next (if converged then s1.modPort l fun x => { x with cal := true, unconverged := 0 }
      else if n + 1 < 3 then s1.modPort l fun x => { x with unconverged := n + 1 }
      else ((s1.modPort l fun x => { x with unconverged := 0 }).dutyEvent 5).laneFails l lane) :=
  congrArg Host.Outcome.next (if_neg (not_optics_guard hon hin))

/-- The bias current of first use (R427): the first that is not zero. -/
def State.firstBias (s : State) (cart bias : Nat) : Nat := if tget 0 s.care.biasFirst cart = 0 then bias else tget 0 s.care.biasFirst cart

/-- A cartridge's bias current recorded, and its first. -/
def State.biasRead (s : State) (cart bias : Nat) : State :=
  let s1 := s.dutyStep 10 cart 16
  { s1 with care := { s1.care with
      biasFirst := tset 0 s1.care.biasFirst cart (s.firstBias cart bias), bias := tset 0 s1.care.bias cart bias } }

theorem exec_laserAgeing_of_in {cart : Nat} (hon : s.power.mainOn = true) (hin : cart ∉ s.power.cartsOut) (bias : Nat) :
    let u := s.biasRead cart bias
    exec (.laserAgeing cart bias) s = .next (if 3 * s.firstBias cart bias ≤ 2 * bias then
      (u.dutyEvent 10).report 1 (4 * cart) 0x32 (u.partOfPort (4 * cart)) else u) :=
  congrArg Host.Outcome.next (if_neg (not_optics_guard hon hin))

theorem exec_thermalSensorCalibration_of_sensor {sensor : Nat} (hon : s.power.mainOn = true) (hs : sensor < 192) (offset : Int) :
    let s1 := s.dutyStep 11 sensor 192
    exec (.thermalSensorCalibration sensor offset) s = .next (if (offset - tget 0 s.care.offsets sensor).natAbs < 16 then
      ({ s1 with care := { s1.care with offsets := tset 0 s1.care.offsets sensor offset } } : State).dutyEvent 11
      else { s1 with care := { s1.care with flagCalib := true } }) :=
  congrArg Host.Outcome.next (if_neg (by simp [hon, hs]))

end

/-- Settles O43, one calibration at a time. -/
theorem caretakerCalibrates : Obligations.CaretakerCalibrates := by
  unfold Obligations.CaretakerCalibrates
  intro s h pc l lane cart bias sensor offset hon
  refine ⟨fun hfree hdue => ?hbm, fun hin => ?optics, fun hin => ?laser, fun hs => ⟨fun hnear => ?near, fun hfar => ?far⟩,
    fun hready => congrArg Host.Outcome.next (if_pos hready)⟩
  case hbm =>
    have hexec := exec_hbmInterfaceRetraining_of_due hon hfree hdue pc
    refine ⟨s.retrained h, hexec true, hexec false, ?_, ?_, ?_⟩
    · rw [State.retrained_stack]
    · rw [State.retrained_stack]
    · exact congrArg Duty.lastDone (State.modDuty_duty_self ..)
  case optics =>
    have hexec := exec_opticalRecalibration_of_in hon hin lane
    have hfalse := (hexec false).trans (congrArg Host.Outcome.next (if_neg Bool.false_ne_true))
    exact ⟨hexec true, fun hn => hfalse.trans (congrArg Host.Outcome.next (if_pos (Nat.succ_lt_succ hn))),
      fun hn => hfalse.trans (congrArg Host.Outcome.next (if_neg (Nat.not_lt.mpr (Nat.succ_le_succ hn))))⟩
  case laser =>
    exact ⟨s.biasRead cart bias, exec_laserAgeing_of_in hon hin bias, tget_tset_self .., tget_tset_self ..⟩
  case near =>
    refine ⟨_, (exec_thermalSensorCalibration_of_sensor hon hs offset).trans (congrArg Host.Outcome.next (if_pos hnear)), ?_, fun k hk => ?_⟩
    · exact tget_tset_self ..
    · exact tget_tset_ne _ _ _ _ _ hk
  case far =>
    exact ⟨_, (exec_thermalSensorCalibration_of_sensor hon hs offset).trans (congrArg Host.Outcome.next (if_neg (by omega))), rfl, rfl⟩

end Sys2Proof.Machine
end

section
/-! PROOFS. Start-up and the power pins (R397, R398, R433 to R448; log entries 37 and 50). -/

namespace Sys2Proof.Machine

open Sys2Proof

/-! ### What folds over units leave and establish -/

/-- What one member of a list establishes, and the others keep, holds in the end; each of them starts from a state that meets `Q`. -/
theorem foldl_establishes {α : Type} {g : State → α → State} {P Q : State → Prop} {x : α} (hset : ∀ s, Q s → P (g s x)) (hkeep : ∀ s a, P s → P (g s a))
    (hinv : ∀ s a, Q s → Q (g s a)) {l : List α} (hx : x ∈ l) {s : State} (hs : Q s) : P (l.foldl g s) := by
  obtain ⟨l1, l2, rfl⟩ := List.mem_iff_append.mp hx
  rw [List.foldl_append, List.foldl_cons]
  exact foldl_keeps hkeep l2 _ (hset _ (foldl_keeps hinv l1 s hs))

/-- From `s` to `t` nothing but the ports has changed. -/
def State.PortsOnly (s t : State) : Prop := t = { s with ports := t.ports }

theorem State.PortsOnly.sec {s t : State} (h : State.PortsOnly s t) : t.sec = s.sec := by
  unfold State.PortsOnly at h
  rw [h]

theorem State.PortsOnly.setPort {s t : State} (h : State.PortsOnly s t) (k : Nat) (v : Port) : State.PortsOnly s (t.setPort k v) := by
  unfold State.PortsOnly at h ⊢
  rw [h]
  rfl

/-! ### Power through the shared operations (R434, R439, R442) -/

section
variable (s : State)

theorem State.EventsOnly.power {s t : State} (h : State.EventsOnly s t) : t.power = s.power := by
  unfold State.EventsOnly at h
  rw [h]

theorem power_ite {c : Prop} [Decidable c] {a b : State} {w : Power} (ha : a.power = w) (hb : b.power = w) : (if c then a else b).power = w := by
  split <;> assumption

/-- A fold of operations that leave power leaves it. -/
theorem foldl_power {α : Type} {g : State → α → State} (h : ∀ s a, (g s a).power = s.power) (l : List α) : (l.foldl g s).power = s.power :=
  foldl_keeps (P := fun u : State => u.power = s.power) (fun u a hu => (h u a).trans hu) l s rfl

theorem State.clearShadows_power (p : Nat) : (s.clearShadows p).power = s.power := by
  unfold State.clearShadows
  refine (foldl_power _ (fun u k => ?_) _).trans (foldl_power _ (fun u l => ?_) _)
  · rfl
  · exact power_ite rfl rfl

theorem State.rollbackPage_power (p pg : Nat) : (s.rollbackPage p pg).power = s.power := by
  unfold State.rollbackPage
  dsimp only
  split
  · rfl
  · refine (State.setPart_power ..).trans (power_ite ?_ ((State.setPage_pagesOnly p _ pg _).power.trans (State.freeFrame_pagesOnly p _ _ _).power))
    refine (State.setPage_pagesOnly p _ pg _).power.trans (power_ite ?_ ((State.setPart_power ..).trans ?_)) <;>
      exact (State.freeFrame_pagesOnly p _ _ _).power

theorem State.rollback_power (p : Nat) : (s.rollback p).power = s.power := foldl_power _ (fun u pg => u.rollbackPage_power p pg) _

theorem State.dropCoreDrafts_power (p : Nat) : (s.dropCoreDrafts p).power = s.power := by
  unfold State.dropCoreDrafts
  refine foldl_power _ (fun u c => ?_) _
  exact power_ite rfl rfl

theorem State.finish_power (r t : Nat) (a : Answer) : (s.finish r t a).power = s.power := by
  unfold State.finish
  split <;> rfl

theorem State.tellEnd_power (p status : Nat) : (s.tellEnd p status).power = s.power :=
  (State.event_eventsOnly ..).power.trans (s.finish_power ..)

theorem State.endStep_power (p status : Nat) : (s.endStep p status).power = s.power := by
  unfold State.endStep
  dsimp only
  split
  · rfl
  · refine (State.tellEnd_power ..).trans ?_
    show (((s.clearShadows p).rollback p).dropCoreDrafts p |>.sendOverflow p).power = s.power
    rw [(State.sendOverflow_pagesOnly ..).power, State.dropCoreDrafts_power, State.rollback_power, State.clearShadows_power]

theorem State.endCommands_power (status : Nat) : (s.endCommands status).power = s.power :=
  foldl_power _ (fun u _ => foldl_power u (fun v _ => v.finish_power ..) _) _

/-- The main rails going off, of what power holds, turn off the regulators and compute-ready alone. -/
theorem State.mainOff_power : s.mainOff.power = { s.power with mainOn := false, computeReady := false } := by
  show { ((s.partList.foldl (fun s p => s.endStep p stHwFault) s).endCommands stHwFault).power with mainOn := false, computeReady := false } = _
  rw [State.endCommands_power, foldl_power _ (fun u p => u.endStep_power p stHwFault)]

theorem State.settleSeat_power : s.settleSeat.power = { s.power with seatOut := s.power.phase == .run && s.power.pastStep4 } := by
  unfold State.settleSeat
  dsimp only
  split
  · rename_i h
    rw [← eq_of_beq h]
  · rfl

theorem State.settleSeat_cores : s.settleSeat.cores = s.cores := by
  unfold State.settleSeat
  dsimp only
  split <;> rfl

theorem State.logStart_power : s.logStart.power = s.power := by
  unfold State.logStart
  dsimp only
  split <;> split <;> rfl

end

/-! ### Steps of start-up (R397, R447) -/

section
variable {s : State} {k : Nat}

theorem not_atStep_guard (h : s.atStep k = true) : ¬ (!s.atStep k) = true := by simp [h]

theorem exec_bootRomCheck_of_noSeed (h : s.atStep 3 = true) : exec (.bootRomCheck false) s = .next (s.enterFault 0x61) :=
  congrArg Host.Outcome.next ((if_neg (not_atStep_guard h)).trans (if_pos rfl))

/-- With a good seed the banks decide. -/
theorem exec_bootRomCheck_of_seed (h : s.atStep 3 = true) : exec (.bootRomCheck true) s = .next (
    if (s.sec.bankFails s.runningBank).isNone then s.toStep 4
    else if (s.sec.bankFails s.sec.otherBank).isNone then ({ s with sec := { s.sec with bank := 1 - s.sec.bank, fallback := true } } : State).toStep 4
    else { s.enterFault 0x61 with sec := { (s.enterFault 0x61).sec with recovery := true } }) :=
  congrArg Host.Outcome.next ((if_neg (not_atStep_guard h)).trans (if_neg Bool.false_ne_true))

/-- The first start of firmware passes the guard of the repair records. -/
theorem not_repairRecord_guard (h : s.atStep 4 = true) (hready : s.power.fwReady = false) (hcause : s.power.restartCause = 0) :
    ¬ (!s.atStep 4 || s.power.fwReady || s.power.restartCause != 0) = true := by simp [h, hready, hcause]

/-- Firmware that starts: its start counted and logged. -/
def State.fwStarted (s : State) : State :=
  ({ s with sec := { s.sec with boots := (s.sec.boots + 1) % 2 ^ 32 }, power := { s.power with fwReady := true } } : State).logStart

theorem exec_repairRecordCheck_of_good (h : s.atStep 4 = true) (hready : s.power.fwReady = false) (hcause : s.power.restartCause = 0) :
    exec (.repairRecordCheck true) s = .next ((s.fwStarted.toStep (if s.power.pwrEn then 5 else 4)).settleRings) := by
  have hpower : s.fwStarted.power = { s.power with fwReady := true } := State.logStart_power _
  show execRepairRecordCheck true s = _
  rw [execRepairRecordCheck, if_neg (not_repairRecord_guard h hready hcause), if_neg (by decide)]
  show Host.Outcome.next ((s.fwStarted.toStep (if s.fwStarted.power.pwrEn then 5 else 4)).settleRings) = _
  rw [hpower]

/-! ### HBM trained (R403, R447) -/

/-- Fresh memory keys of a partition at generation 0. -/
def State.freshKeys (s : State) (p : Nat) : State :=
  (s.modPart p fun part => { part with memKeys := true, keyGen := 0, prevHeld := false, prevKeys := {} }).drawKeys p []

/-- A partition's keys are fresh, at generation 0, with none held from before. -/
def Part.KeysFresh (part : Part) : Prop := part.memKeys = true ∧ part.keyGen = 0 ∧ part.prevHeld = false

/-- Keys drawn for a partition are all of it that changes. -/
theorem State.drawKeys_part_self (s : State) (p : Nat) (mix : List Byte) : ∃ keys, (s.drawKeys p mix).part p = { s.part p with keys := keys } :=
  ⟨_, State.setPart_part_self ..⟩

theorem State.freshKeys_self (s : State) (p : Nat) : ((s.freshKeys p).part p).KeysFresh := by
  obtain ⟨keys, hkeys⟩ :=
    (s.modPart p fun part => { part with memKeys := true, keyGen := 0, prevHeld := false, prevKeys := {} }).drawKeys_part_self p []
  rw [State.freshKeys, hkeys, State.modPart_eq, State.setPart_part_self]
  exact ⟨rfl, rfl, rfl⟩

theorem State.freshKeys_ne (s : State) {p q : Nat} (h : q ≠ p) : (s.freshKeys p).part q = s.part q :=
  (State.setPart_part_ne _ _ _ _ h).trans (State.setPart_part_ne _ _ _ _ h)

/-- Keys drawn for the partitions of a list leave each of them with fresh keys. -/
theorem State.freshKeys_foldl {l : List Nat} {p : Nat} (hp : p ∈ l) (s : State) : ((l.foldl State.freshKeys s).part p).KeysFresh := by
  refine foldl_establishes (P := fun u : State => (u.part p).KeysFresh) (Q := fun _ => True) (fun u _ => u.freshKeys_self p) (fun u q hu => ?_)
    (fun _ _ => id) hp trivial
  by_cases hq : p = q
  · exact hq ▸ u.freshKeys_self p
  · rw [u.freshKeys_ne hq]
    exact hu

theorem State.freshKeys_eq (s : State) (p : Nat) : ∃ parts, s.freshKeys p = { s with parts := parts, fresh := s.fresh + 3 } := ⟨_, rfl⟩

/-- Nothing but partitions and the count of draws changes, three draws for each. -/
theorem State.freshKeys_foldl_rest (l : List Nat) (s : State) :
    l.foldl State.freshKeys s = { s with parts := (l.foldl State.freshKeys s).parts, fresh := s.fresh + 3 * l.length } := by
  have hrest : ∃ parts, l.foldl State.freshKeys s = { s with parts := parts, fresh := s.fresh + 3 * l.length } := by
    induction l generalizing s with
    | nil => exact ⟨_, rfl⟩
    | cons p l ih =>
      obtain ⟨parts, hp⟩ := s.freshKeys_eq p
      obtain ⟨parts', hl⟩ := ih (s.freshKeys p)
      refine ⟨parts', ?_⟩
      rw [List.foldl_cons, hl, hp, List.length_cons, Nat.mul_succ, Nat.add_comm (3 * l.length), Nat.add_assoc]
  obtain ⟨parts, h⟩ := hrest
  rw [h]

/-! ### Optics calibrated (R398, R447) -/

/-- A port with a cartridge in place that calibrated may train. -/
def State.calibrate (failed : List Nat) (s : State) (l : Nat) : State :=
  if s.power.cartsOut.contains (l / 4) || failed.contains l then s else s.modPort l fun x => { x with cal := true }

theorem State.calibrate_portsOnly (s : State) (failed l : List Nat) : State.PortsOnly s (l.foldl (State.calibrate failed) s) :=
  foldl_keeps (P := State.PortsOnly s) (fun u k hu => by
    unfold State.calibrate
    split
    · exact hu
    · exact hu.setPort ..) l s rfl

theorem State.calibrate_cal {failed l : List Nat} {k : Nat} (hk : k ∈ l) {s : State} (hin : k / 4 ∉ s.power.cartsOut) (hgood : k ∉ failed) :
    ((l.foldl (State.calibrate failed) s).port k).cal = true := by
  refine foldl_establishes (P := fun u : State => (u.port k).cal = true) (Q := fun u => u.power = s.power) (fun u hu => ?_) (fun u j hu => ?_)
    (fun u j hu => ?_) hk rfl
  · rw [State.calibrate, hu, if_neg (by simp [hin, hgood])]
    exact congrArg Port.cal (State.setPort_port_self ..)
  · unfold State.calibrate
    split
    · exact hu
    · by_cases hj : k = j
      · exact hj ▸ congrArg Port.cal (State.setPort_port_self ..)
      · exact (congrArg Port.cal (State.setPort_port_ne _ _ _ _ hj)).trans hu
  · unfold State.calibrate
    split <;> exact hu

/-- Compute-ready reached: SVN_MIN and the revocations raised to what the running firmware asks for. -/
def State.floorsRaised (s : State) : State :=
  { s with sec := s.sec.ready s.runningBank, power := { s.power with computeReady := true } }

theorem State.floorsRaised_port (s : State) (l : Nat) : s.floorsRaised.port l = s.port l := rfl

theorem exec_opticalCalibrationDone_of_due (h : s.atStep 8 = true) (failed : List Nat) : exec (.opticalCalibrationDone failed) s =
    .next ((((upFrom 0 64).foldl (State.calibrate failed) s).floorsRaised.toStep 9).settleRings) := by
  have hready : ∀ u : State, ({ u with sec := u.sec.ready u.runningBank, power := { u.power with computeReady := true } } : State) = u.floorsRaised :=
    fun _ => rfl
  show execOpticalCalibrationDone failed s = _
  rw [execOpticalCalibrationDone, if_neg (not_atStep_guard h)]
  exact congrArg (fun u : State => Host.Outcome.next ((u.toStep 9).settleRings)) (hready _)

/-- The floors are raised from those before the calibration. -/
theorem State.floorsRaised_sec {s t : State} (h : State.PortsOnly s t) : t.floorsRaised.sec = s.sec.ready s.runningBank := by
  unfold State.floorsRaised State.runningBank
  rw [h.sec]

end

/-- Settles O57, one step of start-up at a time. -/
theorem startUpGoesStepByStep : Obligations.StartUpGoesStepByStep := by
  unfold Obligations.StartUpGoesStepByStep
  intro s
  refine ⟨fun mv hstrap => ?straps, fun h => ⟨exec_bootRomCheck_of_noSeed h, fun hbank => ?bank, fun hbank hother => ?fallback, fun hbank hother => ?recovery⟩,
    fun h hready hcause => ⟨?records, s.fwStarted, exec_repairRecordCheck_of_good h hready hcause, ?boots, ?ready⟩,
    fun h => ⟨?regulatorsFail, ?regulators⟩, fun failed h => ?hbm, fun fails attn cache h => ?selfTest, fun failed h => ?optics⟩
  case straps => exact ⟨_, congrArg Host.Outcome.next (if_neg (by simp [hstrap])), rfl, rfl, rfl, rfl, rfl, rfl⟩
  case bank => exact (exec_bootRomCheck_of_seed h).trans (congrArg _ (if_pos (by simp [hbank])))
  case fallback =>
    exact (exec_bootRomCheck_of_seed h).trans (congrArg _ ((if_neg (by simpa using hbank)).trans (if_pos (by simp [hother]))))
  case recovery =>
    exact (exec_bootRomCheck_of_seed h).trans (congrArg _ ((if_neg (by simpa using hbank)).trans (if_neg (by simpa using hother))))
  case records => exact congrArg Host.Outcome.next ((if_neg (not_repairRecord_guard h hready hcause)).trans (if_pos rfl))
  case boots => exact congrArg Ctl.boots (State.logStart_ctl _)
  case ready => exact congrArg Power.fwReady (State.logStart_power _)
  case regulatorsFail => exact congrArg Host.Outcome.next ((if_neg (not_atStep_guard h)).trans (if_pos rfl))
  case regulators => exact congrArg Host.Outcome.next ((if_neg (not_atStep_guard h)).trans (if_neg Bool.false_ne_true))
  case hbm =>
    intro s1 s2
    refine ⟨s2.partList.foldl State.freshKeys s2, ?_, State.freshKeys_foldl_rest .., fun p hp => State.freshKeys_foldl hp s2⟩
    show execHbmTrainingDone failed s = _
    rw [execHbmTrainingDone, if_neg (not_atStep_guard h)]
    rfl
  case selfTest => exact congrArg Host.Outcome.next (if_neg (not_atStep_guard h))
  case optics =>
    refine ⟨_, exec_opticalCalibrationDone_of_due h failed, rfl, State.floorsRaised_sec (s.calibrate_portsOnly ..), fun l hl hin hgood => ?_⟩
    rw [State.floorsRaised_port]
    exact State.calibrate_cal (mem_upFrom.mpr ⟨Nat.zero_le l, by omega⟩) hin hgood

/-! ### Pins (R433, R434, R440, R442, R443, R445) -/

section
variable {s : State}

/-- AON.SIDE shows SEAT_IN in bit 21. -/
theorem Power.sideWord_seatIn (w : Power) : bit w.sideWord 21 = w.seatIn := by
  have hstraps := w.straps.isLt
  have h1 := w.strapValid.toNat_le
  have h2 := w.pwrEn.toNat_le
  have h3 := w.perst.toNat_le
  have h4 := w.seatIn.toNat_le
  have hbit : w.sideWord / 2 ^ 21 % 2 = w.seatIn.toNat := by
    unfold Power.sideWord
    omega
  rw [bit, hbit]
  cases w.seatIn <;> rfl

/-- The calibration of a port gone with its cartridge. -/
def State.uncalibrate (s : State) (l : Nat) : State := if (s.port l).cal then s.modPort l fun x => { x with cal := false } else s

theorem State.uncalibrate_self (s : State) (l : Nat) : ((s.uncalibrate l).port l).cal = false := by
  unfold State.uncalibrate
  split
  · exact congrArg Port.cal (State.setPort_port_self ..)
  · rename_i h
    simpa using h

theorem State.uncalibrate_ne (s : State) {k l : Nat} (h : k ≠ l) : (s.uncalibrate l).port k = s.port k := by
  unfold State.uncalibrate
  split
  · exact State.setPort_port_ne _ _ _ _ h
  · rfl

/-- Of the ports of a list each is left without calibration, and no other port changes. -/
theorem State.uncalibrate_foldl (s : State) (l : List Nat) :
    (∀ k ∈ l, ((l.foldl State.uncalibrate s).port k).cal = false) ∧ (∀ k, k ∉ l → (l.foldl State.uncalibrate s).port k = s.port k) ∧
      State.PortsOnly s (l.foldl State.uncalibrate s) := by
  refine ⟨fun k hk => ?_, fun k hk => ?_, ?_⟩
  · refine foldl_establishes (P := fun u : State => (u.port k).cal = false) (Q := fun _ => True) (fun u _ => u.uncalibrate_self k) (fun u j hu => ?_)
      (fun _ _ => id) hk trivial
    by_cases hj : k = j
    · exact hj ▸ u.uncalibrate_self k
    · rw [u.uncalibrate_ne hj]
      exact hu
  · induction l generalizing s with
    | nil => rfl
    | cons j l ih =>
      simp only [List.mem_cons, not_or] at hk
      exact (ih _ hk.2).trans (s.uncalibrate_ne hk.1)
  · refine foldl_keeps (P := State.PortsOnly s) (fun u j hu => ?_) l s rfl
    unfold State.uncalibrate
    split
    · exact hu.setPort ..
    · exact hu

theorem mem_cartridge_ports {l cart : Nat} : l ∈ upFrom (4 * cart) 4 ↔ l / 4 = cart := by
  rw [mem_upFrom]
  omega

/-- PWR_EN high past step 4: start-up goes on. -/
theorem exec_pwrEnRise_of_ready (hrun : s.power.phase = .run) (hstage : s.power.stage = 4) (hpast : s.power.pastStep4 = true) :
    exec .pwrEnRise s = .next (({ s with power := { s.power with pwrEn := true } } : State).toStep 5) := by
  have hguard : (s.atStep 4 && s.power.pastStep4) = true := by simp [State.atStep, hrun, hstage, hpast]
  exact congrArg Host.Outcome.next (if_pos hguard)

/-- PWR_EN low, before SEAT_OUT is settled: the main rails off, and step 4. -/
def State.pwrEnDown (s : State) : State :=
  let s := ({ s with power := { s.power with pwrEn := false } } : State).mainOff
  { s with power := { s.power with stage := 4 } }

theorem State.pwrEnDown_power (s : State) :
    s.pwrEnDown.power = { s.power with pwrEn := false, mainOn := false, computeReady := false, stage := 4 } := by
  unfold State.pwrEnDown
  dsimp only
  rw [State.mainOff_power]

theorem exec_pwrEnFall_of_past (hrun : s.power.phase = .run) (hstage : 5 ≤ s.power.stage) : exec .pwrEnFall s = .next s.pwrEnDown.settleSeat := by
  have hguard : (s.power.phase == .run && decide (5 ≤ s.power.stage)) = true := by simp [hrun, hstage]
  exact congrArg Host.Outcome.next (if_pos hguard)

end

/-- Settles O56, one pin at a time. -/
theorem powerPinsAct : Obligations.PowerPinsAct := by
  unfold Obligations.PowerPinsAct
  intro s
  have hphase : s.powerLoss.power.phase = .off := congrArg Ctl.phase s.powerLoss_ctl
  have hmain : s.powerLoss.power.mainOn = false := congrArg Ctl.mainOn s.powerLoss_ctl
  have hsvn : s.powerLoss.sec.svnMin = s.sec.svnMin := congrArg Ctl.svnMin s.powerLoss_ctl
  have hcreds : s.powerLoss.sec.creds = s.sec.creds := congrArg Ctl.creds s.powerLoss_ctl
  refine ⟨fun second hin hemerg => ?good, fun hin hemerg => ?latched, fun hin => ?loss, fun hin hvolt => ?volt, fun hvolt hemerg => ?clear,
    fun hin hemerg => ?emerg, rfl, ⟨_, rfl, rfl, rfl, rfl⟩, fun level f => ⟨_, rfl, rfl, Power.sideWord_seatIn _⟩, fun cart hcart => ?open_,
    fun cart => rfl, fun hrun hstage hpast => ?rise, fun hrun hstage => ?fall⟩
  case good =>
    have hgo : ¬ (s.power.emergOff && !second) = true := by obtain h | h := hemerg <;> simp [h]
    exact ⟨s.beginStart s.power.senseNow s.power.emergOff, congrArg Host.Outcome.next ((if_neg (by simp [hin])).trans (if_neg hgo)),
      rfl, rfl, rfl, rfl, rfl, rfl, hmain, hsvn, hcreds⟩
  case latched => exact congrArg Host.Outcome.next ((if_neg (by simp [hin])).trans (if_pos (by simp [hemerg])))
  case loss => exact ⟨_, congrArg Host.Outcome.next (if_neg (by simp [hin])), rfl, hphase, hmain, rfl, hsvn⟩
  case volt => exact ⟨_, congrArg Host.Outcome.next (if_neg (by simp [hin, hvolt])), rfl, hphase, rfl⟩
  case clear =>
    exact ⟨s.beginStart false false, congrArg Host.Outcome.next ((if_neg (by simp [hvolt])).trans (if_neg (by simp [hemerg]))), rfl, rfl, rfl, rfl⟩
  case emerg => exact ⟨_, congrArg Host.Outcome.next (if_neg (by simp [hin, hemerg])), rfl, rfl, hphase, rfl⟩
  case open_ =>
    intro dark
    obtain ⟨hout, hothers, hrest⟩ := dark.uncalibrate_foldl (upFrom (4 * cart) 4)
    exact ⟨_, congrArg Host.Outcome.next (if_neg (by omega)), fun l hl => hout l (mem_cartridge_ports.mpr hl),
      fun l hl => hothers l (fun hmem => hl (mem_cartridge_ports.mp hmem)), hrest⟩
  case rise =>
    refine ⟨_, exec_pwrEnRise_of_ready hrun hstage hpast, ?_⟩
    rw [State.toStep, State.settleSeat_power]
    exact ⟨rfl, rfl⟩
  case fall =>
    refine ⟨_, exec_pwrEnFall_of_past hrun hstage, ?_⟩
    rw [State.settleSeat_power, State.settleSeat_cores, State.pwrEnDown_power]
    exact ⟨rfl, rfl, rfl, rfl, rfl⟩

end Sys2Proof.Machine
end
